-- ==== Sys2Proof/Word.lean ====
section
/-! DEFINITION. Words and bytes, and the two containers of the model's plain data: a table of like things by
index with a default for what is not listed, and memory as address and byte pairs in one canonical form. -/

namespace Sys2Proof

abbrev Byte := BitVec 8
abbrev U16 := BitVec 16
abbrev U32 := BitVec 32
abbrev U64 := BitVec 64
/-- A binary32 value, held as its bits (03 R56, 06 Table 6.8). -/
abbrev F32 := BitVec 32

/-- The two lanes of the module (01, Lanes; 00 Table 0.7). -/
inductive LaneId where
  | A | B
deriving DecidableEq, Repr

/-- A fixed number of like things held by index. Keys rise strictly, and no entry equals the default, so that
equal tables are equal lists; what is not listed is the default the reader names. -/
abbrev Tab (α : Type) := List (Nat × α)

/-- Memory: bytes by address in the canonical form of a table whose unlisted byte is 0 (01 R24: every lane memory is
wiped to zero; for host memory see the assumption log). -/
abbrev Mem := Tab Byte

end Sys2Proof
end

