-- ==== Sys2Proof/Machine/Tables.lean ====
section
/-! DEFINITION. Reading and writing of tables and memory in their canonical form. -/

namespace Sys2Proof

/-- The lane that is not `l`. -/
def LaneId.other : LaneId → LaneId
  | .A => .B
  | .B => .A

/-- The entry at `i`, or `d` where none is listed. -/
def Tab.get {α : Type} (d : α) : Tab α → Nat → α
  | [], _ => d
  | (k, v) :: t, i => if k = i then v else Tab.get d t i

/-- Removes whatever is listed at `i`. -/
def Tab.erase {α : Type} : Tab α → Nat → Tab α
  | [], _ => []
  | (k, v) :: t, i => if k = i then Tab.erase t i else (k, v) :: Tab.erase t i

/-- Lists `v` at `i`, in key order, above a table that does not list `i`. -/
def Tab.insert {α : Type} : Tab α → Nat → α → Tab α
  | [], i, v => [(i, v)]
  | (k, w) :: t, i, v => if i < k then (i, v) :: (k, w) :: t else (k, w) :: Tab.insert t i v

/-- Writes `v` at `i`; writing the default removes the entry. -/
def Tab.set {α : Type} [DecidableEq α] (d : α) (t : Tab α) (i : Nat) (v : α) : Tab α :=
  if v = d then Tab.erase t i else Tab.insert (Tab.erase t i) i v

/-- Changes the entry at `i` by `f`. -/
def Tab.modify {α : Type} [DecidableEq α] (d : α) (t : Tab α) (i : Nat) (f : α → α) : Tab α :=
  Tab.set d t i (f (Tab.get d t i))

/-- The keys listed, in rising order. -/
def Tab.keys {α : Type} (t : Tab α) : List Nat := t.map Prod.fst

/-- The canonical form: keys rise strictly and no entry is the default. -/
def Tab.wf {α : Type} [DecidableEq α] (d : α) (t : Tab α) : Bool :=
  decide ((Tab.keys t).Pairwise (· < ·)) && t.all (fun e => decide (e.2 ≠ d))

/-- The byte at address `a`. -/
def Mem.read (m : Mem) (a : Nat) : Byte := Tab.get 0 m a

/-- Stores one byte; storing 0 removes the entry. -/
def Mem.write (m : Mem) (a : Nat) (b : Byte) : Mem := Tab.set 0 m a b

/-- The canonical form of memory. -/
def Mem.wf (m : Mem) : Bool := Tab.wf 0 m

/-- `n` bytes from address `a` up. -/
def Mem.readBytes (m : Mem) (a : Nat) : Nat → List Byte
  | 0 => []
  | n + 1 => m.read a :: Mem.readBytes m (a + 1) n

/-- Memory whose bytes from `a` up are the given ones and all others 0. -/
def Mem.ofBytes (a : Nat) : List Byte → Mem
  | [] => []
  | b :: bs => if b = 0 then Mem.ofBytes (a + 1) bs else (a, b) :: Mem.ofBytes (a + 1) bs

/-- Stores a list of bytes from address `a` up. -/
def Mem.writeBytes (m : Mem) (a : Nat) : List Byte → Mem
  | [] => m
  | b :: bs => Mem.writeBytes (m.write a b) (a + 1) bs

end Sys2Proof
end

