-- ==== Sys2Proof/Machine/Types/Tick.lean ====
section
/-! DEFINITION. Types of the tick: input frame (02 Tables 2.1, 2.2), held model results (R43-R45, R530, R531), the TICK
register block (Table 2.7) and published snapshots (R50, R51). A field's default is its value at reset; an epoch or
due epoch is a Nat, written to the 64-bit fields as its low 64 bits (R35: it never wraps or repeats in service). -/

namespace Sys2Proof.Machine

/-- A chip record as a tray sends it (09 Table 9.4); the default is that of a DISABLED tray (Table 9.8). -/
structure ChipRec where
  power : U16 := 0xFFFF
  hotSpot : U16 := 0x8000
  hotSpotAux : U16 := 0x8000
  die : U16 := 0x8000
  pace : U32 := 0
  pMin : U16 := 0xFFFF
  status : U16 := 4
deriving DecidableEq, Repr

/-- Analog element (13 Table 13.2). -/
structure AnalogEl where
  value : U16 := 0xFFFF
  status : U16 := 0
deriving DecidableEq, Repr

/-- Leak element (13 Table 13.7). -/
structure LeakEl where
  state : Byte := 0
  flags : Byte := 0
  location : U16 := 0xFFFF
  conductance : U16 := 0xFFFF
  loopOhm : U16 := 0xFFFF
deriving DecidableEq, Repr

/-- Pulse element (13 Table 13.9). -/
structure PulseEl where
  freq : U32 := 0xFFFFFFFF
  edges : U16 := 0
  status : U16 := 0
deriving DecidableEq, Repr

/-- Motor estimate element (11 Table 11.3). -/
structure MotorEl where
  speed : U16 := 0
  tach : U16 := 0xFFFF
  iqApplied : F32 := 0
  vbus : U16 := 0
  status : U16 := 0
deriving DecidableEq, Repr

/-- Bus-node element (14 Table 14.4); the default is that of an OFF entry, STALE set. -/
structure BusEl where
  value : U32 := 0xFFFFFFFF
  age : U16 := 0xFFFF
  status : U16 := 2
deriving DecidableEq, Repr

/-- An input frame (02 Tables 2.1, 2.2) by its sections; `Frame.bytes` lays it out. -/
structure Frame where
  epoch : Nat := 0
  t0Time : U64 := 0xFFFFFFFFFFFFFFFF
  flags : U32 := 0
  discretesIn : U32 := 0
  discretesOut : U32 := 0
  lastAppliedDue : Option Nat := none
  resultsDiscarded : Nat := 0
  analog : Tab AnalogEl := []
  leak : Tab LeakEl := []
  pulse : Tab PulseEl := []
  motor : Tab MotorEl := []
  bus : Tab BusEl := []
  trayAge : Tab Byte := []
  chips : Tab ChipRec := []
deriving DecidableEq, Repr

/-- What a model result is for: a set-point, a feed-forward, or the governor's cap set (02 R43, R530). -/
inductive ResultKind where
  | loopSp | loopFf | capSet
deriving DecidableEq, Repr

/-- A released or held cap and floor of one chip slot, units of 0.05 W (08 R205). -/
structure CapFloor where
  cap : Nat := 0xFFFF
  floor : Nat := 0
deriving DecidableEq, Repr

/-- The value a result carries. -/
inductive ResultVal where
  | word (w : F32)
  | caps (t : Tab CapFloor)
deriving DecidableEq, Repr

/-- A model result in the Hall of Mirrors (02 R43-R45): which copies have been delivered. -/
structure HeldResult where
  kind : ResultKind
  target : Nat
  source : Nat
  due : Nat
  copyA : Option ResultVal := none
  copyB : Option ResultVal := none
deriving DecidableEq, Repr

/-- The views of one settled epoch (02 R50): the VIEW region's bytes, and the records of that epoch that no view holds. -/
structure Snapshot where
  epoch : Option Nat := none
  view : Mem := []
  model : List Byte := []
  rainflow : Mem := []
  sourceEpoch : Option Nat := none
deriving DecidableEq, Repr

/-- Tick generation, accounting and the TICK block (02). `closing` holds the views of a settled tick from its end to their publication
(R50). -/
structure TickSt where
  epoch : Nat := 1
  t0Time : U64 := 0xFFFFFFFFFFFFFFFF
  timeValid : Bool := false
  timeSeen : Bool := false
  locked : Bool := false
  holdover : Bool := false
  slewing : Bool := false
  phaseErr : Int := 0
  tickNs : Nat := 100000
  staleLimit : Nat := 3
  viewHoldLimit : Nat := 100
  hold : Bool := false
  holdExpired : Bool := false
  holdTicks : Nat := 0
  settled : Snapshot := {}
  shown : Snapshot := {}
  closing : Option Snapshot := none
  loopRelLast : Nat := 0
  loopRelCur : Nat := 0
  loopRelMax : Nat := 0
  modelRelLast : Nat := 0
  modelRelCur : Nat := 0
  cntLate : Nat := 0
  cntStale : Nat := 0
  cntSuperseded : Nat := 0
  cntOverrun : Nat := 0
  cntAbort : Nat := 0
  cntMissA : Nat := 0
  cntMissB : Nat := 0
  event : U32 := 0
  frame : Frame := {}
  held : List HeldResult := []
  lastReleased : List (ResultKind × Nat × Nat) := []
  lastAppliedDue : Option Nat := none
  discarded : Nat := 0
  unsettled : Bool := false
  windowOpen : Bool := false
  capReleased : Bool := false
  done : List (ResultKind × Nat × Nat) := []
deriving DecidableEq, Repr

end Sys2Proof.Machine
end

