-- ==== Sys2Proof/Machine/Types/Field.lean ====
section
/-! DEFINITION. Types of the field side: tray link (09), coolant network (10), motors (11), valves (12), sensing (13),
fieldbus (14). A field's default is its value at module reset. -/

namespace Sys2Proof.Machine

/-- A tray record (Table 9.1). -/
structure TrayRec where
  rack : Nat := 0
  pair : Nat := 0
  firstSlot : Nat := 0
  count : Nat := 0
  enable : Bool := false
  mac : List Byte := []
  ipv6 : List Byte := []
deriving DecidableEq, Repr

/-- Tray state (Table 9.8). -/
inductive TrayState where
  | disabled | live | missing | resync | lost
deriving DecidableEq, Repr

/-- The Ringmaster's state of one tray (09 R249-R257, Table 9.9): `age` counts frames since telemetry was latched, `seqs` are the
sequence numbers accepted of this incarnation, `latched` holds
the records last latched and `newLatch` what the present window has. -/
structure Tray where
  state : TrayState := .disabled
  age : Nat := 0
  incarnation : Option U32 := none
  seqs : List U32 := []
  replyEpoch : Option Nat := none
  halted : Bool := false
  flags : Nat := 0
  planeA : Option Nat := none
  planeB : Option Nat := none
  discards : Nat := 0
  discardsLogged : Nat := 0
  discardPeriod : Option Nat := none
  latched : List ChipRec := []
  newLatch : Option (U32 × List ChipRec) := none
  changed : Bool := false
deriving DecidableEq, Repr

/-- One Ethernet port (Table 9.10). -/
structure Port where
  up : Bool := false
  ptp : Nat := 0
  rxFrames : Nat := 0
  txFrames : Nat := 0
  rxDiscarded : Nat := 0
  linkDowns : Nat := 0
  fecCorrected : Nat := 0
  fecUncorrected : Nat := 0
  syncMisses : Nat := 3
deriving DecidableEq, Repr

/-- A frame sent to a tray (Tables 9.2, 9.3; R245): type, flags, incarnation, seq, epoch and entries. -/
structure DownFrame where
  tray : Nat
  ty : Nat
  flags : Nat
  incarnation : U32
  seq : U32
  time : U64
  epoch : Nat
  reason : Nat
  entries : List (Nat × Nat)
deriving DecidableEq, Repr

/-- Tray link and hard-wired lines. `sent` holds the newest downward frame of each tray; `causes` of COOL_FAULT_N[k]:
bit 0 flow loss line, 1 group flow stop, 2 rack flow stop, 3 ISOLATED, 4 unpowered start (21 R514), 5 power-fail; `causeEnd` is
the tick in which the last cause of rack k ended (R256). From power-on
every COOL_FAULT_N is asserted (21 Table 21.5). -/
structure TraySt where
  trays : Tab Tray := []
  ports : Tab Port := []
  sent : Tab (Option DownFrame) := []
  seq : Tab U32 := []
  flowLoss : Tab Bool := []
  coolFault : Tab Bool := (List.range 16).map fun k => (k, true)
  causes : Tab Nat := (List.range 16).map fun k => (k, 16)
  causeEnd : Tab Nat := []
  neighbourAnswers : Tab Nat := []
deriving DecidableEq, Repr

/-- A pump group record (Table 10.2). -/
structure PumpGroup where
  lead : Nat := 0
  lag : Option Nat := none
  dpAi : Nat := 0
  flowPi : Nat := 0
  racks : Nat := 0
  speedMax : Nat := 0
  dpCollapse : Nat := 0
  gapUs : Nat := 0
  groupLoop : Nat := 0
  stageUp : Nat := 0
  stageDown : Nat := 0
  stageUpS : Nat := 0
  stageDownS : Nat := 0
  rotateH : Nat := 0
  floorRamp : Nat := 0
  curveA : F32 := 0
  curveB : F32 := 0
deriving DecidableEq, Repr

/-- A rack record (Table 10.3). -/
structure RackRec where
  group : Nat := 0
  vSupply : Nat := 0
  vReturn : Nat := 0
  vBypass : Option Nat := none
  valveSense : Nat := 0
  fans : List Nat := []
  flowSrc : Nat := 0
  flowIdx : Nat := 0
  dpAi : Nat := 0xFF
  tSupAi : Nat := 0
  tRetAi : Nat := 0
  flowMin : Nat := 0
  dpCollapse : Nat := 0
  gapUs : Nat := 0
  leakMask : U64 := 0
deriving DecidableEq, Repr

/-- Heat-exchanger record (Table 10.4) and supervisor parameters (Table 10.5), with their defaults. -/
structure HxSup where
  tAi : List Nat := [0, 0, 0, 0]
  priFlowSrc : Nat := 0
  priFlowIdx : Nat := 0
  spLoop : Nat := 0xFF
  approachWarn : U16 := 0
  supplyHigh : U16 := 0
  dpConfirmUs : Nat := 200
  deficitS : Nat := 10
  driftLimit : Nat := 58982
  driftS : Nat := 600
  warnH : Nat := 72
deriving DecidableEq, Repr

/-- The accepted row topology (R260). -/
structure Topology where
  accepted : Bool := false
  rackEnable : Nat := 0
  groupEnable : Nat := 0
  groups : Tab PumpGroup := []
  racks : Tab RackRec := []
  hx : HxSup := {}
  trays : Tab TrayRec := []
deriving DecidableEq, Repr

/-- Rack state (Table 10.6), coded as RACK_STATE. -/
inductive RackState where
  | run | service | isolated | commission
deriving DecidableEq, Repr

/-- Network state of one rack (Table 10.8): `lowRun` counts evaluations with the flow below flow_min, `bypassDue` is the tick in
which the rack left ISOLATED while its bypass is still to be closed (10 R268). -/
structure RackDyn where
  leakIsolation : Bool := false
  flowStop : Bool := false
  lowRun : Nat := 0
  deficit : Bool := false
  armed : Bool := false
  bypassDue : Option Nat := none
deriving DecidableEq, Repr

/-- Network state of one pump group (Table 10.9). `floor` is in 0.01 rpm; `stopLead` and `stopLagOff` note the roles at a flow
stop's declaration and whether the lag had no permit, `netFailDue` that R273 acts at the next evaluation; `quiet` counts
evaluations without a condition; `speeds` and `flows` are the samples of the last drift_s, newest first; `upRun` and `downRun`
count evaluations with the lead at or above stage_up and both pumps at or below stage_down, `leadRun` those with the lead in RUN
since it leads (R263, R264). -/
structure GroupDyn where
  lead : Nat := 0
  lag : Option Nat := none
  armed : Bool := false
  flowStop : Bool := false
  stopLead : Nat := 0
  stopLagOff : Bool := false
  netFailDue : Bool := false
  floor : Nat := 0
  floorActive : Bool := false
  atLimit : Bool := false
  pumpFailed : Option Nat := none
  drift : Option Nat := none
  timeToLimit : Option Nat := none
  degradingAt : Option Nat := none
  degradingSecs : Nat := 0
  quiet : Nat := 0
  speeds : List Nat := []
  flows : List Nat := []
  rotating : Bool := false
  upRun : Nat := 0
  downRun : Nat := 0
  leadRun : Nat := 0
deriving DecidableEq, Repr

/-- Coolant network state; the last four count evaluations with the heat exchanger's approach, and its secondary outlet, above
and below their levels (10 R265). -/
structure CoolSt where
  racks : Tab RackDyn := []
  groups : Tab GroupDyn := []
  hxApproach : Bool := false
  hxHigh : Bool := false
  approachAbove : Nat := 0
  approachBelow : Nat := 0
  outletAbove : Nat := 0
  outletBelow : Nat := 0
deriving DecidableEq, Repr

/-- A motor channel record (Table 11.2). -/
structure MotorRec where
  accepted : Bool := false
  flags : Nat := 0
  polePairs : Nat := 0
  tachPpr : Nat := 0
  rS : F32 := 0
  lS : F32 := 0
  kE : F32 := 0
  iGain : F32 := 0
  iqMax : F32 := 0
  iqMin : F32 := 0
  iTrip : F32 := 0
  maxSpeed : Nat := 0
  handoff : Nat := 0
  alignMs : Nat := 0
  rampMs : Nat := 0
  iStart : F32 := 0
  kpCur : F32 := 0
  kiCur : F32 := 0
  kpSpd : F32 := 0
  kiSpd : F32 := 0
  vbusMin : Nat := 0
  vbusMax : Nat := 0
  stallMs : Nat := 0
  deadNs : Nat := 0
deriving DecidableEq, Repr

/-- Drive state of a motor channel (Table 11.4 STATE). -/
inductive MotorState where
  | stopped | align | ramp | verify | run | coast | failed | locked
deriving DecidableEq, Repr

/-- What a channel in COAST waits for: nothing, its 2 s after a failed attempt (R285), its 100 ms after a trip (R288), its
bus voltage (R291), or its rotor to stop before an alignment (R284). -/
inductive MotorWait where
  | none | retry | trip | bus | spin
deriving DecidableEq, Repr

/-- A skip band being crossed or guarded: toward its upper edge, and the edge in rpm (R294). -/
structure SkipRun where
  up : Bool
  edge : Nat
  guarding : Bool
deriving DecidableEq, Repr

/-- Counts of current-loop periods, 20 to the millisecond: since the channel entered its state or wait, and for how long without
a break the observer speed has been above 1.15 x max_speed, the rotor has stood below handoff at iq_max in RUN, the tach has
shown no edge, has agreed within 5 % and has disagreed by more than 10 %, and the bus has stood above 1.05 x vbus_min and
below 0.95 x vbus_max (11 R284-R292). -/
structure MotorClocks where
  phase : Nat := 0
  fast : Nat := 0
  stall : Nat := 0
  silent : Nat := 0
  agree : Nat := 0
  differ : Nat := 0
  aboveMin : Nat := 0
  belowMax : Nat := 0
deriving DecidableEq, Repr

/-- State of one motor channel (11). `busBad` is the last_fault code of a bus voltage that stands out of its limits, 0 for none;
`omega` is the observer speed, rpm, negative backward; currents are binary32 A, `tgt`
and `r` binary32 rpm; `integ` is the override regulator's integrator while it acts; `tripAt` the tick of the last trip. -/
structure Motor where
  state : MotorState := .stopped
  wait : MotorWait := .none
  permit : Bool := false
  omega : Int := 0
  tach : Nat := 0xFFFF
  tachFault : Bool := false
  iqLoop : F32 := 0
  iqApplied : F32 := 0
  tgt : F32 := 0
  r : F32 := 0
  pendingRef : Option (F32 × F32 × F32) := none
  vbus : Nat := 0
  iLimit : Bool := false
  speedLimit : Bool := false
  skip : Option SkipRun := none
  integ : Option F32 := none
  target : Nat := 0
  groupFull : Bool := false
  flowStopDrive : Bool := false
  attempts : Nat := 0
  stalled : Bool := false
  tripAt : Option Nat := none
  lastFault : Nat := 0
  faults : Nat := 0
  runTicks : Nat := 0
  busBad : Nat := 0
  clk : MotorClocks := {}
deriving DecidableEq, Repr

/-- A valve channel record (Table 12.2). -/
structure ValveRec where
  accepted : Bool := false
  enable : Bool := false
  pair : Bool := false
  iPeak : Nat := 0
  iHold : Nat := 0
  tPull : Nat := 0
  tRiseMin : Nat := 0
  tRiseMax : Nat := 0
  tDecayMax : Nat := 0
  boostWait : Nat := 0
  deferLimit : Nat := 0
deriving DecidableEq, Repr

/-- Phase of a valve channel (Table 12.1). -/
inductive ValvePhase where
  | off | deferred | pullIn | hold | decay | fault
deriving DecidableEq, Repr

/-- A pull-in that waits to start: for a protective action, behind another channel's HOLD, since which tick it has been DEFERRED,
and since which it has waited for its supply (12 R308, R310, R311). -/
structure ValveDue where
  protective : Bool := false
  behind : Option Nat := none
  since : Option Nat := none
  supplySince : Option Nat := none
deriving DecidableEq, Repr

/-- State of one valve channel (12, Tables 12.6, 12.7). `due` is a pull-in that waits; `action` what a protective action is for:
0 none, 1 isolation, 2 run position (19 Table 19.10). `current` is mA as last measured at the channel's own half, `deferMax` ms;
`pullAt` and `decayAt` are the ticks in which the last pull-in and the last decay began; `offRun`, `lowRun` and `uneven` count
ticks with more than 100 mA in OFF, with less than i_hold in HOLD, and with a pair's halves more than 20 % apart (Table 12.4). -/
structure Valve where
  phase : ValvePhase := .off
  due : Option ValveDue := none
  protective : Bool := false
  action : Nat := 0
  degraded : Bool := false
  deferFault : Bool := false
  holdLow : Bool := false
  stuckOn : Bool := false
  short : Bool := false
  openCoil : Bool := false
  energised : Bool := false
  current : Nat := 0
  riseUs : Option Nat := none
  pullIns : Nat := 0
  deferMax : Nat := 0
  lastFault : Nat := 0
  pullAt : Nat := 0
  decayAt : Nat := 0
  offRun : Nat := 0
  lowRun : Nat := 0
  uneven : Nat := 0
deriving DecidableEq, Repr

/-- State of a Strongman supply (Table 12.8). -/
inductive SupplyState where
  | off | softStart | ready | low | fault
deriving DecidableEq, Repr

/-- A Strongman supply; `since` is the tick in which it entered its state. -/
structure Supply where
  state : SupplyState := .off
  vOut : Nat := 0
  refusals : Nat := 0
  fallbacks : Nat := 0
  since : Nat := 0
deriving DecidableEq, Repr

/-- An accepted VALVE_COMMAND on its way (12 R306-R309): its entries (channel, op) in order, those the Hall of Mirrors has let
through, how many are released in order and how many applied, the entries deferred, whether it waits for a supply, and the tick
in which that wait is over. -/
structure ValveCmd where
  cmd : Nat
  entries : List (Nat × Nat)
  through : List Nat := []
  released : Nat := 0
  applied : Nat := 0
  deferred : List Nat := []
  waitSupply : Bool := false
  waitEnd : Nat := 0
deriving DecidableEq, Repr

/-- Valve drive. -/
structure ValveSt where
  v24 : Bool := false
  chans : Tab Valve := []
  supplies : Tab Supply := []
  cmds : List ValveCmd := []
deriving DecidableEq, Repr

/-- An analog input record (Table 13.11 kind 0). -/
structure AnalogRec where
  ty : Nat := 0
  compat : Bool := false
  unit : Nat := 0
  scaleLo : F32 := 0
  scaleHi : F32 := 0
  tau : F32 := 0
  beta : Nat := 0
  modelBand : U16 := 0
deriving DecidableEq, Repr

/-- A pulse input record (Table 13.11 kind 1). -/
structure PulseRec where
  on : Bool := false
  falling : Bool := false
  kFactor : F32 := 0
  glitchUs : Nat := 0
  zeroMs : Nat := 1
deriving DecidableEq, Repr

/-- A leak record (Table 13.12), with its defaults. -/
structure LeakRec where
  ty : Nat := 0
  eolPresent : Bool := false
  wetMs : Nat := 500
  dryS : Nat := 60
  wetUs : Nat := 20
  eolKohm : Nat := 100
  loopMaxOhm : Nat := 400
  lengthDm : Nat := 0
  ohmPerM : F32 := 0
deriving DecidableEq, Repr

/-- Expected identity of a harness: part and serial (R334). -/
structure HarnessId where
  part : List Byte := []
  serial : List Byte := []
deriving DecidableEq, Repr

/-- Harness state (R338). -/
inductive HarnessState where
  | absent | reading | match_ | mismatch | crcError | noExpected
deriving DecidableEq, Repr

/-- A rack harness. `mem` is what was last read; `cmd` the HARNESS_READ that reads it again: packet id, op, reply address. -/
structure Harness where
  present : Bool := false
  state : HarnessState := .absent
  mem : List Byte := []
  cmd : Option (Nat × Nat × Nat) := none
deriving DecidableEq, Repr

/-- Filter and marks of one analog channel: `y` the filtered value in native units, `bits` the checks that fail, bits 4:1 as in
Table 13.3; `failRun` and `passRun` count the ticks in which each of the four checks has failed and passed without a break
(R319), `typeAt` is the tick in which the type changed last (R316). -/
structure AnalogDyn where
  y : Option F32 := none
  bits : Nat := 0
  suspect : Bool := false
  settling : Bool := false
  critAbove : Bool := false
  failRun : List Nat := []
  passRun : List Nat := []
  typeAt : Nat := 0
deriving DecidableEq, Repr

/-- Leak state of one channel (Table 13.6); the runs count evaluations that are wet, dry and broken without a break, and
`unregulated` tells that the excitation is out of regulation (R326). -/
structure LeakDyn where
  wet : Bool := false
  broken : Bool := false
  fault : Bool := false
  location : Option Nat := none
  conductance : Nat := 0xFFFF
  loopOhm : Nat := 0xFFFF
  eolSeen : Bool := false
  wetRun : Nat := 0
  dryRun : Nat := 0
  brokenRun : Nat := 0
  unregulated : Bool := false
deriving DecidableEq, Repr

/-- Marks of one pulse input; the runs count ticks without an edge and ticks with the line between its thresholds (R331). -/
structure PulseDyn where
  fault : Bool := false
  zero : Bool := false
  glitch : Bool := false
  overrange : Bool := false
  edges : Nat := 0
  lastFreq : U32 := 0xFFFFFFFF
  quietRun : Nat := 0
  floatRun : Nat := 0
deriving DecidableEq, Repr

/-- Sensing state (13). -/
structure SenseSt where
  analog : Tab AnalogDyn := []
  leak : Tab LeakDyn := []
  pulse : Tab PulseDyn := []
  harness : Tab Harness := []
  sysShdn : Bool := false
  critTripped : Nat := 0
  tcrit : Nat := 0
  netSpd : Nat := 0
  tcritLogged : Nat := 0
  netSpdLogged : Nat := 0
deriving DecidableEq, Repr

/-- A buffer filter (Table 14.8). -/
structure CanFilter where
  enable : Bool := false
  ide : Bool := false
  ident : Nat := 0
  mask : Nat := 0
deriving DecidableEq, Repr

/-- Bit timing of a channel (Table 14.8). -/
structure CanTiming where
  nomBrp : Nat := 1
  nomTseg1 : Nat := 2
  nomTseg2 : Nat := 1
  nomSjw : Nat := 1
  datBrp : Nat := 1
  datTseg1 : Nat := 1
  datTseg2 : Nat := 1
  datSjw : Nat := 1
  tdcOffset : Nat := 0
deriving DecidableEq, Repr

/-- A CAN channel record (Table 14.8). -/
structure CanRec where
  enable : Bool := false
  fd : Bool := false
  term : Bool := false
  autoRecover : Bool := false
  timing : CanTiming := {}
  filters : Tab CanFilter := []
deriving DecidableEq, Repr

/-- A mapped entry record (Table 14.5). -/
structure EntryRec where
  dir : Nat := 0
  channel : Nat := 0
  flags : Nat := 0
  ident : Nat := 0
  offset : Nat := 0
  width : Nat := 1
  dlc : Nat := 0
  unit : Nat := 0
  scale : F32 := 0x3F800000
  bias : F32 := 0
  timing : Nat := 1
  alive : Nat := 0xFF
  lo : F32 := 0
  hi : F32 := 0
deriving DecidableEq, Repr

/-- A received frame as a buffer or a shadow holds it (Table 14.2). -/
structure CanFrame where
  fdf : Bool := false
  ide : Bool := false
  ident : Nat := 0
  rtr : Bool := false
  esi : Bool := false
  brs : Bool := false
  dlc : Nat := 0
  data : List Byte := []
  time : U64 := 0xFFFFFFFFFFFFFFFF
deriving DecidableEq, Repr

/-- A message buffer (R346, R347): its content and shadow with their seq, `count` the frames that have come for it, `droppedSeen`
what the present or next lock shows, `dropped` what is counted for the lock after; `lockAt` is the tick of the last read of word 0. -/
structure CanBuf where
  content : Option (Byte × CanFrame) := none
  count : Byte := 0
  shadow : Option (Byte × CanFrame) := none
  locked : Bool := false
  expired : Bool := false
  droppedSeen : Nat := 0
  dropped : Nat := 0
  lockAt : Nat := 0
deriving DecidableEq, Repr

/-- Error state of a channel (Table 14.9). -/
inductive CanState where
  | off | active | passive | busOff | heldOff | detecting
deriving DecidableEq, Repr

/-- A CAN channel. `recent` holds the ticks of its latest bus-offs; `unmatchedLogged` and `fdLogged` what BUS_DISCARDS has
reported. -/
structure CanChan where
  state : CanState := .off
  tec : Nat := 0
  recc : Nat := 0
  rxFrames : Nat := 0
  txFrames : Nat := 0
  unmatched : Nat := 0
  overruns : Nat := 0
  busOffs : Nat := 0
  fdIgnored : Nat := 0
  lockExpiries : Nat := 0
  bufs : Tab CanBuf := []
  recent : List Nat := []
  discardPeriod : Option Nat := none
  unmatchedLogged : Nat := 0
  fdLogged : Nat := 0
deriving DecidableEq, Repr

/-- A mapped entry's state (Table 14.4, R352-R354); `handed` is the tick in which an OUT entry's frame last went to its controller. -/
structure EntryDyn where
  value : U32 := 0xFFFFFFFF
  age : Nat := 0xFFFF
  stale : Bool := true
  range : Bool := false
  short : Bool := false
  frozen : Bool := false
  txFail : Bool := false
  aliveByte : Option Byte := none
  aliveRun : Nat := 0
  outVal : Option F32 := none
  handed : Option Nat := none
deriving DecidableEq, Repr

/-- An automatic rate detection in progress (R359); `frames` and `brs` are what the present candidate has received, `was` the
channel's state before; `dwell` is in ms, `since` the tick in which the present candidate began. -/
structure Autobaud where
  cmd : Nat
  channel : Nat
  apply : Bool
  framesNeeded : Nat
  candidates : List CanTiming
  present : Nat := 0
  frames : Nat := 0
  brs : Bool := false
  was : CanState := .off
  dwell : Nat := 0
  since : Nat := 0
deriving DecidableEq, Repr

/-- Fieldbus state; `sent` holds the frame last handed to each channel's controller by identifier: channel, IDE, identifier,
data (R353). -/
structure BusSt where
  chans : Tab CanChan := []
  entries : Tab EntryDyn := []
  autobaud : List Autobaud := []
  sent : List (Nat × Bool × Nat × List Byte) := []
deriving DecidableEq, Repr

end Sys2Proof.Machine
end

