-- ==== Sys2Proof/Machine/Types/Gov.lean ====
section
/-! DEFINITION. Types of power governance (08): jobs, envelope, policies, and the governor's pass state in one lane. Powers
and caps are in units of 0.05 W (R205) unless a field says W. A field's default is its value at module reset. -/

namespace Sys2Proof.Machine

/-- A job definition (R205, Table 8.3). -/
structure Job where
  priority : Nat := 0
  paceEnable : Bool := false
  swingEnable : Bool := false
  capMax : Nat := 0
  capDefault : Nat := 0
  members : List Nat := []
  serial : Nat := 0
deriving DecidableEq, Repr

/-- Row envelope (Table 8.4); `none` is an absent limit (R218, R228). Limits and ramps in W and W per ms. -/
structure Envelope where
  accepted : Bool := false
  l1ms : Option Nat := none
  l10ms : Option Nat := none
  l100ms : Option Nat := none
  l1s : Option Nat := none
  rampUp : Nat := 0
  rampDown : Nat := 0
  defaultCap : Nat := 0xFFFE
  capTol : Nat := 0
  rackGroup : Tab Nat := []
  group1ms : Tab (Option Nat) := []
deriving DecidableEq, Repr

/-- Pace policy (Table 8.6), its defaults. -/
structure PacePolicy where
  quorum : Nat := 32768
  window : Nat := 100
  confirm : Nat := 10
  guard : Nat := 6554
  step : Nat := 100
deriving DecidableEq, Repr

/-- Swing policy (Table 8.7), its defaults; `decay` in W per ms. -/
structure SwingPolicy where
  frac : Nat := 16384
  detect : Nat := 5
  level : Nat := 52429
  decay : Nat := 0
deriving DecidableEq, Repr

/-- Host mark on a slot (R229). -/
inductive Mark where
  | none | absent | present
deriving DecidableEq, Repr

/-- A model proposal waiting for adoption (R207). -/
structure Proposal where
  slot : Nat
  isFloor : Bool
  due : Nat
  value : Nat
deriving DecidableEq, Repr

/-- The governor's state of one chip slot: cap and floor of its newest pass, ceiling and carried ceiling (R209), proposal registers
(R207), host mark (R229), sync cap and swing floor (R221, R225), waiting and power in the passes of the pace window, newest first,
wait flag and token of the last pass, passes since the flag was set, passes left of an exclusion (R233), and runs over and within
the cap. -/
structure GovChip where
  cap : Option Nat := none
  floor : Nat := 0
  ceiling : Nat := 0
  carried : Option Nat := none
  propCap : Option Nat := none
  propFloor : Option Nat := none
  mark : Mark := .none
  syncCap : Option Nat := none
  swingFloor : Option Nat := none
  history : List (Bool × Option Nat) := []
  waiting : Bool := false
  lastToken : Option U32 := none
  setAgo : Option Nat := none
  backLeft : Nat := 0
  overRun : Nat := 0
  underRun : Nat := 0
  overCap : Bool := false
  floorBound : Bool := false
  laggard : Bool := false
  held : Bool := false
  absent : Bool := true
  taken : Nat := 0
deriving DecidableEq, Repr

/-- The governor's state of one job. -/
structure GovJob where
  paceSlot : Option Nat := none
  members : Nat := 0
  waiting : Nat := 0
  token : U32 := 0
  atBarrier : Bool := false
  ceilingLimited : Bool := false
  ceilRun : Nat := 0
  noCeilRun : Nat := 0
  syncActive : Bool := false
  savedW : Nat := 0
  limitedTicks : Nat := 0
  lastPaceLog : Option Nat := none
  lastPace : Option Nat := none
  swingDrop : Nat := 0
  swingUnset : Bool := false
deriving DecidableEq, Repr

/-- A governor command whose completion waits for the release of a pass's cap set (R208): packet id, the slots a CAP_SET names, and
the pass that applied it with the count of those slots FLOOR_BOUND in it (R211). -/
structure GovWait where
  cmd : Nat
  slots : List Nat := []
  pass : Option Nat := none
  bound : Nat := 0
deriving DecidableEq, Repr

/-- An outstanding shed request of a group, or of the row at 0xFF (R215). -/
structure Shed where
  active : Bool := false
  leftW : Nat := 0
  lastW : Nat := 0
  lastPass : Nat := 0
  clearRun : Nat := 0
  window : Nat := 10
deriving DecidableEq, Repr

/-- Governor of one lane (08). -/
structure GovSt where
  chips : Tab GovChip := []
  jobs : Tab GovJob := []
  proposals : List Proposal := []
  rowHistory : List Nat := []
  groupHistory : Tab (List Nat) := []
  sheds : Tab Shed := []
  staleProps : Nat := 0
  halts : Nat := 0
  envelopeBinding : Bool := false
  rampLimited : Bool := false
  shedW : Nat := 0
  predictive : Bool := false
  epoch : Nat := 0
deriving DecidableEq, Repr

end Sys2Proof.Machine
end

