-- ==== Sys2Proof/Machine/Types/Loop.lean ====
section
/-! DEFINITION. Types of the Loop Engine (03): slot descriptors as configured (Tables 3.1, 3.5) and the state each lane
keeps for a slot (R64-R79, Table 3.14). Real values are binary32 bits. A field's default is its value at reset. -/

namespace Sys2Proof.Machine

/-- A term entry (Table 3.5). -/
structure Term where
  ty : Nat := 0
  srcType : Nat := 0
  srcIdx : Nat := 0
  c0 : F32 := 0
  c1 : F32 := 0
  c2 : F32 := 0
deriving DecidableEq, Repr

/-- A slot descriptor (Table 3.1), with its first `n_terms` term entries. -/
structure LoopDesc where
  accepted : Bool := false
  rack : Nat := 0xFF
  flags : Nat := 0
  spSrc : Nat := 0
  spIdx : Nat := 0
  pvSrc : Nat := 0
  pvIdx : Nat := 0
  outDest : Nat := 0
  outIdx : Nat := 0
  trAction : Nat := 0
  spFixed : F32 := 0
  spScale : F32 := 0
  spOffset : F32 := 0
  spTau : F32 := 0
  pvScale : F32 := 0
  pvOffset : F32 := 0
  pvTau : F32 := 0
  spMin : F32 := 0
  spMax : F32 := 0
  spRate : F32 := 0
  spAcc : F32 := 0
  outMin : F32 := 0
  outMax : F32 := 0
  outRate : F32 := 0
  manPreset : F32 := 0
  safeOut : F32 := 0
  trBand : F32 := 0
  trTimer : Nat := 0
  bumpTau : F32 := 0
  mirrorTol : F32 := 0
  refKp : F32 := 0
  refBias : F32 := 0
  refFloor : F32 := 0
  terms : List Term := []
deriving DecidableEq, Repr

/-- Requested mode of a slot (R73); a slot with no accepted descriptor is OFF. -/
inductive ReqMode where
  | off | manual | auto
deriving DecidableEq, Repr

/-- Effective mode of a slot (Table 3.7). -/
inductive EffMode where
  | off | manual | auto | safe | track | overridden
deriving DecidableEq, Repr

/-- What the Tightrope has latched (Table 3.8). -/
inductive Latch where
  | none | manual | safe
deriving DecidableEq, Repr

/-- State of one term: integrator, derivative, lead-lag and error filter states, last valid feed-forward (R64, R71). -/
structure TermSt where
  x : F32 := 0
  d : F32 := 0
  pvPrev : Option F32 := none
  q : F32 := 0
  w : F32 := 0
  ef : Option F32 := none
  ff : F32 := 0
deriving DecidableEq, Repr

/-- What the configuration store keeps of a slot beside its descriptor (R525). -/
structure LoopKept where
  req : ReqMode := .off
  manOut : Option F32 := none
  hostSp : Option F32 := none
deriving DecidableEq, Repr

/-- The state a lane keeps for one slot. `out` is the slot's output in its newest pass; `last` the output a transfer
starts from (R77); `manSet` notes a manual output set since the last pass (R75); `transfer` a transfer that is due (R82);
`pvOk` whether the newest pass had a valid measurement (R70). -/
structure LoopSlot where
  req : ReqMode := .off
  manOut : F32 := 0
  manSet : Bool := false
  hostSp : F32 := 0
  hostSet : Bool := false
  fresh : Bool := false
  restored : Bool := false
  r : F32 := 0
  v : F32 := 0
  tgt : F32 := 0
  spY : Option F32 := none
  pvY : Option F32 := none
  pv : F32 := 0
  pvOk : Bool := true
  e : F32 := 0
  out : F32 := 0
  own : F32 := 0
  b : F32 := 0
  terms : List TermSt := []
  transfer : Bool := false
  c : Nat := 0
  latch : Latch := .none
  trTrips : Nat := 0
  clampCount : Nat := 0
  flags : Nat := 0
  eff : EffMode := .off
  epoch : Nat := 0
deriving DecidableEq, Repr

end Sys2Proof.Machine
end

