-- ==== Sys2Proof/Machine/Types/Model.lean ====
section
/-! DEFINITION. Types of the row thermal model's runtime (04) and of model images (07). A field's default is its value at
reset. -/

namespace Sys2Proof.Machine

/-- Thermal parameter block (Table 4.4), its defaults. T16 fields are raw. -/
structure ThermalBlock where
  adaptEnable : Bool := true
  tLimit : Tab U16 := []
  marginMin : U16 := 0x0020
  marginMax : U16 := 0x0200
  marginGain : U16 := 0x0180
  marginDecay : U16 := 0x0004
  disagreeBand : U16 := 0x00C0
  rainflowGate : U16 := 0x0040
  disagreeTicks : Nat := 1000
  adaptRel : Nat := 3277
  warnLevel : Nat := 55706
  adaptAbs : F32 := 0x38D1B717
  trendHorizon : Nat := 30
  excl : List (Nat × Nat) := []
deriving DecidableEq, Repr

/-- One horizon's forecast of a chip: binary32 interval, kept as produced; `none` is absent or invalid (R100, R106). -/
structure Forecast where
  lo : F32
  hi : F32
deriving DecidableEq, Repr

/-- The runtime's state of one chip slot (R99-R110): residual average and margin (binary32), the protective measurement and
last residual, the forecasts of the newest completed step, the 2 ms forecasts of the last steps by source epoch, sensor-pair
marks and runs, and the rainflow counts with their residue of turning points, oldest first. -/
structure ChipTh where
  present : Bool := false
  abar : F32 := 0
  m : F32 := 0x3F000000
  atMax : Bool := false
  y : Option U16 := none
  resid : Option F32 := none
  fc2 : Option Forecast := none
  fc5 : Option Forecast := none
  fc20 : Option Forecast := none
  past : List (Nat × Forecast) := []
  filtered : Bool := false
  disagree : Bool := false
  disagreeRun : Nat := 0
  agreeRun : Nat := 0
  suspectA : Bool := false
  suspectB : Bool := false
  bins : Tab Nat := []
  residue : List Int := []
deriving DecidableEq, Repr

/-- A rectangle of Row Coupling Table entries. -/
structure Rect where
  rowFirst : Nat
  rowCount : Nat
  colFirst : Nat
  colCount : Nat
deriving DecidableEq, Repr

/-- A STATE_MAP entry (07 Table 7.8). -/
structure StateMap where
  logical : Nat
  tile : Nat
  off : Nat
  length : Nat
deriving DecidableEq, Repr

/-- A TABLE_MAP entry (07 Table 7.9): rectangle, tile, offset, row stride. -/
structure TableMap where
  rect : Rect
  tile : Nat
  off : Nat
  stride : Nat
deriving DecidableEq, Repr

/-- Capacity trend of one unit: rack 0-15, 16 the heat exchanger (R112, R113): the sum over the frames of the hour window so
far, the hourly values of G before a baseline, the last 24 indices, oldest first (exact values), slope in 1/32,768 per day, days
to warn_level, and the hour and days of the last warning. -/
structure CapacityUnit where
  sumG : Rat := 0
  frames : Nat := 0
  pending : List Rat := []
  indices : List Rat := []
  slope : Option Int := none
  days : Option Nat := none
  warned : Option (Nat × Nat) := none
  notSampled : Bool := true
deriving DecidableEq, Repr

/-- State of a staging slot (Table 7.12). -/
inductive SlotState where
  | empty | staged | active | preparing | staging
deriving DecidableEq, Repr

/-- Residency of a variant (07 Variants). -/
inductive Residency where
  | resident | streamed
deriving DecidableEq, Repr

/-- A variant declaration (Table 7.4), with the logical tiles its PROGRAM and GRAPH records name (R193). -/
structure Variant where
  index : Nat := 0
  fold : Nat := 1
  residency : Residency := .resident
  tileCount : Nat := 0
  colSpan : Nat := 0
  sramNeed : Nat := 0
  tBody : Nat := 0
  inputBytes : Nat := 0
  segmentSize : Nat := 0
  stateSize : Nat := 0
  rowPolicy : U64 := 0
  streamRow : List Nat := []
  tiles : List Nat := []
deriving DecidableEq, Repr

/-- An input binding (Table 7.6). -/
structure InBinding where
  index : Nat := 0
  role : Nat := 0
  fieldType : Nat := 0
  frameOffset : Nat := 0
  count : Nat := 0
  stride : Nat := 0
  fmt : Nat := 0
  channel : Nat := 0
  tile : Nat := 0
  accuracy : F32 := 0
  pairOffset : U16 := 0
  firstSlot : Nat := 0xFFFF
deriving DecidableEq, Repr

/-- An output binding (Table 7.7). -/
structure OutBinding where
  index : Nat := 0
  kind : Nat := 0
  cls : Nat := 0
  period : Nat := 0
  sense : Nat := 0
  horizon : Nat := 0
  fmt : Nat := 0
  firstTarget : Nat := 0
  count : Nat := 0
  tolerance : F32 := 0
deriving DecidableEq, Repr

/-- An image as the loader has checked it (07 R181-R190): what later rules read of it. `slot` is where its bytes lie, `reference` marks the reference model of the firmware set (R192). -/
structure Image where
  slot : Nat := 0
  length : Nat := 0
  imageId : Nat := 0
  decimAllowed : Bool := false
  hasTable : Bool := false
  variants : List Variant := []
  inputs : List InBinding := []
  outputs : List OutBinding := []
  params : Option ThermalBlock := none
  priors : U32 × U32 := (0, 0)
  digest : List Byte := []
  reference : Bool := false
deriving DecidableEq, Repr

/-- A lane's fit of an image (R193-R195): the variant and k chosen, or the shortfall words. -/
structure Fit where
  variant : Nat := 0xFF
  fold : Nat := 0
  residency : Nat := 0
  k : Nat := 0
  tPred : Nat := 0
  short0 : Nat := 0
  short1 : Nat := 0
  short2 : Nat := 0
deriving DecidableEq, Repr

/-- Phase of an activation (Table 7.11). -/
inductive ActPhase where
  | idle | preparing | prepared | boundary | loaded | started
deriving DecidableEq, Repr

/-- The output tensor of a binding that a lane's collector is filling in the present step (05 R136): the bytes that have
arrived. -/
structure Tensor where
  bytes : Tab (Option Byte) := []
deriving DecidableEq, Repr

/-- The model runtime's state in one lane (04; 07 counters since activation R201). `table` holds Row Coupling Table entries of
an image whose map is not known; `anchors` an entry's anchor where the entry has changed in the hour window; `frozen` the
FREEZE and THAW operations, newest first; `widened` the ranges adapting under 4L and until which epoch; `absentDue` slots that
have become absent (true) or present since the last step boundary; `sourceEpoch` that of the newest completed step;
`headroomZero` from an activation's boundary to its first forecasts (07 R199); `refProp` the reference model's last
set-point proposals (07 R528); `checkpoint` the time of the rainflow checkpoint restored at reset. -/
structure ModelSt where
  chips : Tab ChipTh := []
  table : Tab (Option U32) := []
  anchors : Tab (Option U32) := []
  frozen : List (Rect × Bool) := []
  widened : List (Rect × Nat) := []
  absentDue : List (Nat × Bool) := []
  fault : Bool := false
  abortRun : Nat := 0
  invalidRun : Nat := 0
  filteredCount : Nat := 0
  diverge : Nat := 0
  diverged : Bool := false
  adaptClamped : Nat := 0
  invalidOut : Nat := 0
  windowStart : Nat := 0
  sourceEpoch : Option Nat := none
  headroomZero : Bool := false
  capacity : Tab CapacityUnit := []
  capacityHours : Nat := 0
  sampledWindow : Option Nat := none
  refProp : Tab (Option F32) := []
  checkpoint : Option U64 := none
deriving DecidableEq, Repr

/-- A model result a lane has computed, on its way to the Hall of Mirrors (02 R43). -/
structure OwnResult where
  kind : ResultKind
  target : Nat
  source : Nat
  due : Nat
  value : ResultVal
deriving DecidableEq, Repr

/-- One lane's step of the model (02 R47, R48; 05 R137, R138), the results it has computed and the Hall of Mirrors has
not yet received from it, and whether its step boundary is still due. -/
structure StepSt where
  running : Bool := false
  epoch : Nat := 0
  due : Nat := 0
  firstStep : Bool := true
  abortedLast : Bool := false
  tensors : Tab Tensor := []
  results : List OwnResult := []
  boundaryDue : Bool := false
deriving DecidableEq, Repr

/-- A COUPLING_ACCESS operation waiting for a step boundary (04 Table 4.6): its packet id, op, range, block address, and the
entries a WRITE carries. -/
structure CouplingOp where
  cmd : Nat
  op : Nat
  rect : Rect
  addr : Nat
  words : List U32 := []
deriving DecidableEq, Repr

/-- Images and activation, the same in every running lane but for `fitA` and `fitB` (07). `staging` holds by slot the packet
that stages it and since when; `blockDue` a thermal parameter block and `couplingOps` the operations that wait for the next
step boundary (04 R114, Table 4.6); `kNext` the k_mod that takes effect at the next step epoch (R196). -/
structure ImgSt where
  slotState : Tab Nat := []
  staging : Tab (Option (Nat × Nat)) := []
  images : List Image := []
  activeSlot : Option Nat := none
  fitA : Fit := {}
  fitB : Fit := {}
  kMod : Nat := 1
  kNext : Option Nat := none
  phaseEpoch : Nat := 0
  remapped : Bool := false
  act : ActPhase := .idle
  actSlot : Nat := 0
  actInherit : Bool := false
  actBlock : Option ThermalBlock := none
  actCmd : Option Nat := none
  swapTicks : Nat := 0
  stepAborts : Nat := 0
  firstEpoch : Option Nat := none
  actPred : Nat := 0
  blockDue : Option ThermalBlock := none
  couplingOps : List CouplingOp := []
deriving DecidableEq, Repr

end Sys2Proof.Machine
end

