-- ==== Sys2Proof/Machine/Types/Cfg.lean ====
section
/-! DEFINITION. The configuration: what the configuration store keeps (20 R497, 03 R525, 04 R111, 10 R266, 13 R334) and
what a command or a register write changes of it. The same type holds the configuration in force and each of the two
stored copies (01 Table 1.3). A field's default is its value with an absent record. -/

namespace Sys2Proof.Machine

/-- State of one rack as the store keeps it, and its harness identity. -/
structure RackKept where
  state : RackState := .run
  harness : Option HarnessId := none
deriving DecidableEq, Repr

/-- Rainflow checkpoint of a chip slot (R111): counts by bin, and the residue. -/
structure RainKept where
  bins : Tab Nat := []
  residue : List Int := []
deriving DecidableEq, Repr

/-- Configuration records and the registers the store keeps (Tables 2.7, 15.5, 16.6, 17.5, 19.6, 20.x). -/
structure Cfg where
  loops : Tab LoopDesc := []
  loopKept : Tab LoopKept := []
  topo : Topology := {}
  racks : Tab RackKept := []
  envelope : Envelope := {}
  jobs : Tab (Option Job) := []
  pace : Tab (Option PacePolicy) := []
  paceDefault : PacePolicy := {}
  swing : Tab (Option SwingPolicy) := []
  swingDefault : SwingPolicy := {}
  motors : Tab MotorRec := []
  skipBands : Tab (List (Nat × Nat)) := []
  valves : Tab ValveRec := []
  analog : Tab (Option AnalogRec) := []
  pulse : Tab PulseRec := []
  leak : Tab LeakRec := []
  can : Tab CanRec := []
  entries : Tab EntryRec := []
  thermal : ThermalBlock := {}
  rain : Tab RainKept := []
  rainTime : Option U64 := none
  gBase : Tab (Option Rat) := []
  hostCaps : Tab (Option Nat) := []
  fenced : Tab (List Nat) := []
  staleLimit : Nat := 3
  k : Nat := 2
  mergeLimit : Nat := 10000
  refTicks : Nat := 1000
  refMargin : Nat := 0x4000
  netCap : Nat := 0
  coolSense : Tab U32 := []
  modeCfg : Nat := 0
  predSettle : Nat := 10000
  startWait : Nat := 2000
  wdogAction : Bool := true
  wdogPeriod : Nat := 1000
  irqClass : Nat := 3
  trialWindow : Nat := 600
deriving DecidableEq, Repr

/-- One change of the configuration. A command's changes are put in force when it takes effect and into the store when
its completion is written (16 R409, 20 R497). `mark`, `uncarry` and `releaseHalt` are no configuration: they ride with CAP_SET's entries to the pass that
applies them (08 R208). `restore` is the whole configuration a rollback brings back (20 R495). -/
inductive CfgItem where
  | loop (n : Nat) (d : LoopDesc)
  | loopKept (n : Nat) (v : LoopKept)
  | topology (t : Topology)
  | rackState (k : Nat) (st : RackState)
  | harness (k : Nat) (h : Option HarnessId)
  | envelope (e : Envelope)
  | job (i : Nat) (j : Option Job)
  | pace (job : Option Nat) (p : PacePolicy)
  | paceRemove (job : Option Nat)
  | swing (job : Option Nat) (p : SwingPolicy)
  | swingRemove (job : Option Nat)
  | motor (n : Nat) (r : MotorRec)
  | skipBands (n : Nat) (b : List (Nat × Nat))
  | valve (n : Nat) (r : ValveRec)
  | analog (n : Nat) (r : AnalogRec)
  | pulse (n : Nat) (r : PulseRec)
  | leak (n : Nat) (r : LeakRec)
  | can (n : Nat) (r : CanRec)
  | entry (n : Nat) (r : EntryRec)
  | thermal (b : ThermalBlock)
  | gBase (u : Nat) (g : Option Rat)
  | hostCap (slot : Nat) (cap : Option Nat)
  | clearHostCaps
  | mark (slot : Nat) (m : Mark)
  | uncarry (slot : Nat)
  | releaseHalt (slot : Nat)
  | restore (c : Cfg)
deriving DecidableEq, Repr

end Sys2Proof.Machine
end

