-- ==== Sys2Proof/Machine/Types/Host.lean ====
section
/-! DEFINITION. Types of the host side and of the module as a whole: command protocol and queues (17, 18), recorder (19),
update and life cycle (20), modes (16), lane control (15). A field's default is its value at module reset. -/

namespace Sys2Proof.Machine

/-- A packet as fetched (Table 18.1): queue, header fields and parameter block. `id` numbers packets in fetch order. -/
structure Packet where
  sq : Nat
  tag : U32
  opcode : Nat
  flags : Nat
  block : List Byte
  hdr : Nat := 16
  id : Nat := 0
deriving DecidableEq, Repr

/-- Completion content (Table 18.3) before it is written. `release` is what it still waits for: `none` is ready. -/
structure Completion where
  id : Nat
  sq : Nat
  tag : U32
  opcode : Nat
  status : Nat
  aux : Nat := 0
  r0 : U32 := 0
  r1 : U32 := 0
  r2 : U32 := 0
  epochLo : U32 := 0
  dupTag : Bool := false
  delayed : Bool := false
  noIrq : Bool := false
  save : List CfgItem := []
deriving DecidableEq, Repr

/-- A command that has passed its checks and is still running: its packet, commit epoch, whether it is ASYNC (R446), and
the configuration changes its completion will carry into the store. -/
structure Running where
  packet : Packet
  commit : Nat
  async : Bool := false
  save : List CfgItem := []
deriving DecidableEq, Repr

/-- An ASYNC command after SC_PENDING (R446-R448): its outcome once it has finished, and whether the held result is
ready and has been fetched. The list is kept oldest first. -/
structure HeldCmd where
  tag : U32
  sq : Nat
  id : Nat
  commit : Nat
  outcome : Option Completion := none
  ready : Bool := false
  fetched : Bool := false
deriving DecidableEq, Repr

/-- A committed packet waiting for its execution (R440). -/
structure Committed where
  packet : Packet
  epoch : Nat
deriving DecidableEq, Repr

/-- A packet fetched whose completion is not yet written (R439, R449); `barrier` holds the queues field of a
QUEUE_BARRIER. -/
structure Issued where
  id : Nat
  sq : Nat
  tag : U32
  opcode : Nat
  barrier : Option Nat := none
deriving DecidableEq, Repr

/-- A barrier in progress (R450): its packet id, the ids whose completions and the ids whose held results it waits
for, and how many commands that was. -/
structure Barrier where
  id : Nat
  waits : List Nat
  results : List Nat
  count : Nat
deriving DecidableEq, Repr

/-- Command protocol state (18). Every list is in fetch order. -/
structure ProtoSt where
  nextId : Nat := 1
  issued : List Issued := []
  fetched : List Packet := []
  delivered : List Packet := []
  committed : List Committed := []
  running : List Running := []
  ready : List Completion := []
  held : List HeldCmd := []
  barriers : List Barrier := []
  dropIds : List Nat := []
  refusals : Tab Nat := []
  refusalPeriod : Tab Nat := []
  refusalsLogged : Tab Nat := []
deriving DecidableEq, Repr

/-- One submission queue (Table 17.5). -/
structure Sq where
  base : U64 := 0
  enable : Bool := false
  n : Nat := 0
  tail : Nat := 0
  head : Nat := 0
  err : Bool := false
deriving DecidableEq, Repr

/-- HIF block, MSI-X and the endpoint (17). `irqs` counts the firings of each vector; `latched` holds register writes
latched during a Ringmaster restart (offset, value), oldest first (R432); `hiLatch` the latched _HI words (R417). -/
structure HifSt where
  cqBase : U64 := 0
  cqEnable : Bool := false
  cqM : Nat := 0
  cqHead : Nat := 0
  cqTail : Nat := 0
  cqFill : Nat := 0
  cqPhase : Bool := true
  cqCoal : U32 := 0
  coalCount : Nat := 0
  wdogTicks : Nat := 10000
  wdogExpired : Bool := false
  wdogDeferred : Bool := false
  heartbeatSeen : Bool := false
  err : U32 := 0
  bar2Base : U64 := 0
  sqs : Tab Sq := []
  msixTable : Tab U32 := []
  msixPba : U64 := 0
  irqs : Tab Nat := []
  d3hot : Bool := false
  hiLatch : Tab U32 := []
  latched : List (Nat × U32) := []
  rdata : U64 := 0
deriving DecidableEq, Repr

/-- DPORT block (Tables 17.9, 17.10). -/
structure DportSt where
  addr : Nat := 0
  err : Bool := false
  errCode : Nat := 0
  errAddr : Nat := 0
  pending : Bool := false
deriving DecidableEq, Repr

/-- Where an SPDM connection stands: what has been negotiated last (20 R500). -/
inductive SpdmPhase where
  | start | version | capabilities | algorithms
deriving DecidableEq, Repr

/-- An answer of the DOE mailbox, by content: the layout of the messages is DMTF SPDM 1.3's (17 R433, 20 R500; assumption log 10).
`doe` is a protocol of DOE Discovery with the next index. -/
inductive SpdmReply where
  | doe (protocol : Option Nat) (next : Nat)
  | version (supported : List Nat)
  | capabilities (cert chal measSig keyExchange mutualAuth : Bool)
  | algorithms (ed25519 sha512 measSha512 : Bool)
  | digests (slots : List (Nat × List Byte))
  | certificate (portion : List Byte) (remainder : Nat)
  | challengeAuth (chainDigest nonce signature : List Byte)
  | measurements (count : Nat) (blocks : List (Nat × List Byte)) (nonce : List Byte) (signature : Option (List Byte))
  | unexpected
  | invalid
deriving DecidableEq, Repr

/-- DOE mailbox and SPDM responder (17 R433, 20 R500): the negotiated version by major and minor digit, and the newest answer. -/
structure SpdmSt where
  phase : SpdmPhase := .start
  version : Nat := 0
  response : Option SpdmReply := none
deriving DecidableEq, Repr

/-- GEN block (Tables 17.3, 17.4). `rmRestartSwap` marks a restart for a bank swap, `restartEnd` when the last one completed. -/
structure GenSt where
  serial : U64 := 0
  fwVersion : U32 := 0
  scratch : U32 := 0
  rmReady : Bool := false
  rmRestart : Bool := false
  rmRestartSwap : Bool := false
  restartEnd : Option Nat := none
deriving DecidableEq, Repr

/-- Redundancy axis, coded as LANE_STATE (Table 15.6). -/
inductive Redundancy where
  | duplex | simplexA | simplexB | net
deriving DecidableEq, Repr

/-- Authority axis (Table 16.7). -/
inductive Authority where
  | manual | inner | predictive
deriving DecidableEq, Repr

/-- Update phase (Table 16.7). -/
inductive UpdatePhase where
  | idle | staged | handover | trial
deriving DecidableEq, Repr

/-- Life cycle (Table 16.7). -/
inductive LifeCycle where
  | blank | provisioned | operational | returning
deriving DecidableEq, Repr

/-- Start phase (Table 16.5). -/
inductive StartPhase where
  | rmBoot | laneStart | sync | qualify | settle | done
deriving DecidableEq, Repr

/-- Lane state code (Table 15.6 STATE_A). -/
inductive LaneRun where
  | reset | wipe | test | copy | joinWait | standby | active | running
deriving DecidableEq, Repr

/-- A requested rack change, authority change or loop command waits for the next pass in `pendingModes` (R392). -/
inductive ModeChange where
  | authority (a : Authority) (cmd : Nat)
  | rack (racks : Nat) (dest : Nat) (cmd : Nat)
  | autoPredictive
deriving DecidableEq, Repr

/-- MODE block and axes (16). `firstReady` is when the first lane became READY, `startAlone` that START_WAIT has passed (R404). Registers kept in the store (MODE_CFG, PRED_SETTLE, START_WAIT) stand in Cfg. -/
structure ModeSt where
  authority : Authority := .manual
  hostPresent : Bool := false
  update : UpdatePhase := .idle
  lifeCycle : LifeCycle := .blank
  startPhase : StartPhase := .rmBoot
  test : Bool := false
  authEpoch : Nat := 1
  startNetExitMs : Option Nat := none
  startDoneMs : Option Nat := none
  cntRefusedBusy : Nat := 0
  cntNotExecuted : Nat := 0
  event : U32 := 0
  pendingModes : List ModeChange := []
  authSetByHost : Bool := false
  predAvailTicks : Nat := 0
  laneStartEpoch : Nat := 0
  modeCfgActive : Nat := 0
  firstReady : Option Nat := none
  startAlone : Bool := false
deriving DecidableEq, Repr

/-- Counters of one lane in the LANE_STATUS record (R388); `frameLost` that it has not received the frame of this tick (R40), `outputsLost` that its outputs of this tick are absent
(01 R20),
`failedAt` when it last failed a self-check or a plausibility check (R368), `parity` the uncorrected tile errors by physical tile
and epoch (05 R141). -/
structure LaneStat where
  lastLoss : Nat := 0
  resyncPct : Nat := 0
  selfCheckFail : Bool := false
  authExercised : Bool := false
  silentTicks : Nat := 0
  silentRun : Nat := 0
  frameLost : Bool := false
  outputsLost : Bool := false
  disagreements : Nat := 0
  ackEpoch : Option Nat := none
  losses : List Nat := []
  qualRun : Nat := 0
  failedAt : Option Nat := none
  resetEpoch : Nat := 0
  parity : List (Nat × Nat) := []
deriving DecidableEq, Repr

/-- What the Hall of Mirrors compares (Table 15.1). -/
inductive OutKey where
  | loop (n : Nat)
  | result (k : ResultKind) (target : Nat)
  | cap (slot : Nat)
  | speedFloor (g : Nat)
  | permit (m : Nat)
  | valve (cmd entry : Nat)
deriving DecidableEq, Repr

/-- A loop output as one lane delivered it: output, clamped target and limited set-point (11 R282). -/
structure LoopOut where
  out : F32
  tgt : F32
  r : F32
deriving DecidableEq, Repr

/-- The Hall of Mirrors' state of one loop output in the tick (02 R42, 15 R367, R376): copies, whether it is decided, whether its
comparison disagreed, the r kept for the referee (R370), and the run of ticks short of it. -/
structure MirrorSlot where
  a : Option LoopOut := none
  b : Option LoopOut := none
  closed : Bool := false
  disagreed : Bool := false
  rHeld : F32 := 0
  shortRun : Nat := 0
deriving DecidableEq, Repr

/-- A speed floor, permit or valve entry in the Hall of Mirrors (R366): the copies of the tick. -/
structure OtherOut where
  key : OutKey
  a : Option Nat := none
  b : Option Nat := none
deriving DecidableEq, Repr

/-- LANE block and the Ringmaster's lane control (15). `resumeEpoch` is the tick in which slots see held outputs (R374); `arbitrated` that this tick's
arbitration has been taken, in NET that outputs disagreed (R368, R385); `mergedNow` that the merge acts in this tick (R371). LANE_CFG, MERGE_LIMIT, REF_CHECK, NET_CAP and COOL_SENSE stand in
Cfg (configuration store). -/
structure LaneCtlSt where
  redundancy : Redundancy := .net
  netCause : Nat := 1
  linkFail : Bool := false
  merge : Bool := false
  mergeRun : Nat := 0
  gap : Bool := false
  active : LaneId := .A
  holdA : Bool := false
  holdB : Bool := false
  switchEpoch : Option Nat := none
  resumeEpoch : Option Nat := none
  cntDisagree : Nat := 0
  cntArbitration : Nat := 0
  cntSwitchover : Nat := 0
  cntMerge : Nat := 0
  cntNet : Nat := 0
  cntRmRestart : Nat := 0
  event : U32 := 0
  statA : LaneStat := {}
  statB : LaneStat := {}
  mirror : Tab MirrorSlot := []
  counts : List (OutKey × Nat) := []
  deliveredA : Bool := false
  deliveredB : Bool := false
  others : List OtherOut := []
  arbitrated : Bool := false
  mergedNow : Bool := false
  held : Bool := false
  granting : Option LaneId := none
  grantNo : Nat := 0
  grantEpoch : Nat := 0
  drillCmd : Option Nat := none
  drillRetest : Bool := false
  drillGranted : Bool := false
  drillAcked : Bool := false
  retesting : Option LaneId := none
  netAgreeRun : Nat := 0
  preNetActive : LaneId := .A
deriving DecidableEq, Repr

/-- An event record (19 Table 19.1) before it has a sequence number. -/
structure Event where
  cls : Nat
  origin : Nat := 0
  ty : Nat
  epoch : Nat := 0
  time : U64 := 0xFFFFFFFFFFFFFFFF
  subject : U32 := 0xFFFFFFFF
  data : List U32 := []
  capture : U32 := 0xFFFFFFFF
deriving DecidableEq, Repr

/-- A record with its sequence number: in the write buffer or in the ring. -/
structure LogRecord where
  seq : Nat
  event : Event
  torn : Bool := false
deriving DecidableEq, Repr

/-- State of a capture (Table 19.4). -/
inductive CapState where
  | waiting | writing | complete | partial_
deriving DecidableEq, Repr

/-- A capture slot's directory record (Table 19.4) and the frames it holds by index. -/
structure Capture where
  slot : Nat
  id : Nat
  state : CapState := .waiting
  locked : Bool := false
  host : Bool := false
  source : LaneId := .A
  missing : Nat := 0
  trigger : Nat := 0
  triggerSeq : Option Nat := none
  frames : Nat := 0
  doneTime : U64 := 0xFFFFFFFFFFFFFFFF
  content : Tab Frame := []
deriving DecidableEq, Repr

/-- Recorder state (19). `ring` is the eMMC event ring by ring index modulo its size, oldest first. -/
structure EvtSt where
  rmQueue : List Event := []
  rmLost : Nat := 0
  rmLostEpoch : Nat := 0
  rmLostOrigin : Nat := 0
  buffer : List LogRecord := []
  ring : List LogRecord := []
  nextSeq : Nat := 0
  laneIdxNext : Nat := 0
  ringPos : Nat := 0
  wrapped : Bool := false
  cntLost : Nat := 0
  cntTorn : Nat := 0
  event : U32 := 0
  captures : List Capture := []
  nextCapture : Nat := 1
  countRecs : Tab (Nat × Nat) := []
  countPend : Tab Nat := []
  exported : Nat := 0
deriving DecidableEq, Repr

/-- A lane's staging queue (19 R466): records with their lane index, and the index of the next. -/
structure Staging where
  queue : List (Nat × Event) := []
  nextIdx : Nat := 0
  lost : Nat := 0
  lostEpoch : Nat := 0
deriving DecidableEq, Repr

/-- A firmware set in a NOR bank (20): version, security version, flags and the digest of each part 1-5. -/
structure FwSet where
  version : U32 := 0
  security : Nat := 0
  stateFrom : U32 := 0
  flags : Nat := 0
  keyIndex : Nat := 0
  trialS : Nat := 0
  parts : List (Nat × List Byte) := []
  manifest : List Byte := []
deriving DecidableEq, Repr

/-- UPD block, banks and fuses (20). `onNew` are the lanes that run the new set, or are being loaded with it; `failed` the reason of a
rollback that is due; `runAtSwap` the motor channels in RUN at the swap, `duplexSince` since when DUPLEX has held, `grantRun` the
granted steps without an abort, `badAtSwap` the motor channels FAILED or LOCKED since before the trial, `faultAtSwap` a model fault from before
it (Table 20.5); `lifeTarget` the life cycle the coming reset starts in (R502). -/
structure UpdSt where
  runningBank : Nat := 0
  generation : Nat := 0
  runningSet : FwSet := {}
  altSet : FwSet := {}
  altValid : Bool := false
  lastReason : Nat := 0
  partsConfirmed : List Nat := []
  hostConfirmed : Bool := false
  rollbackAtReset : Bool := false
  rollingBack : Bool := false
  step : Nat := 0
  stepEpoch : Nat := 0
  key0Revoked : Bool := false
  secFloor : Nat := 0
  trialStart : Nat := 0
  trialStopped : Bool := false
  event : U32 := 0
  swapped : Bool := false
  cmd : Option Nat := none
  runAtSwap : List Nat := []
  duplexSince : Nat := 0
  grantRun : Nat := 0
  failed : Option Nat := none
  recordWritten : Bool := false
  completionWritten : Bool := false
  onNew : List LaneId := []
  badAtSwap : List Nat := []
  faultAtSwap : Bool := false
  lifeTarget : Option LifeCycle := none
deriving DecidableEq, Repr

end Sys2Proof.Machine
end

