-- ==== Sys2Proof/Machine/Types/Tile.lean ====
section
/-! DEFINITION. Types of one tile of the Myxaek array (05, 06): registers, channels, routes, blocks, DMA queue; and of a
tile row's power domain (01 R23). A field's default is its value at activation (06 R145, 05 R126) and at a wipe (01 R24). -/

namespace Sys2Proof.Machine

/-- Kind of a channel (Table 7.5). -/
inductive ChKind where
  | undeclared | message | dma | input
deriving DecidableEq, Repr

/-- A channel: its declaration (Table 5.6) and its counts (R126). -/
structure Channel where
  kind : ChKind := .undeclared
  slotCount : Nat := 0
  slotSize : Nat := 0
  base : Nat := 0
  head : Nat := 0
  tokens : Nat := 0
deriving DecidableEq, Repr

/-- Destination of a route (Table 7.5). -/
inductive RouteDest where
  | undeclared
  | tile (t : Nat)
  | edge (y : Nat)
deriving DecidableEq, Repr

/-- A route: its declaration and its credit count; an edge port's credit is unlimited (R126). -/
structure Route where
  dest : RouteDest := .undeclared
  channel : Nat := 0
  maxFlits : Nat := 0
  credits : Nat := 0
deriving DecidableEq, Repr

/-- An entry of the block table (R129). -/
structure Block where
  entry : Nat := 0
  tokenMask : U16 := 0
  creditMask : U16 := 0
deriving DecidableEq, Repr

/-- A DMA descriptor (R132, R177). -/
structure DmaDesc where
  toSegment : Bool
  channel : Nat
  sram : Nat
  offset : Nat
  length : Nat
deriving DecidableEq, Repr

/-- What the sequencer is doing: idle, in a block, at its step end, or stopped by a fault with a code of Table 6.11. -/
inductive SeqState where
  | idle
  | run
  | stepEnd
  | fault (code : Nat)
deriving DecidableEq, Repr

/-- The state of one logical tile. Its cycle counter is timing, which the model leaves out: a read of it is a free value
(assumption log 25). -/
structure Tile where
  active : Bool := false
  seq : SeqState := .idle
  pc : Nat := 0
  sregs : Tab U32 := []
  vregs : Tab (BitVec 512) := []
  accs : Tab (BitVec 512) := []
  flagWord : U32 := 0
  channels : Tab Channel := []
  routes : Tab Route := []
  blocks : List Block := []
  dmaq : List DmaDesc := []
  stepEpoch : U64 := 0
deriving DecidableEq, Repr

/-- A message in the network, to a tile's channel or an edge port (05 R123, R135, R136). -/
structure Message where
  dest : RouteDest
  channel : Nat
  payload : List Byte
deriving DecidableEq, Repr

/-- Power state of a tile row (01 R23, 05 Table 5.8). -/
inductive RowPower where
  | gated | waking | running
deriving DecidableEq, Repr

/-- Tile array of one lane. `memory` holds SRAM and instruction memory by offset in the tile space of Table 1.7;
`segment` is the active image's DRAM segment; `creditsDue` are credits on their way
(tile, route); the maps are those of the loaded variant (07 R189). -/
structure ArraySt where
  tiles : Tab Tile := []
  memory : Mem := []
  segment : Mem := []
  segmentSize : Nat := 0
  rows : Tab RowPower := []
  rowPolicy : U64 := 0
  flight : List Message := []
  creditsDue : List (Nat × Nat) := []
  stateMap : List StateMap := []
  tableMap : List TableMap := []
deriving DecidableEq, Repr

end Sys2Proof.Machine
end

