-- ==== Sys2Proof/Machine/Types/Operand.lean ====
section
/-! DEFINITION. Types of what commands carry from outside: measured values, deliveries, replies (assumption log 6). -/

namespace Sys2Proof.Machine

/-- What GET_MEASUREMENTS asks for: how many there are, one by its index (20 Table 20.8), or all. -/
inductive MeasAsk where
  | count
  | one (index : Nat)
  | all
deriving DecidableEq, Repr

/-- What is measured of an analog channel in a tick: the reading in its native unit, binary32 (13 Table 13.2), and what the checks
of Table 13.4 look at beside it: resistance in ohm, excitation current in µA, and whether the source stands at compliance. -/
structure AnalogIn where
  chan : Nat
  value : F32
  ohm : Nat := 1000
  microAmp : Nat := 500
  compliance : Bool := false
deriving DecidableEq, Repr

/-- A measured pulse input: accepted edges in the tick window, the time in units of 5 ns from the first to the last of them, or
of the last full period where there are fewer than two, whether narrow pulses were rejected, and whether the line rested between
its thresholds (13 R331). -/
structure PulseIn where
  chan : Nat
  edges : Nat
  time : Option Nat
  glitch : Bool := false
  floating : Bool := false
deriving DecidableEq, Repr

/-- One evaluation of a leak channel, of which there is one every ms (13 R326, R330): conductance less the end-of-line resistor's in
µS, loop resistance in ohm, whether the end-of-line resistor is seen and its current in percent of the expected, and whether the
excitation is in regulation. -/
structure LeakIn where
  chan : Nat
  conductance : Nat
  loopOhm : Nat
  eolSeen : Bool := false
  eolPercent : Nat := 100
  regulated : Bool := true
deriving DecidableEq, Repr

/-- What a motor engine measures in a current-loop period: observer speed, signed, and tach, rpm; bus voltage, 0.1 V (11
Table 11.3); whether the TACH input showed an edge (11 R292). -/
structure MotorIn where
  chan : Nat
  omega : Int
  tach : Nat
  vbus : Nat
  edge : Bool := true
deriving DecidableEq, Repr

/-- A flow-stop detector (10 R271). -/
inductive Detector where
  | group (g : Fin 4)
  | rack (k : Fin 16)
deriving DecidableEq, Repr

/-- What a detector's 25 µs samples have measured (10 R271): the differential pressure (P16) and the µs for which it has stood on
its side of the collapse level, the µs since the last edge of the flow pulse input, and those for which pulses have been present
without a gap. -/
structure DetectorIn where
  dp : Nat
  dpUs : Nat
  gapUs : Nat
  pulseUs : Nat
deriving DecidableEq, Repr

/-- A frame from a tray (09 R238, R243): source addresses, whether its UDP, IPv6 and checksum form keeps R238, and the UDP
payload. -/
structure UpFrame where
  mac : List Byte
  ipv6 : List Byte
  formOk : Bool
  payload : List Byte
deriving DecidableEq, Repr

/-- What closes into an input frame at T0 (02 R37-R39), and the coil currents (mA) and boost voltages (0.1 V) that
RM-VALVE measures (12 Tables 12.6, 12.8). -/
structure TickInputs where
  analog : List AnalogIn := []
  leak : List LeakIn := []
  pulse : List PulseIn := []
  coils : List (Nat × Nat) := []
  boost : List (Nat × Nat) := []
deriving DecidableEq, Repr

/-- An output as a lane delivers it to the Hall of Mirrors (15 Table 15.1); no value is what the lane has computed, a value what a
faulty lane delivers in its place. -/
inductive Delivery where
  | loop (n : Nat) (o : Option LoopOut)
  | result (k : ResultKind) (target source due : Nat) (v : Option ResultVal)
  | speedFloor (group : Nat) (rpm : Option Nat)
  | permit (motor : Nat) (granted : Option Bool)
  | valve (cmd : Nat) (entry : Nat) (chan : Nat) (action : Nat)
  | completion (tag : U32)
deriving DecidableEq, Repr

end Sys2Proof.Machine
end

