-- ==== Sys2Proof/Syntax.lean ====
section
/-! DEFINITION. The commands of the block: one constructor per row of spec/opcode_table.json, in its order. No row has
bits, so the operands are the model's (assumption log 5, 6): a host opcode carries its packet as executed, a register
or window access its offset and data, an event the lane, channel, tray or rack it concerns and the values measured. -/

namespace Sys2Proof

open Machine

inductive Instr where
  -- 18 Table 18.8: host opcodes
  | nopEcho (p : Packet)
  | getIdentity (p : Packet)
  | snapshotRead (p : Packet) (dmaOk : Bool)
  | resultFetch (p : Packet)
  | queueBarrier (p : Packet)
  | hostHeartbeat (p : Packet)
  | loopConfigure (p : Packet)
  | loopSetMode (p : Packet)
  | loopSetPoint (p : Packet)
  | loopStatus (p : Packet)
  | modelStage (p : Packet)
  | modelActivate (p : Packet)
  | modelStatus (p : Packet)
  | couplingAccess (p : Packet)
  | forecastRead (p : Packet)
  | jobDefine (p : Packet)
  | rowEnvelopeSet (p : Packet)
  | capSet (p : Packet)
  | pacePolicySet (p : Packet)
  | swingPolicySet (p : Packet)
  | governorStatus (p : Packet)
  | pumpConfigure (p : Packet)
  | fanConfigure (p : Packet)
  | motorCommand (p : Packet)
  | skipBandsSet (p : Packet)
  | networkConfigure (p : Packet)
  | valveConfigure (p : Packet)
  | valveCommand (p : Packet)
  | valveStatus (p : Packet)
  | inputConfigure (p : Packet)
  | leakConfigure (p : Packet)
  | harnessRead (p : Packet)
  | busConfigure (p : Packet)
  | busAutobaud (p : Packet)
  | modeRequest (p : Packet)
  | trapezeDrill (p : Packet)
  | laneStatus (p : Packet)
  | eventRead (p : Packet) (dmaOk : Bool)
  | captureRequest (p : Packet)
  | captureRead (p : Packet)
  | updateStage (p : Packet) (norOk : Bool)
  | updateActivate (p : Packet)
  | updateConfirm (p : Packet)
  | updateStatus (p : Packet) (dmaOk : Bool)
  | attest (p : Packet) (dmaOk : Bool)
  | lifecycleSet (p : Packet)
  -- 18: protocol steps
  | commandDelivery
  | deliveryCommit (ackA ackB : Bool)
  | completionWrite (sq : Fin 8) (dmaOk : Bool)
  | heldResultReady (tag : U32)
  | cqCoalesceTimeout (us : Nat)
  -- 17, 02, 14: register and window accesses
  | genReset (value : U32)
  | viewHoldWrite (hold : Bool)
  | loRegisterRead (off : Nat)
  | hiRegisterRead (off : Nat)
  | rcRegisterRead (off : Nat)
  | sqTailDoorbell (q : Fin 8) (value : U32)
  | cqHeadDoorbell (value : U32)
  | sqEnableWrite (q : Fin 8) (value : U32)
  | cqEnableWrite (value : U32)
  | dpDataAccess (write wide : Bool) (data : U64)
  | dpApertureAccess (off : Fin 4096) (write wide : Bool) (data : U64)
  | bar2Access (off : Fin 0x40000000) (write wide : Bool) (data : U64)
  | laneHoldWrite (value : U32)
  | canBufferLock (chan : Fin 16) (buf : Fin 64)
  | canBufferRelease (chan : Fin 16) (buf : Fin 64)
  | registerWrite (off : Nat) (value : U32) (whole : Bool)
  | latchedWritesApply
  -- 17 R433, 20 R500: DOE and SPDM requests
  | doeDiscovery (index : Byte)
  | doeAbort
  | getVersion
  | getCapabilities (version : Nat)
  | negotiateAlgorithms (ed25519 : Bool) (sha512 : Bool) (measSha512 : Bool)
  | getDigests
  | getCertificate (slot : Nat) (offset : Nat) (length : Nat)
  | challenge (slot : Nat) (nonce : List Byte)
  | getMeasurements (ask : MeasAsk) (sign : Bool) (nonce : List Byte)
  -- 17, 21, 12, 16: resets, power, boot
  | perstN
  | hotReset
  | functionLevelReset
  | d3hotEntry
  | d0Return
  | powerOnReset (tcritSel : Fin 8) (netSpd : Fin 4)
  | powerFail
  | actuatorSupplyLost
  | actuatorSupplyReturn
  | strongmanReady (supply : Fin 2)
  | strongmanFault (supply : Fin 2)
  | strongmanRetry (supply : Fin 2)
  | rmBootComplete
  -- 02: the tick
  | tickStart (inp : TickInputs)
  | frameReady
  | laneOutputDelivery (l : LaneId) (ns : Nat) (d : Delivery)
  | loopReleaseDeadline (loop : Fin 256)
  | releaseWindowOpen
  | releaseWindowClose
  | stepComplete (l : LaneId)
  | stepAbort
  | viewPublish
  | viewHoldExpiry
  | gptpSyncReceived (port : Fin 4) (time : U64) (phaseErr : Int)
  | syncTimeout (port : Fin 4)
  -- 05: tile array events
  | tileBlockFire (l : LaneId) (t : Fin 1024)
  | messageArrival (l : LaneId) (t : Fin 1024)
  | creditArrival (l : LaneId) (t : Fin 1024) (route : Fin 16)
  | dmaCompletion (l : LaneId) (t : Fin 1024)
  | outputCollect (l : LaneId) (y : Fin 32)
  -- 06: tile instructions, bits 25:0 of the word
  | alu (l : LaneId) (t : Fin 1024) (w : BitVec 26)
  | addi (l : LaneId) (t : Fin 1024) (w : BitVec 26)
  | andi (l : LaneId) (t : Fin 1024) (w : BitVec 26)
  | ori (l : LaneId) (t : Fin 1024) (w : BitVec 26)
  | xori (l : LaneId) (t : Fin 1024) (w : BitVec 26)
  | lui (l : LaneId) (t : Fin 1024) (w : BitVec 26)
  | shi (l : LaneId) (t : Fin 1024) (w : BitVec 26)
  | falu (l : LaneId) (t : Fin 1024) (w : BitVec 26)
  | fcmp (l : LaneId) (t : Fin 1024) (w : BitVec 26)
  | fcvt (l : LaneId) (t : Fin 1024) (w : BitVec 26)
  | ld (l : LaneId) (t : Fin 1024) (w : BitVec 26)
  | st (l : LaneId) (t : Fin 1024) (w : BitVec 26)
  | ldv (l : LaneId) (t : Fin 1024) (w : BitVec 26)
  | stv (l : LaneId) (t : Fin 1024) (w : BitVec 26)
  | ldacc (l : LaneId) (t : Fin 1024) (w : BitVec 26)
  | stacc (l : LaneId) (t : Fin 1024) (w : BitVec 26)
  | br (l : LaneId) (t : Fin 1024) (w : BitVec 26)
  | dbnz (l : LaneId) (t : Fin 1024) (w : BitVec 26)
  | jr (l : LaneId) (t : Fin 1024) (w : BitVec 26)
  | endBlock (l : LaneId) (t : Fin 1024) (w : BitVec 26)
  | stepend (l : LaneId) (t : Fin 1024) (w : BitVec 26)
  | mma (l : LaneId) (t : Fin 1024) (w : BitVec 26)
  | acc (l : LaneId) (t : Fin 1024) (w : BitVec 26)
  | vop (l : LaneId) (t : Fin 1024) (w : BitVec 26)
  | vcvt (l : LaneId) (t : Fin 1024) (w : BitVec 26)
  | vmisc (l : LaneId) (t : Fin 1024) (w : BitVec 26)
  | ivop (l : LaneId) (t : Fin 1024) (w : BitVec 26)
  | ivcvt (l : LaneId) (t : Fin 1024) (w : BitVec 26)
  | send (l : LaneId) (t : Fin 1024) (w : BitVec 26)
  | release (l : LaneId) (t : Fin 1024) (w : BitVec 26)
  | chhead (l : LaneId) (t : Fin 1024) (w : BitVec 26)
  | dma (l : LaneId) (t : Fin 1024) (w : BitVec 26)
  | srr (l : LaneId) (t : Fin 1024) (w : BitVec 26)
  | flags (l : LaneId) (t : Fin 1024) (w : BitVec 26)
  -- 01, 15, 16: lanes, fail-over, start-up
  | flitLost (l : LaneId) (frame : Bool)
  | laneSilentLost (l : LaneId)
  | selfCheckFailure (l : LaneId) (tile : Option Nat)
  | mergeLimitReached
  | authorityGrant
  | authorityAck (l : LaneId)
  | authorityAckTimeout
  | drillGrant
  | refereeCrossCheckFail
  | laneWipeDone (l : LaneId)
  | laneSelfTestDone (l : LaneId) (failed : List Nat) (linkFault : Bool)
  | resyncCopyDone (l : LaneId)
  | resyncJoin (l : LaneId)
  | resyncTimeout (l : LaneId)
  | laneLinkFailure
  | lockstepDisagree
  | rmWatchdogExpiry
  | rmRestartComplete
  | laneQualified (l : LaneId)
  | laneReady (l : LaneId)
  | startWaitExpiry
  | autoPredictiveEntry
  | hostWatchdogExpiry
  | deferredWatchdogExpiry
  -- 07: images
  | modelStageDone (slot : Fin 8)
  | activationPrepareDone
  | activationBoundary
  | activationLoadDone
  | activationStartDone
  | activationFirstGrant
  -- 04: row thermal model
  | hourWindowStart
  | sweepDigest
  | sensorSuspect (chip : Fin 4096)
  | sensorClear (chip : Fin 4096)
  | capacitySample
  -- 08: governor
  | syncActiveEntry (job : Fin 256)
  | syncActiveEnd (job : Fin 256)
  | shedRepeat (scope : Nat)
  | shedClear (scope : Nat)
  | overCap (chip : Fin 4096)
  -- 09: tray link
  | telemetry (port : Fin 4) (frame : UpFrame)
  | resync (port : Fin 4) (frame : UpFrame)
  | trayMissing (tray : Fin 512)
  | trayLost (tray : Fin 512)
  | trayRecordChange (tray : Fin 512)
  | portDown (port : Fin 4)
  | portUp (port : Fin 4)
  | neighbourSolicitation (port : Fin 4)
  | flowLoss (rack : Fin 16) (us : Nat)
  | flowLossRelease (rack : Fin 16) (us : Nat)
  | coolFaultRelease (rack : Fin 16)
  -- 10: coolant network
  | flowSupervisorEval
  | lagStageUp (group : Fin 4)
  | lagStageDown (group : Fin 4)
  | leadRotation (group : Fin 4) (steadyS : Nat)
  | hxApproach
  | hxSupplyHigh
  | hxClear (supply : Bool)
  | detectorArmed (d : Detector) (inp : DetectorIn)
  | flowStop (d : Detector) (inp : DetectorIn)
  | flowStopClear (d : Detector) (inp : DetectorIn)
  | isolationExitBypass (rack : Fin 16)
  -- 11: pump and fan drive
  | currentLoopPeriod (inp : List MotorIn)
  | startAttempt (m : Fin 56)
  | alignEnd (m : Fin 56)
  | rampEnd (m : Fin 56)
  | verifyEnd (m : Fin 56) (emfOk : Bool)
  | rotorSpinTimeout (m : Fin 56)
  | startRetry (m : Fin 56)
  | attemptCountClear (m : Fin 56)
  | inverterFault (m : Fin 56)
  | overcurrentTrip (m : Fin 56)
  | motorTripRestart (m : Fin 56)
  | motorOverspeed (m : Fin 56)
  | runningStall (m : Fin 56)
  | groupOverrideEnd (m : Fin 56)
  | busUndervoltage (m : Fin 56)
  | busOvervoltage (m : Fin 56)
  | busVoltageRestored (m : Fin 56)
  | tachFault (m : Fin 56)
  | tachClear (m : Fin 56)
  | tachMismatch (m : Fin 56)
  -- 12: valve drive
  | valveEntryApply
  | pullInEnd (v : Fin 64)
  | decayEnd (v : Fin 64)
  | deferredStart (v : Fin 64)
  | valveDeferFault (v : Fin 64)
  | boostWaitExpiry
  | valveDegradedPullin (v : Fin 64)
  | valveOpenCoil (v : Fin 64)
  | valveShortedCoil (v : Fin 64) (mA : Nat)
  | valveStuckOn (v : Fin 64)
  | highSideSwitchFault (v : Fin 64)
  | valveHoldLow (v : Fin 64)
  | decayTooSlow (v : Fin 64)
  | pairImbalance (v : Fin 64)
  -- 13: sensing and leak detection
  | inputFault (chan : Fin 256) (which : Fin 4)
  | inputClear (chan : Fin 256) (which : Fin 4)
  | settlingEnd (chan : Fin 256)
  | inputSuspect (chan : Fin 256) (on : Bool) (lo hi : Int) (ticks : Nat)
  | sysShdn (chan : Fin 16) (us : Nat)
  | tcritStrapChanged (tcritSel : Fin 8) (netSpd : Fin 4)
  | leakWet (chan : Fin 64) (mohm : Option Nat)
  | leakBreak (chan : Fin 64)
  | leakDry (chan : Fin 64)
  | leakFault (chan : Fin 64)
  | pulseFloating (chan : Fin 64)
  | pulseZero (chan : Fin 64)
  | harnessPresenceGain (rack : Fin 16)
  | harnessRemoved (rack : Fin 16)
  | harnessReadDone (rack : Fin 16) (mem : List Byte)
  -- 14: fieldbus
  | canFrameReceived (chan : Fin 16) (f : CanFrame)
  | canFdIgnored (chan : Fin 16)
  | canOutSend (entry : Nat)
  | canEntryStale (entry : Nat)
  | busErrorPassive (chan : Fin 16) (tec recc : Nat)
  | busOff (chan : Fin 16)
  | busRecovered (chan : Fin 16)
  | busHoldOffEnd (chan : Fin 16)
  | canLockExpiry (chan : Fin 16) (buf : Fin 64)
  | autobaudCandidateEnd (chan : Fin 16) (error : Bool)
  -- 19: event recorder
  | eventStage (l : Option LaneId) (e : Event)
  | eventSeqAssign
  | gap (l : Option LaneId)
  | eventRingWrite
  | emmcWriteFault
  | countRecord (counter : Fin 7)
  | captureWriteStart
  | captureDone
  -- 20: update and life cycle
  | handoverStep
  | rmSwap
  | partConfirmed (part : Nat)
  | partFailed (part : Nat)
  | trialExpired
  | updateConfirmed
  | updateRollback
  | lifecycleReset
  -- the remaining rows
  | laneLinkReturn
  | leakBreakClear (chan : Fin 64)
  | rowWakeComplete (l : LaneId) (y : Fin 32)
  | canFrameSent (entry : Nat)
  | peakCurrentReached (v : Fin 64) (us : Nat) (boosted : Bool)
  | faultyPacket (q : Fin 8) (bs : List Byte) (dmaOk : Bool)
deriving DecidableEq, Repr

end Sys2Proof
end

