-- ==== Sys2Proof/Decode.lean ====
section
/-! DEFINITION. The command a word of the table spells. No row of spec/opcode_table.json gives bits (every row's fields
are empty), so no word spells a command. -/

namespace Sys2Proof

/-- The command spelt by `nbits` bits `w` of the table: none, since no row gives bits (assumption log 4). -/
def decodeTableWord (_nbits _w : Nat) : Option Instr := none

end Sys2Proof
end

