-- ==== Sys2Proof/Config.lean ====
section
/-! DEFINITION. What the spec leaves open and what lies outside it: free values, which no proof can evaluate. Each is
an opaque constant; its arguments are the operands it depends on, or the counter `State.fresh` for a new value. -/

namespace Sys2Proof.Config

/-- A free 32-bit value: what the spec leaves open at its `n`-th use in a run (assumption log 2). -/
opaque freeWord : Nat → U32

/-- A free number of predicted ticks, at least 1 once `predicted` below clamps it (16 R407; assumption log 14). -/
opaque freeTicks : Nat → Nat

/-- Whether an Ed25519 signature verifies: key set, message, signature (20 R485; assumption log 10). -/
opaque ed25519Verify : Nat → List Byte → List Byte → Bool

/-- Whether an ML-DSA-65 signature verifies: key set, message, signature (20 R485; assumption log 10). -/
opaque mlDsaVerify : Nat → List Byte → List Byte → Bool

/-- The device's Ed25519 signature over a message, 64 bytes (20 R499, R501; assumption log 10). -/
opaque ed25519Sign : List Byte → List Byte

/-- The device's ML-DSA-65 signature over a digest, 3,309 bytes (20 R501; assumption log 10). -/
opaque mlDsaSign : List Byte → List Byte

/-- The certificate chain of an algorithm: 0 Ed25519, 1 ML-DSA-65 (20 R499; assumption log 10). -/
opaque certChain : Nat → List Byte

/-- A signature of the SPDM responder at its `n`-th use: it covers a transcript whose layout is DMTF SPDM 1.3's, which the spec names
and does not repeat (20 R500; assumption log 10). -/
opaque spdmSignature : Nat → List Byte

/-- Bits 15:0 of a configuration record's key, by opcode group or register block and the record's place in it: 20 Table 20.7 names
an instance and numbers none (assumption log 29). -/
opaque storeInstance : Nat → Nat → BitVec 16

/-- Whether tininess is judged after rounding: IEEE 754-2019 leaves the choice open and 06 R165 does not make it (assumption
log 25). -/
opaque tinyAfterRounding : Bool

/-- The absent interval that an input binding declares, by image and binding index: 04 R90 names it and 07 Table 7.6 gives it
no field, so outside temperatures it is a free value; a point tensor enters its lower bound (assumption log 26). -/
opaque absentInterval : Nat → Nat → F32 × F32

/-- The reference model's image as the loader completes it, by what it adds: loop, tolerance, sp_min, sp_max and served
racks of each added binding (07 R192, R528; assumption log 12). -/
opaque referenceImage : List (Nat × F32 × F32 × F32 × Nat) → List Byte

/-- Format, accuracy, tile and channel of the reference model's input binding of an index, which 07 R528 does not state
(assumption log 12). -/
opaque referenceBinding : Nat → Nat × F32 × Nat × Nat

/-- Entries of a Row Coupling Table that nothing has written (assumption log 12). -/
opaque tableEntry : Nat → U32

/-- The 64-bit digest of a Row Coupling Table, whose function 04 R97 does not state (assumption log 27). -/
opaque tableDigest : (Nat → U32) → U64

end Sys2Proof.Config
end

