-- ==== Sys2Proof/Machine/Bytes.lean ====
section
/-! DEFINITION. Little-endian fields of structures (00 R5), signed fields, bit fields, and CRC-32C (19 Table 19.1). -/

namespace Sys2Proof.Machine

/-- `n` bytes of the value `v`, low byte first (00 R5). -/
def leBytes : Nat → Nat → List Byte
  | 0, _ => []
  | n + 1, v => BitVec.ofNat 8 v :: leBytes n (v / 256)

/-- The value of a list of bytes, low byte first (00 R5). -/
def leNat : List Byte → Nat
  | [] => 0
  | b :: bs => b.toNat + 256 * leNat bs

/-- The `n`-byte field at offset `off`; bytes past the end read as 0. -/
def fieldAt (bs : List Byte) (off n : Nat) : Nat := leNat ((bs.drop off).take n)

def u8At (bs : List Byte) (off : Nat) : Nat := fieldAt bs off 1
def u16At (bs : List Byte) (off : Nat) : Nat := fieldAt bs off 2
def u32At (bs : List Byte) (off : Nat) : Nat := fieldAt bs off 4
def u64At (bs : List Byte) (off : Nat) : Nat := fieldAt bs off 8

/-- A binary32 field. -/
def f32At (bs : List Byte) (off : Nat) : F32 := BitVec.ofNat 32 (u32At bs off)

/-- `n` bytes at `off`. -/
def bytesAt (bs : List Byte) (off n : Nat) : List Byte := (bs.drop off).take n

def le8 (v : Nat) : List Byte := leBytes 1 v
def le16 (v : Nat) : List Byte := leBytes 2 v
def le32 (v : Nat) : List Byte := leBytes 4 v
def le64 (v : Nat) : List Byte := leBytes 8 v
def leW (w : U32) : List Byte := leBytes 4 w.toNat

/-- `n` zero bytes: reserved fields the module writes (00 R7). -/
def zeros (n : Nat) : List Byte := List.replicate n 0

/-- Whether all bytes of a range are zero (00 R7). -/
def zeroRange (bs : List Byte) (off n : Nat) : Bool := (bytesAt bs off n).all (· == 0)

/-- Exactly `n` bytes: cut, or filled with zeros. -/
def fitBytes (n : Nat) (bs : List Byte) : List Byte := bs.take n ++ zeros (n - bs.length)

/-- Bits `hi` to `lo` of a number. -/
def bits (v hi lo : Nat) : Nat := (v >>> lo) % 2 ^ (hi + 1 - lo)

/-- Bit `i` of a number. -/
def bit (v i : Nat) : Bool := Nat.testBit v i

/-- 1 for true. -/
def flag (b : Bool) : Nat := if b then 1 else 0

/-- Packs flags, the first at bit 0. -/
def packFlags : List Bool → Nat
  | [] => 0
  | b :: bs => flag b + 2 * packFlags bs

/-- Bits of a list of indices set. -/
def maskOf (l : List Nat) : Nat := l.foldl (fun m i => m ||| (1 <<< i)) 0

/-- The signed value of an `n`-bit field (two's complement). -/
def sext (n v : Nat) : Int := if v % 2 ^ n < 2 ^ (n - 1) then ((v % 2 ^ n : Nat) : Int) else ((v % 2 ^ n : Nat) : Int) - ((2 ^ n : Nat) : Int)

/-- The `n`-bit two's complement field of a signed value. -/
def unsext (n : Nat) (v : Int) : Nat := (v % ((2 ^ n : Nat) : Int)).toNat

/-- The lesser of `v` and the greatest `n`-bit value below all ones (00 R10). -/
def satBelow (n v : Nat) : Nat := if v < 2 ^ n - 1 then v else 2 ^ n - 2

/-- A saturating counter of `n` bits. -/
def satTo (n v : Nat) : Nat := if v < 2 ^ n then v else 2 ^ n - 1

/-- All ones of 32 bits: the number of nothing (19 Table 19.1). -/
def none32 : U32 := 0xFFFFFFFF

/-- A 32-bit word of a number. -/
def w32 (n : Nat) : U32 := BitVec.ofNat 32 n

/-- Low and high 32-bit words of a 64-bit count. -/
def lo32 (n : Nat) : U32 := BitVec.ofNat 32 n
def hi32 (n : Nat) : U32 := BitVec.ofNat 32 (n / 2 ^ 32)

/-- An epoch field: the epoch, or all ones for none. -/
def epochField : Option Nat → Nat
  | some e => e
  | none => 0xFFFFFFFFFFFFFFFF

/-- One bit step of CRC-32C, reflected polynomial 0x82F63B78. -/
def crcBit (c : Nat) : Nat := if c % 2 = 1 then (c / 2) ^^^ 0x82F63B78 else c / 2

/-- One byte of CRC-32C. -/
def crcByte (c : Nat) (b : Byte) : Nat :=
  crcBit (crcBit (crcBit (crcBit (crcBit (crcBit (crcBit (crcBit (c ^^^ b.toNat))))))))

/-- CRC-32C (Castagnoli) of a list of bytes. -/
def crc32c (bs : List Byte) : U32 := BitVec.ofNat 32 ((bs.foldl crcByte 0xFFFFFFFF) ^^^ 0xFFFFFFFF)

/-- Whether all of a list's numbers are distinct. -/
def distinct (l : List Nat) : Bool :=
  match l with
  | [] => true
  | x :: xs => !xs.contains x && distinct xs

/-- The first index from `i` on at which `f` answers something. -/
def firstSome {α β : Type} (f : Nat → α → Option β) : Nat → List α → Option β
  | _, [] => none
  | i, x :: xs =>
    match f i x with
    | some b => some b
    | none => firstSome f (i + 1) xs

/-- Pieces of `n` bytes each, `k` of them. -/
def chunks (bs : List Byte) (n : Nat) : Nat → List (List Byte)
  | 0 => []
  | k + 1 => bs.take n :: chunks (bs.drop n) n k

end Sys2Proof.Machine
end

