-- ==== Sys2Proof/Machine/Records.lean ====
section
/-! DEFINITION. Configuration records by their index. -/

namespace Sys2Proof.Machine

/-- A channel's analog record: at power-on AI0-AI15 are PT1000 and every other channel is OFF (13 R315). -/
def Cfg.analogRec (c : Cfg) (n : Nat) : AnalogRec := (Tab.get none c.analog n).getD { ty := if n < 16 then 1 else 0 }

/-- The record of pump group `g`. -/
def Topology.group (t : Topology) (g : Nat) : PumpGroup := Tab.get ({} : PumpGroup) t.groups g

/-- The record of rack `k`. -/
def Topology.rack (t : Topology) (k : Nat) : RackRec := Tab.get ({} : RackRec) t.racks k

end Sys2Proof.Machine
end

