-- ==== Sys2Proof/Machine/State.lean ====
section
/-! DEFINITION. The state of the module as plain data, its reset value, and the reasons a step can stop. Every field of
every part has a default, and that default is its value at reset; the assumption log says which are the spec's and
which the model's (log 1). -/

namespace Sys2Proof.Machine

/-- What one lane keeps: run state, spare tiles fused off and tiles fenced, by physical tile 34y + column (01 R17, 05 R141), DRAM by device address below 0x06_0000_0000
(01 Table 1.7), tile array, loop slots, governor, model runtime, step, Ferris Wheel by epoch modulo 960,000 (19 R473),
staging queue (19 R466), corrected-error count (01 R18). The default is the lane after its wipe (01 R24). -/
structure Lane where
  run : LaneRun := .reset
  ready : Bool := false
  fused : List Nat := []
  fenced : List Nat := []
  eccCorrected : Nat := 0
  dram : Mem := []
  array : ArraySt := {}
  loops : Tab LoopSlot := []
  gov : GovSt := {}
  model : ModelSt := {}
  step : StepSt := {}
  ferris : Tab Frame := []
  staging : Staging := {}
deriving DecidableEq, Repr

/-- The +48 V input: a power-fail has begun, and lasts until the power-on reset (21 R512). -/
structure PowerSt where
  failing : Bool := false
deriving DecidableEq, Repr

/-- What the outputs at the field show: the loop outputs the Hall of Mirrors last released (02 R42), the set-points and
feed-forwards last released (02 R43), the bindings with a result
released since the first grant of the present activation (03 R66), and the cap set last released (02 R530). -/
structure Released where
  loopOut : Tab (Option F32) := []
  setPoint : Tab (Option F32) := []
  feedFwd : Tab (Option F32) := []
  sinceGrant : List (ResultKind × Nat) := []
  caps : Tab CapFloor := []
  capEpoch : Option Nat := none
  netActive : Bool := true
deriving DecidableEq, Repr

/-- Non-volatile contents beside the fuses: the two configuration copies (01 Table 1.3) by bank, and the store's own
generation of each. -/
structure NorSt where
  running : Cfg := {}
  alternate : Cfg := {}
deriving DecidableEq, Repr

/-- The module. `due` holds accepted configuration that takes effect at the
next T0, `passDue` what takes effect at the next governor pass (08 R208), `govWait` the governor commands that wait for their cap set; `pending` is the queue of commands that are waiting; `fresh` counts the free values used (the model's
own field, assumption log 2). -/
structure State where
  pending : List Instr := []
  fresh : Nat := 0
  power : PowerSt := {}
  gen : GenSt := {}
  hif : HifSt := {}
  dport : DportSt := {}
  spdm : SpdmSt := {}
  proto : ProtoSt := {}
  tick : TickSt := {}
  mode : ModeSt := {}
  laneCtl : LaneCtlSt := {}
  laneA : Lane := {}
  laneB : Lane := {}
  cfg : Cfg := {}
  due : List CfgItem := []
  passDue : List CfgItem := []
  govWait : List GovWait := []
  nor : NorSt := {}
  rel : Released := {}
  img : ImgSt := {}
  tray : TraySt := {}
  cool : CoolSt := {}
  motors : Tab Motor := []
  valve : ValveSt := {}
  sense : SenseSt := {}
  bus : BusSt := {}
  evt : EvtSt := {}
  upd : UpdSt := {}
  hostMem : Mem := []
deriving DecidableEq, Repr

/-- The module right after reset: every field at its reset value, the queue empty. -/
def State.reset : State := {}

/-- Reasons to stop. The spec gives every condition of the block a next state, so no meaning raises one. -/
inductive Fault where
  /-- Raised by nobody: no rule of the spec stops the block as a whole. Safe, since no step answers it. -/
  | never
deriving DecidableEq, Repr

/-- Refusals: a command this model gives no meaning. -/
inductive Refusal where
  /-- Raised by an arm of `exec` whose command has no meaning in this model. Safe: the machine stops there. -/
  | notModelled (mnemonic : String)
deriving DecidableEq, Repr

/-- The state of lane `l`. -/
def State.lane (s : State) : LaneId → Lane
  | .A => s.laneA
  | .B => s.laneB

/-- Puts `x` in place of lane `l`. -/
def State.setLane (s : State) (l : LaneId) (x : Lane) : State :=
  match l with
  | .A => { s with laneA := x }
  | .B => { s with laneB := x }

end Sys2Proof.Machine
end

