-- ==== Sys2Proof/Machine/Ops.lean ====
section
/-! DEFINITION. Named operations every family uses: the lanes that run, event records (19), event registers and MSI-X
vectors (17 R425), free values, and the configuration in force and in the store. -/

namespace Sys2Proof.Machine

/-- The length of an unbroken run of observations in which a condition holds, after one more. -/
def runOf (holds : Bool) (n : Nat) : Nat := if holds then n + 1 else 0

/-! ## Lanes -/

/-- The lane executes lane functions (Table 15.6 codes 5 to 7). -/
def LaneRun.isRunning : LaneRun → Bool
  | .standby | .active | .running => true
  | _ => false

/-- The code of Table 15.6. -/
def LaneRun.code : LaneRun → Nat
  | .reset => 0 | .wipe => 1 | .test => 2 | .copy => 3 | .joinWait => 4 | .standby => 5 | .active => 6 | .running => 7

def Lane.isRunning (x : Lane) : Bool := x.run.isRunning

/-- A lane is RUNNING (16 R408). -/
def State.anyLane (s : State) : Bool := s.laneA.isRunning || s.laneB.isRunning

/-- Both lanes are running. -/
def State.bothLanes (s : State) : Bool := s.laneA.isRunning && s.laneB.isRunning

/-- The lane whose content counts: the active lane, or a running lane where none is active (18 R442, 19 R467). -/
def State.mainLane (s : State) : Option LaneId :=
  if s.laneA.run = .active then some .A
  else if s.laneB.run = .active then some .B
  else if s.laneA.isRunning && (s.laneCtl.preNetActive = .A || !s.laneB.isRunning) then some .A
  else if s.laneB.isRunning then some .B
  else none

/-- That lane's state, or a wiped lane where none runs. -/
def State.main (s : State) : Lane :=
  match s.mainLane with
  | some l => s.lane l
  | none => {}

/-- Applies `f` in every running lane: both compute alike (01 R31). -/
def State.onLanes (s : State) (f : Lane → Lane) : State :=
  { s with
    laneA := if s.laneA.isRunning then f s.laneA else s.laneA
    laneB := if s.laneB.isRunning then f s.laneB else s.laneB }

/-- Applies `f` in lane `l`. -/
def State.onLane (s : State) (l : LaneId) (f : Lane → Lane) : State := s.setLane l (f (s.lane l))

/-- The redundancy axis is NET. -/
def State.inNet (s : State) : Bool := s.laneCtl.redundancy = .net

/-- The epoch of the tick in progress (02 R35). -/
def State.now (s : State) : Nat := s.tick.epoch

/-! ## Free values (assumption log 2) -/

/-- The next free number: `State.fresh` counts them. -/
def State.takeFree (s : State) : Nat × State := (Config.freeTicks s.fresh, { s with fresh := s.fresh + 1 })

/-! ## Event records -/

namespace Cls
def info := 0
def notice := 1
def warning := 2
def alarm := 3
def prot := 4
def faultC := 5
end Cls

/-- The GAP record of 19 R468. -/
def gapEvent (origin lostOrigin count firstEpoch now : Nat) (time : U64) : Event :=
  { cls := Cls.warning, origin := origin, ty := 0x0001, epoch := now, time := time, subject := w32 lostOrigin
    data := [w32 (satTo 32 count), lo32 firstEpoch, hi32 firstEpoch] }

/-- Puts a record into the Ringmaster queue of 512, a GAP record first where records were lost and room has returned;
a full queue counts the record as lost (19 R466, R468). -/
def EvtSt.stageRm (q : EvtSt) (e : Event) : EvtSt :=
  if 0 < q.rmLost then
    if q.rmQueue.length + 2 ≤ 512 then
      { q with
        rmQueue := q.rmQueue ++ [gapEvent 1 q.rmLostOrigin q.rmLost q.rmLostEpoch e.epoch e.time, e]
        rmLost := 0, cntLost := q.cntLost + q.rmLost }
    else { q with rmLost := q.rmLost + 1 }
  else if q.rmQueue.length < 512 then { q with rmQueue := q.rmQueue ++ [e] }
  else { q with rmLost := 1, rmLostEpoch := e.epoch, rmLostOrigin := e.origin }

/-- Puts a record into a lane's staging queue of 4,096 under its next lane index (19 R466, R468). -/
def Staging.stage (q : Staging) (laneCode : Nat) (e : Event) : Staging :=
  if 0 < q.lost then
    if q.queue.length + 2 ≤ 4096 then
      { q with
        queue := q.queue ++ [(q.nextIdx, gapEvent laneCode laneCode q.lost q.lostEpoch e.epoch e.time), (q.nextIdx + 1, e)]
        nextIdx := q.nextIdx + 2, lost := 0 }
    else { q with lost := q.lost + 1 }
  else if q.queue.length < 4096 then { q with queue := q.queue ++ [(q.nextIdx, e)], nextIdx := q.nextIdx + 1 }
  else { q with lost := 1, lostEpoch := e.epoch }

/-- Logs a Ringmaster record of the tick in progress; origin 0 hardware, 1 firmware, or the interface of a change. -/
def State.logRm (s : State) (cls ty : Nat) (subject : U32) (data : List U32) (origin : Nat := 0) : State :=
  let e : Event := { cls := cls, origin := origin, ty := ty, epoch := s.now, time := s.tick.t0Time, subject := subject, data := data }
  { s with evt := s.evt.stageRm e }

/-- Logs a lane record in one lane (origin 2 or 3, or the interface of a change). -/
def State.logIn (s : State) (l : LaneId) (cls ty : Nat) (subject : U32) (data : List U32) (origin : Option Nat := none) : State :=
  let code := match l with | .A => 2 | .B => 3
  let e : Event := { cls := cls, origin := origin.getD code, ty := ty, epoch := s.now, time := s.tick.t0Time, subject := subject, data := data }
  s.onLane l fun x => { x with staging := x.staging.stage code e }

/-- Logs a lane record in every running lane. -/
def State.logLanes (s : State) (cls ty : Nat) (subject : U32) (data : List U32) (origin : Option Nat := none) : State :=
  let s := if s.laneA.isRunning then s.logIn .A cls ty subject data origin else s
  if s.laneB.isRunning then s.logIn .B cls ty subject data origin else s

/-- A CONFIG_CHANGE record of a register write (19 R472). -/
def State.logRegWrite (s : State) (off : Nat) (value before : U32) (ignored : Bool) : State :=
  s.logRm Cls.info 0x0004 (w32 off) [value, before, w32 (flag ignored)] 0x20

/-! ## MSI-X vectors and event registers -/

/-- A dword of the MSI-X table; a vector's control dword resets to 1, masked (17 Table 17.5: PCIe). -/
def HifSt.msixDword (h : HifSt) (i : Nat) : U32 := Tab.get (if i % 4 = 3 then 1 else 0) h.msixTable i

/-- Vector `v` fires: a masked vector sets its pending bit; in D3hot none is raised (17 R415, R425). -/
def State.fire (s : State) (v : Nat) : State :=
  if s.hif.d3hot then s
  else if (s.hif.msixDword (4 * v + 3)).getLsbD 0 then { s with hif := { s.hif with msixPba := s.hif.msixPba ||| ((1 : U64) <<< v) } }
  else { s with hif := { s.hif with irqs := Tab.modify 0 s.hif.irqs v (· + 1) } }

/-- Fires `v` if a bit of the new value is not in the old one. -/
def State.fireIfSet (s : State) (v : Nat) (old new : U32) : State :=
  if new &&& ~~~old = 0 then s else s.fire v

def State.setTickEvent (s : State) (m : U32) : State :=
  { s with tick := { s.tick with event := s.tick.event ||| m } }.fireIfSet 1 s.tick.event (s.tick.event ||| m)

def State.setLaneEvent (s : State) (m : U32) : State :=
  { s with laneCtl := { s.laneCtl with event := s.laneCtl.event ||| m } }.fireIfSet 2 s.laneCtl.event (s.laneCtl.event ||| m)

def State.setModeEvent (s : State) (m : U32) : State :=
  { s with mode := { s.mode with event := s.mode.event ||| m } }.fireIfSet 3 s.mode.event (s.mode.event ||| m)

def State.setEvtEvent (s : State) (m : U32) : State :=
  { s with evt := { s.evt with event := s.evt.event ||| m } }.fireIfSet 4 s.evt.event (s.evt.event ||| m)

def State.setUpdEvent (s : State) (m : U32) : State :=
  { s with upd := { s.upd with event := s.upd.event ||| m } }.fireIfSet 5 s.upd.event (s.upd.event ||| m)

def State.setHifErr (s : State) (m : U32) : State :=
  { s with hif := { s.hif with err := s.hif.err ||| m } }.fireIfSet 6 s.hif.err (s.hif.err ||| m)

/-! ## Configuration -/

/-- The configuration a rollback restores: rack states, rainflow checkpoints, G_base and fence records stay as they are (20 R497). -/
def Cfg.restored (now back : Cfg) : Cfg :=
  { back with
    racks := (List.range 16).foldl (fun (t : Tab RackKept) k =>
      Tab.set {} t k { state := (Tab.get {} now.racks k).state, harness := (Tab.get {} back.racks k).harness }) []
    rain := now.rain, rainTime := now.rainTime, gBase := now.gBase, fenced := now.fenced }

/-- Puts one changed record into a configuration. -/
def Cfg.put (c : Cfg) : CfgItem → Cfg
  | .loop n d => { c with loops := Tab.set {} c.loops n d }
  | .loopKept n v => { c with loopKept := Tab.set {} c.loopKept n v }
  | .topology t => { c with topo := t }
  | .rackState k st => { c with racks := Tab.modify {} c.racks k fun r => { r with state := st } }
  | .harness k h => { c with racks := Tab.modify {} c.racks k fun r => { r with harness := h } }
  | .envelope e => { c with envelope := e }
  | .job i j => { c with jobs := Tab.set none c.jobs i j }
  | .pace (some j) p => { c with pace := Tab.set none c.pace j (some p) }
  | .pace none p => { c with paceDefault := p }
  | .paceRemove (some j) => { c with pace := Tab.erase c.pace j }
  | .paceRemove none => { c with paceDefault := {} }
  | .swing (some j) p => { c with swing := Tab.set none c.swing j (some p) }
  | .swing none p => { c with swingDefault := p }
  | .swingRemove (some j) => { c with swing := Tab.erase c.swing j }
  | .swingRemove none => { c with swingDefault := {} }
  | .motor n r => { c with motors := Tab.set {} c.motors n r }
  | .skipBands n b => { c with skipBands := Tab.set [] c.skipBands n b }
  | .valve n r => { c with valves := Tab.set {} c.valves n r }
  | .analog n r => { c with analog := Tab.set none c.analog n (some r) }
  | .pulse n r => { c with pulse := Tab.set {} c.pulse n r }
  | .leak n r => { c with leak := Tab.set {} c.leak n r }
  | .can n r => { c with can := Tab.set {} c.can n r }
  | .entry n r => { c with entries := Tab.set {} c.entries n r }
  | .thermal b => { c with thermal := b }
  | .gBase u g => { c with gBase := Tab.set none c.gBase u g }
  | .hostCap n v => { c with hostCaps := Tab.set none c.hostCaps n v }
  | .clearHostCaps => { c with hostCaps := [] }
  | .mark _ _ => c
  | .uncarry _ => c
  | .releaseHalt _ => c
  | .restore b => c.restored b

/-- Changes in their order. -/
def Cfg.putAll (c : Cfg) (l : List CfgItem) : Cfg := l.foldl Cfg.put c

/-- Puts changes in force. -/
def State.apply (s : State) (l : List CfgItem) : State := { s with cfg := s.cfg.putAll l }

/-- The copies a record is written to: both in IDLE, the alternate one only from STAGE on (20 R497). -/
def State.toCopies (s : State) (f : Cfg → Cfg) : State :=
  { s with nor := { running := if s.mode.update = .idle then f s.nor.running else s.nor.running, alternate := f s.nor.alternate } }

/-- Keeps changes for the next T0 (11 R281, 13 R336, 14 R357). -/
def State.defer (s : State) (l : List CfgItem) : State := { s with due := s.due ++ l }

/-- Keeps changes for the first governor pass that starts after the command (08 R208, 10 R260). -/
def State.deferPass (s : State) (l : List CfgItem) : State := { s with passDue := s.passDue ++ l }

/-- The configuration with every accepted change, those of the next T0 and pass included: what later commands are checked
against. -/
def State.planned (s : State) : Cfg := (s.cfg.putAll s.due).putAll s.passDue

/-- Writes changes into the store (20 R497). -/
def State.store (s : State) (l : List CfgItem) : State := s.toCopies fun c => c.putAll l

/-- Puts changes in force and into the store at once: changes no command carries. -/
def State.applyStore (s : State) (l : List CfgItem) : State := (s.apply l).store l

/-- A configuration register's change: in force and in the store alike (02 R46, 15 R387, 16 R413). -/
def State.cfgReg (s : State) (f : Cfg → Cfg) : State := { s.toCopies f with cfg := f s.cfg }

/-- A slot is absent (08 R204): its record says so, or a host mark of CAP_SET does; the mark PRESENT has no effect where no enabled
tray holds the slot (08 R229). -/
def State.slotAbsent (s : State) (c : Nat) : Bool :=
  match (Tab.get ({} : GovChip) s.main.gov.chips c).mark with
  | .none => (Tab.get ({} : ChipRec) s.tick.frame.chips c).status.getLsbD 2
  | .absent => true
  | .present => !(s.cfg.topo.trays.any fun e => e.2.enable && e.2.firstSlot ≤ c && c < e.2.firstSlot + e.2.count)

/-- The enabled tray that holds a chip slot. -/
def Topology.slotTray (t : Topology) (c : Nat) : Option Nat :=
  (t.trays.find? fun e => e.2.enable && e.2.firstSlot ≤ c && c < e.2.firstSlot + e.2.count).map Prod.fst

/-- The slot's telemetry is missing: the age byte of its tray shows a state other than LIVE (09 R254). -/
def State.chipMissing (s : State) (c : Nat) : Bool :=
  match s.cfg.topo.slotTray c with
  | some t => 0x40 ≤ (Tab.get 0xC0 s.tick.frame.trayAge t).toNat
  | none => true

/-- The rack is enabled (10 Table 10.3). -/
def State.rackOn (s : State) (k : Nat) : Bool := s.cfg.topo.accepted && bit s.cfg.topo.rackEnable k

/-- The rack's state (Table 10.6). -/
def State.rackState (s : State) (k : Nat) : RackState := (Tab.get {} s.cfg.racks k).state

end Sys2Proof.Machine
end

