-- ==== Sys2Proof/Machine/CmdOps.lean ====
section
/-! DEFINITION. What every host opcode does alike (18): the checks of Table 18.2 from 11 on, tags, commit epochs,
SC_PENDING and held results, completions and barriers. -/

namespace Sys2Proof.Machine

/-! ## Status codes (Table 18.9) -/

namespace SC
def ok := 0x0000
def pending := 0x0001
def alreadyFetched := 0x0002
def badOpcode := 0x0010
def badLength := 0x0011
def lengthExceedsBuffer := 0x0012
def badParam := 0x0013
def badVersion := 0x0014
def busyRetry := 0x0020
def notInMode := 0x0021
def notExecuted := 0x0022
def modelTooLarge := 0x0030
def modelDecimated := 0x0031
def capFloorBound := 0x0040
def boostNotReady := 0x0050
def hsConflictDeferred := 0x0051
def signatureFail := 0x0060
def manifestIncomplete := 0x0061
def internal := 0x00FF
end SC

/-- Outcome of a command: status, aux and result words (Table 18.3), and what its completion carries into the store. -/
structure Reply where
  status : Nat
  aux : Nat := 0
  r0 : U32 := 0
  r1 : U32 := 0
  r2 : U32 := 0
  save : List CfgItem := []
  epoch : Option Nat := none
deriving DecidableEq, Repr

/-- A command ends at once, or later by another row. -/
inductive CmdEnd where
  | reply (r : Reply)
  | later (save : List CfgItem)
deriving DecidableEq, Repr

def Reply.done : Reply := { status := SC.ok }
def Reply.words (a b c : U32) : Reply := { status := SC.ok, r0 := a, r1 := b, r2 := c }

/-- SC_NOT_IN_MODE. -/
def Reply.notInMode : Reply := { status := SC.notInMode }

/-- SC_BUSY_RETRY with its retry-after, 1 to 65,535 (Table 18.3). -/
def Reply.busy (ticks : Nat) : Reply :=
  { status := SC.busyRetry, aux := if ticks = 0 then 1 else if ticks < 65536 then ticks else 65535 }

/-- SC_BAD_PARAM with a first result word. -/
def Reply.badParam (w : Nat) : Reply := { status := SC.badParam, r0 := w32 w }

/-- SC_BAD_PARAM naming the block offset of the first offending field (Table 18.9: the offset within the packet). -/
def Packet.badField (p : Packet) (off : Nat) : Reply := Reply.badParam (p.hdr + off)

/-- SC_BAD_PARAM with no offset to name. -/
def Reply.badNone : Reply := Reply.badParam 0xFFFFFFFF

/-! ## Structure checks (00 R6, R7) -/

/-- A structure at a block offset: the size version 1 defines for it, and its reserved byte ranges. -/
structure Shape where
  off : Nat := 0
  size : Nat
  reserved : List (Nat × Nat) := []
deriving DecidableEq, Repr

/-- R6 steps 1 and 2 and then R7 on one structure of the block. -/
def Packet.checkShape (p : Packet) (h : Shape) : Except Reply Unit :=
  if u16At p.block h.off ≠ 1 then .error { status := SC.badVersion, r0 := w32 (p.hdr + h.off) }
  else if u16At p.block (h.off + 2) % 4 ≠ 0 ∨ u16At p.block (h.off + 2) < h.size then .error (p.badField (h.off + 2))
  else match h.reserved.find? (fun r => !zeroRange p.block (h.off + r.1) r.2) with
    | some r => .error (p.badField (h.off + r.1))
    | none => .ok ()

/-- Check 11 (18 R436): the packet's parameter bytes equal the block's size field, which is not all ones. -/
def Packet.checkLength (p : Packet) : Except Reply Unit :=
  if p.block.length < 4 ∨ u16At p.block 2 = 0xFFFF ∨ u16At p.block 2 ≠ p.block.length then
    .error { status := SC.badLength, r0 := w32 ((p.hdr + p.block.length) / 4)
             r1 := if p.block.length < 4 then none32 else w32 (u16At p.block 2) }
  else .ok ()

/-- Checks 11 and 12 of a block without further structures. -/
def Packet.checkBlock (p : Packet) (size : Nat) (reserved : List (Nat × Nat)) : Except Reply Unit := do
  p.checkLength
  p.checkShape { size := size, reserved := reserved }

/-- The ASYNC flag (Table 18.1). -/
def Packet.async (p : Packet) : Bool := bit p.flags 0

/-- The transfer area of the device address space (01 Table 1.7). -/
def transferBase : Nat := 0x0400000000
def transferEnd : Nat := 0x0600000000

/-- A reply or block address: 4-byte aligned, the whole block inside the transfer area (04 Table 4.5). -/
def addrOk (a len : Nat) : Bool := a % 4 = 0 && transferBase ≤ a && a + len ≤ transferEnd

/-- The first reply, or none, of a list of conditions each with its refusal. -/
def deny (l : List (Bool × Reply)) : Except Reply Unit :=
  match l.find? (·.1) with
  | some (_, r) => .error r
  | none => .ok ()

/-- Several axes refuse: SC_NOT_IN_MODE decides, otherwise the greatest retry-after (16 R393). -/
def axes (l : List (Bool × Reply)) : Except Reply Unit :=
  let rs := (l.filter (·.1)).map (·.2)
  match rs.find? (·.status = SC.notInMode) with
  | some r => .error r
  | none =>
    match rs with
    | [] => .ok ()
    | r :: rest => .error (rest.foldl (fun a b => if a.aux < b.aux then b else a) r)

/-! ## Tags and packets -/

/-- A tag is in use from its packet's fetch to its completion, and an ASYNC command's until its held result is ready
(18 R439). -/
def ProtoSt.tagInUse (q : ProtoSt) (tag : U32) : Bool :=
  q.issued.any (·.tag = tag) || q.held.any (fun h => h.tag = tag && !h.ready)

/-- Notes a packet as fetched (18 R439, R449), and drops a ready held result whose tag it reuses (R447). -/
def ProtoSt.issue (q : ProtoSt) (p : Packet) : ProtoSt × Packet :=
  let p := { p with id := q.nextId }
  ({ q with
      nextId := q.nextId + 1
      issued := q.issued ++ [{ id := p.id, sq := p.sq, tag := p.tag, opcode := p.opcode
                               barrier := if p.opcode = 0x0105 then some (u8At p.block 4) else none }]
      held := q.held.filter fun h => !(h.tag = p.tag && h.ready) }, p)

/-- Takes a packet from those fetched and not yet delivered. -/
def State.claimFetched (s : State) (p : Packet) (laneFree : Bool) : Option (State × Packet × Nat) :=
  if (laneFree || !s.anyLane) && s.proto.fetched.any (·.id = p.id) then
    some ({ s with proto := { s.proto with fetched := s.proto.fetched.filter (·.id ≠ p.id) } }, p, s.now)
  else none

/-- Takes a packet for execution (assumption log 5). A packet the module holds committed is taken from there with its commit epoch,
the one committed first before any other (18 R449). A packet it holds fetched is taken from there where the Ringmaster executes the
opcode without a lane, and where no lane is RUNNING, to be refused (16 R408). One it does not hold is taken whole, as fetched and
committed now, and `none` where it is held otherwise. -/
def State.claim (s : State) (p : Packet) (laneFree : Bool) : Option (State × Packet × Nat) :=
  match s.proto.issued.find? (fun i => i.tag = p.tag && i.sq = p.sq) with
  | some i =>
    let p := { p with id := i.id }
    match s.proto.committed with
    | c :: rest =>
      if c.packet.id = i.id then some ({ s with proto := { s.proto with committed := rest } }, p, c.epoch)
      else s.claimFetched p laneFree
    | [] => s.claimFetched p laneFree
  | none =>
    let (q, p) := s.proto.issue p
    some ({ s with proto := q }, p, s.now)

/-! ## Completions -/

/-- Completions wait for a switch-over gap or a Ringmaster restart (18 R452, R453). -/
def State.holdsBack (s : State) : Bool := s.laneCtl.gap || s.gen.rmRestart

/-- The completion of packet `p` with a reply (Table 18.3). -/
def mkCompletion (p : Packet) (epoch : Nat) (r : Reply) (dup delayed : Bool) : Completion :=
  { id := p.id, sq := p.sq, tag := p.tag, opcode := p.opcode, status := r.status, aux := r.aux
    r0 := r.r0, r1 := r.r1, r2 := r.r2, epochLo := lo32 (r.epoch.getD epoch), dupTag := dup, delayed := delayed
    noIrq := bit p.flags 1, save := r.save }

/-- A barrier is over when none of its packets waits for its completion and none of its held results is outstanding. -/
def ProtoSt.barrierOver (q : ProtoSt) (b : Barrier) : Bool :=
  !(q.issued.any fun i => b.waits.contains i.id) && !(q.held.any fun h => b.results.contains h.id && !h.ready)

/-- Makes the completions of the barriers that are over ready (18 R450). -/
def ProtoSt.settleBarriers (q : ProtoSt) (delayed : Bool) : ProtoSt :=
  let ended := q.barriers.filter q.barrierOver
  let made := ended.filterMap fun b =>
    (q.running.find? (·.packet.id = b.id)).map fun r =>
      mkCompletion r.packet r.commit { status := SC.ok, r0 := w32 b.count } false delayed
  { q with
    barriers := q.barriers.filter fun b => !q.barrierOver b
    running := q.running.filter fun r => !(ended.any (·.id = r.packet.id))
    ready := q.ready ++ made }

/-- Makes a completion ready (18 R442), or drops and logs that of a command delivered before a host-side reset
(17 Table 17.2); its configuration records reach the store as if it had been written. -/
def State.ready (s : State) (p : Packet) (epoch : Nat) (r : Reply) (dup : Bool := false) : State :=
  if s.proto.dropIds.contains p.id then
    let s := { s with proto := { s.proto with
      dropIds := s.proto.dropIds.filter (· ≠ p.id), issued := s.proto.issued.filter (·.id ≠ p.id) } }
    (s.store r.save).logRm Cls.notice 0x0102 p.tag [w32 p.opcode, w32 r.status] 1
  else { s with proto := { s.proto with ready := s.proto.ready ++ [mkCompletion p epoch r dup s.holdsBack] } }

/-- An ASYNC command's outcome is known; HELD_RESULT_READY makes it ready (18 R446). -/
def State.hold (s : State) (p : Packet) (epoch : Nat) (r : Reply) : State :=
  { s with proto := { s.proto with held := s.proto.held.map fun h =>
      if h.id = p.id then { h with outcome := some (mkCompletion p epoch r false s.holdsBack) } else h } }

/-- A command's outcome goes to its completion, or to its held result. -/
def State.conclude (s : State) (p : Packet) (epoch : Nat) (r : Reply) : State :=
  if p.async then s.hold p epoch r else s.ready p epoch r

/-- Whether a running command has the packet id. -/
def State.runningCmd (s : State) (id : Nat) : Option Running := s.proto.running.find? (·.packet.id = id)

/-- Ends a running command with a reply, its own configuration changes with it where it took effect. -/
def State.finish (s : State) (id : Nat) (r : Reply) : State :=
  match s.runningCmd id with
  | none => s
  | some c =>
    let s := { s with proto := { s.proto with running := s.proto.running.filter (·.packet.id ≠ id) } }
    s.conclude c.packet c.commit r

/-! ## Running a command -/

/-- Longest remaining time of LANE_START (16 Table 16.5), or of the wait for the other lane. -/
def State.laneStartLeft (s : State) : Nat :=
  let gone := s.now - s.mode.laneStartEpoch
  let left := if gone < 6000 then 6000 - gone else 1
  if s.laneA.ready || s.laneB.ready then min left (s.cfg.startWait * 10) else left

/-- The refusal of a command that needs a lane while none is RUNNING (16 R408). -/
def State.noLane (s : State) : Except Reply Unit :=
  if s.anyLane then .ok ()
  else if s.laneCtl.holdA && s.laneCtl.holdB then .error .notInMode
  else .error (.busy s.laneStartLeft)

/-- Counts a refusal with SC_BUSY_RETRY under R393 or R407 (16 R410). -/
def State.countRefusal (s : State) (r : Reply) : State :=
  if r.status = SC.busyRetry then { s with mode := { s.mode with cntRefusedBusy := satTo 32 (s.mode.cntRefusedBusy + 1) } } else s

/-- Makes room for one more held result of at most 1,024: the oldest already fetched is dropped (18 R447). -/
def ProtoSt.roomHeld (q : ProtoSt) : Option ProtoSt :=
  if q.held.length < 1024 then some q
  else match q.held.find? (·.fetched) with
    | some h => some { q with held := q.held.filter (·.id ≠ h.id) }
    | none => none

/-- Executes the body of a command that has passed checks 11 to 14: a refusal or a reply concludes it, and a command
that ends later joins the running ones. -/
def State.execBody (s : State) (p : Packet) (epoch : Nat)
    (body : Nat → Packet → State → Except Reply (State × CmdEnd)) : State :=
  match body epoch p s with
  | .error r => s.conclude p epoch r
  | .ok (s, .reply r) => s.conclude p epoch r
  | .ok (s, .later save) =>
    { s with proto := { s.proto with running := s.proto.running ++ [{ packet := p, commit := epoch, async := p.async, save := save }] } }

/-- One host opcode: claims the packet, makes checks 11 and 12 (`shape`), R408, 13 and 14 (`axis`), answers SC_PENDING to
an ASYNC command, and executes the rest (`body`), whose refusals are check 15 (18 R437, R446). -/
def State.runCmd (s : State) (opcode : Nat) (laneFree : Bool) (p : Packet)
    (shape : Packet → Except Reply Unit) (axis : Packet → State → Except Reply Unit)
    (body : Nat → Packet → State → Except Reply (State × CmdEnd)) : State :=
  match s.claim { p with opcode := opcode } laneFree with
  | none => s
  | some (s, p, epoch) =>
    match shape p with
    | .error r => s.ready p epoch r
    | .ok _ =>
      match (do (if laneFree then pure () else s.noLane); axis p s) with
      | .error r => ({ s with fresh := s.fresh + 1 }.countRefusal r).ready p epoch r
      | .ok _ =>
        if p.async then
          match s.proto.roomHeld with
          | none => s.ready p epoch (.busy 10)
          | some q =>
            let q := { q with held := q.held ++ [{ tag := p.tag, sq := p.sq, id := p.id, commit := epoch }] }
            let s := { s with proto := q }
            (s.ready p epoch { status := SC.pending, r0 := lo32 epoch, r1 := hi32 epoch }).execBody p epoch body
        else s.execBody p epoch body

/-- A CONFIG_CHANGE record of a command (19 R472), by the lanes that execute it. -/
def State.logConfig (s : State) (p : Packet) (status : Nat) : State :=
  s.logLanes Cls.info 0x0004 (w32 p.opcode) [p.tag, w32 status, crc32c p.block] (some (0x10 + p.sq))

/-- Writes a reply into the transfer area of every running lane (01 R28, R31). -/
def State.writeTransfer (s : State) (a : Nat) (bs : List Byte) : State :=
  s.onLanes fun x => { x with dram := x.dram.writeBytes a bs }

/-- Writes into host memory (17; assumption log 9). -/
def State.writeHost (s : State) (a : Nat) (bs : List Byte) : State := { s with hostMem := s.hostMem.writeBytes a bs }

/-- Stops a submission queue: it fetches no more until disabled and enabled again (17 R423, 18 R438). -/
def State.stopQueue (s : State) (q : Nat) : State :=
  { s with hif := { s.hif with sqs := Tab.modify {} s.hif.sqs q fun x => { x with err := true } } }

/-- A host-memory access failed: DMA in HIF_ERR, the queue stops (17 Table 17.6). -/
def State.dmaFault (s : State) (q : Nat) : State := (s.stopQueue q).setHifErr 0x8

/-- No axis refuses the opcode. -/
def noAxis : Packet → State → Except Reply Unit := fun _ _ => .ok ()

/-- SC_BUSY_RETRY in HANDOVER carries the predicted ticks to its end, which no table bounds as a whole: a free value
(16 R407; assumption log 14). -/
def State.handoverLeft (s : State) : Nat := Config.freeTicks s.fresh

/-! ## Replies to the transfer area -/

/-- The 24-byte reply header of the status opcodes (03 R86). -/
def replyHeader (kind size first count : Nat) (epoch : Option Nat) : List Byte :=
  le16 1 ++ le16 24 ++ le8 kind ++ le8 0 ++ le16 size ++ le16 first ++ le16 count ++ zeros 4 ++ le64 (epochField epoch)

/-- A status opcode's reply: header and `count` records of the settled view at a BAR0 offset, written to `addr`; SC_BAD_PARAM
with word all ones for a range or address (03 R86, 04 R116). -/
def statusReply (s : State) (kind size base first count top addr : Nat) : Except Reply (State × CmdEnd) := do
  deny [(count = 0 || top < first + count || !addrOk addr (24 + size * count), Reply.badNone)]
  let recs := s.tick.settled.view.readBytes (base + size * first) (size * count)
  .ok (s.writeTransfer addr (replyHeader kind size first count s.tick.settled.epoch ++ recs), .reply .done)

end Sys2Proof.Machine
end

