-- ==== Sys2Proof/Machine/LaneOps.lean ====
section
/-! DEFINITION. Losing a lane and entering the Safety Net (15 R373-R375, R382-R385; 16 R409): shared by every row that
does either. -/

namespace Sys2Proof.Machine

/-! last_loss codes of 15 R388. -/

namespace Loss
def selfCheck := 1
def silent := 2
def arbitration := 3
def plausibility := 4
def authAck := 5
def mergeLimit := 6
def crossCheck := 7
def completion := 8
def hostHold := 9
def resyncFailed := 10
end Loss

/-- Ticks in 24 hours (15 R375). -/
def ticksPerDay : Nat := 864000000

def LaneCtlSt.stat (c : LaneCtlSt) : LaneId → LaneStat
  | .A => c.statA
  | .B => c.statB

def LaneCtlSt.setStat (c : LaneCtlSt) (l : LaneId) (x : LaneStat) : LaneCtlSt :=
  match l with
  | .A => { c with statA := x }
  | .B => { c with statB := x }

def State.onStat (s : State) (l : LaneId) (f : LaneStat → LaneStat) : State :=
  { s with laneCtl := s.laneCtl.setStat l (f (s.laneCtl.stat l)) }

/-- A lane's HOLD bit (Table 15.7). -/
def LaneCtlSt.hold (c : LaneCtlSt) : LaneId → Bool
  | .A => c.holdA
  | .B => c.holdB

def LaneCtlSt.setHold (c : LaneCtlSt) (l : LaneId) (b : Bool) : LaneCtlSt :=
  match l with
  | .A => { c with holdA := b }
  | .B => { c with holdB := b }

/-- Event subject of a lane (19 R527). -/
def laneSubject : LaneId → U32
  | .A => 0x0A
  | .B => 0x0B

def Redundancy.simplexOn : LaneId → Redundancy
  | .A => .simplexA
  | .B => .simplexB

/-- REDUNDANCY code (Table 15.6). -/
def Redundancy.code : Redundancy → Nat
  | .duplex => 0 | .simplexA => 1 | .simplexB => 2 | .net => 3

/-- A lane in reset, its content wiped (01 R24); what is fused or fenced in its silicon stays reported. -/
def Lane.wiped (x : Lane) (r : LaneRun) : Lane := { run := r, fused := x.fused, fenced := x.fenced }

/-- Drops a lane's copies of the results the Hall of Mirrors holds (15 R374). -/
def dropCopies (l : LaneId) (h : List HeldResult) : List HeldResult :=
  let h := h.map fun (r : HeldResult) =>
    match l with
    | .A => { r with copyA := none }
    | .B => { r with copyB := none }
  h.filter fun r => r.copyA.isSome || r.copyB.isSome

/-- Marks every completion made so far as held back (18 R452). -/
def ProtoSt.delayReady (q : ProtoSt) : ProtoSt := { q with ready := q.ready.map fun c => { c with delayed := true } }

/-- k_mod over the running lanes; a change takes effect at a step epoch (07 R196). -/
def State.refitK (s : State) : State :=
  let ka := if s.laneA.isRunning then s.img.fitA.k else 0
  let kb := if s.laneB.isRunning then s.img.fitB.k else 0
  let k := max 1 (max ka kb)
  if s.img.activeSlot.isSome then { s with img := { s.img with kNext := if k = s.img.kMod then none else some k } } else s

/-- Puts lane `l` into reset. -/
def State.resetLane (s : State) (l : LaneId) : State :=
  let s := s.onLane l fun x => x.wiped .reset
  s.onStat l fun x => { x with authExercised := false, resetEpoch := s.now, qualRun := 0, resyncPct := 0 }

/-- Notes a loss: reason, count over 24 hours, and the hold on the third (15 R375, R388). -/
def State.noteLoss (s : State) (l : LaneId) (reason : Nat) : State :=
  let recent := (s.laneCtl.stat l).losses.filter fun e => s.now < e + ticksPerDay
  let losses := if reason = Loss.hostHold then recent else s.now :: recent
  let s := s.onStat l fun x =>
    { x with lastLoss := reason, losses := losses, selfCheckFail := decide (reason = Loss.selfCheck)
             disagreements := if reason = Loss.arbitration ∨ reason = Loss.plausibility then satTo 32 (x.disagreements + 1) else x.disagreements }
  let s := s.logRm Cls.warning 0x0906 (laneSubject l) [w32 reason]
  let s := s.setLaneEvent 0x10
  if 3 ≤ losses.length ∧ s.laneCtl.hold l = false then
    { s with laneCtl := s.laneCtl.setHold l true }.logRm Cls.alarm 0x0903 (laneSubject l) []
  else s

/-- Ends a drill in progress without its Trapeze: its command ends with SC_INTERNAL (15 R381; after the
acknowledgement, SC_OK: assumption log 16). -/
def State.abandonDrill (s : State) : State :=
  match s.laneCtl.drillCmd with
  | none => { s with laneCtl := { s.laneCtl with drillGranted := false, drillAcked := false } }
  | some id =>
    let r : Reply := { status := if s.laneCtl.drillAcked then SC.ok else SC.internal }
    { s with laneCtl := { s.laneCtl with drillCmd := none, drillGranted := false, drillAcked := false }
             mode := { s.mode with test := false } }.finish id r

/-- Completes with SC_NOT_EXECUTED_SWITCHOVER every accepted command without a completion (16 R409, 18 R452), except a
VALVE_COMMAND with an entry released, which the Ringmaster completes (12 R309). -/
def State.notExecuted (s : State) : State :=
  let kept := s.proto.running.filter fun r => s.valve.cmds.any fun c => c.cmd = r.packet.id && decide (0 < c.released)
  let gone := s.proto.running.filter fun r => !(s.valve.cmds.any fun c => c.cmd = r.packet.id && decide (0 < c.released))
  let rep : Reply := { status := SC.notExecuted }
  let waiting := s.proto.committed.map (fun c => (c.packet, c.epoch)) ++
    (s.proto.delivered ++ s.proto.fetched).map fun p => (p, s.now)
  let n := waiting.length + gone.length
  let onWay := (s.valve.cmds.filter fun c => 0 < c.released).map fun c => { c with entries := c.entries.take c.released }
  let s := { s with valve := { s.valve with cmds := onWay } }
  let s := { s with proto := { s.proto with committed := [], delivered := [], fetched := [], running := kept, barriers := [] } }
  let s := waiting.foldl (fun s x => s.ready x.1 x.2 rep) s
  let s := gone.foldl (fun s r => s.conclude r.packet r.commit rep) s
  let s := { s with proto := s.proto.delayReady
                    mode := { s.mode with cntNotExecuted := satTo 32 (s.mode.cntNotExecuted + n) } }
  if n = 0 then s else s.setModeEvent 0x80

/-- The end of an update that is not confirmed: the running copy takes the state records, which are newer in the alternate copy, and the
alternate copy's configuration records are discarded (20 R497; assumption log 29). -/
def NorSt.carryState (n : NorSt) : NorSt :=
  let back := n.alternate.restored n.running
  { n with running := back, alternate := back }

/-- Entry to NET in HANDOVER or TRIAL fails the update; the lanes then start from the running bank (16 Table 16.3,
20 Table 20.6). -/
def State.failUpdateInNet (s : State) : State :=
  if s.mode.update = .handover ∨ s.mode.update = .trial then
    let s := { s with
      nor := s.nor.carryState
      mode := { s.mode with update := .idle }
      upd := { s.upd with lastReason := 4, step := 0, stepEpoch := s.now, rollingBack := false, failed := none
                          partsConfirmed := [], hostConfirmed := false, swapped := false, onNew := [] }
      gen := { s.gen with rmRestart := s.gen.rmRestart || s.upd.swapped } }
    (s.setModeEvent 0x10).logRm Cls.warning 0x0B07 s.upd.altSet.version [4]
  else s

/-- Ends the pending mode requests at entry to NET: their commands are not accepted in that mode (16 R396, R404). -/
def State.dropRequests (s : State) : State :=
  let none' : State := { s with mode := { s.mode with pendingModes := [] } }
  s.mode.pendingModes.foldl (fun (s : State) m => match m with
    | .authority _ cmd => s.finish cmd .notInMode
    | .rack _ _ cmd => s.finish cmd .notInMode
    | .autoPredictive => s) none'

/-- The lanes start again from the store: commands end unexecuted, and configuration whose completion is not written is gone
(15 R385, 16 R409). -/
def State.reloadLanes (s : State) : State :=
  let s := s.notExecuted
  let s := if s.laneA.run = .reset then s else s.resetLane .A
  let s := if s.laneB.run = .reset then s else s.resetLane .B
  { s with
    cfg := s.nor.running
    due := s.due.filter (fun i => s.nor.running.put i = s.nor.running)
    passDue := s.passDue.filter (fun i => s.nor.running.put i = s.nor.running)
    img := {}
    mode := { s.mode with laneStartEpoch := s.now } }

/-- The Ringmaster firmware restarts inside the Safety Net (15 R386). -/
def State.restartRm (s : State) : State :=
  { s with gen := { s.gen with rmRestart := true }, proto := s.proto.delayReady
           laneCtl := { s.laneCtl with cntRmRestart := satTo 32 (s.laneCtl.cntRmRestart + 1) } }.setLaneEvent 0x100

/-- Enters the Safety Net with a cause of Table 15.6; `resets` says whether the cause resets the lanes (15 R382-R385). In HANDOVER or
TRIAL the update fails, and the lanes start from the running bank in any case (20 Table 20.6). -/
def State.enterNet (s : State) (cause : Nat) (resets : Bool) : State :=
  let first := !s.inNet
  let reload := resets || s.mode.update = .handover || s.mode.update = .trial
  let s := s.abandonDrill
  let s : State := s.dropRequests
  let s := { s with
    laneCtl := { s.laneCtl with
      redundancy := .net, netCause := cause, gap := false, held := false, granting := none, grantNo := 0, merge := false
      mergeRun := 0, counts := [], retesting := none, netAgreeRun := 0
      preNetActive := if first then s.laneCtl.active else s.laneCtl.preNetActive
      cntNet := if first then satTo 32 (s.laneCtl.cntNet + 1) else s.laneCtl.cntNet
      statA := { s.laneCtl.statA with qualRun := 0 }, statB := { s.laneCtl.statB with qualRun := 0 } },
    rel := { s.rel with netActive := true },
    tick := { s.tick with held := [] } }
  let s := if first then (s.logRm Cls.prot 0x0904 (w32 cause) []).setLaneEvent 0x40 else s
  let s := s.failUpdateInNet
  let s := if reload then s.reloadLanes else s.onLanes fun x => { x with run := .running }
  let s := { s with upd := { s.upd with cmd := if s.mode.update = UpdatePhase.idle then none else s.upd.cmd } }
  if resets then s else s.restartRm

/-- Loses a running lane with a reason of R388: in NET it only resets; a standby lost leaves SIMPLEX; the active lane lost
opens a switch-over gap where the other lane runs, and the Safety Net where none does (15 R368, R373-R375, R382). -/
def State.loseLane (s : State) (l : LaneId) (reason : Nat) : State :=
  if !(s.lane l).isRunning then s
  else
    let wasActive := !s.inNet && (s.lane l).run = .active || s.laneCtl.held && (s.laneCtl.granting = some l || (s.lane l).run = .standby)
    let otherRuns := (s.lane l.other).isRunning
    let inNet := s.inNet
    let s := s.abandonDrill
    let s := s.noteLoss l reason
    let s := s.resetLane l
    let s := { s with tick := { s.tick with held := dropCopies l s.tick.held } }
    let s := { s with laneCtl := { s.laneCtl with merge := false, mergeRun := 0, counts := [] } }
    let s := if s.mode.update = .handover ∨ s.mode.update = .trial then
        { s with upd := { s.upd with failed := s.upd.failed <|> some 3 } } else s
    let s := s.refitK
    let bothHeld := s.laneCtl.holdA && s.laneCtl.holdB
    if inNet then s
    else if bothHeld then s.enterNet 6 true
    else if wasActive && !otherRuns then s.enterNet 3 true
    else if wasActive then
      { s with
        proto := s.proto.delayReady
        laneCtl := { s.laneCtl with
          redundancy := .simplexOn l.other, gap := true, held := true, granting := none, grantNo := 0
          cntSwitchover := satTo 32 (s.laneCtl.cntSwitchover + 1) } }.logRm Cls.warning 0x0901 (laneSubject l)
            [laneSubject l.other, w32 reason]
    else { s with laneCtl := { s.laneCtl with redundancy := .simplexOn l.other } }

/-- A lane that comes up fails: it is lost again, with its count over 24 hours (15 R375, R377); in an update's own reset the update
fails (20 Table 20.6). -/
def State.failRejoin (s : State) (l : LaneId) (reason : Nat) : State :=
  let s := (s.noteLoss l reason).resetLane l
  let s := if s.mode.update = .handover ∨ s.mode.update = .trial then { s with upd := { s.upd with failed := s.upd.failed <|> some 3 } } else s
  if s.laneCtl.holdA && s.laneCtl.holdB && !s.inNet then s.enterNet 6 true else s

end Sys2Proof.Machine
end

