-- ==== Sys2Proof/Machine/Fit.lean ====
section
/-! DEFINITION. The fit of an image to a lane's array (07 R193-R196) and the reference model in slot 7 (07 R192, R528). -/

namespace Sys2Proof.Machine

/-! ## Usable columns (05 R121, R141) -/

/-- Usable columns of row `y`: 34 physical columns less those fenced or fused off. -/
def Lane.usable (x : Lane) (y : Nat) : Nat :=
  ((List.range 34).filter fun p => !x.fenced.contains (34 * y + p) && !x.fused.contains (34 * y + p)).length

/-- The available columns A_y. -/
def Lane.columns (x : Lane) (y : Nat) : Nat := min 32 (x.usable y)

/-- Usable spare tiles, those of columns 32 and 33 (01 R17). -/
def Lane.spares (x : Lane) : Nat :=
  ((List.range 64).filter fun i =>
    let p := 34 * (i / 2) + 32 + i % 2
    !x.fenced.contains p && !x.fused.contains p).length

/-- Logical tile `t` exists. -/
def Lane.hasTile (x : Lane) (t : Nat) : Bool := t % 32 < x.columns (t / 32)

/-! ## The fit -/

/-- Tiles a variant declares that the lane lacks. -/
def Variant.missing (v : Variant) (x : Lane) : Nat := (v.tiles.filter fun t => !x.hasTile t).length

def Variant.fitsMemory (v : Variant) : Bool := v.sramNeed ≤ 188416 && v.segmentSize ≤ 0x100000000

/-- Predicted step time in ns, rounded up (assumption log 26). -/
def Variant.tPred (v : Variant) : Nat :=
  let lazy := v.tiles.any fun t => bits v.rowPolicy.toNat (2 * (t / 32) + 1) (2 * (t / 32)) = 1
  let str := (v.streamRow.foldl Nat.max 0 + 23) / 24
  5600 + (if lazy then 2400 else 0) + max v.tBody str + (if v.residency = .streamed then 150 else 0)

/-- B(k) in ns. -/
def stepBudget (k : Nat) : Nat := 100000 * (k - 1) + 88000

/-- The order in which variants are tried: RESIDENT first, then by ascending fold (R194). -/
def Image.order (i : Image) : List Variant :=
  [Residency.resident, Residency.streamed].flatMap fun r =>
    [1, 2, 4, 8].flatMap fun f => i.variants.filter fun v => v.residency = r && v.fold = f

def Variant.fits (v : Variant) (x : Lane) (k : Nat) : Bool := v.missing x = 0 && v.fitsMemory && v.tPred ≤ stepBudget k

/-- k = 1, or decimation allowed with every outer period a multiple of k. -/
def Image.mayRun (i : Image) (k : Nat) : Bool :=
  k = 1 || (i.decimAllowed && i.outputs.all fun b => b.cls = 0 || b.period % k = 0)

/-- The choice (variant, k) of R194. -/
def Image.choose (i : Image) (x : Lane) : Option (Variant × Nat) :=
  [1, 2, 4, 8].findSome? fun k => if i.mayRun k then (i.order.find? fun v => v.fits x k).map fun v => (v, k) else none

/-- The least of a list, `d` for none. -/
def leastOf (d : Nat) : List Nat → Nat
  | [] => d
  | a :: as => as.foldl Nat.min a

/-- The shortfall words of R195. -/
def Image.shortfall (i : Image) (x : Lane) : Nat × Nat × Nat :=
  let kMax := if i.decimAllowed then 8 else 1
  let inMem := i.variants.filter fun v => v.missing x = 0 && v.fitsMemory
  (leastOf 0 (i.variants.map fun v => v.missing x), leastOf 0 (i.variants.map fun v => v.sramNeed - 188416),
    leastOf 0xFFFFFFFF (inMem.map fun v => v.tPred - stepBudget kMax))

def Residency.code : Residency → Nat
  | .resident => 0 | .streamed => 1

/-- A lane's fit: its choice, or its shortfall. -/
def Image.fit (i : Image) (x : Lane) : Fit :=
  match i.choose x with
  | some (v, k) => { variant := v.index, fold := v.fold, residency := v.residency.code, k := k, tPred := v.tPred }
  | none =>
    let (a, b, c) := i.shortfall x
    { short0 := a, short1 := b, short2 := c }

/-- The lane's fit with its variant as R196 has it at `k`; the lane's own k stays. -/
def Image.fitAt (i : Image) (x : Lane) (k : Nat) : Fit :=
  let f := i.fit x
  match i.order.find? fun v => v.fits x k with
  | some v => { f with variant := v.index, fold := v.fold, residency := v.residency.code, tPred := v.tPred }
  | none => f

def Fit.ok (f : Fit) : Bool := f.k ≠ 0

/-- k_mod over the running lanes for an image. -/
def State.kFor (s : State) (i : Image) : Nat :=
  let k := fun (x : Lane) => if x.isRunning then (i.fit x).k else 0
  max 1 (max (k s.laneA) (k s.laneB))

/-- Every running lane fits: SC_OK or SC_MODEL_DECIMATED with k, or the shortfall of lane A, else of B (R194, R195). -/
def State.fitReply (s : State) (i : Image) : Except Reply Reply :=
  let refuse := fun (f : Fit) => ({ status := SC.modelTooLarge, r0 := w32 f.short0, r1 := w32 f.short1, r2 := w32 f.short2 } : Reply)
  if s.laneA.isRunning ∧ !(i.fit s.laneA).ok then .error (refuse (i.fit s.laneA))
  else if s.laneB.isRunning ∧ !(i.fit s.laneB).ok then .error (refuse (i.fit s.laneB))
  else
    let k := s.kFor i
    .ok { status := if k = 1 then SC.ok else SC.modelDecimated, r0 := w32 k }

/-- The fits of the running lanes at their common k. -/
def State.putFits (s : State) (i : Image) : State :=
  let k := s.kFor i
  { s with img := { s.img with
      fitA := if s.laneA.isRunning then i.fitAt s.laneA k else s.img.fitA
      fitB := if s.laneB.isRunning then i.fitAt s.laneB k else s.img.fitB } }

/-! ## The reference model (R192, R528) -/

/-- The loops the loader adds a LOOP_SP binding for, with tolerance, sp_min, sp_max and served racks. -/
def refLoops (c : Cfg) : List (Nat × F32 × F32 × F32 × Nat) :=
  (List.range 4).filterMap fun g =>
    let r := c.topo.group g
    let d := Tab.get ({} : LoopDesc) c.loops r.groupLoop
    if c.topo.accepted && bit c.topo.groupEnable g && d.accepted && d.spSrc = 0x03 then
      some (r.groupLoop, d.mirrorTol, d.spMin, d.spMax, r.racks)
    else none

/-- Its variants (Table 7.16). -/
def refVariant (i fold span sram seg body stream : Nat) (r : Residency) : Variant :=
  { index := i, fold := fold, residency := r, tileCount := 32 * span, colSpan := span, sramNeed := sram, tBody := body
    segmentSize := seg * 0x100000, streamRow := List.replicate 32 stream
    tiles := (List.range 1024).filter fun t => t % 32 < span }

/-- An input binding over a field of every chip record of a telemetry block (Table 2.1); its format, accuracy and place are not
stated (assumption log 12). -/
def refChipInput (n block fieldOff ty role : Nat) : InBinding :=
  let (fmt, acc, tile, chan) := Config.referenceBinding n
  { index := n, role := role, fieldType := ty, frameOffset := 0x0F10 + block * 0x1008 + 8 + fieldOff, count := 256, stride := 16
    fmt := fmt, channel := chan, tile := tile, accuracy := acc, firstSlot := 256 * block }

/-- An input binding over a whole section; its field is the reading of each element. -/
def refSectionInput (n off count stride ty : Nat) : InBinding :=
  let (fmt, acc, tile, chan) := Config.referenceBinding n
  { index := n, fieldType := ty, frameOffset := off, count := count, stride := stride, fmt := fmt, channel := chan, tile := tile
    accuracy := acc }

/-- Power, pace token, status, and the sensor pair of every chip slot; the analog, pulse, motor and bus-node sections. -/
def refInputs : List InBinding :=
  [refSectionInput 80 0x48 256 4 1, refSectionInput 81 0x658 64 8 3, refSectionInput 82 0x860 56 12 5,
    refSectionInput 83 0xB08 64 8 6] ++
  (List.range 16).flatMap fun b =>
    [refChipInput (5 * b) b 0 4 0, refChipInput (5 * b + 1) b 8 6 0, refChipInput (5 * b + 2) b 14 7 0,
      refChipInput (5 * b + 3) b 2 1 1, refChipInput (5 * b + 4) b 4 1 2]

/-- Caps, forecasts, table updates, and the added set-points with sense +1. -/
def refOutputs (loops : List (Nat × F32 × F32 × F32 × Nat)) : List OutBinding :=
  [{ index := 0, kind := 3, fmt := 6, count := 4096 }, { index := 1, kind := 5, horizon := 0, fmt := 0x10, count := 4096 },
    { index := 2, kind := 5, horizon := 1, fmt := 0x10, count := 4096 }, { index := 3, kind := 5, horizon := 2, fmt := 0x10, count := 4096 },
    { index := 4, kind := 6, fmt := 5, count := 4096 }] ++
  ((List.range loops.length).zip loops).map fun e =>
    { index := 5 + e.1, kind := 1, sense := 1, fmt := 6, firstTarget := e.2.1, count := 1, tolerance := e.2.2.1 }

/-- The image as the loader completes it. -/
def refImage (c : Cfg) : Image :=
  let loops := refLoops c
  let bs := Config.referenceImage loops
  { slot := 7, length := bs.length, imageId := u64At bs 0x10, decimAllowed := true, hasTable := true, reference := true
    variants := [refVariant 0 1 32 180224 16 32000 0 .resident, refVariant 1 2 16 176128 16 64000 0 .resident,
      refVariant 2 4 8 98304 80 128000 2097152 .streamed]
    inputs := refInputs, outputs := refOutputs loops, digest := bytesAt bs 0x30 48 }

/-- Stages the reference model in slot 7 of every running lane, unless slot 7 is pinned or being activated. -/
def State.stageReference (s : State) : State :=
  if s.img.activeSlot = some 7 ∨ (s.img.act ≠ .idle ∧ s.img.actSlot = 7) then s
  else
    let i := refImage s.cfg
    let s := s.onLanes fun x => { x with dram := x.dram.writeBytes 0x380000000 (Config.referenceImage (refLoops s.cfg)) }
    let others := s.img.images.filter (·.slot ≠ 7)
    let ok := match s.fitReply i with | .ok _ => true | .error _ => false
    { s with
      fresh := s.fresh + 1
      img := { s.img with
        slotState := Tab.set 0 s.img.slotState 7 (flag ok), images := if ok then i :: others else others
        actPred := if ok then Config.freeTicks s.fresh else s.img.actPred } }

/-- After an accepted configuration: staged again where it changes what the loader completes. -/
def State.restageReference (s : State) (before : Cfg) : State :=
  if s.anyLane ∧ refLoops before ≠ refLoops s.cfg then s.stageReference else s

end Sys2Proof.Machine
end

