-- ==== Sys2Proof/Machine/SoftFloat.lean ====
section
/-! DEFINITION. Binary floating point: exact values, the four roundings, and arithmetic of binary32, BF16, E4M3 and E5M2
(03 R56, 06 Tables 6.8, 6.9). A finite value is a sign, a magnitude and a power of two; every operation is exact and
rounded once. -/

namespace Sys2Proof.Machine

/-- A format: precision with the hidden bit, exponent bits, and whether the top exponent holds infinity and NaN (IEEE 754);
without, only the all-ones code is NaN (E4M3). -/
structure Fmt where
  p : Nat
  ebits : Nat
  ieee : Bool := true
deriving DecidableEq, Repr

def fmtF32 : Fmt := { p := 24, ebits := 8 }
def fmtBf16 : Fmt := { p := 8, ebits := 8 }
def fmtE4m3 : Fmt := { p := 4, ebits := 4, ieee := false }
def fmtE5m2 : Fmt := { p := 3, ebits := 5 }

/-- Width of a format in bits. -/
def Fmt.width (f : Fmt) : Nat := f.p + f.ebits

def Fmt.bias (f : Fmt) : Nat := 2 ^ (f.ebits - 1) - 1

/-- The exponent of the least bit of the smallest numbers. -/
def Fmt.qmin (f : Fmt) : Int := 2 - (f.bias : Int) - f.p

/-- A number of a format, or none of it. A finite number is (-1)^neg * m * 2^e. -/
inductive FVal where
  | nan
  | inf (neg : Bool)
  | fin (neg : Bool) (m : Nat) (e : Int)
deriving DecidableEq, Repr

inductive RMode where
  | rne | rtz | rdn | rup
deriving DecidableEq, Repr

/-- Reads the bits of a format. -/
def Fmt.decode (f : Fmt) (b : Nat) : FVal :=
  let frac := b % 2 ^ (f.p - 1)
  let ex := b / 2 ^ (f.p - 1) % 2 ^ f.ebits
  let neg := b / 2 ^ (f.width - 1) % 2 = 1
  if ex = 2 ^ f.ebits - 1 ∧ f.ieee then (if frac = 0 then .inf neg else .nan)
  else if ex = 2 ^ f.ebits - 1 ∧ frac = 2 ^ (f.p - 1) - 1 ∧ !f.ieee then .nan
  else if ex = 0 then .fin neg frac f.qmin
  else .fin neg (frac + 2 ^ (f.p - 1)) (f.qmin + ex - 1)

/-- The quiet NaN of a format: positive, the top fraction bit alone (for E4M3 all ones). -/
def Fmt.nanBits (f : Fmt) : Nat :=
  if f.ieee then (2 ^ f.ebits - 1) * 2 ^ (f.p - 1) + 2 ^ (f.p - 2) else 2 ^ (f.width - 1) - 1

def Fmt.signBit (f : Fmt) (neg : Bool) : Nat := if neg then 2 ^ (f.width - 1) else 0

/-- The greatest finite magnitude's bits. -/
def Fmt.maxBits (f : Fmt) : Nat :=
  if f.ieee then (2 ^ f.ebits - 1) * 2 ^ (f.p - 1) - 1 else 2 ^ (f.width - 1) - 2

/-- What a magnitude beyond the greatest finite rounds to; a format without infinity takes NaN. -/
def Fmt.overflow (f : Fmt) (r : RMode) (neg : Bool) : Nat :=
  let big := f.signBit neg + if f.ieee then f.maxBits + 1 else f.nanBits
  let small := f.signBit neg + f.maxBits
  match r with
  | .rne => big
  | .rtz => small
  | .rdn => if neg then big else small
  | .rup => if neg then small else big

/-- Whether a rounding takes the magnitude up: `odd` the kept part's low bit, `half` compares the rest with one half. -/
def roundUp (r : RMode) (neg odd : Bool) (half : Ordering) (exact : Bool) : Bool :=
  match r with
  | .rne => match half with | .gt => true | .eq => odd | .lt => false
  | .rtz => false
  | .rdn => neg && !exact
  | .rup => !neg && !exact

/-- m / 2^k rounded; `sticky` adds something below the last bit of m. -/
def shiftRound (r : RMode) (neg : Bool) (m k : Nat) (sticky : Bool) : Nat :=
  let q := m / 2 ^ k
  let rest := m % 2 ^ k
  let half := if k = 0 then (if sticky then .lt else .lt)
    else if 2 * rest < 2 ^ k then .lt else if 2 * rest = 2 ^ k ∧ !sticky then .eq else .gt
  let exact := rest = 0 && !sticky
  if roundUp r neg (q % 2 = 1) half exact then q + 1 else q

/-- Bit length of a number. -/
def bitLen (n : Nat) : Nat := if n = 0 then 0 else Nat.log2 n + 1

/-- Rounds (-1)^neg * (m + sticky) * 2^e to a format. -/
def Fmt.round (f : Fmt) (r : RMode) (neg : Bool) (m : Nat) (e : Int) (sticky : Bool := false) : Nat :=
  if m = 0 ∧ !sticky then f.signBit neg
  else
    -- the least exponent a number of this magnitude keeps
    let q := max f.qmin (e + bitLen m - f.p)
    let n := if q ≤ e then m * 2 ^ (e - q).toNat else shiftRound r neg m (q - e).toNat sticky
    let n := if q ≤ e ∧ sticky ∧ roundUp r neg false .lt false then n + 1 else n
    let (n, q) := if n = 2 ^ f.p then (2 ^ (f.p - 1), q + 1) else (n, q)
    let code := if n < 2 ^ (f.p - 1) then n else ((q - f.qmin).toNat + 1) * 2 ^ (f.p - 1) + (n - 2 ^ (f.p - 1))
    if f.maxBits < code then f.overflow r neg else f.signBit neg + code

/-- Rounds a value to a format. -/
def Fmt.encode (f : Fmt) (r : RMode) : FVal → Nat
  | .nan => f.nanBits
  | .inf neg => f.signBit neg + if f.ieee then f.maxBits + 1 else f.nanBits
  | .fin neg m e => f.round r neg m e

/-- The signed magnitude of a finite value over a common exponent. -/
def signedAt (neg : Bool) (m : Nat) (e base : Int) : Int :=
  let v : Int := (m : Int) * (2 : Int) ^ (e - base).toNat
  if neg then -v else v

/-- Exact sum of finite values; an exact zero takes the sign of both, or + (- rounding down). -/
def addExact (r : RMode) (n1 : Bool) (m1 : Nat) (e1 : Int) (n2 : Bool) (m2 : Nat) (e2 : Int) : FVal :=
  let base := min e1 e2
  let v := signedAt n1 m1 e1 base + signedAt n2 m2 e2 base
  if v = 0 then .fin (if n1 = n2 then n1 else r = .rdn) 0 base else .fin (v < 0) v.natAbs base

def FVal.neg : FVal → FVal
  | .nan => .nan
  | .inf n => .inf (!n)
  | .fin n m e => .fin (!n) m e

def FVal.add (r : RMode) : FVal → FVal → FVal
  | .nan, _ => .nan
  | _, .nan => .nan
  | .inf a, .inf b => if a = b then .inf a else .nan
  | .inf a, _ => .inf a
  | _, .inf b => .inf b
  | .fin n1 m1 e1, .fin n2 m2 e2 => addExact r n1 m1 e1 n2 m2 e2

def FVal.isZero : FVal → Bool
  | .fin _ 0 _ => true
  | _ => false

def FVal.isNeg : FVal → Bool
  | .nan => false
  | .inf n => n
  | .fin n _ _ => n

def FVal.mul : FVal → FVal → FVal
  | .nan, _ => .nan
  | _, .nan => .nan
  | .inf a, y => if y.isZero then .nan else .inf (a ^^ y.isNeg)
  | x, .inf b => if x.isZero then .nan else .inf (x.isNeg ^^ b)
  | .fin n1 m1 e1, .fin n2 m2 e2 => .fin (n1 ^^ n2) (m1 * m2) (e1 + e2)

/-- Quotient rounded to a format. -/
def Fmt.div (f : Fmt) (r : RMode) : FVal → FVal → Nat
  | .nan, _ => f.nanBits
  | _, .nan => f.nanBits
  | .inf _, .inf _ => f.nanBits
  | .inf a, y => f.encode r (.inf (a ^^ y.isNeg))
  | x, .inf b => f.signBit (x.isNeg ^^ b)
  | .fin n1 m1 e1, .fin n2 m2 e2 =>
    if m2 = 0 then (if m1 = 0 then f.nanBits else f.encode r (.inf (n1 ^^ n2)))
    else
      let k := 2 * f.p + 2 + bitLen m2
      let num := m1 * 2 ^ k
      f.round r (n1 ^^ n2) (num / m2) (e1 - e2 - k) (num % m2 ≠ 0)

/-- Integer square root, one bit at a time from bit `k`. -/
def isqrt : Nat → Nat → Nat → Nat
  | 0, n, acc => if (acc + 1) * (acc + 1) ≤ n then acc + 1 else acc
  | k + 1, n, acc =>
    let t := acc + 2 ^ (k + 1)
    isqrt k n (if t * t ≤ n then t else acc)

/-- Square root rounded to a format. -/
def Fmt.sqrt (f : Fmt) (r : RMode) : FVal → Nat
  | .nan => f.nanBits
  | .inf n => if n then f.nanBits else f.encode r (.inf false)
  | .fin n m e =>
    if m = 0 then f.signBit n
    else if n then f.nanBits
    else
      let k : Nat := 2 * f.p + 2
      -- an even exponent
      let (m, e) := if e % 2 = 0 then (m * 2 ^ (2 * k), e - 2 * k) else (m * 2 ^ (2 * k + 1), e - (2 * k + 1))
      let s := isqrt (bitLen m / 2) m 0
      f.round r false s (e / 2) (s * s ≠ m)

/-! ## binary32 -/

namespace F32

def val (x : F32) : FVal := fmtF32.decode x.toNat
def ofVal (r : RMode) (v : FVal) : F32 := BitVec.ofNat 32 (fmtF32.encode r v)
def nan : F32 := 0x7FC00000
def one : F32 := 0x3F800000
def half : F32 := 0x3F000000

def addR (r : RMode) (x y : F32) : F32 := ofVal r ((val x).add r (val y))
def mulR (r : RMode) (x y : F32) : F32 := ofVal r ((val x).mul (val y))
def negate (x : F32) : F32 := x ^^^ 0x80000000
def subR (r : RMode) (x y : F32) : F32 := ofVal r ((val x).add r (val y).neg)
def divR (r : RMode) (x y : F32) : F32 := BitVec.ofNat 32 (fmtF32.div r (val x) (val y))
def sqrtR (r : RMode) (x : F32) : F32 := BitVec.ofNat 32 (fmtF32.sqrt r (val x))
/-- x * y + z rounded once. -/
def fmaR (r : RMode) (x y z : F32) : F32 := ofVal r (((val x).mul (val y)).add r (val z))

/-- Round to nearest, ties to even: what the module uses unless a rule names another (03 R56). -/
def add (x y : F32) : F32 := addR .rne x y
def sub (x y : F32) : F32 := subR .rne x y
def mul (x y : F32) : F32 := mulR .rne x y
def div (x y : F32) : F32 := divR .rne x y
def fma (x y z : F32) : F32 := fmaR .rne x y z

def isNan (x : F32) : Bool := val x = .nan
def finite (x : F32) : Bool := match val x with | .fin _ _ _ => true | _ => false
def isNeg (x : F32) : Bool := x.getLsbD 31
def abs (x : F32) : F32 := x &&& 0x7FFFFFFF

/-- Order of two numbers; `none` where either is NaN; -0 equals +0. -/
def cmp (x y : F32) : Option Ordering :=
  match val x, val y with
  | .nan, _ => none
  | _, .nan => none
  | .inf a, .inf b => some (if a = b then .eq else if a then .lt else .gt)
  | .inf a, _ => some (if a then .lt else .gt)
  | _, .inf b => some (if b then .gt else .lt)
  | .fin n1 m1 e1, .fin n2 m2 e2 =>
    let base := min e1 e2
    some (compare (signedAt n1 m1 e1 base) (signedAt n2 m2 e2 base))

def lt (x y : F32) : Bool := cmp x y = some .lt
def le (x y : F32) : Bool := cmp x y = some .lt || cmp x y = some .eq
def eq (x y : F32) : Bool := cmp x y = some .eq
def max (x y : F32) : F32 := if lt x y then y else x
def min (x y : F32) : F32 := if lt y x then y else x
/-- The value held within [lo, hi]. -/
def clamp (lo hi x : F32) : F32 := if lt x lo then lo else if lt hi x then hi else x

/-- An integer times a power of two, rounded to nearest. -/
def ofIntExp (v : Int) (e : Int) : F32 := BitVec.ofNat 32 (fmtF32.round .rne (v < 0) v.natAbs e)
def ofInt (v : Int) : F32 := ofIntExp v 0
def ofNat (n : Nat) : F32 := ofIntExp n 0

/-- A quotient of integers, rounded to nearest. -/
def ofRat (num : Int) (den : Nat) : F32 := BitVec.ofNat 32 (fmtF32.div .rne (.fin (num < 0) num.natAbs 0) (.fin false den 0))

/-- The integer nearest under a rounding; NaN and infinities have none. -/
def toInt (r : RMode) (x : F32) : Option Int :=
  match val x with
  | .fin n m e =>
    let q : Nat := if 0 ≤ e then m * 2 ^ e.toNat else shiftRound r n m (-e).toNat false
    some (if n then -(q : Int) else q)
  | _ => none

end F32

/-- 1/64 degree C as binary32 (00 Table 0.4); all-sign 0x8000 is no reading. -/
def t16ToF32 (t : U16) : Option F32 := if t = 0x8000 then none else some (F32.ofIntExp t.toInt (-6))

/-- Saturates a signed value into a T16, never the no-reading code (00 R10). -/
def t16Sat (v : Int) : U16 := BitVec.ofInt 16 (max (-32767) (min 32767 v))

end Sys2Proof.Machine
end

