-- ==== Sys2Proof/Machine/LoopLaw.lean ====
section
/-! DEFINITION. Arithmetic of one loop slot (03): first-order filter, set-point limiter, law terms, transfer preset, and
the slot descriptor's layout and checks (Tables 3.1 to 3.5, 3.11). -/

namespace Sys2Proof.Machine

/-- Ts, 1.0e-4 s whatever the tick (03 R56). -/
def loopTs : F32 := 0x38D1B717

/-- y + (Ts / (tau + Ts)) * (x - y), preset to x; tau 0 filters nothing (03 R59). -/
def firstOrder (y : Option F32) (x tau : F32) : F32 :=
  match y with
  | none => x
  | some y =>
    if F32.eq tau 0 then x
    else F32.add y (F32.mul (F32.div loopTs (F32.add tau loopTs)) (F32.sub x y))

/-- The flags of a slot descriptor (Table 3.1). -/
def LoopDesc.enable (d : LoopDesc) : Bool := d.accepted && bit d.flags 0
def LoopDesc.reverse (d : LoopDesc) : Bool := bit d.flags 1
def LoopDesc.trackSp (d : LoopDesc) : Bool := bit d.flags 2

/-- s of 03 R61 times a value. -/
def LoopDesc.signed (d : LoopDesc) (x : F32) : F32 := if d.reverse then F32.negate x else x

/-- e = s * (r - pv). -/
def LoopDesc.error (d : LoopDesc) (r pv : F32) : F32 := d.signed (F32.sub r pv)

/-- sign(d) * x. -/
def signTimes (d x : F32) : F32 := if F32.lt d 0 then F32.negate x else if F32.lt 0 d then x else 0

/-- The rate and acceleration limiter (03 R68): r and v after the pass. -/
def LoopDesc.limit (p : LoopDesc) (tgt r v : F32) : F32 × F32 :=
  let d := F32.sub tgt r
  let (r, v) :=
    if F32.eq p.spRate 0 then (tgt, 0)
    else if F32.eq p.spAcc 0 then
      let lim := F32.mul p.spRate loopTs
      let st := F32.clamp (F32.negate lim) lim d
      (F32.add r st, F32.div st loopTs)
    else
      let dv := F32.mul p.spAcc loopTs
      let root := F32.sqrtR .rne (F32.mul (F32.mul 0x40000000 p.spAcc) (F32.abs d))
      let vdes := signTimes d (F32.min p.spRate root)
      let v := F32.add v (F32.clamp (F32.negate dv) dv (F32.sub vdes v))
      let rNew := F32.add r (F32.mul v loopTs)
      if F32.le (F32.mul (F32.sub tgt r) (F32.sub tgt rNew)) 0 && F32.le (F32.abs v) dv then (tgt, 0) else (rNew, v)
  if F32.lt p.spMax r || F32.lt r p.spMin then (F32.clamp p.spMin p.spMax r, 0) else (r, v)

/-! ## Law terms (03 R61-R64) -/

/-- How a law is evaluated: `run` advances its states; `rest` presets D, EFILT and LL with the integrator at 0 (R77 steps
2, 3); `still` advances nothing (the transfer pass, whose states stand as preset). -/
inductive LawMode where
  | run | rest | still
deriving DecidableEq, Repr

/-- Running values of an evaluation: e, u, and whether every value was finite (03 R57). -/
structure LawAcc where
  e : F32
  u : F32
  ok : Bool := true
deriving DecidableEq, Repr

/-- A new value of u, checked (03 R57). -/
def LawAcc.toU (a : LawAcc) (u : F32) : LawAcc := { a with u := u, ok := a.ok && F32.finite u }

/-- I term: conditional integration against the previous pass's output (03 R64). -/
def integrate (d : LoopDesc) (t : Term) (x e last : F32) : F32 :=
  let push := F32.mul t.c0 e
  if F32.le d.outMax last && F32.lt 0 push || F32.le last d.outMin && F32.lt push 0 then x
  else F32.clamp t.c1 t.c2 (F32.add x (F32.mul push loopTs))

/-- D term: the derivative's next value (03 R64). -/
def derive (d : LoopDesc) (t : Term) (y pv prev : F32) : F32 :=
  let den := F32.add t.c1 loopTs
  F32.sub (F32.mul (F32.div t.c1 den) y) (F32.mul (d.signed (F32.div t.c0 den)) (F32.sub pv prev))

/-- LL term: the output's next value (03 R64). -/
def leadLag (t : Term) (u q w : F32) : F32 :=
  let t1 := F32.mul 0x40000000 t.c1
  let t2 := F32.mul 0x40000000 t.c2
  let den := F32.add t2 loopTs
  let a := F32.div (F32.sub t2 loopTs) den
  let num := F32.add (F32.mul (F32.add t1 loopTs) u) (F32.mul (F32.sub loopTs t1) q)
  F32.add (F32.div (F32.mul t.c0 num) den) (F32.mul a w)

/-- One term of Table 3.4. `ff` is the value of an FF term's source, `none` where it is invalid (R71); `last` the slot's
released output of the previous pass. -/
def evalTerm (d : LoopDesc) (mode : LawMode) (pv last : F32) (ff : Nat → Nat → Option F32) (t : Term) (st : TermSt)
    (a : LawAcc) : TermSt × LawAcc :=
  match t.ty with
  | 0x01 => (st, a.toU (F32.add a.u (F32.mul t.c0 a.e)))
  | 0x02 =>
    let x := match mode with
      | .run => integrate d t st.x a.e last
      | .rest => 0
      | .still => st.x
    let acc := a.toU (F32.add a.u x)
    (if mode = .run then { st with x := x } else st, { acc with ok := acc.ok && F32.finite x })
  | 0x03 =>
    let y := match mode with
      | .run => derive d t st.d pv (st.pvPrev.getD pv)
      | .rest => 0
      | .still => st.d
    (if mode = .still then st else { st with d := y, pvPrev := some pv }, a.toU (F32.add a.u y))
  | 0x04 =>
    let f := (ff t.srcType t.srcIdx).getD st.ff
    ({ st with ff := f }, a.toU (F32.add (F32.add a.u (F32.mul t.c0 f)) t.c1))
  | 0x05 =>
    let w := match mode with
      | .run => leadLag t a.u st.q st.w
      | .rest => F32.mul t.c0 a.u
      | .still => st.w
    (if mode = .still then st else { st with q := a.u, w := w }, a.toU w)
  | 0x06 => (st, a.toU (F32.add a.u t.c0))
  | 0x07 => (st, a.toU (F32.mul t.c0 a.u))
  | 0x08 =>
    let y := match mode with
      | .run => F32.add (st.ef.getD a.e) (F32.mul (F32.div loopTs (F32.add t.c0 loopTs)) (F32.sub a.e (st.ef.getD a.e)))
      | .rest => a.e
      | .still => st.ef.getD a.e
    (if mode = .still then st else { st with ef := some y }, { a with e := y, ok := a.ok && F32.finite y })
  | 0x09 =>
    let e := if F32.le (F32.abs a.e) t.c0 then 0 else F32.sub a.e (signTimes a.e t.c0)
    (st, { a with e := e, ok := a.ok && F32.finite e })
  | _ => (st, a)

/-- The terms in list order (03 R56, R61). -/
def evalTerms (d : LoopDesc) (mode : LawMode) (pv last : F32) (ff : Nat → Nat → Option F32) :
    List Term → List TermSt → LawAcc → List TermSt × LawAcc
  | [], _, a => ([], a)
  | t :: ts, sts, a =>
    let (st, a) := evalTerm d mode pv last ff t (sts.headD {}) a
    let (rest, a) := evalTerms d mode pv last ff ts sts.tail a
    (st :: rest, a)

/-- A law from u = 0: its states and u, or `none` where a value was not finite (03 R57). -/
def evalLaw (d : LoopDesc) (mode : LawMode) (e pv last : F32) (ff : Nat → Nat → Option F32) (sts : List TermSt) :
    Option (List TermSt × F32) :=
  let (sts, a) := evalTerms d mode pv last ff d.terms sts { e := e, u := 0, ok := F32.finite e }
  if a.ok then some (sts, a.u) else none

/-- The I term of a law. -/
def LoopDesc.iTerm (d : LoopDesc) : Option Term := d.terms.find? (·.ty = 0x02)

/-- Puts the integrator's value into the state of the I term. -/
def putIntegrator (x : F32) : List Term → List TermSt → List TermSt
  | t :: ts, st :: sts => (if t.ty = 0x02 then { st with x := x } else st) :: putIntegrator x ts sts
  | _, sts => sts

/-- The integrator's value; 0 without an I term (Table 3.14). -/
def integratorOf : List Term → List TermSt → F32
  | t :: ts, st :: sts => if t.ty = 0x02 then st.x else integratorOf ts sts
  | _, _ => 0

/-- The transfer preset (03 R77): into `uPrev`, with r and v first set to the measurement where `toPv`. -/
def LoopDesc.preset (d : LoopDesc) (s : LoopSlot) (uPrev : F32) (toPv : Bool) (ff : Nat → Nat → Option F32) : LoopSlot :=
  let s := if toPv then { s with r := s.pv, v := 0 } else s
  match evalLaw d .rest (d.error s.r s.pv) s.pv uPrev ff s.terms with
  | none => s
  | some (sts, u0) =>
    let diff := F32.sub uPrev u0
    match d.iTerm with
    | some t =>
      let x := F32.clamp t.c1 t.c2 diff
      { s with terms := putIntegrator x d.terms sts, b := F32.sub diff x }
    | none => { s with terms := sts, b := diff }

/-! ## Slot descriptors (Tables 3.1, 3.5) -/

/-- A term entry at an offset. -/
def termAt (bs : List Byte) (off : Nat) : Term :=
  { ty := u8At bs off, srcType := u8At bs (off + 1), srcIdx := u8At bs (off + 2)
    c0 := f32At bs (off + 4), c1 := f32At bs (off + 8), c2 := f32At bs (off + 12) }

/-- The slot a descriptor names. -/
def descSlot (bs : List Byte) (off : Nat) : Nat := u8At bs (off + 4)

/-- A slot descriptor at an offset. -/
def descAt (bs : List Byte) (o : Nat) : LoopDesc :=
  { accepted := true, rack := u8At bs (o + 5), flags := u16At bs (o + 6), spSrc := u8At bs (o + 8), spIdx := u8At bs (o + 9)
    pvSrc := u8At bs (o + 10), pvIdx := u8At bs (o + 11), outDest := u8At bs (o + 12), outIdx := u8At bs (o + 13)
    trAction := u8At bs (o + 14), spFixed := f32At bs (o + 0x10), spScale := f32At bs (o + 0x14)
    spOffset := f32At bs (o + 0x18), spTau := f32At bs (o + 0x1C), pvScale := f32At bs (o + 0x20)
    pvOffset := f32At bs (o + 0x24), pvTau := f32At bs (o + 0x28), spMin := f32At bs (o + 0x2C)
    spMax := f32At bs (o + 0x30), spRate := f32At bs (o + 0x34), spAcc := f32At bs (o + 0x38)
    outMin := f32At bs (o + 0x3C), outMax := f32At bs (o + 0x40), outRate := f32At bs (o + 0x44)
    manPreset := f32At bs (o + 0x48), safeOut := f32At bs (o + 0x4C), trBand := f32At bs (o + 0x50)
    trTimer := u32At bs (o + 0x54), bumpTau := f32At bs (o + 0x58), mirrorTol := f32At bs (o + 0x5C)
    refKp := f32At bs (o + 0x60), refBias := f32At bs (o + 0x64), refFloor := f32At bs (o + 0x68)
    terms := (List.range (min 32 (u8At bs (o + 15)))).map fun i => termAt bs (o + 0x70 + 16 * i) }

/-! ## Checks of a configuration (Table 3.11) -/

/-- The refusal word of 03 R81: cycle sum, term, reason, slot. -/
def loopWord (sum term reason slot : Nat) : Nat := sum % 256 * 0x1000000 + term * 0x10000 + reason * 256 + slot

/-- Cost and number of coefficients of a term type (Table 3.4). -/
def termCost : Nat → Option (Nat × Nat)
  | 0x01 => some (1, 1) | 0x02 => some (2, 3) | 0x03 => some (3, 2) | 0x04 => some (2, 2) | 0x05 => some (3, 3)
  | 0x06 => some (1, 1) | 0x07 => some (1, 1) | 0x08 => some (2, 1) | 0x09 => some (1, 1)
  | _ => none

/-- The cycle sum of a law (03 R55). -/
def LoopDesc.cost (d : LoopDesc) : Nat := (d.terms.map fun t => ((termCost t.ty).map Prod.fst).getD 0).sum

/-- A source's role (Table 3.2). -/
inductive SrcRole where
  | setPoint | measurement | feedForward
deriving DecidableEq, Repr

/-- Greatest index of a source type in a role, where the role allows it (Table 3.2). -/
def srcTop (role : SrcRole) : Nat → Option Nat
  | 0x01 => if role = .setPoint then some 0 else none
  | 0x02 => if role = .setPoint then some 0 else none
  | 0x03 => if role = .measurement then none else some 0
  | 0x04 => some 255
  | 0x05 => some 63
  | 0x06 => if role = .measurement then none else some 255
  | 0x07 => if role = .setPoint then none else some 55
  | 0x08 => if role = .setPoint then none else some 63
  | _ => none

/-- Reason 0x04 does not apply: NONE only where the slot is not enabled (03 R59). -/
def srcOk (role : SrcRole) (on : Bool) (ty idx : Nat) : Bool :=
  if ty = 0 then !on
  else match srcTop role ty with
    | some top => idx ≤ top
    | none => false

/-- The slots a descriptor's set-point and feed-forwards name as LOOP sources (03 R67). -/
def LoopDesc.refs (d : LoopDesc) : List Nat :=
  (if d.spSrc = 0x06 then [d.spIdx] else []) ++
    (d.terms.filter fun t => t.ty = 0x04 && t.srcType = 0x06).map (·.srcIdx)

/-- The enabled slots reached from a set by references, in at most `fuel` rounds. -/
def loopReach (refs : Nat → List Nat) : Nat → List Nat → List Nat → List Nat
  | 0, _, seen => seen
  | fuel + 1, front, seen =>
    let next := ((front.flatMap refs).eraseDups).filter fun n => !seen.contains n
    if next.isEmpty then seen else loopReach refs fuel next (seen ++ next)

/-- The reals of a descriptor outside its terms (03 R58). -/
def LoopDesc.reals (d : LoopDesc) : List F32 :=
  [d.spFixed, d.spScale, d.spOffset, d.spTau, d.pvScale, d.pvOffset, d.pvTau, d.spMin, d.spMax, d.spRate, d.spAcc, d.outMin,
    d.outMax, d.outRate, d.manPreset, d.safeOut, d.trBand, d.bumpTau, d.mirrorTol, d.refKp, d.refBias, d.refFloor]

/-- A coefficient of a used term is not finite or outside its range (reason 0x07). -/
def badCoeff (t : Term) : Bool :=
  !(F32.finite t.c0 && F32.finite t.c1 && F32.finite t.c2) ||
    t.ty = 0x03 && F32.lt t.c1 loopTs || t.ty = 0x05 && F32.lt t.c2 0x3851B717 ||
    t.ty = 0x08 && !F32.lt 0 t.c0 || t.ty = 0x09 && F32.lt t.c0 0

/-- A term type outside Table 3.4, or a source or coefficient its type does not use (reason 0x0A). -/
def badTerm (t : Term) : Bool :=
  match termCost t.ty with
  | none => true
  | some (_, n) =>
    t.ty ≠ 0x04 && (t.srcType ≠ 0 || t.srcIdx ≠ 0) || n < 2 && t.c1 ≠ 0 || n < 3 && t.c2 ≠ 0

/-- Index of the first term at or after `i` that meets `f`. -/
def termIndex (f : Term → Bool) (i : Nat) (ts : List Term) : Option Nat :=
  firstSome (fun k t => if i ≤ k && f t then some k else none) 0 ts

/-- The checks of one slot in a configuration: its refusal word, or `none`. `dup` says that another enabled slot names the
same destination, `cyc` that its references lead back to it, `busOut` whether an entry is OUT (14 R357), `named` whether the
command names the slot. -/
def LoopDesc.check (d : LoopDesc) (n : Nat) (dup cyc named : Bool) (fed : Nat → Bool) (busOut : Nat → Bool) : Option Nat :=
  let on := d.enable
  let word := fun reason => some (loopWord 0 0xFF reason n)
  let wordAt := fun reason (i : Nat) => some (loopWord 0 i reason n)
  let iAt := termIndex (·.ty = 0x02) 0 d.terms
  let second := iAt.bind fun i => termIndex (·.ty = 0x02) (i + 1) d.terms
  let after := iAt.bind fun i => termIndex (fun t => t.ty = 0x07 || t.ty = 0x05) (i + 1) d.terms
  let badFf := termIndex (fun t => t.ty = 0x04 && !srcOk .feedForward on t.srcType t.srcIdx) 0 d.terms
  let badC := termIndex badCoeff 0 d.terms
  let badX := termIndex (fun t => t.ty = 0x02 && F32.lt t.c2 t.c1) 0 d.terms
  match termIndex badTerm 0 d.terms with
  | some i => wordAt 0x0A i
  | none =>
  if on && 40 < d.cost then some (loopWord d.cost 0xFF 0x01 n)
  else if second.isSome then wordAt 0x02 (second.getD 0)
  else if after.isSome then wordAt 0x03 (after.getD 0)
  else if !srcOk .setPoint on d.spSrc d.spIdx || !srcOk .measurement on d.pvSrc d.pvIdx then word 0x04
  else if badFf.isSome then wordAt 0x04 (badFf.getD 0)
  else if 2 < d.outDest || d.outDest = 0 && d.outIdx ≠ 0 || d.outDest = 1 && 55 < d.outIdx || d.outDest = 2 && 63 < d.outIdx ||
      (on || named) && d.outDest = 2 && !busOut d.outIdx || on && d.outDest ≠ 0 && dup then word 0x05
  else if on && (d.refs.contains n || cyc || d.spSrc = 0x06 && fed d.spIdx && F32.eq d.spScale 0) then word 0x06
  else if badC.isSome then wordAt 0x07 (badC.getD 0)
  else if !d.reals.all F32.finite || F32.lt d.bumpTau 0x3C23D70A || F32.lt 0x42700000 d.bumpTau then word 0x07
  else if badX.isSome then wordAt 0x08 (badX.getD 0)
  else if F32.lt d.spMax d.spMin || F32.lt d.outMax d.outMin || F32.lt d.manPreset d.outMin || F32.lt d.outMax d.manPreset ||
      F32.lt d.safeOut d.outMin || F32.lt d.outMax d.safeOut then word 0x08
  else if !F32.eq d.spAcc 0 && F32.eq d.spRate 0 ||
      [d.spRate, d.spAcc, d.outRate, d.trBand, d.spTau, d.pvTau, d.mirrorTol].any (F32.lt · 0) then word 0x09
  else if !F32.eq d.trBand 0 && (d.trTimer = 0 || 1000000 < d.trTimer) then word 0x0B
  else if 2 < d.trAction || 15 < d.rack && d.rack ≠ 0xFF then word 0x0D
  else none

/-- The checks of the configuration that would result, slot by slot in index order (03 R81; order: assumption log 13). -/
def checkLoops (loops : Tab LoopDesc) (named : List Nat) (busOut : Nat → Bool) : Option Nat :=
  let on := loops.filter fun e => e.2.enable
  let enabled := fun n => on.any (·.1 = n)
  let refs := fun n => ((Tab.get {} on n).refs).filter enabled
  loops.findSome? fun e =>
    let dup := on.any fun x => x.1 ≠ e.1 && x.2.outDest = e.2.outDest && x.2.outIdx = e.2.outIdx
    let cyc := e.2.enable && (loopReach refs 257 [e.1] []).contains e.1
    e.2.check e.1 dup cyc (named.contains e.1) enabled busOut

end Sys2Proof.Machine
end

