-- ==== Sys2Proof/Machine/Protocol.lean ====
section
/-! DEFINITION. The command protocol (18): the general opcodes of group 0x01, fetch and checks 1 to 10, delivery and
commit, completions, held results and interrupt coalescing. -/

namespace Sys2Proof.Machine

/-! ## General opcodes -/

def doNopEcho (p : Packet) (s : State) : State :=
  s.runCmd 0x0101 true p (·.checkBlock 20 [(4, 4)]) noAxis fun _ p s =>
    .ok (s, .reply (.words (w32 (u32At p.block 8)) (w32 (u32At p.block 12)) (w32 (u32At p.block 16))))

/-- NOP_ECHO (18 R454). -/
def execNopEcho (p : Packet) (s : State) : Host.Outcome State Fault Refusal := .next (doNopEcho p s)

/-- GEN_PART and GEN_STEPPING (17 Table 17.3). -/
def genPart : U32 := 0x7720
def genStepping : U32 := 0xB0

def doGetIdentity (p : Packet) (s : State) : State :=
  s.runCmd 0x0102 true p (·.checkBlock 8 [(4, 4)]) noAxis fun _ _ s =>
    .ok (s, .reply (.words genPart genStepping s.gen.fwVersion))

/-- GET_IDENTITY (18 R455, 00 R3). -/
def execGetIdentity (p : Packet) (s : State) : Host.Outcome State Fault Refusal := .next (doGetIdentity p s)

/-- The ranges of a SNAPSHOT_READ block: BAR0 offset and length (18 Table 18.7). -/
def snapRanges (bs : List Byte) : Nat → Nat → List (Nat × Nat)
  | _, 0 => []
  | i, n + 1 => (u32At bs (0x10 + 8 * i), u32At bs (0x14 + 8 * i)) :: snapRanges bs (i + 1) n

/-- The index of the first range outside the limits of Table 18.7; the total counts from the first range. -/
def badRange : Nat → Nat → List (Nat × Nat) → Option Nat
  | _, _, [] => none
  | i, total, (o, l) :: rest =>
    if o < 0x100000 ∨ o % 4 ≠ 0 ∨ l < 4 ∨ l % 4 ≠ 0 ∨ 0x1000000 < o + l ∨ 0x100000 < total + l then some i
    else badRange (i + 1) (total + l) rest

def doSnapshotRead (p : Packet) (dmaOk : Bool) (s : State) : State :=
  s.runCmd 0x0103 true p
    (fun p => do
      p.checkBlock 16 [(6, 2)]
      deny [(u16At p.block 2 < 16 + 8 * u16At p.block 4, p.badField 2)])
    noAxis fun _ p s => do
      let n := u16At p.block 4
      deny [(n = 0 || 16 < n, p.badField 4), (u64At p.block 8 % 4 ≠ 0, p.badField 8)]
      let rs := snapRanges p.block 0 n
      match badRange 0 0 rs with
      | some i => .error (.badParam i)
      | none =>
        let total := rs.foldl (fun a r => a + r.2) 0
        let e := epochField s.tick.settled.epoch
        let body := rs.flatMap fun r => s.tick.settled.view.readBytes r.1 r.2
        if dmaOk then
          .ok (s.writeHost (u64At p.block 8) (le16 1 ++ le16 16 ++ le32 total ++ le64 e ++ body),
            .reply (.words (lo32 e) (hi32 e) (w32 total)))
        else .ok (s.dmaFault p.sq, .reply { status := SC.internal })

/-- SNAPSHOT_READ (18 R457): every byte from the newest settled epoch, zero before the first. `dmaOk` is false where the
write to host memory fails. -/
def execSnapshotRead (p : Packet) (dmaOk : Bool) (s : State) : Host.Outcome State Fault Refusal :=
  .next (doSnapshotRead p dmaOk s)

def doResultFetch (p : Packet) (s : State) : State :=
  s.runCmd 0x0104 false p (·.checkBlock 8 []) noAxis fun _ p s =>
    let tag := w32 (u32At p.block 4)
    match s.proto.held.find? (·.tag = tag) with
    | none => .error (.badParam tag.toNat)
    | some h =>
      match h.ready, h.outcome with
      | true, some c =>
        let st := if h.fetched then SC.alreadyFetched else c.status
        let q := { s.proto with held := s.proto.held.map fun (x : HeldCmd) => if x.id = h.id then { x with fetched := true } else x }
        .ok ({ s with proto := q }, .reply { status := st, aux := c.status, r0 := c.r0, r1 := c.r1, r2 := c.r2, epoch := some h.commit })
      | _, _ => .ok (s, .reply { status := SC.pending, r0 := lo32 s.now, r1 := hi32 s.now })

/-- RESULT_FETCH (18 R448, Table 18.5). -/
def execResultFetch (p : Packet) (s : State) : Host.Outcome State Fault Refusal := .next (doResultFetch p s)

/-- The queues field names queue `q`; 0 names every queue (18 R450). -/
def namesQueue (queues q : Nat) : Bool := queues = 0 || bit queues q

def doQueueBarrier (p : Packet) (s : State) : State :=
  let s := s.runCmd 0x0105 false p
    (fun p => do
      p.checkBlock 8 [(6, 2)]
      deny [(bits (u8At p.block 5) 7 1 ≠ 0, p.badField 5)])
    noAxis fun _ p s =>
      let named := fun q => namesQueue (u8At p.block 4) q
      let waits := (s.proto.issued.filter fun i => i.id < p.id && named i.sq).map (·.id)
      let results := if bit (u8At p.block 5) 0
        then (s.proto.held.filter fun h => h.id < p.id && named h.sq && !h.ready).map (·.id) else []
      let count := (waits ++ results.filter fun i => !waits.contains i).length
      .ok ({ s with proto := { s.proto with barriers := s.proto.barriers ++ [{ id := p.id, waits := waits, results := results, count := count }] } },
        .later [])
  { s with proto := s.proto.settleBarriers s.holdsBack }

/-- QUEUE_BARRIER (18 R450). -/
def execQueueBarrier (p : Packet) (s : State) : Host.Outcome State Fault Refusal := .next (doQueueBarrier p s)

/-- The host axis becomes PRESENT or SILENT (16 R402). -/
def State.setHostAxis (s : State) (present : Bool) : State :=
  if s.mode.hostPresent = present then s
  else ({ s with mode := { s.mode with hostPresent := present } }.setModeEvent 0x8).logRm
    (if present then Cls.notice else Cls.warning) 0x090B none32 [w32 (flag present)] 1

def doHostHeartbeat (p : Packet) (s : State) : State :=
  s.runCmd 0x0106 true p (·.checkBlock 8 [(4, 4)]) noAxis fun _ _ s =>
    let s := { s with hif := { s.hif with wdogTicks := 10 * s.cfg.wdogPeriod, wdogExpired := false, wdogDeferred := false, heartbeatSeen := true } }
    .ok (s.setHostAxis true, .reply (.words (w32 s.cfg.wdogPeriod) 0 0))

/-- HOST_HEARTBEAT (18 R456, 17 R426, 16 R402). -/
def execHostHeartbeat (p : Packet) (s : State) : Host.Outcome State Fault Refusal := .next (doHostHeartbeat p s)

/-! ## Fetch and checks 1 to 10 -/

/-- The opcodes of Table 18.8. -/
def opcodes : List Nat :=
  [0x0101, 0x0102, 0x0103, 0x0104, 0x0105, 0x0106, 0x0201, 0x0202, 0x0203, 0x0204, 0x0301, 0x0302, 0x0303, 0x0304, 0x0305] ++
  [0x0401, 0x0402, 0x0403, 0x0404, 0x0405, 0x0406, 0x0501, 0x0502, 0x0503, 0x0504, 0x0505, 0x0601, 0x0602, 0x0603] ++
  [0x0701, 0x0702, 0x0703, 0x0801, 0x0802, 0x0901, 0x0902, 0x0903, 0x0A01, 0x0A02, 0x0A03] ++
  [0x0B01, 0x0B02, 0x0B03, 0x0B04, 0x0B05, 0x0B06]

/-- The period of 10,000 ticks that holds an epoch (19 R526). -/
def period (e : Nat) : Nat := (e - 1) / 10000

/-- A packet's refusal at a check of Table 18.2: the check's number, the reply, whether the tag was in use, whether the
queue stops, and by how many bytes SQ_HEAD moves. -/
structure FetchRefusal where
  check : Nat
  reply : Reply
  dup : Bool := false
  stop : Bool := false
  skip : Nat := 0
deriving DecidableEq, Repr

/-- Checks 1 to 10 of Table 18.2 on the bytes of a packet with `avail` bytes up to SQ_TAIL. -/
def fetchCheck (q : ProtoSt) (avail : Nat) (bs : List Byte) : Option FetchRefusal :=
  let len := u16At bs 4
  let hdr := u16At bs 2
  let flags := u16At bs 12
  let lenWords : Reply := { status := SC.badLength, r0 := w32 len, r1 := none32 }
  if u16At bs 0 ≠ 1 then some { check := 1, reply := { status := SC.badVersion }, stop := true }
  else if len = 0xFFFF then some { check := 2, reply := lenWords, stop := true }
  else if len < 4 ∨ len * 4 < hdr then some { check := 3, reply := lenWords, stop := true }
  else if 16384 < len then
    some { check := 4, reply := { status := SC.lengthExceedsBuffer, r0 := w32 len, r1 := w32 16384 }
           stop := avail < len * 4, skip := len * 4 }
  else if avail < len * 4 then some { check := 5, reply := lenWords, stop := true }
  else if hdr < 16 ∨ hdr % 4 ≠ 0 then some { check := 6, reply := .badParam 2, skip := len * 4 }
  else if flags / 4 ≠ 0 then some { check := 7, reply := .badParam 12, skip := len * 4 }
  else if u16At bs 14 ≠ 0 then some { check := 7, reply := .badParam 14, skip := len * 4 }
  else if bit flags 0 ∧ u8At bs 7 = 1 then some { check := 8, reply := .badParam 12, skip := len * 4 }
  else if !opcodes.contains (u16At bs 6) then
    some { check := 9, reply := { status := SC.badOpcode, r0 := w32 (u16At bs 6) }, skip := len * 4 }
  else if q.tagInUse (w32 (u32At bs 8)) then some { check := 10, reply := .badParam 8, dup := true, skip := len * 4 }
  else none

/-- The ring's size in bytes. -/
def Sq.ring (x : Sq) : Nat := 2 ^ x.n

/-- The Ringmaster may fetch from queue `q`: it is enabled, not stopped and not empty, a completion entry can be
reserved, and neither D3hot nor a firmware restart suspends fetch (17 R415, R421, R432). -/
def State.mayFetch (s : State) (q : Nat) : Bool :=
  let x := Tab.get {} s.hif.sqs q
  x.enable && !x.err && x.head ≠ x.tail && s.hif.cqEnable && s.hif.cqFill + s.proto.issued.length < 2 ^ s.hif.cqM &&
    !s.hif.d3hot && !s.gen.rmRestart && s.gen.rmReady

/-- Counts a refusal against its queue and logs the first in a period (18 R458). -/
def State.logRefused (s : State) (q check : Nat) (tag : U32) : State :=
  let n := Tab.get 0 s.proto.refusals q + 1
  let s := { s with proto := { s.proto with refusals := Tab.set 0 s.proto.refusals q n } }
  if Tab.get 0 s.proto.refusalPeriod q = period s.now + 1 then s
  else
    let since := n - Tab.get 0 s.proto.refusalsLogged q
    { s with proto := { s.proto with
        refusalPeriod := Tab.set 0 s.proto.refusalPeriod q (period s.now + 1)
        refusalsLogged := Tab.set 0 s.proto.refusalsLogged q n } }.logRm Cls.notice 0x0103 (w32 q) [w32 check, tag, w32 since] 1

/-- The header fields of a packet's bytes (Table 18.1). -/
def packetOf (q : Nat) (bs : List Byte) : Packet :=
  { sq := q, tag := w32 (u32At bs 8), opcode := u16At bs 6, flags := u16At bs 12, hdr := u16At bs 2
    block := (bs.take (4 * u16At bs 4)).drop (u16At bs 2) }

/-- Moves SQ_HEAD past a packet. -/
def State.moveHead (s : State) (q n : Nat) : State :=
  { s with hif := { s.hif with sqs := Tab.modify {} s.hif.sqs q fun x => { x with head := (x.head + n) % x.ring } } }

def doFaultyPacket (q : Fin 8) (bs : List Byte) (dmaOk : Bool) (s : State) : State :=
  if !s.mayFetch q then s
  else if !dmaOk then s.dmaFault q
  else
    let x := Tab.get {} s.hif.sqs q
    let avail := (x.tail + x.ring - x.head) % x.ring
    let p := packetOf q bs
    match fetchCheck s.proto avail bs with
    | none =>
      let s := s.moveHead q (4 * u16At bs 4)
      let (pr, p) := s.proto.issue p
      { s with proto := { pr with fetched := pr.fetched ++ [p] } }
    | some r =>
      let s := if r.stop then (s.stopQueue q).logRm Cls.warning 0x0104 (w32 q) [w32 r.check, p.tag] 1 else s.moveHead q r.skip
      let s := s.logRefused q r.check p.tag
      let p := { p with id := s.proto.nextId, flags := if r.check ≤ 5 then 0 else p.flags }
      let s := { s with proto := { s.proto with
        nextId := s.proto.nextId + 1
        issued := s.proto.issued ++ [({ id := p.id, sq := p.sq, tag := p.tag, opcode := p.opcode } : Issued)] } }
      s.ready p s.now r.reply r.dup

/-- Fetch of the packet at SQ_HEAD of a queue and its checks 1 to 10 (17 R420, R421; 18 R437-R439, R458): a failing packet
is completed with its refusal and may stop the queue; one that passes is accepted for delivery. `bs` is what host memory
holds there; `dmaOk` is false where it cannot be read (Table 18.10). -/
def execFaultyPacket (q : Fin 8) (bs : List Byte) (dmaOk : Bool) (s : State) : Host.Outcome State Fault Refusal :=
  .next (doFaultyPacket q bs dmaOk s)

/-! ## Delivery and commit -/

/-- An incomplete barrier fetched before `p` names its queue (18 R450). -/
def ProtoSt.barred (q : ProtoSt) (p : Packet) : Bool :=
  q.issued.any fun i => i.id < p.id && (match i.barrier with | some m => namesQueue m p.sq | none => false)

/-- The packets of one delivery point, in fetch order: at most 64 or 1 MiB, none behind a barrier (18 R440, R449, R450). -/
def takeDelivery (q : ProtoSt) : Nat → Nat → List Packet → List Packet
  | _, _, [] => []
  | n, bytes, p :: rest =>
    if n = 0 ∨ 0x100000 < bytes + p.hdr + p.block.length ∨ q.barred p then []
    else p :: takeDelivery q (n - 1) (bytes + p.hdr + p.block.length) rest

def doCommandDelivery (s : State) : State :=
  if !s.anyLane || s.laneCtl.held then s
  else
    let now := takeDelivery s.proto 64 0 s.proto.fetched
    { s with proto := { s.proto with delivered := s.proto.delivered ++ now, fetched := s.proto.fetched.drop now.length } }

/-- COMMAND_DELIVERY: a delivery point, T0 + 96 us (18 R440). -/
def execCommandDelivery (s : State) : Host.Outcome State Fault Refusal := .next (doCommandDelivery s)

def doDeliveryCommit (ackA ackB : Bool) (s : State) : State :=
  let a := ackA && s.laneA.isRunning
  let b := ackB && s.laneB.isRunning
  if s.proto.delivered.isEmpty then s
  else if !a && !b then
    { s with proto := { s.proto with fetched := s.proto.delivered ++ s.proto.fetched, delivered := [] } }
  else
    let s := { s with proto := { s.proto with
      committed := s.proto.committed ++ s.proto.delivered.map fun p => ({ packet := p, epoch := s.now } : Committed)
      delivered := [] } }
    if s.laneCtl.redundancy = .duplex ∧ a ≠ b then s.loseLane (if a then .B else .A) Loss.silent else s

/-- DELIVERY_COMMIT at a T0: the epoch is the commit epoch; a delivery one lane of DUPLEX acknowledges loses the other
lane, one that no lane acknowledges is delivered again ahead of all others (18 R440, R441). -/
def execDeliveryCommit (ackA ackB : Bool) (s : State) : Host.Outcome State Fault Refusal := .next (doDeliveryCommit ackA ackB s)

/-! ## Completions -/

/-- The bytes of a completion entry with its phase (Table 18.3, 18.4). -/
def Completion.bytes (c : Completion) (phase : Bool) : List Byte :=
  le16 1 ++ le16 32 ++ leW c.tag ++ le16 c.status ++ le16 c.opcode ++ le8 (c.sq % 8) ++
    le8 (packFlags [phase, c.delayed, c.dupTag]) ++ le16 c.aux ++ leW c.r0 ++ leW c.r1 ++ leW c.r2 ++ leW c.epochLo

/-- Vector 0 for a written entry, as CQ_COAL selects (17 R425, 18 R444). -/
def State.coalesce (s : State) (noIrq : Bool) : State :=
  let entries := bits s.hif.cqCoal.toNat 15 0
  let us := bits s.hif.cqCoal.toNat 31 16
  if noIrq then s
  else if entries = 0 ∧ us = 0 then s.fire 0
  else
    let n := s.hif.coalCount + 1
    if entries ≠ 0 ∧ entries ≤ n then { s with hif := { s.hif with coalCount := 0 } }.fire 0
    else { s with hif := { s.hif with coalCount := n } }

/-- Takes a written completion off every list, writes its configuration records, and ends the barriers it ends. -/
def State.retire (s : State) (c : Completion) : State :=
  let s := s.store c.save
  let q := { s.proto with
    issued := s.proto.issued.filter (·.id ≠ c.id)
    ready := s.proto.ready.filter (·.id ≠ c.id) }
  { s with proto := q.settleBarriers s.holdsBack, upd := { s.upd with completionWritten := true } }

/-- The completion to write next for a queue: that of its first outstanding packet, when it is ready (18 R449). -/
def ProtoSt.nextCompletion (q : ProtoSt) (sq : Nat) : Option Completion :=
  match q.issued.find? (·.sq = sq) with
  | none => none
  | some i => q.ready.find? (·.id = i.id)

def doCompletionWrite (sq : Fin 8) (dmaOk : Bool) (s : State) : State :=
  if !s.hif.cqEnable || s.hif.d3hot || s.gen.rmRestart || s.laneCtl.held then s
  else
    match s.proto.nextCompletion sq with
    | none => s
    | some c =>
      if !dmaOk then s.dmaFault sq
      else
        let h := s.hif
        let wrap := h.cqTail + 1 = 2 ^ h.cqM
        let s := s.writeHost (h.cqBase.toNat + 32 * h.cqTail) (c.bytes h.cqPhase)
        let s := { s with hif := { h with
          cqTail := if wrap then 0 else h.cqTail + 1, cqPhase := if wrap then !h.cqPhase else h.cqPhase, cqFill := h.cqFill + 1 } }
        (s.retire c).coalesce c.noIrq

/-- COMPLETION_WRITE of queue `sq`'s next completion (18 R442-R445, R449; 16 R409: its configuration records reach the
store with it). -/
def execCompletionWrite (sq : Fin 8) (dmaOk : Bool) (s : State) : Host.Outcome State Fault Refusal :=
  .next (doCompletionWrite sq dmaOk s)

def doHeldResultReady (tag : U32) (s : State) : State :=
  match s.proto.held.find? (fun h => h.tag = tag && !h.ready && h.outcome.isSome) with
  | none => s
  | some h =>
    let s := s.store (h.outcome.elim [] (·.save))
    let q := { s.proto with held := s.proto.held.map fun (x : HeldCmd) => if x.id = h.id then { x with ready := true } else x }
    { s with proto := q.settleBarriers s.holdsBack }

/-- HELD_RESULT_READY: the held result of a finished ASYNC command becomes ready (18 R446, R447). -/
def execHeldResultReady (tag : U32) (s : State) : Host.Outcome State Fault Refusal := .next (doHeldResultReady tag s)

def doCqCoalesceTimeout (us : Nat) (s : State) : State :=
  let limit := bits s.hif.cqCoal.toNat 31 16
  if 0 < s.hif.coalCount ∧ limit ≠ 0 ∧ limit ≤ us then { s with hif := { s.hif with coalCount := 0 } }.fire 0 else s

/-- CQ_COALESCE_TIMEOUT: `us` microseconds after the first entry counted, vector 0 fires (17 R425). -/
def execCqCoalesceTimeout (us : Nat) (s : State) : Host.Outcome State Fault Refusal := .next (doCqCoalesceTimeout us s)

end Sys2Proof.Machine
end

