-- ==== Sys2Proof/Machine/ModeOps.lean ====
section
/-! DEFINITION. Shared operations on the mode axes (16): availability of PREDICTIVE, changes of authority, rack state and
update phase, the status words of the MODE and LANE blocks. -/

namespace Sys2Proof.Machine

def Authority.code : Authority → Nat
  | .manual => 0 | .inner => 1 | .predictive => 2

def UpdatePhase.code : UpdatePhase → Nat
  | .idle => 0 | .staged => 1 | .handover => 2 | .trial => 3

def LifeCycle.code : LifeCycle → Nat
  | .blank => 0 | .provisioned => 1 | .operational => 2 | .returning => 3

def RackState.code : RackState → Nat
  | .run => 0 | .service => 1 | .isolated => 2 | .commission => 3

def StartPhase.code : StartPhase → Nat
  | .rmBoot => 0 | .laneStart => 1 | .sync => 2 | .qualify => 3 | .settle => 4 | .done => 5

/-- An activation is preparing or swapping (07 Table 7.11). -/
def State.activating (s : State) : Bool := s.img.act ≠ .idle

/-- Longest remaining time of an activation: no table bounds it as a whole, so a free value (assumption log 14). -/
def State.activationLeft (s : State) : Nat := Config.freeTicks s.fresh

/-- PREDICTIVE is available (16 R398). -/
def State.predAvailable (s : State) : Bool :=
  s.img.activeSlot.isSome && s.img.firstEpoch.isSome && !s.main.model.fault && !s.inNet &&
    (s.mode.lifeCycle = .provisioned || s.mode.lifeCycle = .operational)

/-- Sets the authority axis; AUTH_EPOCH is the first epoch of the value, from the next pass on (16 R392). -/
def State.putAuthority (s : State) (a : Authority) (epoch : Nat) : State :=
  { s with mode := { s.mode with authority := a, authEpoch := epoch } }

/-- A change of authority on request: AUTH_CHANGE and a NOTICE event (16 R397). -/
def State.changeAuthority (s : State) (a : Authority) (epoch : Nat) : State :=
  if s.mode.authority = a then s
  else ((s.putAuthority a epoch).setModeEvent 0x1).logRm Cls.notice 0x0909 none32
    [w32 s.mode.authority.code, w32 a.code] 1

/-- A forced change: AUTH_FORCED with AUTH_CHANGE, and a WARNING event with the cause (16 R397): 1 model fault, 2 image without protected outputs,
3 NET exit, 4 life cycle. -/
def State.forceAuthority (s : State) (a : Authority) (epoch cause : Nat) : State :=
  if s.mode.authority = a then s
  else ((s.putAuthority a epoch).setModeEvent 0x3).logRm Cls.warning 0x0908 (w32 cause)
    [w32 s.mode.authority.code, w32 a.code] 1

/-- A change of a rack's state: in force, in the store, RACK_CHANGE in MODE_EVENT and the log (16 R392, 19 R527). -/
def State.putRack (s : State) (k : Nat) (st : RackState) : State :=
  if s.rackState k = st then s
  else ((s.applyStore [.rackState k st]).setModeEvent 0x4).logRm Cls.notice 0x090C (w32 k)
    [w32 (s.rackState k).code, w32 st.code]

/-- A change of the update phase (16 Table 16.9). -/
def State.putUpdate (s : State) (u : UpdatePhase) : State :=
  if s.mode.update = u then s
  else { s with mode := { s.mode with update := u }, upd := { s.upd with stepEpoch := s.now } }.setModeEvent 0x10

/-- A lane is being resynchronised: the other runs and it is between its wipe and its join (15 Table 15.3). -/
def State.resyncing (s : State) : Bool :=
  let mid := fun (r : LaneRun) => r = .wipe || r = .test || r = .copy || r = .joinWait
  s.laneA.isRunning && mid s.laneB.run || s.laneB.isRunning && mid s.laneA.run

/-- LANE_STATE (Table 15.6). -/
def State.laneStateWord (s : State) : U32 :=
  let c := s.laneCtl
  w32 (c.redundancy.code + 16 * s.laneA.run.code + 256 * s.laneB.run.code + 0x10000 * flag (c.active = .B) +
    0x20000 * flag c.gap + 0x40000 * flag c.merge + 0x80000 * flag c.linkFail + 0x1000000 * c.netCause)

/-- MODE_STATE (Table 16.7). -/
def State.modeStateWord (s : State) : U32 :=
  let m := s.mode
  let recovery := s.inNet || s.laneCtl.gap || s.resyncing || s.gen.rmRestart
  w32 (s.laneCtl.redundancy.code + 4 * m.authority.code + 16 * flag m.hostPresent + 256 * m.update.code +
    1024 * m.lifeCycle.code + 0x20000 * flag (!s.predAvailable) + 0x40000 * flag m.test + 0x80000 * flag recovery +
    0x1000000 * m.startPhase.code)

/-- RACK_STATE (Table 16.6): 0b00 for a rack not enabled. -/
def State.rackStateWord (s : State) : U32 :=
  w32 ((List.range 16).foldl (fun a k => a + (if s.rackOn k then (s.rackState k).code else 0) * 4 ^ k) 0)

/-- The harness of rack `k` does not match (13 R334, Table 13.14: absent counts as well). -/
def State.harnessBad (s : State) (k : Nat) : Bool := (Tab.get ({} : Harness) s.sense.harness k).state ≠ .match_

/-- RACK_FLAGS (Table 16.6). -/
def State.rackFlagsWord (s : State) : U32 :=
  w32 (maskOf ((List.range 16).filter s.rackOn) +
    0x10000 * maskOf ((List.range 16).filter fun k => s.rackOn k && s.harnessBad k))

/-- Milliseconds since the module reset, from the tick count (16 Table 16.6). -/
def State.msNow (s : State) : Nat := (s.now - 1) / 10

/-- The start is over: START_PHASE DONE (16 Table 16.5, R406). -/
def State.startOver (s : State) : State :=
  if s.mode.startPhase ≠ .settle then s
  else { s with mode := { s.mode with startPhase := .done, startDoneMs := some s.msNow } }.setModeEvent 0x20

/-- A host watchdog action of full cooling is acting (17 Table 17.8). -/
def State.wdogActing (s : State) : Bool := !s.mode.hostPresent && s.hif.heartbeatSeen && s.cfg.wdogAction

end Sys2Proof.Machine
end

