-- ==== Sys2Proof/Machine/Loops.lean ====
section
/-! DEFINITION. The Loop Engine (03): sources, effective modes, the pass of one lane, the Tightrope, and the loop
opcodes. -/

namespace Sys2Proof.Machine

/-! ## Sources (Table 3.2) -/

/-- An analog element's value in the unit of its encoding (13 R317, R318; 00 Table 0.4). -/
def analogValue (r : AnalogRec) (x : AnalogEl) : Option F32 :=
  if r.ty = 1 ∨ r.ty = 2 ∨ r.unit = 1 then t16ToF32 x.value
  else if r.ty = 0 ∨ x.value = 0xFFFF then none
  else if r.unit = 2 then some (F32.ofRat x.value.toNat 10)
  else some (F32.ofRat x.value.toNat 1000)

/-- Raw value of a measurement source in a frame; `none` is no reading (03 R59, R70). -/
def fieldSource (c : Cfg) (f : Frame) (ty idx : Nat) : Option F32 :=
  match ty with
  | 0x04 => analogValue (c.analogRec idx) (Tab.get {} f.analog idx)
  | 0x05 =>
    let x := Tab.get {} f.pulse idx
    if x.freq = none32 then none else some (F32.ofRat x.freq.toNat 1000)
  | 0x07 =>
    let x := Tab.get {} f.motor idx
    if x.speed = 0xFFFF then none else some (F32.ofNat x.speed.toNat)
  | 0x08 =>
    let x := Tab.get {} f.bus idx
    if x.value = none32 ∨ x.status.getLsbD 0 then none else some x.value
  | _ => none

/-- What a pass reads beside the slots' own state. -/
structure LoopEnv where
  epoch : Nat
  frame : Frame
  cfg : Cfg
  net : Bool
  resume : Bool
  manual : Bool
  predictive : Bool
  returning : Bool
  rel : Released
  floors : List (Nat × F32)
deriving DecidableEq, Repr

/-- The slot is fed by results of the image: authority PREDICTIVE, and the binding has had a result released since the
first grant (03 R66). -/
def LoopEnv.live (v : LoopEnv) (k : ResultKind) (n : Nat) : Bool := v.predictive && v.rel.sinceGrant.contains (k, n)

/-- A LOOP source: the output of that slot as it stands (03 R67; for a slot OFF, its last: assumption log 18). -/
def loopSource (v : LoopEnv) (loops : Tab LoopSlot) (m : Nat) : Option F32 :=
  if (Tab.get {} v.cfg.loops m).accepted then some (Tab.get {} loops m).out else none

/-- An FF term's source: `none` where it gives no valid value; MODEL holds its last released value, 0 before any
(03 R66, R71). -/
def ffSource (v : LoopEnv) (loops : Tab LoopSlot) (n : Nat) (ty idx : Nat) : Option F32 :=
  if ty = 0x03 then some ((Tab.get none v.rel.feedFwd n).getD 0)
  else
    let raw := if ty = 0x06 then loopSource v loops idx else fieldSource v.cfg v.frame ty idx
    raw.filter F32.finite

/-! ## Measurements -/

/-- Sets pv_prev of every D term (03 R70). -/
def restartD (pv : F32) : List Term → List TermSt → List TermSt
  | t :: ts, st :: sts => (if t.ty = 0x03 then { st with pvPrev := some pv } else st) :: restartD pv ts sts
  | _, sts => sts

/-- The slot's measurement in this pass: scaled, filtered, and whether it is valid (03 R59, R70, R57). -/
def LoopSlot.measure (s : LoopSlot) (v : LoopEnv) (d : LoopDesc) : LoopSlot :=
  let y := (fieldSource v.cfg v.frame d.pvSrc d.pvIdx).map fun raw =>
    firstOrder s.pvY (F32.add (F32.mul d.pvScale raw) d.pvOffset) d.pvTau
  match y.filter F32.finite with
  | none => { s with pvOk := false }
  | some y =>
    { s with pv := y, pvY := some y, pvOk := true
             terms := if s.pvOk then s.terms else restartD y d.terms s.terms }

/-! ## Effective modes (Table 3.7) -/

/-- The output the destination was last given by this slot: released by the Hall of Mirrors, or the slot's own. -/
def lastGiven (v : LoopEnv) (n : Nat) (s : LoopSlot) : F32 := (Tab.get none v.rel.loopOut n).getD s.out

/-- Whether the slot's destination is overridden, learned from its element in the frame (03 R74, R88; 11 R282, R285; 14
R353; 15 R374). -/
def overridden (v : LoopEnv) (n : Nat) (d : LoopDesc) (s : LoopSlot) : Bool :=
  if d.outDest = 1 then
    let m := Tab.get {} v.frame.motor d.outIdx
    v.net || v.resume || m.iqApplied ≠ lastGiven v n s || m.status.toNat % 8 ≠ 4 || m.status.getLsbD 4 || !m.status.getLsbD 3
  else d.outDest = 2 && (Tab.get {} v.frame.bus d.outIdx).status.getLsbD 6

/-- The value the module applies to an overridden destination. -/
def appliedValue (v : LoopEnv) (d : LoopDesc) : Option F32 :=
  (if d.outDest = 1 then some (Tab.get {} v.frame.motor d.outIdx).iqApplied
   else if d.outDest = 2 then some (Tab.get {} v.frame.bus d.outIdx).value else none).filter F32.finite

/-- State of the rack the loop belongs to. -/
def LoopDesc.rackIn (d : LoopDesc) (c : Cfg) (st : RackState) : Bool :=
  d.rack < 16 && decide ((Tab.get {} c.racks d.rack).state = st)

/-- Rows 1 to 4 of Table 3.7, with the permitted modes of a COMMISSION rack (03 R84, R88; 16 R395); `none` leaves rows 5, 6. -/
def baseMode (v : LoopEnv) (n : Nat) (d : LoopDesc) (s : LoopSlot) : Option EffMode :=
  if !d.enable || s.req = .off || v.returning then some .off
  else if overridden v n d s then some .overridden
  else if s.latch = .safe then some .safe
  else if v.manual || s.req = .manual || s.latch = .manual || d.rackIn v.cfg .commission then some .manual
  else none

/-- The enabled slots that take slot `n` as set-point source. -/
def fedBy (c : Cfg) (n : Nat) : List Nat :=
  (c.loops.filter fun e => e.2.enable && e.2.spSrc = 0x06 && e.2.spIdx = n).map (·.1)

/-- Whether a slot is in effective mode AUTO: rows 1 to 4 do not apply, and it feeds no slot or one in AUTO. The cascade has
no cycle (03 R67), so 257 rounds reach its end. -/
def inAuto (c : Cfg) (base : Nat → Option EffMode) : Nat → Nat → Bool
  | 0, _ => false
  | fuel + 1, n => (base n).isNone && ((fedBy c n).isEmpty || (fedBy c n).any (inAuto c base fuel))

/-- The effective mode of a slot (03 R73). -/
def effMode (c : Cfg) (base : Nat → Option EffMode) (n : Nat) : EffMode :=
  match base n with
  | some m => m
  | none => if inAuto c base 257 n then .auto else .track

/-! ## The pass of one slot -/

/-- An event a slot logs: class, type, data (loop n is the subject). -/
abbrev LoopEvent := Nat × Nat × List U32

/-- Flags kept from pass to pass: SP_INVALID, TR_TRIPPED. -/
def keepFlags (f : Nat) : Nat := f &&& 0x82

def LoopSlot.setFlag (s : LoopSlot) (m : Nat) (on : Bool) : LoopSlot := if on then { s with flags := s.flags ||| m } else s

/-- Target from the set-point source, clamped (03 R59, R65, R66, R71). -/
def LoopSlot.target (s : LoopSlot) (v : LoopEnv) (loops : Tab LoopSlot) (n : Nat) (d : LoopDesc) : LoopSlot × List LoopEvent :=
  let live := v.live .loopSp n
  let raw : Option F32 := match d.spSrc with
    | 0x01 => some d.spFixed
    | 0x02 => some s.hostSp
    | 0x03 => if live then Tab.get none v.rel.setPoint n else some s.hostSp
    | 0x06 => loopSource v loops d.spIdx
    | t => fieldSource v.cfg v.frame t d.spIdx
  let scaled := d.spSrc = 0x04 ∨ d.spSrc = 0x05 ∨ d.spSrc = 0x06
  let x := raw.map fun w => if scaled then firstOrder s.spY (F32.add (F32.mul d.spScale w) d.spOffset) d.spTau else w
  match x.filter F32.finite with
  | none =>
    (s.setFlag 0x2 true, if s.flags.testBit 1 then [] else [(Cls.warning, 0x0201, [])])
  | some x =>
    let s := if scaled then { s with spY := some x } else s
    let t := F32.clamp d.spMin d.spMax x
    let out := !F32.eq t x
    ({ s with
        tgt := t
        flags := (if s.flags.testBit 1 then s.flags - 2 else s.flags) ||| flag out
        clampCount := if out && d.spSrc = 0x03 && live then satTo 32 (s.clampCount + 1) else s.clampCount },
      if s.flags.testBit 1 then [(Cls.notice, 0x0202, [])] else [])

/-- Clamp and output rate limit (03 R72). -/
def LoopDesc.limitOut (d : LoopDesc) (lo last y : F32) : F32 :=
  let y := F32.clamp lo d.outMax y
  if F32.lt 0 d.outRate then
    let st := F32.mul d.outRate loopTs
    F32.clamp (F32.sub last st) (F32.add last st) y
  else y

/-- What a transfer into AUTO or TRACK continues from: the last released output, out of OVERRIDDEN the applied value
(03 R77; R525 for a slot restored onto a bus entry). -/
def LoopSlot.uPrev (s : LoopSlot) (v : LoopEnv) (n : Nat) (d : LoopDesc) : F32 :=
  if s.eff = .overridden then s.out
  else if s.restored && d.outDest = 2 then (appliedValue v d).getD s.out
  else lastGiven v n s

/-- The tracking value of a TRACK slot: the lowest fed slot with a valid measurement, in this slot's units (03 R76). -/
def trackValue (v : LoopEnv) (loops : Tab LoopSlot) (n : Nat) (d : LoopDesc) : Option F32 :=
  ((fedBy v.cfg n).find? fun m => (Tab.get {} loops m).pvOk).bind fun m =>
    let inner := Tab.get {} v.cfg.loops m
    let y := F32.div (F32.sub (Tab.get {} loops m).pv inner.spOffset) inner.spScale
    if F32.finite y then some (F32.clamp d.outMin d.outMax y) else none

/-- AUTO: transfer or decay of b, law, output limits; an invalid pass holds the last released output (03 R57, R70, R72,
R77, R78; 10 R269). -/
def LoopSlot.auto (s : LoopSlot) (v : LoopEnv) (loops : Tab LoopSlot) (n : Nat) (d : LoopDesc) (prev : EffMode) : LoopSlot :=
  let last := s.uPrev v n d
  let moved := s.transfer || prev ≠ .auto
  let hold := { s with out := last, pvOk := false, transfer := moved }
  if !s.pvOk then hold
  else
    let ff := ffSource v loops n
    let p := if moved then d.preset s last (d.trackSp && prev ≠ .auto) ff
      else { s with b := F32.div (F32.mul s.b d.bumpTau) (F32.add d.bumpTau loopTs) }
    let e := d.error p.r p.pv
    match evalLaw d (if moved then .still else .run) e p.pv last ff p.terms with
    | none => hold
    | some (sts, u) =>
      let y := F32.add u p.b
      if !F32.finite y then hold
      else
        let lo := match v.floors.find? (·.1 = n) with
          | some f => F32.min d.outMax (F32.max d.outMin f.2)
          | none => d.outMin
        { p with terms := sts, e := e, own := F32.clamp d.outMin d.outMax y, out := d.limitOut lo last y, transfer := false }

/-- The Tightrope (03 R79, R80, Table 3.8). -/
def LoopSlot.tightrope (s : LoopSlot) (v : LoopEnv) (d : LoopDesc) (mode : EffMode) : LoopSlot × List LoopEvent :=
  let watch := mode = .auto && F32.lt 0 d.trBand
  let dev := F32.abs (F32.sub s.r s.pv)
  let c := if !watch then 0
    else if !s.pvOk || F32.lt d.trBand dev then s.c + 1
    else if F32.le dev (F32.mul 0x3F4CCCCD d.trBand) then 0 else s.c
  let s := { s with c := c }
  if watch && d.trTimer ≤ c && 0 < c && !s.flags.testBit 7 then
    let act := if d.rackIn v.cfg .service then 0 else d.trAction
    let s := { s with trTrips := satTo 32 (s.trTrips + 1), flags := s.flags ||| 0xC0 }
    (match act with
      | 1 => { s with latch := .manual, manOut := d.manPreset, manSet := true }
      | 2 => { s with latch := .safe }
      | _ => s, [(Cls.alarm, 0x0203, [w32 act])])
  else if 0 < c then (s.setFlag 0x40 true, [])
  else if s.flags.testBit 7 && s.latch = .none then ({ s with flags := s.flags - 0x80 }, [(Cls.notice, 0x0204, [])])
  else (s, [])

/-- One slot in effective mode `mode` (03 R70-R79). -/
def LoopSlot.pass (s : LoopSlot) (v : LoopEnv) (loops : Tab LoopSlot) (n : Nat) (d : LoopDesc) (mode : EffMode) :
    LoopSlot × List LoopEvent :=
  let prev := s.eff
  if mode = .off then
    let ended := s.flags.testBit 7 && s.latch = .none
    ({ s with eff := .off, c := 0, manSet := false, epoch := v.epoch
              flags := if ended then keepFlags s.flags - 0x80 else keepFlags s.flags },
      if ended then [(Cls.notice, 0x0204, [])] else [])
  else
    let s := { s with flags := keepFlags s.flags, epoch := v.epoch }
    let badFf := d.terms.any fun t => t.ty = 0x04 && (ffSource v loops n t.srcType t.srcIdx).isNone
    let modelHeld := d.spSrc = 0x03 && !v.live .loopSp n ||
      (d.terms.any fun t => t.ty = 0x04 && t.srcType = 0x03) && !v.live .loopFf n
    let s := (s.setFlag 0x800 badFf).setFlag 0x400 modelHeld
    let (s, ev) := s.target v loops n d
    let s := if s.pvOk && s.fresh then { s with r := s.pv, v := 0, fresh := false } else s
    let rv := d.limit s.tgt s.r s.v
    let s := if F32.finite rv.1 && F32.finite rv.2 then { s with r := rv.1, v := rv.2 } else { s with pvOk := false }
    let s := s.setFlag 0x20 (!F32.eq s.r s.tgt)
    let s : LoopSlot := match mode with
      | .overridden =>
        let y := (appliedValue v d).getD s.out
        let s := if s.pvOk then d.preset s y false (ffSource v loops n) else s
        { s with out := y, flags := s.flags ||| 0x100 }
      | EffMode.safe => { s with out := d.safeOut }
      | EffMode.manual =>
        let last := s.uPrev v n d
        let s := if prev ≠ .manual && !s.manSet then { s with manOut := last } else s
        { s with out := d.limitOut d.outMin last s.manOut }
      | .track =>
        let last := s.uPrev v n d
        let y := d.limitOut d.outMin last ((trackValue v loops n d).getD last)
        let s := if s.pvOk then d.preset s y false (ffSource v loops n) else s
        { s with out := y, flags := s.flags ||| 0x200 }
      | _ => s.auto v loops n d prev
    let s : LoopSlot := if mode = EffMode.auto || !s.pvOk then s else { s with e := d.error s.r s.pv }
    let s := ((s.setFlag 0x4 (!s.pvOk)).setFlag 0x8 (F32.le d.outMax s.out)).setFlag 0x10 (F32.le s.out d.outMin)
    let (s, ev2) := ({ s with manSet := false } : LoopSlot).tightrope v d mode
    ({ s with eff := mode
              restored := s.restored && mode = .overridden }, ev ++ ev2)

/-! ## The pass of one lane -/

/-- Slots L0 to L255 in index order (03 R54, R67; 02 R41). -/
def passSlots (v : LoopEnv) (mode : Nat → EffMode) : List (Nat × LoopDesc) → Tab LoopSlot → Tab LoopSlot × List (Nat × LoopEvent)
  | [], loops => (loops, [])
  | (n, d) :: rest, loops =>
    let (s, ev) := (Tab.get {} loops n).pass v loops n d (mode n)
    let (loops, more) := passSlots v mode rest (Tab.set {} loops n s)
    (loops, ev.map (fun e => (n, e)) ++ more)

/-- One lane's pass: measurements, effective modes, then every slot. -/
def loopPass (v : LoopEnv) (loops : Tab LoopSlot) : Tab LoopSlot × List (Nat × LoopEvent) :=
  let ds := v.cfg.loops.filter (·.2.accepted)
  let loops := ds.foldl (fun t e => if e.2.enable then Tab.modify {} t e.1 fun s => s.measure v e.2 else t) loops
  let bases := ds.map fun e => (e.1, baseMode v e.1 e.2 (Tab.get {} loops e.1))
  let base := fun n => match bases.find? (·.1 = n) with
    | some b => b.2
    | none => some .off
  passSlots v (effMode v.cfg base) ds loops

/-- The speed floors the supervisor applies (10 R269): loop and floor, in INNER and PREDICTIVE. -/
def State.loopFloors (s : State) : List (Nat × F32) :=
  if s.mode.authority = .manual then []
  else s.cool.groups.filterMap fun e =>
    let g := s.cfg.topo.group e.1
    if e.2.floorActive then some (g.groupLoop, F32.ofRat e.2.floor 100) else none

/-- What the pass of the tick in progress reads. -/
def State.loopEnv (s : State) : LoopEnv :=
  { epoch := s.now, frame := s.tick.frame, cfg := s.cfg, net := s.inNet, resume := s.laneCtl.resumeEpoch = some s.now
    manual := s.mode.authority = .manual, predictive := s.mode.authority = .predictive
    returning := s.mode.lifeCycle = .returning, rel := s.rel, floors := s.loopFloors }

/-- The pass of lane `l`, its events staged (02 R41, 19 R466). -/
def State.runPass (s : State) (l : LaneId) : State :=
  let (loops, ev) := loopPass s.loopEnv (s.lane l).loops
  let s := s.onLane l fun x => { x with loops := loops }
  ev.foldl (fun s e => s.logIn l e.2.1 e.2.2.1 (w32 e.1) e.2.2.2) s

/-! ## Slots from the configuration -/

/-- Requested mode by code (Table 3.12). -/
def reqModeOf : Nat → ReqMode
  | 1 => .manual
  | 2 => .auto
  | _ => .off

def ReqMode.code : ReqMode → Nat
  | .off => 0 | .manual => 1 | .auto => 2

def EffMode.code : EffMode → Nat
  | .off => 0 | .manual => 1 | .auto => 2 | .safe => 3 | .track => 4 | .overridden => 5

/-- A slot as a lane starts with it from the store (03 R525). -/
def LoopDesc.restoredSlot (d : LoopDesc) (k : LoopKept) : LoopSlot :=
  { req := k.req, manOut := k.manOut.getD d.outMin, hostSp := k.hostSp.getD d.spFixed, hostSet := k.hostSp.isSome
    fresh := true, restored := true, out := d.outMin, own := d.outMin, terms := d.terms.map fun _ => {} }

/-- A slot newly enabled: requested MANUAL at out_min, r to pv; a latch survives (03 R80, R82). -/
def LoopDesc.newSlot (d : LoopDesc) (s : LoopSlot) : LoopSlot :=
  { req := .manual, manOut := d.outMin, hostSp := if s.hostSet then s.hostSp else d.spFixed, hostSet := s.hostSet
    fresh := true, out := d.outMin, own := d.outMin, terms := d.terms.map fun _ => {}
    latch := s.latch, trTrips := s.trTrips, clampCount := s.clampCount, flags := if s.latch = .none then 0 else s.flags &&& 0x80 }

/-- A lane's slots from the configuration in force. -/
def Cfg.freshLoops (c : Cfg) : Tab LoopSlot :=
  (c.loops.filter (·.2.accepted)).foldl (fun t e => Tab.set {} t e.1 (e.2.restoredSlot (Tab.get {} c.loopKept e.1))) []

/-- One slot under its new descriptor (03 R82). -/
def LoopSlot.reconfigure (s : LoopSlot) (old d : LoopDesc) : LoopSlot :=
  if d.enable && !old.enable then d.newSlot s
  else if !old.accepted then { s with hostSp := if s.hostSet then s.hostSp else d.spFixed, out := d.outMin, terms := d.terms.map fun _ => {} }
  else if old.terms.map (·.ty) = d.terms.map (·.ty) then s
  else { s with terms := d.terms.map fun _ => {}, transfer := true }

/-- Loads the host set-point register of each MODEL-sourced loop with its last released model set-point, in force and in
the store (03 R66, R525). -/
def State.loadHostRegisters (s : State) : State :=
  let items := (s.cfg.loops.filter fun e => e.2.accepted && e.2.spSrc = 0x03).filterMap fun e =>
    (Tab.get none s.rel.setPoint e.1).map fun w => (e.1, w)
  let s := items.foldl (fun (s : State) it => s.onLanes fun x =>
    { x with loops := Tab.modify {} x.loops it.1 fun p => { p with hostSp := it.2, hostSet := true } }) s
  s.applyStore (items.map fun it => .loopKept it.1 { Tab.get {} s.cfg.loopKept it.1 with hostSp := some it.2 })

/-! ## The loop status record (Table 3.14) -/

/-- The record of a slot: its state in the lane whose content counts, the output as released. -/
def loopRecord (n : Nat) (s : LoopSlot) (d : LoopDesc) (released : F32) (epoch : Nat) : List Byte :=
  le16 1 ++ le16 64 ++ le8 n ++ le8 s.req.code ++ le8 s.eff.code ++ le8 0 ++ le32 s.flags ++ leW s.tgt ++ leW s.r ++ leW s.v ++
    leW s.pv ++ leW s.e ++ leW released ++ leW (integratorOf d.terms s.terms) ++ le32 s.c ++ le32 s.trTrips ++ le64 epoch ++
    le32 s.clampCount ++ zeros 4

/-- The 256 records of the loop view (03 R86). -/
def State.loopView (s : State) : List Byte :=
  (List.range 256).flatMap fun n =>
    loopRecord n (Tab.get {} s.main.loops n) (Tab.get {} s.cfg.loops n) ((Tab.get none s.rel.loopOut n).getD 0) s.now

/-! ## Loop opcodes -/

/-- Axes of the loop opcodes (Table 3.17): HANDOVER, and RETURN but for LOOP_STATUS. -/
def State.loopAxes (s : State) (status : Bool) : List (Bool × Reply) :=
  [(s.mode.update = .handover, .busy s.handoverLeft), (!status && s.mode.lifeCycle = .returning, .notInMode)]

/-- The structures of LOOP_CONFIGURE in the order of 00 R6, refused with the word of 03 R81. -/
def loopShape (p : Packet) : Except Reply Unit := do
  p.checkLength
  let b := p.block
  let count := u16At b 4
  let whole := Reply.badParam (loopWord 0 0xFF 0x0D 0xFF)
  deny [(u16At b 0 ≠ 1, { status := SC.badVersion, r0 := w32 p.hdr }), (u16At b 2 ≠ 8 + 624 * count && count ≠ 0, whole),
    (u16At b 6 / 2 ≠ 0, whole)]
  deny ((List.range count).flatMap fun i =>
    let o := 8 + 624 * i
    let n := descSlot b o
    let used := u8At b (o + 15)
    [(decide (u16At b o ≠ 1), ({ status := SC.badVersion, r0 := w32 (p.hdr + o) } : Reply)),
      (u16At b (o + 2) ≠ 624 || u16At b (o + 6) / 8 ≠ 0 || !zeroRange b (o + 0x6C) 4, Reply.badParam (loopWord 0 0xFF 0x0D n))] ++
      (List.range 32).map fun k =>
        (if k < used then decide (u8At b (o + 0x73 + 16 * k) ≠ 0) else !zeroRange b (o + 0x70 + 16 * k) 16,
          Reply.badParam (loopWord 0 k 0x0A n)))

/-- The first slot named twice. -/
def firstTwice : List Nat → Option Nat
  | [] => none
  | n :: ns => if ns.contains n then some n else firstTwice ns

/-- Whether a mapped entry is OUT (14 Table 14.5). -/
def Cfg.busOut (c : Cfg) (e : Nat) : Bool := (Tab.get {} c.entries e).dir = 2

/-- LOOP_CONFIGURE (03 R81, R82). -/
def loopConfigureBody (p : Packet) (s : State) : Except Reply (State × CmdEnd) := do
  let b := p.block
  let count := u16At b 4
  let descs := (List.range count).map fun i => (descSlot b (8 + 624 * i), descAt b (8 + 624 * i))
  let names := descs.map (·.1)
  deny [(count = 0 || 64 < count, .badParam (loopWord 0 0xFF 0x0C 0xFF)),
    ((firstTwice names).isSome, .badParam (loopWord 0 0xFF 0x0C ((firstTwice names).getD 0))),
    ((List.range count).any fun i => 32 < u8At b (8 + 624 * i + 15),
      .badParam (loopWord 0 0xFF 0x0A (((List.range count).find? fun i => 32 < u8At b (8 + 624 * i + 15)).elim 0xFF fun i => descSlot b (8 + 624 * i))))]
  let items := descs.map fun e => CfgItem.loop e.1 e.2
  match checkLoops (s.cfg.putAll items).loops names s.cfg.busOut with
  | some w => .error (.badParam w)
  | none =>
    if bit (u16At b 6) 0 then .ok (s, .reply .done)
    else
      let fresh := descs.filter fun (e : Nat × LoopDesc) => e.2.enable && !(Tab.get {} s.cfg.loops e.1).enable
      let kept := fresh.map fun e => CfgItem.loopKept e.1 { Tab.get {} s.cfg.loopKept e.1 with req := .manual }
      let old := s.cfg.loops
      let s1 := s.onLanes fun x =>
        { x with loops := descs.foldl (fun t e =>
            Tab.modify {} t e.1 fun sl => sl.reconfigure (Tab.get {} old e.1) e.2) x.loops }
      let s1 := { s1 with rel := { s1.rel with loopOut := fresh.foldl (fun t (e : Nat × LoopDesc) => Tab.erase t e.1) s1.rel.loopOut } }
      .ok (((s1.apply (items ++ kept)).restageReference s.cfg).logConfig p SC.ok, .reply { Reply.done with save := items ++ kept })

/-- LOOP_CONFIGURE (03 R81-R83). -/
def execLoopConfigure (p : Packet) (s : State) : Host.Outcome State Fault Refusal :=
  .next (s.runCmd 0x0201 false p loopShape (fun _ s => axes (s.loopAxes false)) fun _ => loopConfigureBody)

/-- LOOP_SET_MODE (03 R84): requested mode, latch cleared, manual output (R75). -/
def loopSetModeBody (p : Packet) (s : State) : Except Reply (State × CmdEnd) := do
  let n := u8At p.block 4
  let mode := u8At p.block 5
  let man := f32At p.block 8
  let setMan := bit (u16At p.block 6) 0
  let d := Tab.get {} s.cfg.loops n
  deny [(!d.accepted, p.badField 4), (2 < mode, p.badField 5),
    (setMan && !(F32.finite man && F32.le d.outMin man && F32.le man d.outMax), p.badField 8)]
  let kept := Tab.get {} s.cfg.loopKept n
  let items := [CfgItem.loopKept n { kept with req := reqModeOf mode, manOut := if setMan then some man else kept.manOut }]
  let s := s.onLanes fun x =>
    { x with loops := Tab.modify {} x.loops n fun sl =>
        { sl with
          req := reqModeOf mode, latch := .none
          flags := if sl.latch = .none then sl.flags else sl.flags &&& 0xF7F
          manOut := if setMan then man else sl.manOut, manSet := setMan } }
  .ok ((s.apply items).logConfig p SC.ok, .reply { Reply.done with save := items })

/-- LOOP_SET_MODE: refused with SC_NOT_IN_MODE for AUTO of a slot whose rack is in COMMISSION (03 R84). -/
def execLoopSetMode (p : Packet) (s : State) : Host.Outcome State Fault Refusal :=
  .next (s.runCmd 0x0202 false p
    (fun p => do
      p.checkBlock 12 []
      deny [(u16At p.block 6 / 2 ≠ 0, p.badField 6)])
    (fun p s => axes (s.loopAxes false ++
      [(u8At p.block 5 = 2 && (Tab.get {} s.cfg.loops (u8At p.block 4)).accepted &&
          (Tab.get {} s.cfg.loops (u8At p.block 4)).rackIn s.cfg .commission, .notInMode)]))
    fun _ => loopSetModeBody)

/-- LOOP_SET_POINT (03 R85): the whole command, or none of it. -/
def loopSetPointBody (p : Packet) (s : State) : Except Reply (State × CmdEnd) := do
  let count := u16At p.block 4
  deny [(count = 0 || 256 < count, p.badField 4)]
  let at_ := fun i => 8 + 8 * i
  let pts := (List.range count).map fun i => (u8At p.block (at_ i), f32At p.block (at_ i + 4))
  deny ((List.range count).flatMap fun i =>
    let n := u8At p.block (at_ i)
    let w := f32At p.block (at_ i + 4)
    let d := Tab.get {} s.cfg.loops n
    [((pts.take i).any (·.1 = n) || !d.accepted || !(d.spSrc = 0x02 || d.spSrc = 0x03), p.badField (at_ i)),
      (!(F32.finite w && F32.le d.spMin w && F32.le w d.spMax), p.badField (at_ i + 4))])
  let items := pts.map fun e => CfgItem.loopKept e.1 { Tab.get {} s.cfg.loopKept e.1 with hostSp := some e.2 }
  let s := s.onLanes fun x =>
    { x with loops := pts.foldl (fun t e => Tab.modify {} t e.1 fun sl => { sl with hostSp := e.2, hostSet := true }) x.loops }
  .ok ((s.apply items).logConfig p SC.ok, .reply { Reply.done with save := items })

def execLoopSetPoint (p : Packet) (s : State) : Host.Outcome State Fault Refusal :=
  .next (s.runCmd 0x0203 false p
    (fun p => do
      p.checkBlock 8 [(6, 2)]
      let count := u16At p.block 4
      deny ((p.block.length < 8 + 8 * count, p.badField 2) ::
        (List.range count).map fun i => (!zeroRange p.block (9 + 8 * i) 3, p.badField (9 + 8 * i))))
    (fun _ s => axes (s.loopAxes false)) fun _ => loopSetPointBody)

/-- LOOP_STATUS (03 R86). -/
def execLoopStatus (p : Packet) (s : State) : Host.Outcome State Fault Refusal :=
  .next (s.runCmd 0x0204 false p (fun p => p.checkBlock 16 [(5, 1)]) (fun _ s => axes (s.loopAxes true)) fun _ p s =>
    statusReply s 0 64 0x100000 (u8At p.block 4) (u16At p.block 6) 256 (u64At p.block 8))

end Sys2Proof.Machine
end

