-- ==== Sys2Proof/Machine/Motors.lean ====
section
/-! DEFINITION. Pump and fan drive (11): channel records, permits, the start sequence, trips, failure and its group, speed
overrides, the reference limits and skip bands, and the motor opcodes. -/

namespace Sys2Proof.Machine

/-! ## Channels and groups -/

/-- The channel record (Table 11.2). -/
def State.motorRec (s : State) (n : Nat) : MotorRec := Tab.get {} s.cfg.motors n

/-- ENABLE of an accepted record. -/
def MotorRec.on (r : MotorRec) : Bool := r.accepted && bit r.flags 0
def MotorRec.tachPresent (r : MotorRec) : Bool := bit r.flags 1

def State.motor (s : State) (n : Nat) : Motor := Tab.get {} s.motors n

def State.onMotor (s : State) (n : Nat) (f : Motor → Motor) : State := { s with motors := Tab.modify {} s.motors n f }

/-- STATE code (Table 11.4). -/
def MotorState.code : MotorState → Nat
  | .stopped => 0 | .align => 1 | .ramp => 2 | .verify => 3 | .run => 4 | .coast => 5 | .failed => 6 | .locked => 7

/-- FAILED or LOCKED: gates off, latched (11 R288). -/
def MotorState.failedOrLocked : MotorState → Bool
  | .failed | .locked => true
  | _ => false

/-- The engine drives the gates (Table 11.5). -/
def MotorState.driven : MotorState → Bool
  | .align | .ramp | .verify | .run => true
  | _ => false

/-- The enabled pump group a channel 0-7 belongs to (10 Table 10.2). -/
def State.pumpGroupOf (s : State) (n : Nat) : Option Nat :=
  (List.range 4).find? fun g =>
    let r := s.cfg.topo.group g
    s.cfg.topo.accepted && bit s.cfg.topo.groupEnable g && (r.lead = n || r.lag = some n)

/-- The rack whose record names fan channel `n` (10 Table 10.3; fan F is channel F + 8). -/
def State.fanRack (s : State) (n : Nat) : Option Nat :=
  (List.range 16).find? fun k => s.rackOn k && 8 ≤ n && (s.cfg.topo.rack k).fans.contains (n - 8)

/-- The pumps of a group record. -/
def PumpGroup.pumps (r : PumpGroup) : List Nat := r.lead :: r.lag.toList

/-- A channel's group: the other pump of its pump group, or the other fans of its rack record (11, Failure and its group). -/
def State.motorGroup (s : State) (n : Nat) : List Nat :=
  let all := if n < 8 then (match s.pumpGroupOf n with
      | some g => (s.cfg.topo.group g).pumps
      | none => [])
    else (match s.fanRack n with
      | some k => (s.cfg.topo.rack k).fans.map (· + 8)
      | none => [])
  all.filter (· ≠ n)

/-! ## Speed overrides (11 R286, R287) -/

/-- Full speed of a channel. -/
def State.fullSpeed (s : State) (n : Nat) : Nat :=
  let top := (s.motorRec n).maxSpeed
  match (if n < 8 then s.pumpGroupOf n else none) with
  | some g => min top (s.cfg.topo.group g).speedMax
  | none => top

/-- NET_SPD fraction in percent (21 Table 21.8). -/
def netPercent : Nat → Nat
  | 0 => 100 | 1 => 85 | 2 => 70 | _ => 55

/-- The band a speed lies strictly inside. -/
def bandOf (bands : List (Nat × Nat)) (w : Int) : Option (Nat × Nat) :=
  bands.find? fun b => (b.1 : Int) < w && w < (b.2 : Int)

/-- The greatest acting target on a running or permitted channel, raised to the upper edge of a skip band it lies in. -/
def State.overrideTarget (s : State) (n : Nat) : Option Nat :=
  let m := s.motor n
  if !(s.motorRec n).on || !(m.permit || m.state.driven) then none
  else
    let full := s.fullSpeed n
    let group := match (if n < 8 then s.pumpGroupOf n else none) with
      | some g => (s.cfg.topo.group g).speedMax
      | none => full
    let l := (if s.inNet then [(full * netPercent s.sense.netSpd + 50) / 100] else []) ++ (if s.wdogActing then [full] else []) ++
      (if m.flowStopDrive then [group] else []) ++ (if m.groupFull then [full] else [])
    match l with
    | [] => none
    | x :: xs =>
      let t := xs.foldl max x
      some (((bandOf (Tab.get [] s.cfg.skipBands n) t).map Prod.snd).getD t)

/-! ## The start sequence, trips and failure -/

/-- The channel enters a state and a wait; their time begins. -/
def Motor.enter (m : Motor) (st : MotorState) (w : MotorWait) : Motor :=
  { m with state := st, wait := w, clk := { m.clk with phase := 0 } }

/-- Gates off into COAST, waiting for `w`. -/
def Motor.toCoast (m : Motor) (w : MotorWait) : Motor :=
  { m.enter .coast w with integ := none, skip := none, iqApplied := 0 }

/-- Gates off and latched. -/
def Motor.toFail (m : Motor) (st : MotorState) : Motor :=
  { m.enter st .none with integ := none, skip := none, iqApplied := 0 }

/-- Current-loop periods in a number of milliseconds (11 R278). -/
def periods (ms : Nat) : Nat := 20 * ms

/-- Sets a run permit; revoking it turns the gates off at once and the channel coasts (11 R285). -/
def Motor.setPermit (m : Motor) (on : Bool) : Motor :=
  let m := { m with permit := on }
  if !on && m.state.driven then m.toCoast .none
  else if !on && m.state = .coast then { m with wait := .none } else m

def State.setPermit (s : State) (n : Nat) (on : Bool) : State := s.onMotor n fun m => m.setPermit on

/-- A lead that has failed becomes the lag, without a permit; the lag leads with one (10 R263; in MANUAL the roles stay). -/
def State.swapFailedLead (s : State) (n : Nat) : State :=
  match (if n < 8 then s.pumpGroupOf n else none) with
  | none => s
  | some g =>
    let d := Tab.get {} s.cool.groups g
    if s.mode.authority = .manual ∨ d.lead ≠ n then s
    else match d.lag with
      | none => s
      | some lag =>
        let s := { s with cool := { s.cool with groups := Tab.set {} s.cool.groups g { d with lead := lag, lag := some n, leadRun := 0 } } }
        (s.setPermit lag true).setPermit n false

/-- The response of the group of a failed or stalled channel: every other enabled, not failed channel to full speed, a pump
with a permit in every mode (11 R289). -/
def State.groupFull (s : State) (n : Nat) : State :=
  let others := (s.motorGroup n).filter fun i => (s.motorRec i).on && !(s.motor i).state.failedOrLocked
  let s := others.foldl (fun (s : State) i =>
    s.onMotor i fun m => { m with groupFull := true, permit := m.permit || decide (i < 8) }) s
  if others.isEmpty then s else s.logRm Cls.prot 0x050C (w32 n) []

/-- FAILED or LOCKED with a last_fault code (11 R288, R289). -/
def State.failMotor (s : State) (n : Nat) (st : MotorState) (code : Nat) : State :=
  let s := s.onMotor n fun m => { m.toFail st with lastFault := code, faults := satTo 32 (m.faults + 1) }
  let s := s.logRm Cls.alarm (if st = .locked then 0x050B else 0x050A) (w32 n) []
  (s.groupFull n).swapFailedLead n

/-- A failed attempt: gates off for 2 s, LOCKED on the third (11 R285). -/
def State.failAttempt (s : State) (n : Nat) (code : Nat) : State :=
  let a := (s.motor n).attempts + 1
  if 3 ≤ a then (s.onMotor n fun m => { m with attempts := a }).failMotor n .locked code
  else s.onMotor n fun m => { m.toCoast .retry with attempts := a, lastFault := code, faults := satTo 32 (m.faults + 1) }

/-- Ten seconds, in ticks. -/
def ticks10s : Nat := 100000

/-- A FAULT_N or i_trip event: COAST and a restart after 100 ms, FAILED on the second within 10 s (11 R279, R288). -/
def State.tripMotor (s : State) (n : Nat) (code : Nat) : State :=
  let again := match (s.motor n).tripAt with
    | some t => decide (s.now < t + ticks10s)
    | none => false
  if again then (s.onMotor n fun m => { m with tripAt := some s.now }).failMotor n .failed code
  else
    let s := s.onMotor n fun m =>
      { m.toCoast .trip with tripAt := some s.now, lastFault := code, faults := satTo 32 (m.faults + 1) }
    s.logRm Cls.warning 0x0509 (w32 n) []

/-- An attempt begins on a permitted, enabled channel that waits for nothing else: RUN where the rotor already turns forward at
or above handoff, a wait where it turns otherwise, else ALIGN (11 R284). -/
def State.beginAttempt (s : State) (n : Nat) : State :=
  let m := s.motor n
  let r := s.motorRec n
  if !r.on || !m.permit || m.state.driven || m.state.failedOrLocked || !(m.wait = .none || m.wait = .spin) then s
  else if (r.handoff : Int) ≤ m.omega then s.onMotor n fun m => m.enter .run .none
  else if m.omega ≠ 0 then (if m.state = .coast ∧ m.wait = .spin then s else s.onMotor n fun m => m.toCoast .spin)
  else s.onMotor n fun m => { m.enter .align .none with iqApplied := r.iStart }

/-- A wait of a channel in COAST that is over ends, and the next attempt begins. -/
def State.endWait (s : State) (n : Nat) (w : MotorWait) (done : Motor → Bool) : State :=
  if (s.motor n).state = .coast ∧ (s.motor n).wait = w ∧ done (s.motor n) then
    (s.onMotor n fun m => { m with wait := .none }).beginAttempt n else s

def execStartAttempt (m : Fin 56) (s : State) : Host.Outcome State Fault Refusal := .next (s.beginAttempt m.val)

/-- ALIGN ends after align_ms (Table 11.5). -/
def execAlignEnd (m : Fin 56) (s : State) : Host.Outcome State Fault Refusal :=
  .next (if (s.motor m.val).state = .align ∧ periods (s.motorRec m.val).alignMs ≤ (s.motor m.val).clk.phase then
      s.onMotor m.val fun x => x.enter .ramp .none
    else s)

/-- RAMP ends after ramp_ms (Table 11.5). -/
def execRampEnd (m : Fin 56) (s : State) : Host.Outcome State Fault Refusal :=
  .next (if (s.motor m.val).state = .ramp ∧ periods (s.motorRec m.val).rampMs ≤ (s.motor m.val).clk.phase then
      s.onMotor m.val fun x => x.enter .verify .none
    else s)

/-- VERIFY ends: RUN where the observer speed stands within 30 % of handoff and the back-EMF is at least 50 % of k_e x omega
(`emfOk`), else the attempt fails once 500 ms have passed (Table 11.5). -/
def execVerifyEnd (m : Fin 56) (emfOk : Bool) (s : State) : Host.Outcome State Fault Refusal :=
  let x := s.motor m.val
  let h : Int := (s.motorRec m.val).handoff
  .next (if x.state ≠ .verify then s
    else if emfOk && decide (7 * h ≤ 10 * x.omega ∧ 10 * x.omega ≤ 13 * h) then s.onMotor m.val fun x => x.enter .run .none
    else if x.clk.phase < periods 500 then s
    else s.failAttempt m.val 4)

/-- A rotor still turning after 10 s fails the attempt (11 R284). -/
def execRotorSpinTimeout (m : Fin 56) (s : State) : Host.Outcome State Fault Refusal :=
  .next (if (s.motor m.val).state = .coast ∧ (s.motor m.val).wait = .spin ∧ periods 10000 ≤ (s.motor m.val).clk.phase then
      s.failAttempt m.val 4
    else s)

/-- The 2 s after a failed attempt are over (11 R285). -/
def execStartRetry (m : Fin 56) (s : State) : Host.Outcome State Fault Refusal := 
  .next (s.endWait m.val .retry fun x => decide (periods 2000 ≤ x.clk.phase))

/-- 60 s in RUN clear the count of attempts and a stall (11 R285, R289). -/
def execAttemptCountClear (m : Fin 56) (s : State) : Host.Outcome State Fault Refusal :=
  .next (if (s.motor m.val).state = .run ∧ periods 60000 ≤ (s.motor m.val).clk.phase then
      s.onMotor m.val fun x => { x with attempts := 0, stalled := false }
    else s)

/-- FAULT_N turns the gates off within 1 µs (11 R279, R288). -/
def execInverterFault (m : Fin 56) (s : State) : Host.Outcome State Fault Refusal :=
  .next (if (s.motor m.val).state.driven then s.tripMotor m.val 1 else s)

/-- A phase current at i_trip: it fails an attempt in ALIGN and RAMP, and is a trip otherwise (Table 11.5, 11 R288). -/
def execOvercurrentTrip (m : Fin 56) (s : State) : Host.Outcome State Fault Refusal :=
  let st := (s.motor m.val).state
  .next (if st = .align ∨ st = .ramp then s.failAttempt m.val 2
    else if st.driven then s.tripMotor m.val 2 else s)

/-- 100 ms after a first trip the channel restarts (11 R288). -/
def execMotorTripRestart (m : Fin 56) (s : State) : Host.Outcome State Fault Refusal := 
  .next (s.endWait m.val .trip fun x => decide (periods 100 ≤ x.clk.phase))

/-- Observer speed above 1.15 x max_speed for 100 ms (11 R288). -/
def execMotorOverspeed (m : Fin 56) (s : State) : Host.Outcome State Fault Refusal :=
  .next (if (s.motorRec m.val).on && !(s.motor m.val).state.failedOrLocked && decide (periods 100 ≤ (s.motor m.val).clk.fast) then
      s.failMotor m.val .failed 3
    else s)

/-- A running stall, for stall_ms: one failed attempt; the first stall starts the group override at once (11 R290). -/
def execRunningStall (m : Fin 56) (s : State) : Host.Outcome State Fault Refusal :=
  let n := m.val
  .next (if (s.motor n).state ≠ .run ∨ (s.motor n).clk.stall < periods (s.motorRec n).stallMs then s
    else
      let first := !(s.motor n).stalled
      let s := (s.onMotor n fun x => { x with stalled := true }).failAttempt n 5
      if first && !(s.motor n).state.failedOrLocked then s.groupFull n else s)

/-- The group override of R289 ends: no channel of the group FAILED or LOCKED, and no stall stands. -/
def execGroupOverrideEnd (m : Fin 56) (s : State) : Host.Outcome State Fault Refusal :=
  let g := m.val :: s.motorGroup m.val
  .next (if g.any (fun i => (s.motor i).state.failedOrLocked || (s.motor i).stalled) then s
    else g.foldl (fun (s : State) i => s.onMotor i fun x => { x with groupFull := false }) s)

/-- The bus voltage lies outside its limits: below vbus_min for code 6, above vbus_max for code 7. -/
def MotorRec.busOut (r : MotorRec) (m : Motor) (code : Nat) : Bool :=
  if code = 6 then decide (m.vbus < r.vbusMin) else decide (r.vbusMax < m.vbus)

/-- Bus voltage below vbus_min or above vbus_max: gates off, COAST, WARNING on entry (11 R291). -/
def State.busVoltage (s : State) (n code : Nat) : State :=
  if !(s.motorRec n).on || !(s.motorRec n).busOut (s.motor n) code || (s.motor n).busBad = code then s
  else
    let s := s.onMotor n fun m =>
      let m := { m with lastFault := code, busBad := code }
      if m.state.driven || m.state = .coast then m.toCoast .bus else m
    s.logRm Cls.warning 0x050D (w32 n) []

def execBusUndervoltage (m : Fin 56) (s : State) : Host.Outcome State Fault Refusal := .next (s.busVoltage m.val 6)

def execBusOvervoltage (m : Fin 56) (s : State) : Host.Outcome State Fault Refusal := .next (s.busVoltage m.val 7)

/-- The voltage has stood good for 100 ms: a restart that counts no attempt (11 R291). -/
def execBusVoltageRestored (m : Fin 56) (s : State) : Host.Outcome State Fault Refusal :=
  .next (s.endWait m.val .bus fun x => decide (periods 100 ≤ if x.lastFault = 7 then x.clk.belowMax else x.clk.aboveMin))

/-- No tach edge for 1 s in RUN at or above handoff (11 R292). -/
def execTachFault (m : Fin 56) (s : State) : Host.Outcome State Fault Refusal :=
  let x := s.motor m.val
  let r := s.motorRec m.val
  .next (if r.on && r.tachPresent && x.state = .run && decide ((r.handoff : Int) ≤ x.omega) && !x.tachFault &&
      decide (periods 1000 ≤ x.clk.silent) then
      (s.onMotor m.val fun x => { x with tachFault := true, lastFault := 8 }).logRm Cls.warning 0x050E (w32 m.val) []
    else s)

/-- Tach and observer agree within 5 % for 1 s (11 R292). -/
def execTachClear (m : Fin 56) (s : State) : Host.Outcome State Fault Refusal :=
  .next (if (s.motor m.val).tachFault && decide (periods 1000 ≤ (s.motor m.val).clk.agree) then
      (s.onMotor m.val fun x => { x with tachFault := false }).logRm Cls.notice 0x050F (w32 m.val) []
    else s)

/-- Tach and observer disagree by more than 10 % for 1 s: an event, and the second begins anew (11 R292). -/
def execTachMismatch (m : Fin 56) (s : State) : Host.Outcome State Fault Refusal :=
  .next (if (s.motorRec m.val).on && (s.motorRec m.val).tachPresent && !(s.motor m.val).tachFault &&
      decide (periods 1000 ≤ (s.motor m.val).clk.differ) then
      (s.onMotor m.val fun x => { x with clk := { x.clk with differ := 0 } }).logRm Cls.warning 0x0510 (w32 m.val) []
    else s)

/-! ## The current-loop period (11 R278, R282, R287, R294) -/

/-- The period of 20 kHz, 5.0e-5 s. -/
def curTs : F32 := 0x3851B717

/-- One step of the override regulator toward a target: reference and integrator, the integrator preset to the applied
reference when it takes over and held within the limits (11 R287; discrete form: assumption log 19). -/
def MotorRec.regulate (r : MotorRec) (m : Motor) (target : Nat) : F32 × F32 :=
  let err := F32.ofInt ((target : Int) - m.omega)
  let i := m.integ.getD m.iqApplied
  let i := F32.clamp r.iqMin r.iqMax (F32.add i (F32.mul (F32.mul r.kiSpd err) curTs))
  (F32.add (F32.mul r.kpSpd err) i, i)

/-- The skip state of this period (11 R294): crossing strictly inside a band toward its exit edge, guarding once past it until
r lies on its far side. -/
def skipStep (bands : List (Nat × Nat)) (m : Motor) (tgt r : F32) : Option SkipRun :=
  match bandOf bands m.omega with
  | some (lo, hi) =>
    let up := F32.le (F32.ofNat hi) tgt ||
      !F32.le tgt (F32.ofNat lo) && F32.le (F32.sub (F32.ofNat hi) tgt) (F32.sub tgt (F32.ofNat lo))
    some { up := up, edge := if up then hi else lo, guarding := false }
  | none =>
    match m.skip with
    | none => none
    | some k =>
      let past := if k.up then decide ((k.edge : Int) ≤ m.omega) else decide (m.omega ≤ (k.edge : Int))
      let far := if k.up then F32.le (F32.ofNat k.edge) r else F32.le r (F32.ofNat k.edge)
      if !k.guarding && !past then none else if far then none else some { k with guarding := true }

/-- The reference limits in their order (11 R282): the applied reference, and whether stages 1 and 2 act. -/
def MotorRec.limitRef (r : MotorRec) (m : Motor) (iq : F32) : F32 × Bool × Bool :=
  let a := F32.clamp r.iqMin r.iqMax iq
  let fast := decide ((r.maxSpeed : Int) < m.omega)
  let top := F32.ofNat r.maxSpeed
  let room := F32.max 0 (F32.div (F32.mul r.iqMax (F32.sub (F32.mul 0x3F866666 top) (F32.ofInt m.omega))) (F32.mul 0x3D4CCCCD top))
  let b := if fast && F32.lt room a then room else a
  let c := if 95 * r.vbusMax < 100 * m.vbus && F32.lt b 0 then 0 else b
  (c, !F32.eq a iq, fast && F32.lt room a)

/-- One channel in one current-loop period; `hold` keeps its reference (20: the Ringmaster bank swap). -/
def Motor.period (m : Motor) (r : MotorRec) (bands : List (Nat × Nat)) (target : Option Nat) (hold : Bool) : Motor :=
  let m := { m with target := target.getD 0 }
  if m.state = .align || m.state = .ramp || m.state = .verify then
    { m with iqApplied := r.iStart, pendingRef := none, iqLoop := (m.pendingRef.map (·.1)).getD m.iqLoop, integ := none, skip := none }
  else
    let m := match m.pendingRef with
      | some (o, t, x) => if hold then m else { m with iqLoop := o, tgt := t, r := x, pendingRef := none }
      | none => m
    if m.state ≠ .run then
      { m with
        iqApplied := 0, integ := none, skip := none, iLimit := false, speedLimit := false
        state := if m.state = .coast && !m.permit && decide (m.omega = 0) then .stopped else m.state
        clk := if m.state = .coast && !m.permit && decide (m.omega = 0) then { m.clk with phase := 0 } else m.clk }
    else
      let tgt := (target.map F32.ofNat).getD m.tgt
      let far := (target.map F32.ofNat).getD m.r
      let skip := skipStep bands m tgt far
      let (iq, integ) : F32 × Option F32 := match skip, target with
        | some k, t =>
          if !k.guarding then (if k.up then r.iqMax else r.iqMin, none)
          else
            let g := r.regulate m k.edge
            let base := match t with
              | some t => (r.regulate m t).1
              | none => m.iqLoop
            (if k.up then F32.max base g.1 else F32.min base g.1, some g.2)
        | none, some t => ((r.regulate m t).1, some (r.regulate m t).2)
        | none, none => (m.iqLoop, none)
      let (a, i, sp) := r.limitRef m iq
      { m with iqApplied := a, iLimit := i, speedLimit := sp, integ := integ, skip := skip }

/-- The channel's times after one more period with the values it has (11 R284-R292). -/
def Motor.count (m : Motor) (r : MotorRec) : Motor :=
  let gap := ((m.tach : Int) - m.omega).natAbs
  { m with
    busBad := if m.busBad ≠ 0 ∧ r.busOut m m.busBad then m.busBad else 0
    clk :=
      { phase := m.clk.phase + 1
        fast := runOf (decide (115 * (r.maxSpeed : Int) < 100 * m.omega)) m.clk.fast
        stall := runOf (m.state = .run && decide (m.omega < (r.handoff : Int)) && F32.eq m.iqApplied r.iqMax) m.clk.stall
        silent := runOf (m.state = .run && decide ((r.handoff : Int) ≤ m.omega)) m.clk.silent
        agree := runOf (decide (100 * gap ≤ 5 * m.omega.natAbs)) m.clk.agree
        differ := runOf (decide (10 * m.omega.natAbs < 100 * gap)) m.clk.differ
        aboveMin := runOf (decide (105 * r.vbusMin < 100 * m.vbus)) m.clk.aboveMin
        belowMax := runOf (decide (100 * m.vbus < 95 * r.vbusMax)) m.clk.belowMax } }

/-- A channel's values of this period; a tach edge ends the time without one. -/
def Motor.sampled (m : Motor) (i : MotorIn) : Motor :=
  { m with omega := i.omega, tach := i.tach, vbus := i.vbus, clk := { m.clk with silent := if i.edge then 0 else m.clk.silent } }

/-- CURRENT_LOOP_PERIOD: samples, then every channel with an accepted record (11 R277, R278). -/
def execCurrentLoopPeriod (inp : List MotorIn) (s : State) : Host.Outcome State Fault Refusal :=
  let s := inp.foldl (fun (s : State) i => if (s.motorRec i.chan).accepted then s.onMotor i.chan fun m => m.sampled i else s) s
  .next ((List.range 56).foldl (fun (s : State) n =>
    let r := s.motorRec n
    if r.accepted then
      let t := s.overrideTarget n
      s.onMotor n fun m => (m.count r).period r (Tab.get [] s.cfg.skipBands n) t s.gen.rmRestartSwap
    else s) s)

/-! ## Estimate and view (11 R283, R296) -/

/-- Motor status (Table 11.4). -/
def MotorRec.status (r : MotorRec) (m : Motor) : Nat :=
  m.state.code + packFlags [m.permit, m.target ≠ 0 && m.state = .run, m.skip.isSome, m.tachFault, m.iLimit, m.speedLimit,
    r.accepted && decide (m.vbus < r.vbusMin), r.accepted && decide (95 * r.vbusMax < 100 * m.vbus)] * 8

/-- The speed field: 0 while STOPPED, 0xFFFF in ALIGN and RAMP (Table 11.3). -/
def Motor.speedField (m : Motor) : Nat :=
  match m.state with
  | .stopped => 0
  | .align | .ramp => 0xFFFF
  | _ => min 0xFFFE m.omega.natAbs

def MotorRec.tachField (r : MotorRec) (m : Motor) : Nat :=
  if r.tachPresent && !m.tachFault then min 0xFFFE m.tach else 0xFFFF

/-- The motor estimate element (Table 11.3). -/
def State.motorEl (s : State) (n : Nat) : MotorEl :=
  let m := s.motor n
  let r := s.motorRec n
  if !r.accepted then {}
  else
    { speed := BitVec.ofNat 16 m.speedField, tach := BitVec.ofNat 16 (r.tachField m), iqApplied := m.iqApplied
      vbus := BitVec.ofNat 16 (min 0xFFFF m.vbus), status := BitVec.ofNat 16 (r.status m) }

/-- A motor record of the view (Table 11.7). -/
def State.motorRecord (s : State) (n : Nat) : List Byte :=
  let m := s.motor n
  let r := s.motorRec n
  le8 n ++ le8 m.lastFault ++ le16 (r.status m) ++ le16 m.speedField ++ le16 (r.tachField m) ++ leW m.iqApplied ++ leW m.iqLoop ++
    le16 m.target ++ le16 (min 0xFFFF m.vbus) ++ le8 m.attempts ++ zeros 3 ++ le32 m.faults ++ le32 (satTo 32 (m.runTicks / 10000))

/-! ## Records -/

/-- A channel record (Table 11.2). -/
def motorRecAt (b : List Byte) (o : Nat) : MotorRec :=
  { accepted := true, flags := u8At b (o + 5), polePairs := u8At b (o + 6), tachPpr := u8At b (o + 7), rS := f32At b (o + 8)
    lS := f32At b (o + 0x0C), kE := f32At b (o + 0x10), iGain := f32At b (o + 0x14), iqMax := f32At b (o + 0x18)
    iqMin := f32At b (o + 0x1C), iTrip := f32At b (o + 0x20), maxSpeed := u16At b (o + 0x24), handoff := u16At b (o + 0x26)
    alignMs := u16At b (o + 0x28), rampMs := u16At b (o + 0x2A), iStart := f32At b (o + 0x2C), kpCur := f32At b (o + 0x30)
    kiCur := f32At b (o + 0x34), kpSpd := f32At b (o + 0x38), kiSpd := f32At b (o + 0x3C), vbusMin := u16At b (o + 0x40)
    vbusMax := u16At b (o + 0x42), stallMs := u16At b (o + 0x44), deadNs := u16At b (o + 0x46) }

/-- A finite number above 0. -/
def positive (x : F32) : Bool := F32.finite x && F32.lt 0 x

/-- The offset of the first field of a record outside Table 11.2, or of max_speed at or below the upper edge of a skip band
(11 R280, R281). -/
def MotorRec.badField (r : MotorRec) (bands : List (Nat × Nat)) : Option Nat :=
  let tach := bit r.flags 1
  let brake := bit r.flags 2
  (([(r.polePairs = 0 || 32 < r.polePairs, 0x06), (if tach then r.tachPpr = 0 || 12 < r.tachPpr else decide (r.tachPpr ≠ 0), 0x07),
    (!positive r.rS, 0x08), (!positive r.lS, 0x0C), (!positive r.kE, 0x10), (!positive r.iGain, 0x14), (!positive r.iqMax, 0x18),
    (!F32.finite r.iqMin || (if brake then F32.lt 0 r.iqMin else !F32.eq r.iqMin 0), 0x1C),
    (!F32.finite r.iTrip || !F32.lt r.iqMax r.iTrip, 0x20),
    (decide (r.maxSpeed ≤ r.handoff) || bands.any (fun b => decide (r.maxSpeed ≤ b.2)), 0x24), (decide (r.handoff < 50), 0x26),
    (decide (r.alignMs < 10 ∨ 2000 < r.alignMs), 0x28), (decide (r.rampMs < 100 ∨ 20000 < r.rampMs), 0x2A),
    (!positive r.iStart || !F32.le r.iStart r.iqMax, 0x2C), (!F32.finite r.kpCur, 0x30), (!F32.finite r.kiCur, 0x34),
    (!F32.finite r.kpSpd, 0x38), (!F32.finite r.kiSpd, 0x3C), (decide (r.vbusMax ≤ r.vbusMin), 0x42),
    (decide (r.stallMs < 100 ∨ 10000 < r.stallMs), 0x44), (decide (r.deadNs < 100 ∨ 2000 < r.deadNs), 0x46)] :
      List (Bool × Nat)).find? (·.1)).map (·.2)

/-- Axes of the motor opcodes (Table 11.9). -/
def State.motorAxes (s : State) : List (Bool × Reply) :=
  [(s.inNet, .notInMode), (s.mode.update = .handover, .busy s.handoverLeft), (s.mode.lifeCycle = .returning, .notInMode)]

/-- The refusal word of 11 R280. -/
def motorWord (chan off : Nat) : Reply := .badParam (off * 256 + chan)

/-- The structures of PUMP_CONFIGURE and FAN_CONFIGURE. -/
def motorShape (p : Packet) : Except Reply Unit := do
  p.checkBlock 8 []
  let b := p.block
  let count := u16At b 4
  deny [(b.length < 8 + 80 * count, p.badField 2), (u16At b 6 / 2 ≠ 0, p.badField 6)]
  deny ((List.range count).flatMap fun i =>
    let o := 8 + 80 * i
    let n := u8At b (o + 4)
    [(decide (u16At b o ≠ 1), ({ status := SC.badVersion, r0 := w32 (p.hdr + o) } : Reply)), (u16At b (o + 2) ≠ 80, motorWord n 2),
      (u8At b (o + 5) / 16 ≠ 0, motorWord n 5), (!zeroRange b (o + 0x48) 8, motorWord n 0x48)])

/-- PUMP_CONFIGURE and FAN_CONFIGURE (11 R280, R281): accepted records take effect at the next T0. -/
def motorConfigureBody (lo hi : Nat) (p : Packet) (s : State) : Except Reply (State × CmdEnd) := do
  let b := p.block
  let recs := (List.range (u16At b 4)).map fun i => (u8At b (8 + 80 * i + 4), motorRecAt b (8 + 80 * i))
  let plan := s.planned
  deny (recs.flatMap fun e =>
    let bad := e.2.badField (Tab.get [] plan.skipBands e.1)
    [(decide (e.1 < lo ∨ hi < e.1), motorWord e.1 4), (bad.isSome, motorWord e.1 (bad.getD 0))])
  deny (recs.map fun e =>
    let old := Tab.get {} plan.motors e.1
    let st := (s.motor e.1).state
    let free := { e.2 with iqMax := old.iqMax, maxSpeed := old.maxSpeed, kpSpd := old.kpSpd, kiSpd := old.kiSpd }
    (e.2.on && !(st = .stopped || st.failedOrLocked) && free ≠ old, Reply.notInMode))
  let items := recs.map fun e => CfgItem.motor e.1 e.2
  if bit (u16At b 6) 0 then .ok (s, .reply .done)
  else .ok ((s.defer items).logConfig p SC.ok, .reply { Reply.done with save := items })

def execPumpConfigure (p : Packet) (s : State) : Host.Outcome State Fault Refusal :=
  .next (s.runCmd 0x0501 false p motorShape (fun _ s => axes s.motorAxes) fun _ => motorConfigureBody 0 7)

def execFanConfigure (p : Packet) (s : State) : Host.Outcome State Fault Refusal :=
  .next (s.runCmd 0x0502 false p motorShape (fun _ s => axes s.motorAxes) fun _ => motorConfigureBody 8 55)

/-- A record takes effect at T0 (11 R281, R285, R295): ENABLE clear stops the channel, ends its overrides and its FAILED or
LOCKED state; a fan newly enabled has its permit. -/
def State.putMotor (s : State) (n : Nat) (r : MotorRec) : State :=
  let was := (s.motorRec n).on
  let s := s.apply [.motor n r]
  if !r.on then
    s.onMotor n fun m =>
      let m := { m with groupFull := false, flowStopDrive := false, target := 0 }
      if m.state.failedOrLocked || m.state.driven || m.state = .coast then
        { m.toCoast .none with attempts := if m.state.failedOrLocked then 0 else m.attempts } else m
  else if !was && 8 ≤ n then s.setPermit n true else s

/-! ## MOTOR_COMMAND (11 R295) -/

/-- CLEAR_FAULT: FAILED or LOCKED ends, the count is cleared, a permitted channel starts; a pump's network failure ends too
(10 R273). -/
def State.clearMotorFault (s : State) (n : Nat) : State :=
  let s := s.onMotor n fun m =>
    if m.state.failedOrLocked then { m.enter .stopped .none with attempts := 0 } else { m with attempts := 0 }
  let s := match (if n < 8 then s.pumpGroupOf n else none) with
    | some g => { s with cool := { s.cool with groups := Tab.modify {} s.cool.groups g fun d =>
        { d with pumpFailed := if d.pumpFailed = some n then none else d.pumpFailed } } }
    | none => s
  s.beginAttempt n

/-- Where the ops that set a permit are accepted. -/
def State.permitOp (s : State) (n : Nat) : Bool :=
  s.mode.authority = .manual || match (if 8 ≤ n then s.fanRack n else none) with
    | some k => s.rackState k = .service || s.rackState k = .commission
    | none => false

def motorCommandBody (p : Packet) (s : State) : Except Reply (State × CmdEnd) := do
  let n := u8At p.block 4
  let op := u8At p.block 5
  deny [(55 < n, p.badField 4), (2 < op, p.badField 5)]
  if op = 2 then .ok (s.clearMotorFault n, .reply .done)
  else
    deny [(!s.permitOp n, .notInMode), (op = 1 && (s.overrideTarget n).isSome, .notInMode)]
    let s := s.setPermit n (op = 0)
    .ok (if op = 0 then s.beginAttempt n else s, .reply .done)

def execMotorCommand (p : Packet) (s : State) : Host.Outcome State Fault Refusal :=
  .next (s.runCmd 0x0503 false p (fun p => p.checkBlock 8 [(6, 2)]) (fun _ s => axes s.motorAxes) fun _ => motorCommandBody)

/-! ## SKIP_BANDS_SET (11 R293) -/

/-- The bands of a record. -/
def bandsAt (b : List Byte) (o : Nat) : List (Nat × Nat) :=
  (List.range (min 4 (u8At b (o + 1)))).map fun k => (u16At b (o + 4 + 4 * k), u16At b (o + 6 + 4 * k))

/-- The bands are ascending, at least 50 rpm apart, each at least 20 rpm wide. -/
def bandsOk : List (Nat × Nat) → Bool
  | [] => true
  | [b] => decide (b.1 + 20 ≤ b.2)
  | b :: c :: rest => decide (b.1 + 20 ≤ b.2) && decide (b.2 + 50 ≤ c.1) && bandsOk (c :: rest)

def skipBandsBody (p : Packet) (s : State) : Except Reply (State × CmdEnd) := do
  let b := p.block
  let count := u16At b 4
  let at_ := fun i => 8 + 20 * i
  deny [(count = 0 || 56 < count, p.badField 4)]
  deny ((List.range count).flatMap fun i =>
    let o := at_ i
    let n := u8At b o
    let r := Tab.get {} s.planned.motors n
    let bands := bandsAt b o
    [(55 < n || ((List.range i).any fun j => u8At b (at_ j) = n), p.badField o), (4 < u8At b (o + 1), p.badField (o + 1)),
      (!bandsOk bands || bands.any fun x => decide (x.1 ≤ r.handoff ∨ r.maxSpeed ≤ x.2), p.badField (o + 4))])
  let items := (List.range count).map fun i => CfgItem.skipBands (u8At b (at_ i)) (bandsAt b (at_ i))
  .ok ((s.defer items).logConfig p SC.ok, .reply { Reply.done with save := items })

def execSkipBandsSet (p : Packet) (s : State) : Host.Outcome State Fault Refusal :=
  .next (s.runCmd 0x0504 false p
    (fun p => do
      p.checkBlock 8 [(6, 2)]
      let b := p.block
      let count := u16At b 4
      deny ((b.length < 8 + 20 * count, p.badField 2) :: (List.range count).flatMap fun i =>
        let o := 8 + 20 * i
        [(!zeroRange b (o + 2) 2, p.badField (o + 2)),
          (!zeroRange b (o + 4 + 4 * u8At b (o + 1)) (16 - 4 * u8At b (o + 1)), p.badField (o + 4 + 4 * u8At b (o + 1)))]))
    (fun _ s => axes s.motorAxes) fun _ => skipBandsBody)

end Sys2Proof.Machine
end

