-- ==== Sys2Proof/Machine/Valves.lean ====
section
/-! DEFINITION. Valve drive (12): wiring, pull-ins and their deferral, protective actions and rack positions, supplies,
faults, and the valve opcodes. -/

namespace Sys2Proof.Machine

/-! ## Wiring (12 R299, R305) -/

def State.valveRec (s : State) (v : Nat) : ValveRec := Tab.get {} s.cfg.valves v
def State.valveCh (s : State) (v : Nat) : Valve := Tab.get {} s.valve.chans v

def State.onValve (s : State) (v : Nat) (f : Valve → Valve) : State :=
  { s with valve := { s.valve with chans := Tab.modify {} s.valve.chans v f } }

/-- An enabled record. -/
def ValveRec.on (r : ValveRec) : Bool := r.accepted && r.enable

/-- Channel `c` and `c + 1` form one valve. -/
def State.valvePaired (s : State) (c : Nat) : Bool := (s.valveRec c).on && (s.valveRec c).pair && c % 2 = 0

/-- The channel a channel is commanded as: the even half of its pair. -/
def State.valveOwner (s : State) (c : Nat) : Nat := if c % 2 = 1 ∧ s.valvePaired (c - 1) then c - 1 else c

/-- The valves that share a high-side switch with `v`. -/
def State.valvePartners (s : State) (v : Nat) : List Nat :=
  let a := s.valveOwner ((v + 32) % 64)
  let b := s.valveOwner ((v + 33) % 64)
  if s.valvePaired v ∧ a ≠ b then [a, b] else [a]

/-- The Strongman supply of a channel. -/
def valveSupply (v : Nat) : Nat := if v % 32 < 16 then 0 else 1

def State.supply (s : State) (q : Nat) : Supply := Tab.get {} s.valve.supplies q

def State.onSupply (s : State) (q : Nat) (f : Supply → Supply) : State :=
  { s with valve := { s.valve with supplies := Tab.modify {} s.valve.supplies q f } }

/-- Pull-ins that draw from a supply. -/
def State.supplyLoad (s : State) (q : Nat) : Nat :=
  ((List.range 64).filter fun v => valveSupply v = q && (s.valveCh v).phase = .pullIn && !(s.valveCh v).degraded).length

/-- The supply is ready (12 R300). -/
def State.supplyReady (s : State) (q : Nat) : Bool := (s.supply q).state = .ready && decide (s.supplyLoad q < 4)

/-! ## Racks and positions (12 R304) -/

/-- The valves of a rack record with their bit of valve_sense: supply, return, bypass. -/
def RackRec.valves (r : RackRec) : List (Nat × Nat) :=
  [(r.vSupply, 0), (r.vReturn, 1)] ++ match r.vBypass with
    | some v => [(v, 2)]
    | none => []

/-- The rack whose record names valve `v`, and the valve's bit of valve_sense. -/
def State.valveRack (s : State) (v : Nat) : Option (Nat × Nat) :=
  ((List.range 16).filter s.rackOn).findSome? fun k =>
    ((s.cfg.topo.rack k).valves.find? (·.1 = v)).map fun e => (k, e.2)

/-- Whether a rack valve is energised in its rack position; on leaving ISOLATED the bypass stays open for 1 s (10 R268). -/
def State.positionOf (s : State) (k role : Nat) : Bool :=
  let isolated := s.rackState k = .isolated || role = 2 && (Tab.get {} s.cool.racks k).bypassDue.isSome
  bit (s.cfg.topo.rack k).valveSense role == isolated

/-! ## Pull-ins (12 R301, R308, R310, R311) -/

/-- The longest deferral, ms, with one that lasted since a tick. -/
def Valve.noteDefer (x : Valve) (now : Nat) : Valve :=
  match x.due with
  | some d => match d.since with
    | some t => { x with deferMax := max x.deferMax (satBelow 16 ((now - t) / 10)) }
    | none => x
  | none => x

/-- A pull-in starts; `degraded` is from the 24 V rail. -/
def State.startPullIn (s : State) (v : Nat) (degraded : Bool) : State :=
  s.onValve v fun x =>
    { x.noteDefer s.now with
      phase := .pullIn, due := none, degraded := degraded, holdLow := false, pullAt := s.now
      protective := match x.due with
        | some d => d.protective
        | none => x.protective
      pullIns := satTo 32 (x.pullIns + 1) }

/-- A due pull-in must wait: it is DEFERRED since this tick unless it was already. -/
def State.deferValve (s : State) (v : Nat) : State :=
  s.onValve v fun x => match x.due with
    | some d => { x with due := some { d with since := d.since <|> some s.now }
                         phase := if x.phase = .off then .deferred else x.phase }
    | none => x

/-- Cuts a pull-in to HOLD; it restarts once channel `v` has reached HOLD. -/
def State.cutToHold (s : State) (p v : Nat) : State :=
  s.onValve p fun x =>
    if x.phase = .pullIn then
      { x with phase := .hold, due := some { protective := x.protective, behind := some v, since := some s.now } }
    else x

/-- A due pull-in that waits behind another channel still waits. -/
def State.valveBehind (s : State) (d : ValveDue) : Bool :=
  match d.behind with
  | some q => (s.valveCh q).due.isSome || (s.valveCh q).phase = .pullIn
  | none => false

/-- Starts the due pull-in of `v` if its rail lets it: a protective one waits for its supply, deferred no longer, a host one starts;
without the 24 V input a host one is dropped (assumption log 20). -/
def State.startOnRail (s : State) (v : Nat) (d : ValveDue) : State :=
  if s.supplyReady (valveSupply v) then s.startPullIn v false
  else if d.protective then
    s.onValve v fun x =>
      { x.noteDefer s.now with
        due := some { d with since := none, supplySince := d.supplySince <|> some s.now }
        phase := if x.phase = .deferred then .off else x.phase }
  else if s.valve.v24 then s.startPullIn v false
  else s.onValve v fun x => { x with due := none, phase := if x.phase = .deferred then .off else x.phase }

/-- Starts a due pull-in where R308 and R311 let it, and defers it where they do not. -/
def State.tryStart (s : State) (v : Nat) : State :=
  let x := s.valveCh v
  match x.due with
  | none => s
  | some d =>
    if x.phase = .fault || s.valveBehind d then s
    else
      let busy := (s.valvePartners v).filter fun p => (s.valveCh p).phase = .pullIn
      if x.phase = .pullIn || busy.isEmpty then s.startOnRail v d
      else if d.protective && busy.all (fun p => !(s.valveCh p).protective) then
        (busy.foldl (fun (s : State) p => s.cutToHold p v) s).startOnRail v d
      else s.deferValve v

/-- Changes every command on its way. -/
def State.onValveCmds (s : State) (f : ValveCmd → ValveCmd) : State :=
  { s with valve := { s.valve with cmds := s.valve.cmds.map f } }

/-- The supplies the ENERGISE entries of a command need. -/
def ValveCmd.needs (c : ValveCmd) : List Nat :=
  [0, 1].filter fun q => c.entries.any fun e => e.2 = 0 && valveSupply e.1 = q

/-- Entries let through one after the other from `n` up. -/
def ValveCmd.reach (c : ValveCmd) : Nat → Nat → Nat
  | 0, n => n
  | fuel + 1, n => if c.through.contains n then c.reach fuel (n + 1) else n

/-- The commands in order: entries are released in order, a command only after those before it (12 R306, R307; 15 R374). -/
def releaseEntries : List ValveCmd → List ValveCmd
  | [] => []
  | c :: rest =>
    if c.waitSupply then c :: rest
    else
      let n := max c.released (min c.entries.length (c.reach c.entries.length 0))
      if n < c.entries.length then { c with released := n } :: rest else { c with released := n } :: releaseEntries rest

/-- Releases what has been let through; none in a switch-over gap and in NET. -/
def State.advanceValves (s : State) : State :=
  if s.laneCtl.held || s.inNet then s else { s with valve := { s.valve with cmds := releaseEntries s.valve.cmds } }

/-- A supply has become ready or free: protective pull-ins that wait for it start, and commands that wait for it proceed. -/
def State.wakeValves (s : State) : State :=
  let s := (List.range 64).foldl (fun (s : State) v =>
    match (s.valveCh v).due with
    | some d => if d.protective && d.since.isNone then s.tryStart v else s
    | none => s) s
  (s.onValveCmds fun c => if c.needs.all s.supplyReady then { c with waitSupply := false } else c).advanceValves

/-- A command completes when every channel it names is in HOLD, OFF or FAULT with no pull-in due (12 R309). -/
def State.finishValveCmds (s : State) : State :=
  let settled := fun (c : ValveCmd) => decide (c.entries.length ≤ c.applied) && c.entries.all fun e =>
    let x := s.valveCh e.1
    (x.phase = .hold || x.phase = .off || x.phase = .fault) && x.due.isNone
  let ended := s.valve.cmds.filter settled
  ended.foldl (fun (s : State) c =>
      let bad := (c.entries.find? fun e => (s.valveCh e.1).phase = .fault).map fun e => w32 e.1
      s.finish c.cmd { status := if c.deferred.isEmpty then SC.ok else SC.hsConflictDeferred
                       r0 := w32 c.deferred.length, r1 := bad.getD none32 })
    { s with valve := { s.valve with cmds := s.valve.cmds.filter fun c => !settled c } }

/-- What every row that changes a phase ends with. -/
def State.settleValves (s : State) : State := s.wakeValves.finishValveCmds

/-! ## Protective actions (12 R304, R311) -/

/-- Drives a valve as a protective action; `action` is 1 for an isolation, 2 for a run position. -/
def State.driveValve (s : State) (v : Nat) (energise : Bool) (action : Nat) : State :=
  if !(s.valveRec v).on || (s.valveCh v).phase = .fault then s
  else
    let s := s.onValve v fun x => { x with action := action, energised := energise }
    if energise then
      if (s.valveCh v).phase = .hold || (s.valveCh v).phase = .pullIn then s
      else
        (s.onValve v fun x =>
          { x with due := some { protective := true, since := x.due.bind (·.since) } }).tryStart v
    else
      s.onValve v fun x =>
        { x with
          due := none, protective := true, holdLow := false
          phase := match x.phase with
            | .pullIn | .hold | .decay => .decay
            | _ => .off
          decayAt := if x.phase = .pullIn ∨ x.phase = .hold then s.now else x.decayAt }

/-- Drives one valve of a rack to its rack position. -/
def State.drivePosition (s : State) (k role : Nat) : State :=
  match (s.cfg.topo.rack k).valves.find? (·.2 = role) with
  | some e => s.driveValve e.1 (s.positionOf k role) (if s.rackState k = .isolated then 1 else 2)
  | none => s

/-- Drives the valves of a rack to its rack position: bypass, supply, return when isolated (10 R267), else supply and return,
then bypass. -/
def State.driveRack (s : State) (k : Nat) : State :=
  let order := if s.rackState k = .isolated then [2, 0, 1] else [0, 1, 2]
  (order.foldl (fun (s : State) r => s.drivePosition k r) s).settleValves

/-- Every enabled rack's valves to their rack positions. -/
def State.driveRacks (s : State) : State := ((List.range 16).filter s.rackOn).foldl State.driveRack s

/-! ## Entries of VALVE_COMMAND (12 R306) -/

/-- CLEAR: FAULT ends in OFF, and a rack valve is driven to its rack position. -/
def State.clearValve (s : State) (v : Nat) : State :=
  let was := (s.valveCh v).phase = .fault
  let s := s.onValve v fun x =>
    { x with
      phase := if x.phase = .fault then .off else x.phase, energised := x.energised && x.phase ≠ .fault
      deferFault := false, stuckOn := false, short := false, openCoil := false, holdLow := false }
  match s.valveRack v with
  | some (k, role) => if was then s.drivePosition k role else s
  | none => s

/-- One entry's op: 0 ENERGISE, which becomes due to start, 1 DEENERGISE, 2 CLEAR. -/
def State.applyEntry (s : State) (v op : Nat) : State :=
  match op with
  | 0 =>
    if (s.valveCh v).phase = .fault then s
    else s.onValve v fun x => { x with energised := true, due := some { since := x.due.bind (·.since) } }
  | 1 =>
    s.onValve v fun x =>
      { x with
        energised := false, due := none
        phase := match x.phase with
          | .pullIn | .hold => .decay
          | .deferred => .off
          | ph => ph
        decayAt := if x.phase = .pullIn ∨ x.phase = .hold then s.now else x.decayAt }
  | _ => s.clearValve v

/-- The entries of a command that are released and not yet applied. -/
def ValveCmd.fresh (c : ValveCmd) : List (Nat × Nat) := (c.entries.take c.released).drop c.applied

/-- VALVE_ENTRY_APPLY: RM-VALVE applies the released entries in submission and entry order (12 R306). Pull-ins that become due so
start together, the lower channel first (R308), and those that must wait are noted as deferred (R309). -/
def execValveEntryApply (s : State) : Host.Outcome State Fault Refusal :=
  let on := s.valve.cmds.flatMap fun c => (c.fresh.filter (·.2 = 0)).map fun e => (c.cmd, e.1)
  let s := (s.valve.cmds.flatMap ValveCmd.fresh).foldl (fun (s : State) e => s.applyEntry e.1 e.2) s
  let s := ((List.range 64).filter fun v => on.any fun e => e.2 = v).foldl State.tryStart s
  let late := on.filter fun e => (s.valveCh e.2).due.any fun d => d.since.isSome
  .next (s.onValveCmds fun c =>
    { c with applied := max c.applied c.released, deferred := c.deferred ++ (late.filter fun e => e.1 = c.cmd).map (·.2) }).settleValves

/-! ## Profile events -/

/-- Ticks of a pull-in: t_pull, doubled from the 24 V rail (12 Table 12.1, R311). -/
def State.pullTicks (s : State) (v : Nat) : Nat := 10 * (s.valveRec v).tPull * (if (s.valveCh v).degraded then 2 else 1)

/-- t_pull is over (12 Table 12.1). -/
def execPullInEnd (v : Fin 64) (s : State) : Host.Outcome State Fault Refusal :=
  .next (if (s.valveCh v.val).phase = .pullIn ∧ (s.valveCh v.val).pullAt + s.pullTicks v.val ≤ s.now then (s.onValve v.val fun x => { x with phase := .hold }).settleValves else s)

/-- The coil current as a channel reports it: for a pair the sum of both halves (12 Table 12.6). -/
def State.coilCurrent (s : State) (v : Nat) : Nat :=
  (s.valveCh v).current + if s.valvePaired v then (s.valveCh (v + 1)).current else 0

/-- The coil current is below 50 mA (12 Table 12.1). -/
def execDecayEnd (v : Fin 64) (s : State) : Host.Outcome State Fault Refusal :=
  .next (if (s.valveCh v.val).phase = .decay ∧ s.coilCurrent v.val < 50 then
      (s.onValve v.val fun x => { x with phase := if x.due.isSome then .deferred else .off }).settleValves
    else s)

/-- A deferred pull-in starts in the cycle in which its partner leaves PULL_IN; of two partners due the lower first (12 R308). -/
def execDeferredStart (v : Fin 64) (s : State) : Host.Outcome State Fault Refusal :=
  let lower := (s.valvePartners v.val).filter fun p => p < v.val
  .next ((lower ++ [v.val]).foldl (fun (s : State) p => s.tryStart p) s).settleValves

/-- A deferral reached defer_limit (12 R310). -/
def execValveDeferFault (v : Fin 64) (s : State) : Host.Outcome State Fault Refusal :=
  let v := v.val
  let busy := (s.valvePartners v).filter fun p => (s.valveCh p).phase = .pullIn
  .next (match (s.valveCh v).due, busy with
    | some d, p :: _ =>
      if !(d.since.any fun e => decide (e + 10 * (s.valveRec v).deferLimit ≤ s.now)) then s
      else
        let s := busy.foldl (fun (s : State) p => s.cutToHold p v) s
        let s := s.onValve v fun x => { x with deferFault := true, lastFault := 6 }
        let s := s.logRm Cls.alarm 0x0603 (w32 v) [w32 p]
        ((s.onValve v fun x => { x with due := x.due.map fun e => { e with behind := none } }).tryStart v).settleValves
    | _, _ => s)

/-- The first command whose wait for a supply is over is refused (12 R307). -/
def execBoostWaitExpiry (s : State) : Host.Outcome State Fault Refusal :=
  .next (match s.valve.cmds.find? fun (c : ValveCmd) => c.waitSupply && decide (c.waitEnd ≤ s.now) with
    | none => s
    | some c =>
      match c.needs.find? fun q => !s.supplyReady q with
      | none => s.settleValves
      | some q =>
        let s := s.onSupply q fun x => { x with refusals := satTo 32 (x.refusals + 1) }
        let s := { s with valve := { s.valve with cmds := s.valve.cmds.filter fun (x : ValveCmd) => x.cmd ≠ c.cmd } }
        (s.finish c.cmd { status := SC.boostNotReady, r0 := w32 q }).settleValves)

/-- A protective pull-in has waited 5 ms for its supply: from the 24 V rail (12 R311). -/
def execValveDegradedPullin (v : Fin 64) (s : State) : Host.Outcome State Fault Refusal :=
  let v := v.val
  .next (match (s.valveCh v).due with
    | some d =>
      if (s.valvePartners v).any fun p => (s.valveCh p).phase = .pullIn then (s.tryStart v).settleValves
      else if d.protective && (d.supplySince.any fun e => decide (e + 50 ≤ s.now)) && !s.valveBehind d && s.valve.v24 &&
          !s.supplyReady (valveSupply v) then
        let s := s.onSupply (valveSupply v) fun x => { x with fallbacks := satTo 32 (x.fallbacks + 1) }
        (s.startPullIn v true).logRm Cls.warning 0x0604 (w32 v) []
      else s
    | none => s)

/-- A channel enters FAULT with a code of Table 12.6 (12 R312, 19 Table 19.10). -/
def State.faultValve (s : State) (v code : Nat) (mark : Valve → Valve) : State :=
  let rack := s.valveRack v
  let x := s.valveCh v
  let incomplete := if x.protective && rack.isSome then x.action else 0
  let s := s.onValve v fun x => { mark x with phase := .fault, due := none, lastFault := code }
  (s.logRm Cls.alarm 0x0602 (w32 v)
    [w32 code, (rack.map fun e => w32 e.1).getD none32, w32 incomplete]).settleValves

/-- The current reached i_peak after `us` µs; `boosted` tells whether the supply stood at 44.0 V throughout (12 R302). -/
def execPeakCurrentReached (v : Fin 64) (us : Nat) (boosted : Bool) (s : State) : Host.Outcome State Fault Refusal :=
  .next (if (s.valveCh v.val).phase = .pullIn ∧ boosted then
      let s := s.onValve v.val fun x => { x with riseUs := some us }
      if us < (s.valveRec v.val).tRiseMin then s.faultValve v.val 2 fun x => { x with short := true } else s
    else s)

/-! ## Faults (12 Table 12.4) -/

/-- A time in µs has passed since a tick, as far as ticks tell. -/
def State.usSince (s : State) (tick us : Nat) : Bool := decide (tick + us / 100 ≤ s.now)

/-- Below 10 % of i_peak at t_rise_max. -/
def execValveOpenCoil (v : Fin 64) (s : State) : Host.Outcome State Fault Refusal :=
  let r := s.valveRec v.val
  .next (if (s.valveCh v.val).phase = .pullIn ∧ s.usSince (s.valveCh v.val).pullAt r.tRiseMax ∧ 10 * s.coilCurrent v.val < r.iPeak then
      s.faultValve v.val 1 fun x => { x with openCoil := true }
    else s)

/-- A current of `mA`, above 1.5 x i_peak, in a driven coil; PEAK_CURRENT_REACHED finds the rise that is too fast. -/
def execValveShortedCoil (v : Fin 64) (mA : Nat) (s : State) : Host.Outcome State Fault Refusal :=
  .next (if ((s.valveCh v.val).phase = .pullIn ∨ (s.valveCh v.val).phase = .hold) ∧ 3 * (s.valveRec v.val).iPeak < 2 * mA then
      s.faultValve v.val 2 fun x => { x with short := true } else s)

/-- More than 100 mA in OFF for 1 ms. -/
def execValveStuckOn (v : Fin 64) (s : State) : Host.Outcome State Fault Refusal :=
  .next (if (s.valveRec v.val).on ∧ ((s.valveCh v.val).phase = .off ∨ (s.valveCh v.val).phase = .deferred) ∧
        10 ≤ (s.valveCh v.val).offRun then
      s.faultValve v.val 3 fun x => { x with stuckOn := true } else s)

/-- A high-side switch's own fault: both partners to OFF and FAULT. -/
def execHighSideSwitchFault (v : Fin 64) (s : State) : Host.Outcome State Fault Refusal :=
  let a := s.valveOwner (v.val % 32)
  let b := s.valveOwner (v.val % 32 + 32)
  .next ([a, b].foldl (fun (s : State) c =>
    if (s.valveRec c).on && (s.valveCh c).phase ≠ .fault then s.faultValve c 4 id else s) s)

/-- Below i_hold for 100 ms at full duty; the mark ends with the current at i_hold. -/
def execValveHoldLow (v : Fin 64) (s : State) : Host.Outcome State Fault Refusal :=
  .next (if (s.valveCh v.val).phase = .hold ∧ !(s.valveCh v.val).holdLow ∧ 1000 ≤ (s.valveCh v.val).lowRun then
      (s.onValve v.val fun x => { x with holdLow := true, lastFault := 5 }).logRm Cls.warning 0x0606 (w32 v.val) []
    else s)

/-- Not OFF within t_decay_max. -/
def execDecayTooSlow (v : Fin 64) (s : State) : Host.Outcome State Fault Refusal :=
  .next (if (s.valveCh v.val).phase = .decay ∧ s.usSince (s.valveCh v.val).decayAt (s.valveRec v.val).tDecayMax then s.faultValve v.val 8 id else s)

/-- The halves of a pair more than 20 % apart for 10 ms (12 R305). -/
def execPairImbalance (v : Fin 64) (s : State) : Host.Outcome State Fault Refusal :=
  let c := s.valveOwner v.val
  .next (if s.valvePaired c ∧ ((s.valveCh c).phase = .pullIn ∨ (s.valveCh c).phase = .hold) ∧ 100 ≤ (s.valveCh c).uneven then
      s.faultValve c 7 id
    else s)

/-- The channel's times after one more tick with the currents it has (12 R305, Table 12.4). -/
def State.countCoil (s : State) (v : Nat) : State :=
  let r := s.valveRec v
  let total := s.coilCurrent v
  let other := (s.valveCh (v + 1)).current
  let pair := s.valvePaired v
  if !r.on then s
  else s.onValve v fun x =>
    let low := x.phase = .hold && decide (total < r.iHold)
    { x with
      holdLow := x.holdLow && decide (total < r.iHold)
      offRun := runOf ((x.phase = .off || x.phase = .deferred) && decide (100 < total)) x.offRun
      lowRun := runOf low x.lowRun
      uneven := runOf (pair && (x.phase = .pullIn || x.phase = .hold) &&
        decide (max x.current other < 5 * (max x.current other - min x.current other))) x.uneven }

/-- Coil currents (mA) and boost voltages (0.1 V) as RM-VALVE measures them in a tick; a ready supply below 44.0 V is LOW
(12 R300, Tables 12.6, 12.8). -/
def State.sampleValves (s : State) (coils boost : List (Nat × Nat)) : State :=
  let s := coils.foldl (fun (s : State) e => s.onValve (e.1 % 64) fun x => { x with current := e.2 }) s
  let s := boost.foldl (fun (s : State) e => s.onSupply (e.1 % 2) fun x =>
    { x with
      vOut := e.2, state := if x.state = .ready ∧ e.2 < 440 then .low else x.state
      since := if x.state = .ready ∧ e.2 < 440 then s.now else x.since }) s
  s.cfg.valves.foldl (fun (s : State) e => s.countCoil e.1) s

/-! ## Supplies and the 24 V input (12 R300, Table 12.4) -/

/-- An output at or above 44.0 V. -/
def execStrongmanReady (supply : Fin 2) (s : State) : Host.Outcome State Fault Refusal :=
  let st := (s.supply supply.val).state
  .next (if s.valve.v24 ∧ (st = .softStart ∨ st = .low) ∧ 440 ≤ (s.supply supply.val).vOut then
      (s.onSupply supply.val fun x => { x with state := .ready, since := s.now }).settleValves else s)

/-- An output that did not reach 44.0 V within 500 ms of soft-start. -/
def execStrongmanFault (supply : Fin 2) (s : State) : Host.Outcome State Fault Refusal :=
  let x := s.supply supply.val
  .next (if x.state = .softStart ∧ x.vOut < 440 ∧ x.since + 5000 ≤ s.now then
      (s.onSupply supply.val fun x => { x with state := .fault, since := s.now }).logRm Cls.alarm 0x0601 (w32 supply.val) [] else s)

/-- A supply in FAULT retries every 10 s. -/
def execStrongmanRetry (supply : Fin 2) (s : State) : Host.Outcome State Fault Refusal :=
  .next (if s.valve.v24 ∧ (s.supply supply.val).state = .fault ∧ (s.supply supply.val).since + 100000 ≤ s.now then
      s.onSupply supply.val fun x => { x with state := .softStart, since := s.now } else s)

/-- The valve stages are off: energised coils decay, and nothing waits to start (12 Table 12.1, 21 R513). -/
def State.stagesOff (s : State) : State :=
  (List.range 64).foldl (fun (s : State) v => s.onValve v fun x =>
    { x with
      due := none, energised := false
      phase := match x.phase with
        | .pullIn | .hold => .decay
        | .deferred => .off
        | ph => ph
      decayAt := if x.phase = .pullIn ∨ x.phase = .hold then s.now else x.decayAt }) s

/-- The 24 V input is below 18 V. -/
def execActuatorSupplyLost (s : State) : Host.Outcome State Fault Refusal :=
  .next (if !s.valve.v24 then s
    else
      let s := s.stagesOff
      let s := [0, 1].foldl (fun (s : State) q => s.onSupply q fun x => { x with state := .off, since := s.now }) s
      ({ s with valve := { s.valve with v24 := false } }.logRm Cls.alarm 0x0605 none32 []).settleValves)

/-- The 24 V input is back: soft-start, and the rack positions again (12 R304). -/
def execActuatorSupplyReturn (s : State) : Host.Outcome State Fault Refusal :=
  .next (if s.valve.v24 then s
    else
      let s := { s with valve := { s.valve with v24 := true } }
      let s := [0, 1].foldl (fun (s : State) q => s.onSupply q fun x => { x with state := .softStart, since := s.now }) s
      if s.gen.rmReady then s.driveRacks else s)

/-! ## VALVE_CONFIGURE (12 R303, R305) -/

def valveRecAt (b : List Byte) (o : Nat) : ValveRec :=
  { accepted := true, enable := bit (u8At b (o + 5)) 0, pair := bit (u8At b (o + 5)) 1, iPeak := u16At b (o + 8)
    iHold := u16At b (o + 0x0A), tPull := u16At b (o + 0x0C), tRiseMin := u16At b (o + 0x0E), tRiseMax := u16At b (o + 0x10)
    tDecayMax := u16At b (o + 0x12), boostWait := u16At b (o + 0x14), deferLimit := u16At b (o + 0x16) }

/-- Outside a range. -/
def outside (lo hi v : Nat) : Bool := decide (v < lo ∨ hi < v)

/-- The refusal word of 12 R303. -/
def valveWord (chan off : Nat) : Reply := .badParam (off * 256 + chan)

/-- Checks of one record (Table 12.2). -/
def ValveRec.checks (r : ValveRec) (c : Nat) : List (Bool × Reply) :=
  let k := if r.pair then 2 else 1
  [(63 < c, valveWord c 4), (r.pair && c % 2 = 1, valveWord c 5), (outside (500 * k) (6000 * k) r.iPeak, valveWord c 8),
    (outside (500 * k) (2000 * k) r.iHold || decide (r.iPeak ≤ r.iHold), valveWord c 0x0A), (outside 2 100 r.tPull, valveWord c 0x0C),
    (outside 50 10000 r.tRiseMin, valveWord c 0x0E),
    (outside 100 50000 r.tRiseMax || decide (r.tRiseMax ≤ r.tRiseMin ∨ 1000 * r.tPull ≤ r.tRiseMax), valveWord c 0x10),
    (outside 100 20000 r.tDecayMax, valveWord c 0x12), (500 < r.boostWait, valveWord c 0x14), (outside 10 1000 r.deferLimit, valveWord c 0x16)]

/-- Checks of the resulting configuration across channels. -/
def valveCross (t : Tab ValveRec) : List (Bool × Reply) :=
  let rec_ := fun c => Tab.get ({} : ValveRec) t c
  (List.range 64).flatMap fun c =>
    let r := rec_ c
    let p := rec_ ((c + 32) % 64)
    [(r.accepted && r.pair && c % 2 = 0 && (rec_ (c + 1)).on, valveWord (c + 1) 5),
      (r.on && p.on && decide (r.deferLimit < p.tPull + 1), valveWord c 0x16)]

def valveAxes (s : State) : List (Bool × Reply) :=
  [(s.inNet, .notInMode), (s.mode.update = .handover, .busy s.handoverLeft), (s.mode.lifeCycle = .returning, .notInMode)]

def valveConfigureBody (p : Packet) (s : State) : Except Reply (State × CmdEnd) := do
  let b := p.block
  let count := u16At b 4
  deny [(count = 0 || 64 < count, p.badField 4)]
  let recs := (List.range count).map fun i => (u8At b (8 + 32 * i + 4), valveRecAt b (8 + 32 * i))
  let items := recs.map fun e => CfgItem.valve e.1 e.2
  let plan := s.planned
  deny (recs.flatMap fun e => e.2.checks e.1)
  deny (valveCross (plan.putAll items).valves)
  deny (recs.map fun e =>
    let old := Tab.get {} plan.valves e.1
    let ph := (s.valveCh e.1).phase
    let timed := { e.2 with tPull := old.tPull, tRiseMin := old.tRiseMin, tRiseMax := old.tRiseMax, tDecayMax := old.tDecayMax
                            boostWait := old.boostWait, deferLimit := old.deferLimit }
    (!(ph = .off || ph = .fault) && timed ≠ old, Reply.notInMode))
  if bit (u16At b 6) 0 then .ok (s, .reply .done)
  else .ok ((s.defer items).logConfig p SC.ok, .reply { Reply.done with save := items })

def execValveConfigure (p : Packet) (s : State) : Host.Outcome State Fault Refusal :=
  .next (s.runCmd 0x0601 false p
    (fun p => do
      p.checkBlock 8 []
      let b := p.block
      let count := u16At b 4
      deny [(b.length < 8 + 32 * count, p.badField 2), (u16At b 6 / 2 ≠ 0, p.badField 6)]
      deny ((List.range count).flatMap fun i =>
        let o := 8 + 32 * i
        let c := u8At b (o + 4)
        [(decide (u16At b o ≠ 1), ({ status := SC.badVersion, r0 := w32 (p.hdr + o) } : Reply)), (u16At b (o + 2) ≠ 32, valveWord c 2),
          (u8At b (o + 5) / 4 ≠ 0, valveWord c 5), (!zeroRange b (o + 6) 2, valveWord c 6), (!zeroRange b (o + 0x18) 8, valveWord c 0x18)]))
    (fun _ s => axes (valveAxes s)) fun _ => valveConfigureBody)

/-! ## VALVE_COMMAND (12 R306, R307) -/

/-- An ENERGISE or DEENERGISE of a rack valve that the rack's state refuses. -/
def State.valveBarred (s : State) (v op : Nat) : Bool :=
  op ≠ 2 && match s.valveRack v with
    | none => false
    | some (k, role) =>
      match s.rackState k with
      | .run => true
      | .isolated => (op = 0) != bit (s.cfg.topo.rack k).valveSense role
      | _ => false

def valveEntries (b : List Byte) : List (Nat × Nat) :=
  (List.range (u16At b 4)).map fun i => (u8At b (8 + 4 * i), u8At b (9 + 4 * i))

def valveCommandBody (p : Packet) (s : State) : Except Reply (State × CmdEnd) := do
  let es := valveEntries p.block
  deny [(es.length = 0 || 64 < es.length, p.badField 4)]
  deny ((List.range es.length).flatMap fun i =>
    let v := u8At p.block (8 + 4 * i)
    [((es.take i).any (·.1 = v) || 63 < v || s.valveOwner v ≠ v || !(s.valveRec v).on, p.badField (8 + 4 * i)),
      (2 < u8At p.block (9 + 4 * i), p.badField (9 + 4 * i))])
  deny (es.map fun e => (s.valveBarred e.1 e.2, Reply.notInMode))
  let c : ValveCmd := { cmd := p.id, entries := es }
  let wait := (es.filter fun e => e.2 = 0 && !s.supplyReady (valveSupply e.1)).foldl (fun m e => max m (s.valveRec e.1).boostWait) 0
  match c.needs.find? fun q => !s.supplyReady q with
  | some q =>
    if wait = 0 then
      .ok (s.onSupply q fun x => { x with refusals := satTo 32 (x.refusals + 1) }, .reply { status := SC.boostNotReady, r0 := w32 q })
    else
      let w := { c with waitSupply := true, waitEnd := s.now + 10 * wait }
      .ok ({ s with valve := { s.valve with cmds := s.valve.cmds ++ [w] } }, .later [])
  | none => .ok ({ s with valve := { s.valve with cmds := s.valve.cmds ++ [c] } }, .later [])

def execValveCommand (p : Packet) (s : State) : Host.Outcome State Fault Refusal :=
  .next (s.runCmd 0x0602 false p
    (fun p => do
      p.checkBlock 8 [(6, 2)]
      let count := u16At p.block 4
      deny ((p.block.length < 8 + 4 * count, p.badField 2) ::
        (List.range count).map fun i => (!zeroRange p.block (10 + 4 * i) 2, p.badField (10 + 4 * i))))
    (fun _ s => axes (valveAxes s)) fun _ => valveCommandBody)

/-! ## Status and view (12 R314) -/

def ValvePhase.code : ValvePhase → Nat
  | .off => 0 | .deferred => 1 | .pullIn => 2 | .hold => 3 | .decay => 4 | .fault => 5

/-- A channel record (Table 12.6). -/
def State.valveRecord (s : State) (v : Nat) : List Byte :=
  let x := s.valveCh v
  let flags := packFlags [x.energised, x.due.any fun d => d.since.isSome, x.openCoil, x.short, x.stuckOn, x.holdLow, x.deferFault,
    s.valvePaired v, x.degraded, x.protective]
  le8 v ++ le8 x.phase.code ++ le16 flags ++ le16 (satTo 16 (s.coilCurrent v)) ++ le16 ((x.riseUs.map (satBelow 16)).getD 0xFFFF) ++
    le32 x.pullIns ++ le16 x.deferMax ++ le8 x.lastFault ++ le8 0

/-- A Strongman record (Table 12.8). -/
def State.supplyRecord (s : State) (q : Nat) : List Byte :=
  let x := s.supply q
  let code := match x.state with
    | .off => 0 | .softStart => 1 | .ready => if s.supplyLoad q < 4 then 2 else 3 | .low => 4 | .fault => 5
  le8 q ++ le8 code ++ le16 (satTo 16 x.vOut) ++ le8 (s.supplyLoad q) ++ zeros 3 ++ le32 x.refusals ++ le32 x.fallbacks

/-- VALVE_STATUS (12 R314): channel records and both Strongman records of one settled epoch. -/
def execValveStatus (p : Packet) (s : State) : Host.Outcome State Fault Refusal :=
  .next (s.runCmd 0x0603 false p (fun p => p.checkBlock 24 [(6, 10)]) noAxis fun _ p s => do
    let first := u8At p.block 4
    let count := u8At p.block 5
    let addr := u64At p.block 0x10
    deny [(63 < first || count = 0 || 64 < first + count || !addrOk addr (24 + 16 * count + 32), Reply.badNone)]
    let v := s.tick.settled.view
    .ok (s.writeTransfer addr (replyHeader 0 16 first count s.tick.settled.epoch ++ v.readBytes (0x155000 + 16 * first) (16 * count) ++
      v.readBytes 0x155400 32), .reply .done))

end Sys2Proof.Machine
end

