-- ==== Sys2Proof/Machine/AxisOps.lean ====
section
/-! DEFINITION. What a change of a mode axis does beside the axis itself: COOL_FAULT_N causes (09 R256, 10 R274), valves and
fan permits of a rack (10 R266-R268, 11 R295, 12 R304), host set-point registers when authority leaves PREDICTIVE (03 R66). -/

namespace Sys2Proof.Machine

/-! ## COOL_FAULT_N -/

namespace Cause
def flowLoss := 0
def groupStop := 1
def rackStop := 2
def isolated := 3
def start := 4
def powerFail := 5
end Cause

/-- A cause of COOL_FAULT_N[k] begins or ends; the line is asserted with a cause and released by COOL_FAULT_RELEASE. -/
def State.setCause (s : State) (k cause : Nat) (on : Bool) : State :=
  let c := Tab.get 0 s.tray.causes k
  let c' := if on then c ||| 1 <<< cause else if bit c cause then c - 1 <<< cause else c
  { s with tray := { s.tray with
      causes := Tab.set 0 s.tray.causes k c', causeEnd := if c ≠ 0 ∧ c' = 0 then Tab.set 0 s.tray.causeEnd k s.now else s.tray.causeEnd
      coolFault := if on then Tab.set false s.tray.coolFault k true else s.tray.coolFault } }

/-! ## Racks -/

def State.rackDyn (s : State) (k : Nat) : RackDyn := Tab.get {} s.cool.racks k
def State.onRack (s : State) (k : Nat) (f : RackDyn → RackDyn) : State :=
  { s with cool := { s.cool with racks := Tab.modify {} s.cool.racks k f } }

/-- Grants the permits of a rack's enabled fans (11 R295). -/
def State.grantFans (s : State) (k : Nat) : State :=
  (s.cfg.topo.rack k).fans.foldl (fun (s : State) f => if (s.motorRec (f + 8)).on then s.setPermit (f + 8) true else s) s

/-- Sets a rack's state with everything that goes with it. -/
def State.moveRack (s : State) (k : Nat) (st : RackState) : State :=
  let was := s.rackState k
  if was = st then s
  else
    let s := (s.putRack k st).onRack k fun d =>
      { d with
        armed := d.armed && st = .run, deficit := d.deficit && st = .run, lowRun := if st = .run then d.lowRun else 0
        leakIsolation := d.leakIsolation && st = .isolated
        bypassDue := if was = .isolated ∧ (s.cfg.topo.rack k).vBypass.isSome ∧ st ≠ .isolated then some s.now else none }
    let s := s.setCause k Cause.isolated (st = .isolated)
    let s := if st = .isolated || was = .isolated || st = .run then s.driveRack k else s
    if st = .run then s.grantFans k else s

/-- Leak isolation of a rack, at once and from any state (10 R267, 16 R392); one already isolated is isolated again. -/
def State.leakIsolate (s : State) (k chan : Nat) : State :=
  let again := s.rackState k = .isolated
  let s := s.moveRack k .isolated
  let s := s.onRack k fun d => { d with leakIsolation := true, bypassDue := none }
  let s := if again then s.driveRack k else s
  s.logRm Cls.prot 0x0504 (w32 k) [w32 chan]

/-! ## Authority -/

/-- What leaving an authority does: from PREDICTIVE the host registers are loaded; from MANUAL the fans have their permits. -/
def State.leaveAuthority (s : State) (a : Authority) : State :=
  let was := s.mode.authority
  let s := if was = .predictive ∧ a ≠ .predictive then s.loadHostRegisters else s
  if was = .manual ∧ a ≠ .manual then ((List.range 16).filter s.rackOn).foldl State.grantFans s else s

/-- A change of authority on request, with its effects. -/
def State.moveAuthority (s : State) (a : Authority) (epoch : Nat) : State := (s.leaveAuthority a).changeAuthority a epoch

/-- A forced change of authority, with its effects (16 R397). -/
def State.dropAuthority (s : State) (a : Authority) (epoch cause : Nat) : State := (s.leaveAuthority a).forceAuthority a epoch cause

end Sys2Proof.Machine
end

