-- ==== Sys2Proof/Machine/Coolant.lean ====
section
/-! DEFINITION. The coolant network's events (10): staging and rotation of pump groups, the heat exchanger's warnings, the flow
supervisor, flow-stop detectors, the end of an isolation, and the rack and group views. -/

namespace Sys2Proof.Machine

def State.groupDyn (s : State) (g : Nat) : GroupDyn := Tab.get {} s.cool.groups g
def State.onGroup (s : State) (g : Nat) (f : GroupDyn → GroupDyn) : State :=
  { s with cool := { s.cool with groups := Tab.modify {} s.cool.groups g f } }

def State.groupOn (s : State) (g : Nat) : Bool := s.cfg.topo.accepted && bit s.cfg.topo.groupEnable g

/-- The enabled racks a group serves. -/
def State.served (s : State) (g : Nat) : List Nat :=
  (List.range 16).filter fun k => s.rackOn k && bit (s.cfg.topo.group g).racks k

/-- The supervisor acts: a lane runs, redundancy is not NET, authority is INNER or PREDICTIVE (Table 10.10). -/
def State.supervises (s : State) : Bool := s.anyLane && !s.inNet && s.mode.authority ≠ .manual

/-- A pump is declared failed, by its drive or under R273. -/
def State.pumpFailed (s : State) (g p : Nat) : Bool :=
  (s.motor p).state.failedOrLocked || (s.groupDyn g).pumpFailed = some p

/-- A flow stop, a deficit or a failure is active in the group (10 R264). -/
def State.groupTrouble (s : State) (g : Nat) : Bool :=
  (s.groupDyn g).flowStop || (s.served g).any (fun k => (s.rackDyn k).deficit || (s.rackDyn k).flowStop) ||
    (s.cfg.topo.group g).pumps.any (s.pumpFailed g)

/-! ## Staging and rotation (10 R263, R264) -/

/-- The lead has stood at or above stage_up for stage_up_s. -/
def execLagStageUp (group : Fin 4) (s : State) : Host.Outcome State Fault Refusal :=
  let g := group.val
  .next (match (s.groupDyn g).lag with
    | some lag =>
      if s.supervises && s.groupOn g && !s.pumpFailed g lag && decide (10 * (s.cfg.topo.group g).stageUpS ≤ (s.groupDyn g).upRun) then
        s.setPermit lag true
      else s
    | none => s)

/-- Both pumps have stood at or below stage_down for stage_down_s. -/
def execLagStageDown (group : Fin 4) (s : State) : Host.Outcome State Fault Refusal :=
  let g := group.val
  let d := s.groupDyn g
  .next (match d.lag with
    | some lag =>
      if s.supervises && s.groupOn g && !d.rotating && !d.flowStop && decide (10 * (s.cfg.topo.group g).stageDownS ≤ d.downRun) then
        s.setPermit lag false
      else s
    | none => s)

/-- Lead rotation: after rotate_h hours of lead running the roles swap and the new lead has its permit; once it has run at its
set-point for 10 s (`steadyS` tells for how long), the old lead loses its own. Both are postponed while the group is in trouble. -/
def execLeadRotation (group : Fin 4) (steadyS : Nat) (s : State) : Host.Outcome State Fault Refusal :=
  let g := group.val
  let d := s.groupDyn g
  .next (match d.lag with
    | some lag =>
      if !s.supervises || !s.groupOn g || s.groupTrouble g then s
      else if d.rotating then
        if steadyS < 10 then s else (s.setPermit lag false).onGroup g fun d => { d with rotating := false }
      else if (s.cfg.topo.group g).rotateH ≠ 0 ∧ 36000 * (s.cfg.topo.group g).rotateH ≤ d.leadRun ∧ (s.motor lag).permit = false then
        (s.setPermit lag true).onGroup g fun d => { d with lead := lag, lag := some d.lead, rotating := true, leadRun := 0 }
      else s
    | none => s)

/-! ## Heat exchanger (10 R265) -/

def execHxApproach (s : State) : Host.Outcome State Fault Refusal :=
  .next (if s.cfg.topo.accepted && s.anyLane && !s.cool.hxApproach && decide (10 * s.cfg.topo.hx.deficitS ≤ s.cool.approachAbove) then
      { s with cool := { s.cool with hxApproach := true } }.logLanes Cls.warning 0x0501 none32 []
    else s)

def execHxSupplyHigh (s : State) : Host.Outcome State Fault Refusal :=
  .next (if s.cfg.topo.accepted && s.anyLane && !s.cool.hxHigh && decide (10 ≤ s.cool.outletAbove) then
      { s with cool := { s.cool with hxHigh := true } }.logLanes Cls.alarm 0x0502 none32 []
    else s)

/-- Either event clears with a NOTICE after the same period below its level; `supply` tells which. -/
def execHxClear (supply : Bool) (s : State) : Host.Outcome State Fault Refusal :=
  let ended : Bool := if supply then s.cool.hxHigh && decide (10 ≤ s.cool.outletBelow)
    else s.cool.hxApproach && decide (10 * s.cfg.topo.hx.deficitS ≤ s.cool.approachBelow)
  .next (if ended && s.anyLane then
      let s := { s with cool := { s.cool with hxHigh := s.cool.hxHigh && !supply, hxApproach := s.cool.hxApproach && supply } }
      s.logLanes Cls.notice 0x0503 none32 []
    else s)

/-! ## Flow-stop detectors (10 R271, R272) -/

/-- The detector exists. -/
def State.hasDetector (s : State) : Detector → Bool
  | .group g => s.groupOn g.val
  | .rack k => s.rackOn k.val && (s.cfg.topo.rack k.val).gapUs ≠ 0 && (s.cfg.topo.rack k.val).flowSrc = 1

def State.detectorArmed (s : State) : Detector → Bool
  | .group g => (s.groupDyn g.val).armed
  | .rack k => (s.rackDyn k.val).armed

/-- A detector's inputs: differential pressure channel, if any, and pulse input. -/
def State.detectorInputs (s : State) : Detector → Option Nat × Nat
  | .group g => (some (s.cfg.topo.group g.val).dpAi, (s.cfg.topo.group g.val).flowPi)
  | .rack k =>
    let r := s.cfg.topo.rack k.val
    (if r.dpAi = 0xFF then none else some r.dpAi, r.flowIdx)

/-- FAULT of an analog channel: a failing check, but for a channel with COMPAT (13 R323). -/
def State.analogFaulty (s : State) (n : Nat) : Bool :=
  (Tab.get ({} : AnalogDyn) s.sense.analog n).bits ≠ 0 && !(s.cfg.analogRec n).compat

/-- The detector has no differential pressure it can use: none named, or the channel marked faulty. -/
def State.dpBlind (s : State) (d : Detector) : Bool :=
  match (s.detectorInputs d).1 with
  | some a => s.analogFaulty a
  | none => true

/-- The detector's pulse input is marked faulty. -/
def State.pulseBlind (s : State) (d : Detector) : Bool := (Tab.get ({} : PulseDyn) s.sense.pulse (s.detectorInputs d).2).fault

/-- One of a detector's inputs is absent or marked faulty. -/
def State.detectorDegraded (s : State) (d : Detector) : Bool := s.dpBlind d || s.pulseBlind d

/-- Collapse level (P16) and pulse gap (µs) of a detector. -/
def State.detectorLimits (s : State) : Detector → Nat × Nat
  | .group g => ((s.cfg.topo.group g.val).dpCollapse, (s.cfg.topo.group g.val).gapUs)
  | .rack k => ((s.cfg.topo.rack k.val).dpCollapse, (s.cfg.topo.rack k.val).gapUs)

/-- The condition of a flow stop: dp below its collapse level for dp_confirm_us and no edge for the gap; with one input unusable
the other alone decides (10 R271). -/
def State.flowStopSeen (s : State) (d : Detector) (i : DetectorIn) : Bool :=
  let l := s.detectorLimits d
  !(s.dpBlind d && s.pulseBlind d) && (s.dpBlind d || decide (i.dp < l.1 ∧ s.cfg.topo.hx.dpConfirmUs ≤ i.dpUs)) &&
    (s.pulseBlind d || decide (l.2 ≤ i.gapUs))

/-- A usable differential pressure has stood above the collapse level for 1 s. -/
def State.pressureSeen (s : State) (d : Detector) (i : DetectorIn) : Bool :=
  !s.dpBlind d && decide ((s.detectorLimits d).1 < i.dp ∧ 1000000 ≤ i.dpUs)

/-- Usable pulses have been present for 1 s. -/
def State.pulsesSeen (s : State) (d : Detector) (i : DetectorIn) : Bool := !s.pulseBlind d && decide (1000000 ≤ i.pulseUs)

/-- The condition of its end: dp above its collapse level and pulses present for 1 s (10 R272). -/
def State.flowSeen (s : State) (d : Detector) (i : DetectorIn) : Bool :=
  !(s.dpBlind d && s.pulseBlind d) && (s.dpBlind d || s.pressureSeen d i) && (s.pulseBlind d || s.pulsesSeen d i)

/-- Event subject and data of a detector (19 Table 19.10). -/
def Detector.named : Detector → U32 × List U32
  | .group g => (w32 g.val, [0])
  | .rack k => (w32 k.val, [1])

def State.logDegraded (s : State) (d : Detector) : State := s.logRm Cls.warning 0x0508 d.named.1 d.named.2

/-- Every armed detector one of whose inputs has just become faulty names it (10 R271): `hit` tells the inputs. -/
def State.degradeDetectors (s : State) (hit : Option Nat × Nat → Bool) : State :=
  let ds := (List.finRange 4).map Detector.group ++ (List.finRange 16).map Detector.rack
  (ds.filter fun d => s.hasDetector d && s.detectorArmed d && hit (s.detectorInputs d)).foldl State.logDegraded s

/-- A group detector is armed once a pump of it has run with dp above dp_collapse for 1 s, a rack detector in RUN once its pulses
have been present for 1 s; with that input unusable the other one arms it (assumption log 21). -/
def execDetectorArmed (d : Detector) (i : DetectorIn) (s : State) : Host.Outcome State Fault Refusal :=
  .next (if !s.hasDetector d || s.detectorArmed d then s
    else match d with
      | .group g =>
        if ((s.cfg.topo.group g.val).pumps.any fun p => (s.motor p).permit && (s.motor p).state = .run) &&
            (if s.dpBlind d then s.pulsesSeen d i else s.pressureSeen d i) then
          let s := s.onGroup g.val fun x => { x with armed := true }
          if s.detectorDegraded d then s.logDegraded d else s
        else s
      | .rack k =>
        if s.rackState k.val = .run && (if s.pulseBlind d then s.pressureSeen d i else s.pulsesSeen d i) then
          let s := s.onRack k.val fun x => { x with armed := true }
          if s.detectorDegraded d then s.logDegraded d else s
        else s)

/-- Grants both pumps of a group a permit and drives them at speed_max. -/
def State.flowStopDrive (s : State) (g : Nat) : State :=
  (s.cfg.topo.group g).pumps.foldl (fun (s : State) p =>
    ((s.onMotor p fun m => { m with flowStopDrive := true }).setPermit p true).beginAttempt p) s

/-- FLOW_STOP (10 R272): an armed detector declares a flow stop. -/
def execFlowStop (d : Detector) (i : DetectorIn) (s : State) : Host.Outcome State Fault Refusal :=
  .next (if !s.hasDetector d || !s.detectorArmed d || !s.flowStopSeen d i then s
    else match d with
      | .group g =>
        let g := g.val
        let x := s.groupDyn g
        if x.flowStop then s
        else
          let off := match x.lag with
            | some l => !(s.motor l).permit
            | none => false
          let s := (s.served g).foldl (fun (s : State) k => s.setCause k Cause.groupStop true) s
          let s := s.onGroup g fun x => { x with flowStop := true, stopLead := x.lead, stopLagOff := off }
          (s.flowStopDrive g).logRm Cls.prot 0x0507 d.named.1 d.named.2
      | .rack k =>
        if (s.rackDyn k.val).flowStop then s
        else
          let s := (s.setCause k.val Cause.rackStop true).onRack k.val fun x => { x with flowStop := true }
          (s.flowStopDrive (s.cfg.topo.rack k.val).group).logRm Cls.prot 0x0507 d.named.1 d.named.2)

/-- The override ends where no flow stop of the group or its racks remains. -/
def State.endFlowStopDrive (s : State) (g : Nat) : State :=
  if (s.groupDyn g).flowStop || (List.range 16).any (fun k => (s.cfg.topo.rack k).group = g && (s.rackDyn k).flowStop) then s
  else (s.cfg.topo.group g).pumps.foldl (fun (s : State) p => s.onMotor p fun m => { m with flowStopDrive := false }) s

/-- FLOW_STOP_CLEAR: the cause clears and the override ends (10 R272); R273 acts at the next evaluation. -/
def State.clearFlowStop (s : State) : Detector → State
  | .group g =>
    let g := g.val
    if !(s.groupDyn g).flowStop then s
    else
      let s := (List.range 16).foldl (fun (s : State) k =>
        if bit (s.cfg.topo.group g).racks k then s.setCause k Cause.groupStop false else s) s
      (s.onGroup g fun x => { x with flowStop := false, netFailDue := x.stopLagOff }).endFlowStopDrive g
  | .rack k =>
    if !(s.rackDyn k.val).flowStop then s
    else ((s.setCause k.val Cause.rackStop false).onRack k.val fun x => { x with flowStop := false }).endFlowStopDrive
      (s.cfg.topo.rack k.val).group

def execFlowStopClear (d : Detector) (i : DetectorIn) (s : State) : Host.Outcome State Fault Refusal :=
  .next (if s.flowSeen d i then s.clearFlowStop d else s)

/-- A group detector is disarmed while neither pump has a permit (10 R271). -/
def State.disarmGroups (s : State) : State :=
  s.cool.groups.foldl (fun (s : State) e =>
    if e.2.armed && !((s.cfg.topo.group e.1).pumps.any fun p => (s.motor p).permit) then
      s.onGroup e.1 fun x => { x with armed := false } else s) s

/-- ISOLATION_EXIT_BYPASS: 1 s after the exit the bypass is closed (10 R268). -/
def execIsolationExitBypass (rack : Fin 16) (s : State) : Host.Outcome State Fault Refusal :=
  .next (if (s.rackDyn rack.val).bypassDue.any fun e => decide (e + 10000 ≤ s.now) then
      ((s.onRack rack.val fun d => { d with bypassDue := none }).drivePosition rack.val 2).settleValves
    else s)

/-! ## The flow supervisor (10 R269, R270, R273) -/

/-- Evaluations of 100 ms in `sec` seconds. -/
def evals (sec : Nat) : Nat := 10 * sec

/-- The flow of a PULSE flow source in L/min: freq / k_factor x 60 (13 R332). -/
def pulseFlow (c : Cfg) (f : Frame) (i : Nat) : Option F32 :=
  let x := Tab.get {} f.pulse i
  let k := (Tab.get ({} : PulseRec) c.pulse i).kFactor
  if x.freq = none32 ∨ F32.eq k 0 then none
  else some (F32.mul (F32.div (F32.ofRat x.freq.toNat 1000) k) 0x42700000)

/-- A flow source's reading in L/min: 0 none, 1 PULSE, 2 BUS (10 Table 10.3); a bus entry of another unit than L/min gives none
(14 R351). -/
def flowReading (c : Cfg) (f : Frame) (src idx : Nat) : Option F32 :=
  match src with
  | 1 => pulseFlow c f idx
  | 2 => if (Tab.get ({} : EntryRec) c.entries idx).unit = 3 then fieldSource c f 0x08 idx else none
  | _ => none

/-- A flow in units of 0.001 L/min. -/
def milliLitres (x : F32) : Nat := ((F32.toInt .rne (F32.mul x 0x447A0000)).getD 0).toNat

/-- The measured speed of a group, rpm: its faster pump's (assumption log 21). -/
def State.groupSpeed (s : State) (g : Nat) : Nat :=
  ((s.cfg.topo.group g).pumps.map fun p =>
    let v := (Tab.get {} s.tick.frame.motor p).speed
    if v = 0xFFFF then 0 else v.toNat).foldl max 0

/-- Counts each rack's time below flow_min (R269 deficit). -/
def State.countDeficit (s : State) (k : Nat) : State :=
  let r := s.cfg.topo.rack k
  let low := s.rackState k = .run && match flowReading s.cfg s.tick.frame r.flowSrc r.flowIdx with
    | some q => decide (milliLitres q < r.flowMin)
    | none => false
  s.onRack k fun d =>
    let n := if low then d.lowRun + 1 else 0
    { d with lowRun := n, deficit := decide (evals s.cfg.topo.hx.deficitS ≤ n ∧ 0 < n) }

/-- The drift ratio in 1/65,536 over a full window (R269); `none` where a reading is missing or the pump curve gives no flow. -/
def State.driftOf (s : State) (g : Nat) (flows : List Nat) (n : Nat) : Option Nat :=
  let r := s.cfg.topo.group g
  let w := evals s.cfg.topo.hx.driftS
  match analogValue (s.cfg.analogRec r.dpAi) (Tab.get {} s.tick.frame.analog r.dpAi) with
  | none => none
  | some dp =>
    let q := F32.sqrtR .rne (F32.div (F32.sub (F32.mul r.curveA (F32.mul (F32.ofNat n) (F32.ofNat n))) dp) r.curveB)
    if flows.length < w ∨ !F32.finite q ∨ !F32.lt 0 q then none
    else
      let avg := F32.ofRat ((flows.foldl (· + ·) 0 : Nat) : Int) (1000 * w)
      (F32.toInt .rne (F32.mul (F32.div avg q) 0x47800000)).map fun v => min 0xFFFF v.toNat

/-- The chip slots of a rack that are present (08 R204). -/
def State.rackChips (s : State) (k : Nat) : List Nat :=
  (s.cfg.topo.trays.filter fun e => e.2.enable && e.2.rack = k).flatMap fun e =>
    ((List.range e.2.count).map (e.2.firstSlot + ·)).filter fun c => !s.slotAbsent c

/-- The residual condition of a rack (R269): the mean residual average above 3 x margin_min. -/
def State.residualHigh (s : State) (k : Nat) : Bool :=
  let cs := s.rackChips k
  let m := s.main.model
  let sum := cs.foldl (fun a c => F32.add a (Tab.get {} m.chips c).abar) 0
  match t16ToF32 s.cfg.thermal.marginMin with
  | some mm => s.rackState k = .run && !cs.isEmpty && F32.lt (F32.mul 0x40400000 mm) (F32.div sum (F32.ofNat cs.length))
  | none => false

/-- The least-squares line through the speeds of the window, newest first: seconds until it reaches `top`, where its slope is
positive (R270). -/
def timeToLimit (speeds : List Nat) (top : Nat) : Option Nat :=
  let n : Int := speeds.length
  let pts := (List.range speeds.length).zip speeds
  let sx : Int := pts.foldl (fun a p => a - (p.1 : Int)) 0
  let sy : Int := pts.foldl (fun a p => a + (p.2 : Int)) 0
  let sxx : Int := pts.foldl (fun a p => a + ((p.1 * p.1 : Nat) : Int)) 0
  let sxy : Int := pts.foldl (fun a p => a - ((p.1 * p.2 : Nat) : Int)) 0
  let den := n * sxx - sx * sx
  let num := n * sxy - sx * sy
  if den ≤ 0 ∨ num ≤ 0 then none
  else
    let left := (top : Int) * n * den - (sy * den - num * sx)
    some (if left ≤ 0 then 0 else (left / (10 * n * num)).toNat)

/-- The conditions of a group as bits: 0 deficit, 1 drift, 2 residual. -/
def State.conditions (s : State) (g : Nat) (drift : Option Nat) : Nat :=
  packFlags [(s.served g).any fun k => (s.rackDyn k).deficit,
    match drift with
    | some d => decide (d < s.cfg.topo.hx.driftLimit)
    | none => false,
    (s.served g).any s.residualHigh]

/-- The floor's next value in 0.01 rpm, and whether it stands. -/
def GroupDyn.nextFloor (d : GroupDyn) (r : PumpGroup) (hx : HxSup) (cond speed own : Nat) : GroupDyn :=
  let top := 100 * r.speedMax
  if cond ≠ 0 then
    let start := if d.floorActive then d.floor else 100 * speed
    { d with floorActive := true, floor := min top (start + 10 * r.floorRamp), quiet := 0 }
  else
    let q := d.quiet + 1
    if !d.floorActive || q < evals hx.deficitS then { d with quiet := q }
    else
      let f := d.floor - r.floorRamp
      if f < own then { d with quiet := q, floorActive := false, floor := 0, atLimit := false } else { d with quiet := q, floor := f }

/-- R273: the pump that led at the declaration is network-failed. -/
def State.netFail (s : State) (g : Nat) : State :=
  let d := s.groupDyn g
  if !d.netFailDue then s
  else
    let s := s.onGroup g fun d => { d with netFailDue := false, pumpFailed := some d.stopLead }
    let s := s.logLanes Cls.alarm 0x0511 (w32 d.stopLead) []
    match d.lag with
    | some lag =>
      if s.mode.authority = .manual then s
      else if d.lead = d.stopLead then
        ((s.onGroup g fun d => { d with lead := lag, lag := some d.lead, leadRun := 0 }).setPermit lag true).setPermit d.stopLead false
      else s.setPermit d.stopLead false
    | none => s

/-- The lead's permit in INNER and PREDICTIVE, and the swap of a failed lead (10 R263). -/
def State.leadPermit (s : State) (g : Nat) : State :=
  let d := s.groupDyn g
  if s.mode.authority = .manual then s
  else if (s.motor d.lead).state.failedOrLocked then s.swapFailedLead d.lead
  else if (s.motorRec d.lead).on && !(s.motor d.lead).permit && d.pumpFailed ≠ some d.lead then s.setPermit d.lead true else s

/-- The speed a pump shows in the frame, rpm; 0 where it shows none. -/
def State.shownSpeed (s : State) (p : Nat) : Nat :=
  let v := (Tab.get {} s.tick.frame.motor p).speed
  if v = 0xFFFF then 0 else v.toNat

/-- The staging times of a group after one more evaluation (10 R263, R264). -/
def State.countStaging (s : State) (g : Nat) (d : GroupDyn) : GroupDyn :=
  let r := s.cfg.topo.group g
  { d with
    upRun := runOf (decide (r.stageUp * r.speedMax ≤ 100 * s.shownSpeed d.lead)) d.upRun
    downRun := runOf (r.pumps.all fun p => decide (100 * s.shownSpeed p ≤ r.stageDown * r.speedMax)) d.downRun
    leadRun := if (s.motor d.lead).state = .run then d.leadRun + 1 else d.leadRun }

/-- A temperature of the heat exchanger as a T16 number. -/
def State.hxTemp (s : State) (i : Nat) : Option Int :=
  let n := s.cfg.topo.hx.tAi.getD i 0
  let r := s.cfg.analogRec n
  let v := (Tab.get ({} : AnalogEl) s.tick.frame.analog n).value
  if (r.ty = 1 ∨ r.ty = 2 ∨ r.unit = 1) ∧ v ≠ 0x8000 then some v.toInt else none

/-- The heat exchanger's times after one more evaluation: secondary outlet minus primary inlet against approach_warn, secondary
outlet against supply_high (10 R265). -/
def State.countHx (s : State) : State :=
  let hx := s.cfg.topo.hx
  let out := s.hxTemp 3
  let gap := match out, s.hxTemp 0 with
    | some a, some b => some (a - b)
    | _, _ => none
  let above := fun (x : Option Int) (l : U16) => x.any fun v => decide (l.toInt < v)
  let below := fun (x : Option Int) (l : U16) => x.any fun v => decide (v < l.toInt)
  { s with cool := { s.cool with
      approachAbove := runOf (above gap hx.approachWarn) s.cool.approachAbove
      approachBelow := runOf (below gap hx.approachWarn) s.cool.approachBelow
      outletAbove := runOf (above out hx.supplyHigh) s.cool.outletAbove
      outletBelow := runOf (below out hx.supplyHigh) s.cool.outletBelow } }

/-- One group's evaluation. -/
def State.evalGroup (s : State) (g : Nat) : State :=
  let s := (s.netFail g).leadPermit g
  let r := s.cfg.topo.group g
  let hx := s.cfg.topo.hx
  let w := evals hx.driftS
  let n := s.groupSpeed g
  let flows := match pulseFlow s.cfg s.tick.frame r.flowPi with
    | some q => (milliLitres q :: (s.groupDyn g).flows).take w
    | none => (s.groupDyn g).flows
  let speeds := (n :: (s.groupDyn g).speeds).take w
  let drift := s.driftOf g flows n
  let cond := s.conditions g drift
  let own := ((F32.toInt .rne (F32.mul (Tab.get {} s.main.loops r.groupLoop).own 0x42C80000)).getD 0).toNat
  let s := s.onGroup g fun d =>
    let d := { s.countStaging g d with flows := flows, speeds := speeds, drift := drift }
    if s.mode.authority = .manual then { d with floorActive := false, floor := 0, atLimit := false, quiet := 0 }
    else d.nextFloor r hx cond n own
  let d := s.groupDyn g
  let ttl := if d.floorActive then timeToLimit speeds r.speedMax else none
  let s := s.onGroup g fun d => { d with timeToLimit := ttl }
  let s := match ttl with
    | none => s
    | some t =>
      let again : Bool := match d.degradingAt with
        | some e => decide (e + 36000000 ≤ s.now ∨ 2 * t ≤ d.degradingSecs)
        | none => true
      if t ≤ 3600 * hx.warnH ∧ again then
        (s.onGroup g fun d => { d with degradingAt := some s.now, degradingSecs := t }).logLanes Cls.warning 0x0505 (w32 g)
          [w32 cond, w32 (drift.getD 0xFFFF), w32 (satTo 32 t)]
      else s
  if d.floorActive ∧ d.floor = 100 * r.speedMax ∧ cond ≠ 0 ∧ !d.atLimit then
    (s.onGroup g fun d => { d with atLimit := true }).logLanes Cls.alarm 0x0506 (w32 g) []
  else s

/-- FLOW_SUPERVISOR_EVAL: every 100 ms, in every running lane; none in NET (Table 10.10). -/
def execFlowSupervisorEval (s : State) : Host.Outcome State Fault Refusal :=
  .next (if !s.anyLane || s.inNet || !s.cfg.topo.accepted then s
    else
      let s := ((List.range 16).filter s.rackOn).foldl State.countDeficit s
      (((List.range 4).filter s.groupOn).foldl State.evalGroup s).countHx.disarmGroups)

/-! ## Views (10 R275) -/

/-- A P16 or T16 element's raw value, or no reading of the encoding. -/
def rawAnalog (f : Frame) (ch none_ : Nat) : Nat := if ch = 0xFF then none_ else (Tab.get {} f.analog ch).value.toNat

/-- A rack record (Table 10.8). -/
def State.rackRecord (s : State) (k : Nat) : List Byte :=
  let r := s.cfg.topo.rack k
  let d := s.rackDyn k
  let f := s.tick.frame
  if !s.rackOn k then le8 k ++ le8 0xFF ++ zeros 14
  else
    let flow := ((flowReading s.cfg f r.flowSrc r.flowIdx).map fun q => satBelow 32 (milliLitres q)).getD 0xFFFFFFFF
    le8 k ++ le8 (s.rackState k).code ++
      le16 (packFlags [d.leakIsolation, d.flowStop, d.deficit, Tab.get false s.tray.coolFault k, d.armed]) ++ le32 flow ++
      le16 (rawAnalog f r.dpAi 0xFFFF) ++ le16 (rawAnalog f r.tSupAi 0x8000) ++ le16 (rawAnalog f r.tRetAi 0x8000) ++ zeros 2

/-- A group record (Table 10.9). -/
def State.groupRecord (s : State) (g : Nat) : List Byte :=
  let r := s.cfg.topo.group g
  let d := s.groupDyn g
  let lagPermit := match d.lag with
    | some l => (s.motor l).permit
    | none => false
  le8 g ++ le8 d.lead ++ le8 (packFlags [lagPermit, d.flowStop, d.floorActive, d.atLimit, d.armed, d.pumpFailed.isSome]) ++ zeros 1 ++
    le16 (d.floor / 100) ++ le16 (d.drift.getD 0) ++ le32 ((d.timeToLimit.map (satBelow 32)).getD 0xFFFFFFFF) ++
    le16 (if s.groupOn g then rawAnalog s.tick.frame r.dpAi 0xFFFF else 0xFFFF) ++ zeros 2

end Sys2Proof.Machine
end

