-- ==== Sys2Proof/Machine/FrameLayout.lean ====
section
/-! DEFINITION. The input frame as bytes (02 R38, R39, Tables 2.1, 2.2) and a Ferris Wheel entry (19 R473). -/

namespace Sys2Proof.Machine

def AnalogEl.bytes (x : AnalogEl) : List Byte := le16 x.value.toNat ++ le16 x.status.toNat

def LeakEl.bytes (x : LeakEl) : List Byte :=
  [x.state, x.flags] ++ le16 x.location.toNat ++ le16 x.conductance.toNat ++ le16 x.loopOhm.toNat

def PulseEl.bytes (x : PulseEl) : List Byte := leW x.freq ++ le16 x.edges.toNat ++ le16 x.status.toNat

def MotorEl.bytes (x : MotorEl) : List Byte :=
  le16 x.speed.toNat ++ le16 x.tach.toNat ++ leW x.iqApplied ++ le16 x.vbus.toNat ++ le16 x.status.toNat

def BusEl.bytes (x : BusEl) : List Byte := leW x.value ++ le16 x.age.toNat ++ le16 x.status.toNat

/-- A chip record (09 Table 9.4). -/
def ChipRec.bytes (x : ChipRec) : List Byte :=
  le16 x.power.toNat ++ le16 x.hotSpot.toNat ++ le16 x.hotSpotAux.toNat ++ le16 x.die.toNat ++ leW x.pace ++
    le16 x.pMin.toNat ++ le16 x.status.toNat

/-- A section: its 8-byte header and `n` elements from index `first` of a table (02 R38). -/
def sectionBytes {α : Type} (n size : Nat) (bytes : α → List Byte) (d : α) (t : Tab α) (first : Nat) : List Byte :=
  le16 1 ++ le16 (8 + n * size) ++ le16 n ++ le16 size ++ (List.range n).flatMap fun i => bytes (Tab.get d t (first + i))

/-- The 64-byte frame header (Table 2.2). -/
def Frame.header (f : Frame) : List Byte :=
  le16 1 ++ le16 64 ++ le32 69520 ++ le64 f.epoch ++ le64 f.t0Time.toNat ++ leW f.flags ++ leW f.discretesIn ++
    leW f.discretesOut ++ zeros 4 ++ le64 (epochField f.lastAppliedDue) ++ le32 f.resultsDiscarded ++ zeros 12

/-- The frame's 69,520 bytes (Table 2.1). -/
def Frame.bytes (f : Frame) : List Byte :=
  f.header ++ sectionBytes 256 4 AnalogEl.bytes {} f.analog 0 ++ sectionBytes 64 8 LeakEl.bytes {} f.leak 0 ++
    sectionBytes 64 8 PulseEl.bytes {} f.pulse 0 ++ sectionBytes 56 12 MotorEl.bytes {} f.motor 0 ++
    sectionBytes 64 8 BusEl.bytes {} f.bus 0 ++ sectionBytes 512 1 (fun b => [b]) 0xC0 f.trayAge 0 ++
    (List.range 16).flatMap fun b => sectionBytes 256 16 ChipRec.bytes {} f.chips (256 * b)

/-- A Ferris Wheel entry: the frame, the epoch, the frame's CRC-32C and zeros (19 R473). -/
def Frame.entry (f : Frame) : List Byte := f.bytes ++ le64 f.epoch ++ leW (crc32c f.bytes) ++ zeros 100

end Sys2Proof.Machine
end

