-- ==== Sys2Proof/Machine/HostIf.lean ====
section
/-! DEFINITION. The host interface (17): BAR0 registers of every block with their access codes (00 R11-R14), doorbells,
data port, BAR2 window, latched writes, and the host-side resets. -/

namespace Sys2Proof.Machine

/-! ## Values of registers -/

/-- A read returns a value to the host: `rdata` holds the last one. -/
def State.answer (s : State) (v : Nat) : State := { s with hif := { s.hif with rdata := BitVec.ofNat 64 v } }

def u64lo (v : U64) : U32 := v.setWidth 32
def u64hi (v : U64) : U32 := (v >>> 32).setWidth 32

/-- Puts a low or high word into a 64-bit register. -/
def putLo (v : U64) (w : U32) : U64 := (u64hi v ++ w)
def putHi (v : U64) (w : U32) : U64 := (w ++ u64lo v)

/-- SQ_STATUS: ACTIVE, ERR, DRAINING (Table 17.5). -/
def State.sqStatus (s : State) (q : Nat) : U32 :=
  let x := Tab.get {} s.hif.sqs q
  w32 (packFlags [x.enable && !x.err, x.err, !x.enable && s.proto.issued.any (·.sq = q)])

def sqCfgWord (x : Sq) : U32 := w32 (x.n + 0x80000000 * flag x.enable)
def cqCfgWord (h : HifSt) : U32 := w32 (h.cqM + 0x80000000 * flag h.cqEnable)

/-- VIEW_STATE (02 Table 2.8): 0 LIVE, 1 GAP, 2 NONE in NET or before any settled epoch. -/
def State.viewStateCode (s : State) : Nat :=
  if s.inNet || s.tick.settled.epoch.isNone then 2 else if s.laneCtl.gap then 1 else 0

/-- The seq numbers of the newest and the oldest valid record of the ring (Table 19.6). -/
def EvtSt.newest (q : EvtSt) : Nat := ((q.ring.filter (!·.torn)).getLast?).elim 0xFFFFFFFFFFFFFFFF (·.seq)
def EvtSt.oldest (q : EvtSt) : Nat := ((q.ring.filter (!·.torn)).head?).elim 0xFFFFFFFFFFFFFFFF (·.seq)

/-- Captures not yet finished (19 R474). -/
def EvtSt.unfinished (q : EvtSt) : Nat := (q.captures.filter fun c => c.state = .waiting || c.state = .writing).length

/-- EVT_STATUS (Table 19.7). -/
def State.evtStatusWord (s : State) : U32 :=
  let fill := max (s.evt.rmQueue.length * 100 / 512) (s.main.staging.queue.length * 100 / 4096)
  w32 (min 100 fill + 0x400 * flag s.gen.rmRestart + 0x800 * flag s.evt.wrapped + 0x1000 * s.evt.unfinished)

/-- Seconds left in TRIAL (Table 20.11). -/
def State.trialRemain (s : State) : Nat :=
  let total := if s.upd.altSet.trialS = 0 then s.cfg.trialWindow else s.upd.altSet.trialS
  if s.mode.update = .trial ∧ s.upd.trialStopped = false then total - (s.now - s.upd.trialStart) / 10000 else 0

/-- UPD_STATE (Table 20.12). -/
def State.updStateWord (s : State) : U32 :=
  let u := s.upd
  w32 (u.runningBank + 2 * flag u.altValid + 0x200 * s.mode.update.code + 0x800 * flag u.key0Revoked + 0x1000 * u.step +
    0x10000 * flag u.rollingBack + 0x20000 * flag u.rollbackAtReset + 0x40000 * flag u.hostConfirmed +
    0x40000 * maskOf u.partsConfirmed + 0x1000000 * u.lastReason)

/-- STAGED_VERSION (Table 20.11). -/
def State.stagedVersion (s : State) : U32 := if s.upd.altValid then s.upd.altSet.version else 0

/-- The GEN block (Table 17.3). -/
def State.readGen (s : State) (off : Nat) : U32 :=
  if off = 0x000 then 0x00000001 else if off = 0x004 then genPart else if off = 0x008 then genStepping
  else if off = 0x010 then u64lo s.gen.serial else if off = 0x014 then u64hi s.gen.serial
  else if off = 0x018 then s.gen.fwVersion
  else if off = 0x01C then w32 (packFlags [s.gen.rmReady, s.gen.rmRestart] + 4 * s.upd.runningBank)
  else if off = 0x024 then s.gen.scratch else 0

/-- The HIF block (Table 17.5). -/
def State.readHif (s : State) (off : Nat) : U32 :=
  let h := s.hif
  let q := (off - 0x100) / 0x20
  let x := Tab.get {} h.sqs q
  if off = 0x000 then 0x00010001
  else if off = 0x010 then u64lo h.cqBase else if off = 0x014 then u64hi h.cqBase
  else if off = 0x018 then cqCfgWord h else if off = 0x01C then w32 h.cqHead else if off = 0x020 then w32 h.cqTail
  else if off = 0x024 then h.cqCoal
  else if off = 0x030 then w32 (s.cfg.wdogPeriod + 0x80000000 * flag s.cfg.wdogAction)
  else if off = 0x034 then w32 ((h.wdogTicks + 9) / 10) else if off = 0x038 then h.err
  else if off = 0x040 then u64lo h.bar2Base else if off = 0x044 then u64hi h.bar2Base
  else if 0x100 ≤ off ∧ off < 0x200 then
    let r := (off - 0x100) % 0x20
    if r = 0 then u64lo x.base else if r = 4 then u64hi x.base else if r = 8 then sqCfgWord x
    else if r = 0xC then w32 x.tail else if r = 0x10 then w32 x.head else if r = 0x14 then s.sqStatus q else 0
  else if 0x8000 ≤ off ∧ off < 0x8400 then h.msixDword ((off - 0x8000) / 4)
  else if off = 0x9000 then u64lo h.msixPba else if off = 0x9004 then u64hi h.msixPba else 0

/-- The DPORT block but for its data words (Tables 17.9, 17.10). -/
def State.readDport (s : State) (off : Nat) : U32 :=
  let d := s.dport
  if off = 0x000 then 0x00090001 else if off = 0x008 then lo32 d.addr else if off = 0x00C then hi32 d.addr
  else if off = 0x018 then w32 (flag d.err + 16 * d.errCode + 256 * flag d.pending)
  else if off = 0x020 then lo32 d.errAddr else if off = 0x024 then hi32 d.errAddr else 0

/-- The TICK block (Table 2.7). -/
def State.readTick (s : State) (off : Nat) : U32 :=
  let t := s.tick
  if off = 0x000 then 0x00020001
  else if off = 0x004 then w32 (packFlags [t.locked, t.holdover, t.slewing, t.timeSeen] + 16 * s.viewStateCode)
  else if off = 0x008 then lo32 t.epoch else if off = 0x00C then hi32 t.epoch
  else if off = 0x010 then u64lo t.t0Time else if off = 0x014 then u64hi t.t0Time
  else if off = 0x018 then lo32 (epochField t.shown.epoch) else if off = 0x01C then hi32 (epochField t.shown.epoch)
  else if off = 0x020 then w32 (packFlags [t.hold, t.holdExpired]) else if off = 0x024 then w32 t.viewHoldLimit
  else if off = 0x028 then w32 s.cfg.staleLimit else if off = 0x02C then BitVec.ofInt 32 t.phaseErr
  else if off = 0x030 then w32 t.loopRelLast else if off = 0x034 then w32 t.loopRelMax else if off = 0x038 then w32 t.modelRelLast
  else if off = 0x040 then w32 t.cntLate else if off = 0x044 then w32 t.cntStale else if off = 0x048 then w32 t.cntSuperseded
  else if off = 0x04C then w32 t.cntOverrun else if off = 0x050 then w32 t.cntAbort
  else if off = 0x054 then w32 t.cntMissA else if off = 0x058 then w32 t.cntMissB else if off = 0x05C then t.event else 0

/-- REF_CHECK (Table 15.5). -/
def refCheckWord (c : Cfg) : U32 := w32 (c.refTicks * 0x10000 + c.refMargin)

/-- The LANE block (Table 15.5). -/
def State.readLane (s : State) (off : Nat) : U32 :=
  let c := s.laneCtl
  if off = 0x000 then 0x00030001 else if off = 0x004 then s.laneStateWord else if off = 0x008 then w32 s.cfg.k
  else if off = 0x00C then w32 s.cfg.mergeLimit else if off = 0x010 then refCheckWord s.cfg else if off = 0x014 then w32 s.cfg.netCap
  else if off = 0x018 then w32 (packFlags [c.holdA, c.holdB])
  else if off = 0x020 then lo32 (epochField c.switchEpoch) else if off = 0x024 then hi32 (epochField c.switchEpoch)
  else if off = 0x028 then w32 c.cntDisagree else if off = 0x02C then w32 c.cntArbitration else if off = 0x030 then w32 c.cntSwitchover
  else if off = 0x034 then w32 c.cntMerge else if off = 0x038 then w32 c.cntNet else if off = 0x03C then w32 c.cntRmRestart
  else if off = 0x040 then c.event
  else if 0x080 ≤ off ∧ off < 0x0A0 then Tab.get 0 s.cfg.coolSense ((off - 0x080) / 4) else 0

/-- The MODE block (Table 16.6). -/
def State.readMode (s : State) (off : Nat) : U32 :=
  let m := s.mode
  if off = 0x000 then 0x00040001 else if off = 0x004 then s.modeStateWord else if off = 0x008 then s.rackStateWord
  else if off = 0x00C then s.rackFlagsWord else if off = 0x010 then w32 s.cfg.modeCfg else if off = 0x014 then w32 s.cfg.predSettle
  else if off = 0x018 then w32 s.cfg.startWait
  else if off = 0x020 then lo32 m.authEpoch else if off = 0x024 then hi32 m.authEpoch
  else if off = 0x028 then w32 (m.startNetExitMs.getD 0xFFFFFFFF) else if off = 0x02C then w32 (m.startDoneMs.getD 0xFFFFFFFF)
  else if off = 0x030 then w32 m.cntRefusedBusy else if off = 0x034 then w32 m.cntNotExecuted else if off = 0x040 then m.event else 0

/-- The EVT block (Table 19.6). -/
def State.readEvt (s : State) (off : Nat) : U32 :=
  let e := s.evt
  if off = 0x000 then 0x00050001
  else if off = 0x008 then lo32 e.newest else if off = 0x00C then hi32 e.newest
  else if off = 0x010 then lo32 e.oldest else if off = 0x014 then hi32 e.oldest
  else if off = 0x018 then s.evtStatusWord else if off = 0x01C then w32 s.cfg.irqClass
  else if off = 0x020 then w32 e.cntLost else if off = 0x024 then w32 e.cntTorn else if off = 0x028 then e.event else 0

/-- The UPD block (Table 20.11). -/
def State.readUpd (s : State) (off : Nat) : U32 :=
  if off = 0x000 then 0x00060001 else if off = 0x004 then s.updStateWord else if off = 0x008 then w32 s.cfg.trialWindow
  else if off = 0x00C then w32 s.trialRemain else if off = 0x010 then s.stagedVersion else if off = 0x014 then w32 s.upd.secFloor
  else if off = 0x018 then s.upd.event else 0

/-- The 32-bit word of BAR0 at an offset: a register, a word of the VIEW region as it stands, or 0 where none is (00 R12). -/
def State.readReg (s : State) (off : Nat) : U32 :=
  let r := off % 0x10000
  if off < 0x10000 then s.readGen r else if off < 0x20000 then s.readHif r else if off < 0x30000 then s.readDport r
  else if off < 0x40000 then s.readTick r else if off < 0x50000 then s.readLane r else if off < 0x60000 then s.readMode r
  else if off < 0x70000 then s.readEvt r else if off < 0x80000 then s.readUpd r
  else if 0x100000 ≤ off ∧ off < 0x1000000 then w32 (leNat (s.tick.shown.view.readBytes off 4)) else 0

/-- Offsets of the registers named _LO; the partner _HI lies 4 above. -/
def loRegs : List Nat :=
  [0x00010, 0x10010, 0x10040, 0x20008, 0x20020, 0x30008, 0x30010, 0x30018, 0x40020, 0x50020, 0x60008, 0x60010] ++
    (List.range 8).map (fun q => 0x10100 + 0x20 * q)

/-- LO_REGISTER_READ: returns the low word and latches its _HI (17 R417); any other offset is no such read. -/
def execLoRegisterRead (off : Nat) (s : State) : Host.Outcome State Fault Refusal :=
  .next (if loRegs.contains off then
    { s with hif := { s.hif with hiLatch := (off + 4, s.readReg (off + 4)) :: s.hif.hiLatch.filter (·.1 ≠ off + 4) } }.answer
      (s.readReg off).toNat
  else s)

/-- HI_REGISTER_READ: returns the latched value and drops the latch, or the live value (17 R417). -/
def execHiRegisterRead (off : Nat) (s : State) : Host.Outcome State Fault Refusal :=
  .next (if 4 ≤ off ∧ loRegs.contains (off - 4) then
    match s.hif.hiLatch.find? (·.1 = off) with
    | some e => { s with hif := { s.hif with hiLatch := s.hif.hiLatch.filter (·.1 ≠ off) } }.answer e.2.toNat
    | none => s.answer (s.readReg off).toNat
  else s)

/-- Clears the RC register at an offset; `none` where none is there. -/
def State.clearRc (s : State) (off : Nat) : Option State :=
  let t := s.tick
  let c := s.laneCtl
  if off = 0x30034 then some { s with tick := { t with loopRelMax := 0 } }
  else if off = 0x30040 then some { s with tick := { t with cntLate := 0 } }
  else if off = 0x30044 then some { s with tick := { t with cntStale := 0 } }
  else if off = 0x30048 then some { s with tick := { t with cntSuperseded := 0 } }
  else if off = 0x3004C then some { s with tick := { t with cntOverrun := 0 } }
  else if off = 0x30050 then some { s with tick := { t with cntAbort := 0 } }
  else if off = 0x30054 then some { s with tick := { t with cntMissA := 0 } }
  else if off = 0x30058 then some { s with tick := { t with cntMissB := 0 } }
  else if off = 0x40028 then some { s with laneCtl := { c with cntDisagree := 0 } }
  else if off = 0x4002C then some { s with laneCtl := { c with cntArbitration := 0 } }
  else if off = 0x40030 then some { s with laneCtl := { c with cntSwitchover := 0 } }
  else if off = 0x40034 then some { s with laneCtl := { c with cntMerge := 0 } }
  else if off = 0x40038 then some { s with laneCtl := { c with cntNet := 0 } }
  else if off = 0x4003C then some { s with laneCtl := { c with cntRmRestart := 0 } }
  else if off = 0x50030 then some { s with mode := { s.mode with cntRefusedBusy := 0 } }
  else if off = 0x50034 then some { s with mode := { s.mode with cntNotExecuted := 0 } }
  else if off = 0x60020 then some { s with evt := { s.evt with cntLost := 0 } }
  else if off = 0x60024 then some { s with evt := { s.evt with cntTorn := 0 } }
  else none

/-- RC_REGISTER_READ: returns the field's value and clears it (00 R13, R14). -/
def execRcRegisterRead (off : Nat) (s : State) : Host.Outcome State Fault Refusal :=
  .next (match s.clearRc off with
  | some s' => s'.answer (s.readReg off).toNat
  | none => s)

/-! ## View hold and doorbells -/

/-- Ends a view hold: the VIEW region changes to the newest settled epoch at once (02 R51). -/
def State.releaseHold (s : State) : State := { s with tick := { s.tick with hold := false, holdTicks := 0, shown := s.tick.settled } }

def State.writeHold (s : State) (hold : Bool) : State :=
  if hold then (if s.tick.hold then s else { s with tick := { s.tick with hold := true, holdTicks := 0 } })
  else if s.tick.hold then s.releaseHold else s

def State.writeSqTail (s : State) (q : Nat) (v : U32) : State :=
  let x := Tab.get {} s.hif.sqs q
  if x.ring ≤ v.toNat ∨ v.toNat % 4 ≠ 0 then (s.stopQueue q).setHifErr 0x4
  else { s with hif := { s.hif with sqs := Tab.set {} s.hif.sqs q { x with tail := v.toNat } } }

def State.writeCqHead (s : State) (v : U32) : State :=
  let n := 2 ^ s.hif.cqM
  let step := (v.toNat + n - s.hif.cqHead) % n
  if n ≤ v.toNat ∨ s.hif.cqFill < step then s.setHifErr 0x4
  else { s with hif := { s.hif with cqHead := v.toNat, cqFill := s.hif.cqFill - step } }

/-- SQ_CFG: the size only while disabled, ENABLE always; setting ENABLE starts from offset 0 and ends a stop
(17 R423, 18 R438). A size out of range in a disabled queue leaves the register as it was (assumption log 17). -/
def State.writeSqCfg (s : State) (q : Nat) (v : U32) : State :=
  let x := Tab.get {} s.hif.sqs q
  let en := v.getLsbD 31
  let n := bits v.toNat 4 0
  if !x.enable && !(12 ≤ n && n ≤ 24) then s
  else
    let x := if x.enable then x else { x with n := n }
    let x := if en && !x.enable then { x with head := 0, err := false } else x
    { s with hif := { s.hif with sqs := Tab.set {} s.hif.sqs q { x with enable := en } } }

/-- CQ_CFG: enabling sets CQ_TAIL to 0 and the phase to 1 (18 R443), and with it CQ_HEAD to 0 (assumption log 17). -/
def State.writeCqCfg (s : State) (v : U32) : State :=
  let h := s.hif
  let en := v.getLsbD 31
  let m := bits v.toNat 4 0
  if !h.cqEnable && !(6 ≤ m && m ≤ 16) then s
  else
    let h := if h.cqEnable then h else { h with cqM := m }
    let h := if en && !h.cqEnable then { h with cqTail := 0, cqPhase := true, cqHead := 0, cqFill := 0, coalCount := 0 } else h
    { s with hif := { h with cqEnable := en } }

/-! ## LANE_CTRL -/

/-- A HOLD bit: a write of 1 for the active lane is ignored; a lane newly held is reset, a running standby is lost with
reason HOST_HOLD (15 Table 15.7, R375). -/
def State.writeHoldBit (s : State) (l : LaneId) (b : Bool) : State :=
  if b && (s.lane l).run = .active then s
  else if b && !s.laneCtl.hold l then
    let s := { s with laneCtl := s.laneCtl.setHold l true }
    let s := if (s.lane l).isRunning then s.loseLane l Loss.hostHold else s.resetLane l
    if s.laneCtl.holdA && s.laneCtl.holdB && !s.inNet then s.enterNet 6 true else s
  else { s with laneCtl := s.laneCtl.setHold l b }

def State.writeLaneCtrl (s : State) (v : U32) : State :=
  let before := packFlags [s.laneCtl.holdA, s.laneCtl.holdB]
  let refused := (v.getLsbD 0 && s.laneA.run = .active) || (v.getLsbD 1 && s.laneB.run = .active)
  ((s.writeHoldBit .A (v.getLsbD 0)).writeHoldBit .B (v.getLsbD 1)).logRegWrite 0x40018 v (w32 before) refused

/-! ## Writes by access code -/

/-- A configuration register: in range it is set and stored, out of range ignored, and logged either way. -/
def State.cfgWrite (s : State) (off : Nat) (v : U32) (ok : Bool) (f : Cfg → Cfg) : State :=
  (if ok then s.cfgReg f else s).logRegWrite off v (s.readReg off) (!ok)

/-- W1C: each 1 clears its bit (00 Table 0.5). -/
def w1c (reg v : U32) : U32 := reg &&& ~~~v

def State.writeHif (s : State) (off : Nat) (v : U32) : State :=
  let h := s.hif
  let q := (off - 0x100) / 0x20
  let x := Tab.get {} h.sqs q
  if off = 0x010 then (if h.cqEnable then s else { s with hif := { h with cqBase := putLo h.cqBase v } })
  else if off = 0x014 then (if h.cqEnable then s else { s with hif := { h with cqBase := putHi h.cqBase v } })
  else if off = 0x018 then s.writeCqCfg v
  else if off = 0x01C then s.writeCqHead v
  else if off = 0x024 then { s with hif := { h with cqCoal := v } }
  else if off = 0x030 then
    let p := bits v.toNat 13 0
    s.cfgWrite 0x10030 v (10 ≤ p && p ≤ 10000) fun c => { c with wdogPeriod := p, wdogAction := v.getLsbD 31 }
  else if off = 0x038 then { s with hif := { h with err := w1c h.err v } }
  else if off = 0x040 then { s with hif := { h with bar2Base := putLo h.bar2Base (v &&& 0xC0000000) } }
  else if off = 0x044 then { s with hif := { h with bar2Base := putHi h.bar2Base v } }
  else if 0x100 ≤ off ∧ off < 0x200 then
    let r := (off - 0x100) % 0x20
    if r = 0 then (if x.enable then s else { s with hif := { h with sqs := Tab.set {} h.sqs q { x with base := putLo x.base v } } })
    else if r = 4 then (if x.enable then s else { s with hif := { h with sqs := Tab.set {} h.sqs q { x with base := putHi x.base v } } })
    else if r = 8 then s.writeSqCfg q v
    else if r = 0xC then s.writeSqTail q v
    else s
  else if 0x8000 ≤ off ∧ off < 0x8400 then
    let i := (off - 0x8000) / 4
    let s' := { s with hif := { h with msixTable := Tab.set (if i % 4 = 3 then 1 else 0) h.msixTable i v } }
    -- unmasking a vector whose pending bit is set fires it
    if i % 4 = 3 ∧ v.getLsbD 0 = false ∧ h.msixPba.getLsbD (i / 4) then
      { s' with hif := { s'.hif with msixPba := h.msixPba &&& ~~~((1 : U64) <<< (i / 4)) } }.fire (i / 4)
    else s'
  else s

def State.writeDport (s : State) (off : Nat) (v : U32) : State :=
  let d := s.dport
  if off = 0x008 then { s with dport := { d with addr := d.addr / 2 ^ 32 * 2 ^ 32 + v.toNat / 4 * 4 } }
  else if off = 0x00C then { s with dport := { d with addr := d.addr % 2 ^ 32 + v.toNat % 2 ^ 16 * 2 ^ 32 } }
  else if off = 0x018 then (if v.getLsbD 0 then { s with dport := { d with err := false, errCode := 0 } } else s)
  else s

def State.writeTick (s : State) (off : Nat) (v : U32) : State :=
  let t := s.tick
  if off = 0x020 then
    let s := s.writeHold (v.getLsbD 0)
    if v.getLsbD 1 then { s with tick := { s.tick with holdExpired := false } } else s
  else if off = 0x024 then
    let n := v.toNat % 0x10000
    let ok := 1 ≤ n && n ≤ 10000
    (if ok then { s with tick := { t with viewHoldLimit := n } } else s).logRegWrite 0x30024 v (w32 t.viewHoldLimit) (!ok)
  else if off = 0x028 then
    let n := v.toNat % 16
    s.cfgWrite 0x30028 v (1 ≤ n && n ≤ 10) fun c => { c with staleLimit := n }
  else if off = 0x05C then { s with tick := { t with event := w1c t.event v } }
  else s

/-- The LANE block; in RETURN its writes are ignored (15 Table 15.11). -/
def State.writeLane (s : State) (off : Nat) (v : U32) : State :=
  if s.mode.lifeCycle = .returning then s
  else if off = 0x008 then
    let k := v.toNat % 16
    s.cfgWrite 0x40008 v (k ≠ 0) fun c => { c with k := k }
  else if off = 0x00C then s.cfgWrite 0x4000C v (100 ≤ v.toNat && v.toNat ≤ 1000000) fun c => { c with mergeLimit := v.toNat }
  else if off = 0x010 then
    let t := bits v.toNat 31 16
    let m := bits v.toNat 15 0
    s.cfgWrite 0x40010 v (10 ≤ t && t ≤ 60000 && 1 ≤ m) fun c => { c with refTicks := t, refMargin := m }
  else if off = 0x014 then
    let n := v.toNat % 0x10000
    s.cfgWrite 0x40014 v (n ≠ 0xFFFF) fun c => { c with netCap := n }
  else if off = 0x018 then s.writeLaneCtrl v
  else if off = 0x040 then { s with laneCtl := { s.laneCtl with event := w1c s.laneCtl.event v } }
  else if 0x080 ≤ off ∧ off < 0x0A0 then
    s.cfgWrite (0x40000 + off) v true fun c => { c with coolSense := Tab.set 0 c.coolSense ((off - 0x080) / 4) v }
  else s

def State.writeMode (s : State) (off : Nat) (v : U32) : State :=
  if off = 0x010 then s.cfgWrite 0x50010 v true fun c => { c with modeCfg := v.toNat % 8 }
  else if off = 0x014 then s.cfgWrite 0x50014 v (1000 ≤ v.toNat && v.toNat ≤ 600000) fun c => { c with predSettle := v.toNat }
  else if off = 0x018 then
    let n := v.toNat % 0x10000
    s.cfgWrite 0x50018 v (100 ≤ n && n ≤ 10000) fun c => { c with startWait := n }
  else if off = 0x040 then { s with mode := { s.mode with event := w1c s.mode.event v } }
  else s

def State.writeEvt (s : State) (off : Nat) (v : U32) : State :=
  if off = 0x01C then s.cfgWrite 0x6001C v (v.toNat % 8 ≤ 5) fun c => { c with irqClass := v.toNat % 8 }
  else if off = 0x028 then { s with evt := { s.evt with event := w1c s.evt.event v } }
  else s

def State.writeUpd (s : State) (off : Nat) (v : U32) : State :=
  if off = 0x008 then
    let n := v.toNat % 0x10000
    s.cfgWrite 0x70008 v (60 ≤ n && n ≤ 3600) fun c => { c with trialWindow := n }
  else if off = 0x018 then { s with upd := { s.upd with event := w1c s.upd.event v } }
  else s

/-- A whole 32-bit write to BAR0, GEN_RESET and the data words of DPORT apart. -/
def State.writeReg (s : State) (off : Nat) (v : U32) : State :=
  let r := off % 0x10000
  if off = 0x24 then { s with gen := { s.gen with scratch := v } }
  else if off < 0x10000 then s
  else if off < 0x20000 then s.writeHif r v else if off < 0x30000 then s.writeDport r v
  else if off < 0x40000 then s.writeTick r v else if off < 0x50000 then s.writeLane r v else if off < 0x60000 then s.writeMode r v
  else if off < 0x70000 then s.writeEvt r v else if off < 0x80000 then s.writeUpd r v else s

/-- During a Ringmaster restart, writes to the TICK, LANE, MODE and HIF blocks are latched (17 R432). -/
def latchedBlock (off : Nat) : Bool := (0x10000 ≤ off && off < 0x20000) || (0x30000 ≤ off && off < 0x60000)

/-- A register write: latched during a Ringmaster restart, else applied. -/
def State.hostWrite (s : State) (off : Nat) (v : U32) : State :=
  if s.gen.rmRestart && latchedBlock off then { s with hif := { s.hif with latched := s.hif.latched ++ [(off, v)] } }
  else s.writeReg off v

/-- VIEW_HOLD_WRITE: VIEW_CTRL.HOLD (02 R51). -/
def execViewHoldWrite (hold : Bool) (s : State) : Host.Outcome State Fault Refusal :=
  .next (s.hostWrite 0x30020 (w32 (flag hold)))

/-- SQ_TAIL_DOORBELL (17 R420, R423). -/
def execSqTailDoorbell (q : Fin 8) (value : U32) (s : State) : Host.Outcome State Fault Refusal :=
  .next (s.hostWrite (0x1010C + 0x20 * q) value)

/-- CQ_HEAD_DOORBELL (17 R422, R423). -/
def execCqHeadDoorbell (value : U32) (s : State) : Host.Outcome State Fault Refusal := .next (s.hostWrite 0x1001C value)

/-- SQ_ENABLE_WRITE: a write of SQ_CFG (17 R423, 18 R438). -/
def execSqEnableWrite (q : Fin 8) (value : U32) (s : State) : Host.Outcome State Fault Refusal :=
  .next (s.hostWrite (0x10108 + 0x20 * q) value)

/-- CQ_ENABLE_WRITE: a write of CQ_CFG (18 R443). -/
def execCqEnableWrite (value : U32) (s : State) : Host.Outcome State Fault Refusal := .next (s.hostWrite 0x10018 value)

/-- LANE_HOLD_WRITE: a write of LANE_CTRL (15 R375, R387). -/
def execLaneHoldWrite (value : U32) (s : State) : Host.Outcome State Fault Refusal := .next (s.hostWrite 0x40018 value)

/-- REGISTER_WRITE: any other register, by its access code (00 R12, R13); fewer than four byte enables discard the write
and set PARTIAL_WRITE (17 R416). -/
def execRegisterWrite (off : Nat) (value : U32) (whole : Bool) (s : State) : Host.Outcome State Fault Refusal :=
  .next (if whole then s.hostWrite (off / 4 * 4) value else s.setHifErr 0x2)

/-- LATCHED_WRITES_APPLY: after the restart, the latched writes in arrival order (17 R432). -/
def execLatchedWritesApply (s : State) : Host.Outcome State Fault Refusal :=
  .next (if s.gen.rmRestart then s
  else s.hif.latched.foldl (fun s w => s.writeReg w.1 w.2) { s with hif := { s.hif with latched := [] } })

/-! ## Device address space (01 Table 1.7) -/

/-- Address ranges a packet names (01 R30): reply and data blocks in the transfer area, staging slots, packages. -/
def Packet.ranges (p : Packet) : List (Nat × Nat) :=
  let b := p.block
  if p.opcode = 0x0204 then [(u64At b 8, 0x10000)]
  else if p.opcode = 0x0301 then [(u8At b 4 * 0x80000000, 0x80000000)]
  else if p.opcode = 0x0303 ∨ p.opcode = 0x0903 then [(u64At b 8, 0x1000)]
  else if p.opcode = 0x0304 ∧ u8At b 4 ≤ 1 then [(u64At b 16, 24 + 4 * u16At b 10 * u16At b 14)]
  else if p.opcode = 0x0305 then [(u64At b 16, 0x1000)]
  else if p.opcode = 0x0B01 ∧ u8At b 4 = 0 then [(u64At b 8, u32At b 16)]
  else []

/-- The address lies in a range that an accepted and incomplete command names (01 R30). -/
def State.namedRange (s : State) (a : Nat) : Bool :=
  let q := s.proto
  let ps := q.fetched ++ q.delivered ++ q.committed.map (·.packet) ++ q.running.map (·.packet)
  ps.any fun p => p.ranges.any fun r => r.1 ≤ a && a < r.1 + r.2

/-- The address lies in the pinned staging slot: that of the active image, or of the one being activated (07 R191). -/
def State.pinned (s : State) (a : Nat) : Bool :=
  let n := a / 0x80000000
  some n = s.img.activeSlot || (s.activating && n = s.img.actSlot)

/-- Whether a region lets the host read, and write (Table 1.7); `none` is unmapped. -/
def hostAccess (a : Nat) : Option (Bool × Bool) :=
  if a < 0x0600000000 then some (true, true)
  else if a < 0x1000000000 then some (false, false)
  else if a < 0x2000000000 then some (true, false)
  else if 0x4000000000 ≤ a ∧ a < 0x4010000000 ∧ a % 0x40000 < 0x34000 then some (true, false)
  else if 0x5000000000 ≤ a ∧ a < 0x5004000000 then some (true, false)
  else none

/-- ERR_CODE of a word's access, or `none` where it is allowed (Table 17.10; the order where several hold: log 17). -/
def State.refusal (s : State) (a : Nat) (write : Bool) : Option Nat :=
  if s.gen.rmRestart then some 4
  else match hostAccess a with
    | none => some 1
    | some (r, w) =>
      if (write && !w) || (!write && !r) then some 2
      else if s.inNet then some 5
      else if write && (s.namedRange a || s.pinned a) then some 3
      else none

/-- Where the loaded variant keeps entry `i` = 4,096 row + column of the Row Coupling Table, as an offset in tile space
(07 R189); the reference model's maps are not given, so its entries stand in `model.table` (assumption log 12). -/
def ArraySt.entryAt (a : ArraySt) (i : Nat) : Option Nat :=
  let r := i / 4096
  let c := i % 4096
  (a.tableMap.find? fun m => m.rect.rowFirst ≤ r && r < m.rect.rowFirst + m.rect.rowCount && m.rect.colFirst ≤ c &&
    c < m.rect.colFirst + m.rect.colCount).map fun m =>
      m.tile * 0x40000 + m.off + (r - m.rect.rowFirst) * m.stride + 4 * (c - m.rect.colFirst)

/-- An entry of the Row Coupling Table (04 R92); what the table holds before anything is written is not stated
(assumption log 12). -/
def Lane.entry (x : Lane) (i : Nat) : U32 :=
  match x.array.entryAt i with
  | some o => w32 (leNat (x.array.memory.readBytes o 4))
  | none => (Tab.get none x.model.table i).getD (Config.tableEntry i)

/-- Writes an entry. -/
def Lane.putEntry (x : Lane) (i : Nat) (w : U32) : Lane :=
  match x.array.entryAt i with
  | some o => { x with array := { x.array with memory := x.array.memory.writeBytes o (leW w) } }
  | none => { x with model := { x.model with table := Tab.set none x.model.table i (some w) } }

/-- A word of a lane as the host reads it: DRAM, Ferris Wheel, tile space, coupling view (01 R27, 04 R93, 19 R473). -/
def Lane.readDevice (x : Lane) (a : Nat) : U32 :=
  if a < 0x1000000000 then w32 (leNat (x.dram.readBytes a 4))
  else if a < 0x2000000000 then
    let i := (a - 0x1000000000) / 0x11000
    match Tab.get none (x.ferris.map fun e => (e.1, some e.2)) i with
    | some f => w32 (u32At f.entry ((a - 0x1000000000) % 0x11000))
    | none => 0
  else if a < 0x4010000000 then w32 (leNat (x.array.memory.readBytes (a - 0x4000000000) 4))
  else x.entry ((a - 0x5000000000) / 4)

/-- A host write to a staging slot empties it where it was STAGED, and a slot's staging state is read from `slotState`:
0 EMPTY, 1 STAGED, 2 ACTIVE, 3 PREPARING, 4 STAGING (07 R191). -/
def State.touchSlot (s : State) (a : Nat) : State :=
  let n := a / 0x80000000
  if a < 0x0400000000 ∧ Tab.get 0 s.img.slotState n = 1 then
    { s with img := { s.img with slotState := Tab.set 0 s.img.slotState n 0, images := s.img.images.filter (·.slot ≠ n) } }
  else s

/-- Stores one word in every lane that receives it (01 R28). -/
def State.writeDevice (s : State) (a : Nat) (w : U32) : State :=
  (s.onLanes fun x => { x with dram := x.dram.writeBytes a (leW w) }).touchSlot a

/-- One word through the data port: refused words leave ERR, its code and the first refused address (17 R429). The
answer is the word read, all ones where refused. -/
def State.dpWord (s : State) (a : Nat) (write : Bool) (w : U32) : State × U32 :=
  match s.refusal a write with
  | some code =>
    let d := s.dport
    if d.err then (s, none32)
    else ({ s with dport := { d with err := true, errCode := code, errAddr := a } }.fire 7, none32)
  | none => if write then (s.writeDevice a w, w) else (s, s.main.readDevice a)

/-- One or two words at an address. -/
def State.dpAccess (s : State) (a : Nat) (write wide : Bool) (data : U64) : State :=
  let (s, w0) := s.dpWord a write (u64lo data)
  if wide then
    let (s, w1) := s.dpWord (a + 4) write (u64hi data)
    if write then s else s.answer (w0.toNat + 2 ^ 32 * w1.toNat)
  else if write then s else s.answer w0.toNat

/-- DP_ADDR advances within its 48 bits. -/
def State.advanceDp (s : State) (n : Nat) : State := { s with dport := { s.dport with addr := (s.dport.addr + n) % 2 ^ 48 } }

/-- DP_DATA_ACCESS (17 R428, R429). -/
def execDpDataAccess (write wide : Bool) (data : U64) (s : State) : Host.Outcome State Fault Refusal :=
  .next ((s.dpAccess s.dport.addr write wide data).advanceDp (if wide then 8 else 4))

/-- DP_APERTURE_ACCESS: at DP_ADDR plus the word's offset; covering the last word advances DP_ADDR by 0x1000 (17 R428). -/
def execDpApertureAccess (off : Fin 4096) (write wide : Bool) (data : U64) (s : State) : Host.Outcome State Fault Refusal :=
  let o := off.val / 4 * 4
  let s' := s.dpAccess (s.dport.addr + o) write wide data
  .next (if o = 0xFFC ∨ wide ∧ o = 0xFF8 then s'.advanceDp 0x1000 else s')

/-- One word through BAR2: a refusal sets BAR2 in HIF_ERR (17 R430). -/
def State.bar2Word (s : State) (a : Nat) (write : Bool) (w : U32) : State × U32 :=
  match s.refusal a write with
  | some _ => (s.setHifErr 0x10, none32)
  | none => if write then (s.writeDevice a w, w) else (s, s.main.readDevice a)

/-- BAR2_ACCESS at device address BAR2_BASE + offset (17 R430). -/
def execBar2Access (off : Fin 0x40000000) (write wide : Bool) (data : U64) (s : State) : Host.Outcome State Fault Refusal :=
  let a := (s.hif.bar2Base.toNat + off.val / 4 * 4) % 2 ^ 48
  let (s, w0) := s.bar2Word a write (u64lo data)
  let (s, w1) := if wide then s.bar2Word (a + 4) write (u64hi data) else (s, 0)
  .next (if write then s else s.answer (w0.toNat + 2 ^ 32 * w1.toNat))

/-! ## Host-side resets and power states -/

/-- The effects of Table 17.2: queues, endpoint registers, undelivered packets, completions of delivered commands, the
view hold and the _HI latches; the watchdog and the other blocks stay (17 R418). -/
def State.hostReset (s : State) : State :=
  let dropped := s.proto.ready
  let s := dropped.foldl (fun s c => (s.store c.save).logRm Cls.notice 0x0102 c.tag [w32 c.opcode, w32 c.status] 1) s
  let live := s.proto.delivered.map (·.id) ++ s.proto.committed.map (·.packet.id) ++ s.proto.running.map (·.packet.id)
  let s := { s with
    hif := { ({} : HifSt) with
      wdogTicks := s.hif.wdogTicks, wdogExpired := s.hif.wdogExpired, wdogDeferred := s.hif.wdogDeferred, heartbeatSeen := s.hif.heartbeatSeen
      irqs := s.hif.irqs, rdata := s.hif.rdata, err := s.hif.err, latched := s.hif.latched }
    dport := {}
    proto := { s.proto with
      fetched := [], ready := []
      issued := s.proto.issued.filter fun i => live.contains i.id
      dropIds := live } }
  if s.tick.hold then s.releaseHold else s

/-- PERST_N (17 R418); it alone clears SCRATCH (Table 17.3). -/
def execPerstN (s : State) : Host.Outcome State Fault Refusal :=
  .next { s.hostReset with gen := { s.gen with scratch := 0 } }

/-- HOT_RESET (17 R418). -/
def execHotReset (s : State) : Host.Outcome State Fault Refusal := .next s.hostReset

/-- FUNCTION_LEVEL_RESET (17 R418). -/
def execFunctionLevelReset (s : State) : Host.Outcome State Fault Refusal := .next s.hostReset

/-- D3HOT_ENTRY: fetch, completion writing and interrupts stop (17 R415). -/
def execD3hotEntry (s : State) : Host.Outcome State Fault Refusal := .next { s with hif := { s.hif with d3hot := true } }

/-- D0_RETURN: the queues resume from their stored pointers (17 R415). -/
def execD0Return (s : State) : Host.Outcome State Fault Refusal := .next { s with hif := { s.hif with d3hot := false } }

end Sys2Proof.Machine
end

