-- ==== Sys2Proof/Machine/TileNum.lean ====
section
/-! DEFINITION. Numerics of the tile array (06): the eight formats, rounding with its flags, the element-wise operations, the
exact sums of the MAC block, and interval bounds. A result is its bits and the flags it raises. -/

namespace Sys2Proof.Machine

/-! ## Flags (Table 6.10) -/

namespace Flag
def nx := 1
def uf := 2
def ovf := 4
def dz := 8
def nv := 16
def sat := 32
def ivinv := 64
end Flag

/-- Bits and flags. -/
abbrev NumRes := Nat × Nat

/-! ## Rounding (R165, Table 6.9) -/

/-- Rounding modes (Table 6.5). -/
def rmodeOf : Nat → RMode
  | 0 => .rne
  | 1 => .rtz
  | 2 => .rdn
  | _ => .rup

/-- Default NaN of a format (Table 6.8): that of E5M2 is 0x7F. -/
def Fmt.tileNan (f : Fmt) : Nat := if f = fmtE5m2 then 0x7F else f.nanBits

/-- The magnitude (m + sticky) * 2^e rounded to `p` bits with unbounded exponent is below 2^k. -/
def roundedBelow (p : Nat) (r : RMode) (neg : Bool) (m : Nat) (e : Int) (sticky : Bool) (k : Int) : Bool :=
  let q := e + bitLen m - p
  if q ≤ e then decide (e + bitLen m ≤ k)
  else
    let n := shiftRound r neg m (q - e).toNat sticky
    decide (q + bitLen n ≤ k)

/-- A non-zero magnitude is tiny: below the smallest normal, before or after rounding as the implementation judges. -/
def Fmt.tiny (f : Fmt) (r : RMode) (neg : Bool) (m : Nat) (e : Int) (sticky : Bool) : Bool :=
  let emin : Int := f.qmin + f.p - 1
  let before := decide (e + bitLen m ≤ emin)
  let after := roundedBelow f.p r neg m e sticky emin
  if before = after then before else if Config.tinyAfterRounding then after else before

/-- Rounds a finite value to a format: on overflow the greatest finite value where `sat`, else as Table 6.9. -/
def Fmt.finish (f : Fmt) (r : RMode) (sat neg : Bool) (m : Nat) (e : Int) (sticky : Bool) : NumRes :=
  if m = 0 ∧ !sticky then (f.signBit neg, 0)
  else
    let q := max f.qmin (e + bitLen m - f.p)
    let inexact := sticky || (decide (e < q) && decide (m % 2 ^ (q - e).toNat ≠ 0))
    let n := if q ≤ e then m * 2 ^ (e - q).toNat else shiftRound r neg m (q - e).toNat sticky
    let (n, q) := if n = 2 ^ f.p then (2 ^ (f.p - 1), q + 1) else (n, q)
    let code := if n < 2 ^ (f.p - 1) then n else ((q - f.qmin).toNat + 1) * 2 ^ (f.p - 1) + (n - 2 ^ (f.p - 1))
    if f.maxBits < code then
      (if sat then f.signBit neg + f.maxBits else f.overflow r neg, Flag.ovf + Flag.nx)
    else
      (f.signBit neg + code, if inexact then Flag.nx + (if f.tiny r neg m e sticky then Flag.uf else 0) else 0)

/-- Rounds a value. An infinity without a code in the format converts as an overflow; a NaN is the default NaN, and to E4M3 it
is an invalid operation (Table 6.9). -/
def Fmt.convert (f : Fmt) (r : RMode) (sat : Bool) : FVal → NumRes
  | .nan => (f.tileNan, if f.ieee then 0 else Flag.nv)
  | .inf neg =>
    if f.ieee then (f.signBit neg + f.maxBits + 1, 0)
    else (if sat then f.signBit neg + f.maxBits else f.overflow r neg, Flag.ovf + Flag.nx)
  | .fin neg m e => f.finish r sat neg m e false

/-- The result of an operation: NV where a NaN came of operands that are not NaN. -/
def Fmt.result (f : Fmt) (r : RMode) (nanIn : Bool) : FVal → NumRes
  | .nan => (f.tileNan, if nanIn then 0 else Flag.nv)
  | v => f.convert r false v

/-- A value in steps of 2^-scale as an integer within [lo, hi] (R165): saturation sets SAT, a NaN is 0 and sets NV. -/
def toFixed (r : RMode) (lo hi : Int) (scale : Nat) : FVal → Int × Nat
  | .nan => (0, Flag.nv)
  | .inf neg => (if neg then lo else hi, Flag.sat)
  | .fin neg m e =>
    let e := e + scale
    let mag : Nat := if 0 ≤ e then m * 2 ^ e.toNat else shiftRound r neg m (-e).toNat false
    let inexact := decide (e < 0) && decide (m % 2 ^ (-e).toNat ≠ 0)
    let v : Int := if neg then -(mag : Int) else mag
    let nx := if inexact then Flag.nx else 0
    if v < lo then (lo, Flag.sat ||| nx) else if hi < v then (hi, Flag.sat ||| nx) else (v, nx)

/-! ## Formats (Table 6.8) -/

/-- Element width of a format code. -/
def elWidth : Nat → Nat
  | 1 => 4
  | 4 => 16
  | 7 => 16
  | 5 => 32
  | 6 => 32
  | _ => 8

/-- Elements a 512-bit register holds. -/
def elCount (fmt : Nat) : Nat := 512 / elWidth fmt

/-- The floating format of a code. -/
def floatFmt : Nat → Option Fmt
  | 2 => some fmtE4m3
  | 3 => some fmtE5m2
  | 4 => some fmtBf16
  | 6 => some fmtF32
  | _ => none

/-- Bits and scale of an integer or fixed-point format. -/
def fixedFmt : Nat → Nat × Nat
  | 0 => (8, 0)
  | 1 => (4, 0)
  | _ => (16, 15)

/-- An integer as an exact value in steps of 2^-scale. -/
def fixedVal (v : Int) (scale : Nat) : FVal := .fin (v < 0) v.natAbs (-(scale : Int))

/-- The value of an element. -/
def elVal (fmt b : Nat) : FVal :=
  match floatFmt fmt with
  | some f => f.decode b
  | none => fixedVal (sext (fixedFmt fmt).1 b) (fixedFmt fmt).2

/-- Elements of `w` bits of a register, element 0 at the low end. -/
def elems (w n : Nat) (v : BitVec 512) : List Nat := (List.range n).map fun i => (v.toNat >>> (w * i)) % 2 ^ w

/-- A register from its elements. -/
def packElems (w : Nat) (l : List Nat) : BitVec 512 :=
  BitVec.ofNat 512 (l.foldr (fun x acc => x % 2 ^ w + 2 ^ w * acc) 0)

/-- Converts a value to an element of a format (R164, R165). -/
def toElem (fmt : Nat) (r : RMode) (sat : Bool) (v : FVal) : NumRes :=
  match floatFmt fmt with
  | some f => f.convert r sat v
  | none =>
    let (w, sc) := fixedFmt fmt
    let (x, fl) := toFixed r (-(2 ^ (w - 1) : Int)) (2 ^ (w - 1) - 1) sc v
    (unsext w x, fl)

/-- Joins results lane by lane. -/
def joinRes (w : Nat) (l : List NumRes) : BitVec 512 × Nat :=
  (packElems w (l.map Prod.fst), l.foldl (fun a x => a ||| x.2) 0)

/-! ## Floating operations -/

/-- Both are NaN, or one is. -/
def anyNan (a b : FVal) : Bool := a = .nan || b = .nan

/-- Order of two values; -0 equals +0. -/
def FVal.cmp : FVal → FVal → Option Ordering
  | .nan, _ => none
  | _, .nan => none
  | .inf a, .inf b => some (if a = b then .eq else if a then .lt else .gt)
  | .inf a, _ => some (if a then .lt else .gt)
  | _, .inf b => some (if b then .gt else .lt)
  | .fin n1 m1 e1, .fin n2 m2 e2 =>
    let base := min e1 e2
    some (compare (signedAt n1 m1 e1 base) (signedAt n2 m2 e2 base))

def FVal.le (a b : FVal) : Bool := a.cmp b = some .lt || a.cmp b = some .eq

/-- The lesser value, -0 below +0; of one NaN the other operand (R151). -/
def FVal.minVal (a b : FVal) : FVal :=
  match a.cmp b with
  | some .lt => a
  | some .gt => b
  | some .eq => if a.isNeg then a else b
  | none => if a = .nan then b else a

def FVal.maxVal (a b : FVal) : FVal :=
  match a.cmp b with
  | some .lt => b
  | some .gt => a
  | some .eq => if a.isNeg then b else a
  | none => if a = .nan then b else a

def fAdd (f : Fmt) (r : RMode) (a b : FVal) : NumRes := f.result r (anyNan a b) (a.add r b)
def fSub (f : Fmt) (r : RMode) (a b : FVal) : NumRes := f.result r (anyNan a b) (a.add r b.neg)
def fMul (f : Fmt) (r : RMode) (a b : FVal) : NumRes := f.result r (anyNan a b) (a.mul b)

/-- Quotient (R151): DZ for a finite non-zero value over zero. -/
def fDiv (f : Fmt) (r : RMode) : FVal → FVal → NumRes
  | .fin n1 m1 e1, .fin n2 m2 e2 =>
    if m2 = 0 then (if m1 = 0 then (f.tileNan, Flag.nv) else ((f.convert r false (.inf (n1 ^^ n2))).1, Flag.dz))
    else
      let k := 2 * f.p + 2 + bitLen m2
      let num := m1 * 2 ^ k
      f.finish r false (n1 ^^ n2) (num / m2) (e1 - e2 - k) (num % m2 ≠ 0)
  | .inf a, .fin n _ _ => f.convert r false (.inf (a ^^ n))
  | .fin n _ _, .inf b => (f.signBit (n ^^ b), 0)
  | a, b => (f.tileNan, if anyNan a b then 0 else Flag.nv)

/-- Square root (R151): NV below zero. -/
def fSqrt (f : Fmt) (r : RMode) : FVal → NumRes
  | .nan => (f.tileNan, 0)
  | .inf n => if n then (f.tileNan, Flag.nv) else f.convert r false (.inf false)
  | .fin n m e =>
    if m = 0 then (f.signBit n, 0)
    else if n then (f.tileNan, Flag.nv)
    else
      let k : Nat := 2 * f.p + 2
      let (m, e) := if e % 2 = 0 then (m * 2 ^ (2 * k), e - 2 * k) else (m * 2 ^ (2 * k + 1), e - (2 * k + 1))
      let s := isqrt (bitLen m / 2) m 0
      f.finish r false false s (e / 2) (s * s ≠ m)

/-- FMIN and FMAX (R151). -/
def fMin (f : Fmt) (a b : FVal) : NumRes := ((f.convert .rne false (a.minVal b)).1, 0)
def fMax (f : Fmt) (a b : FVal) : NumRes := ((f.convert .rne false (a.maxVal b)).1, 0)

/-- An ordered comparison: 1 or 0, NV with a NaN (R151). -/
def fOrder (want : Ordering → Bool) (a b : FVal) : Bool × Nat :=
  match a.cmp b with
  | some o => (want o, 0)
  | none => (false, Flag.nv)

/-! ## Element-wise operations (R159, Table 6.7) -/

/-- VADD to VSQRT on lanes of a floating format; `none` where the format does not have the function. -/
def floatLane (f : Fmt) (r : RMode) (func a b : Nat) : Option NumRes :=
  let x := f.decode a
  let y := f.decode b
  let sign := 2 ^ (f.width - 1)
  let ones := 2 ^ f.width - 1
  match func with
  | 0x00 => some (fAdd f r x y)
  | 0x01 => some (fSub f r x y)
  | 0x02 => some (fMul f r x y)
  | 0x03 => some (fMin f x y)
  | 0x04 => some (fMax f x y)
  | 0x05 => some (if x = .nan then f.tileNan else a % sign, 0)
  | 0x06 => some (if x = .nan then f.tileNan else a ^^^ sign, 0)
  | 0x07 => if f = fmtF32 then some (fDiv f r x y) else none
  | 0x08 => if f = fmtF32 then some (fSqrt f r x) else none
  | 0x09 => let (c, fl) := fOrder (· = .lt) x y; some (if c then ones else 0, fl)
  | 0x0A => let (c, fl) := fOrder (fun o => o = .lt || o = .eq) x y; some (if c then ones else 0, fl)
  | 0x0B => some (if x.cmp y = some .eq then ones else 0, 0)
  | _ => none

/-- An integer result held within `w` bits, SAT where it does not fit. -/
def satLane (w : Nat) (v : Int) (fl : Nat := 0) : NumRes :=
  let lo : Int := -(2 ^ (w - 1) : Int)
  let hi : Int := 2 ^ (w - 1) - 1
  if v < lo then (unsext w lo, Flag.sat ||| fl) else if hi < v then (unsext w hi, Flag.sat ||| fl) else (unsext w v, fl)

/-- The same on lanes of INT8 (scale 0) and Q15 (scale 15). -/
def fixedLane (w scale : Nat) (r : RMode) (func a b : Nat) : Option NumRes :=
  let x := sext w a
  let y := sext w b
  let ones := 2 ^ w - 1
  match func with
  | 0x00 => some (satLane w (x + y))
  | 0x01 => some (satLane w (x - y))
  | 0x02 =>
    let p := x * y
    let q : Nat := shiftRound r (p < 0) p.natAbs scale false
    some (satLane w (if p < 0 then -(q : Int) else q) (if p.natAbs % 2 ^ scale = 0 then 0 else Flag.nx))
  | 0x03 => some (unsext w (min x y), 0)
  | 0x04 => some (unsext w (max x y), 0)
  | 0x05 => some (satLane w (if x < 0 then -x else x))
  | 0x06 => some (satLane w (-x))
  | 0x09 => some (if x < y then ones else 0, 0)
  | 0x0A => some (if x ≤ y then ones else 0, 0)
  | 0x0B => some (if x = y then ones else 0, 0)
  | _ => none

/-- One lane of VADD to VCMPEQ in a format VOP accepts. -/
def vopLane (fmt : Nat) (r : RMode) (func a b : Nat) : Option NumRes :=
  match fmt with
  | 0 => fixedLane 8 0 r func a b
  | 7 => fixedLane 16 15 r func a b
  | 4 => floatLane fmtBf16 r func a b
  | 6 => floatLane fmtF32 r func a b
  | _ => none

/-- Pairs of neighbours added, each sum rounded (R160). -/
def addPairs (r : RMode) : List Nat → List NumRes
  | a :: b :: rest => fAdd fmtF32 r (fmtF32.decode a) (fmtF32.decode b) :: addPairs r rest
  | _ => []

/-- The fixed tree of VHSUM over 16 lanes: four levels (R160). -/
def hsum (r : RMode) (l : List Nat) : NumRes :=
  let l1 := addPairs r l
  let l2 := addPairs r (l1.map Prod.fst)
  let l3 := addPairs r (l2.map Prod.fst)
  let l4 := addPairs r (l3.map Prod.fst)
  let all := l1 ++ l2 ++ l3 ++ l4
  ((l4.map Prod.fst).headD 0, all.foldl (fun a x => a ||| x.2) 0)

/-- VOP: the new register and its flags, `none` for a function the format does not have or a field that must be 0 (R159). -/
def vop (fmt func rm : Nat) (vd va vb : BitVec 512) : Option (BitVec 512 × Nat) :=
  let w := elWidth fmt
  let n := elCount fmt
  let r := rmodeOf rm
  let a := elems w n va
  let b := elems w n vb
  if !(fmt = 0 || fmt = 4 || fmt = 6 || fmt = 7) then none
  else if func ≤ 0x0B then
    let lanes := (a.zip b).map fun (x : Nat × Nat) => vopLane fmt r func x.1 x.2
    if lanes.all (·.isSome) then some (joinRes w (lanes.map fun (x : Option NumRes) => x.getD (0, 0))) else none
  else if func = 0x0C then
    some (packElems w (((elems w n vd).zip (a.zip b)).map fun (x : Nat × Nat × Nat) => if x.1 ≠ 0 then x.2.1 else x.2.2), 0)
  else if fmt ≠ 6 then none
  else if func = 0x10 then
    let (s, fl) := hsum r a
    some (packElems 32 [s], fl)
  else if rm ≠ 0 then none
  else if func = 0x0D then some (va &&& vb, 0)
  else if func = 0x0E then some (va ||| vb, 0)
  else if func = 0x0F then some (va ^^^ vb, 0)
  else if func = 0x11 then some (va, 0)
  else none

/-- Functions whose vb field must be v0 (R159). -/
def vopUnary (func : Nat) : Bool := [0x05, 0x06, 0x08, 0x10, 0x11].contains func

/-! ## VCVT (R164) -/

/-- VCVT: `none` for a format it does not accept or a part out of range. -/
def vcvt (src dst part rm : Nat) (sat : Bool) (vd va : BitVec 512) : Option (BitVec 512 × Nat) :=
  if src = 5 ∨ dst = 5 then none
  else
    let nf := elCount src
    let nt := elCount dst
    let n := min nf nt
    if max nf nt / n ≤ part then none
    else
      let xs := ((elems (elWidth src) nf va).drop (if n < nf then n * part else 0)).take n
      let rs := xs.map fun (x : Nat) => toElem dst (rmodeOf rm) sat (elVal src x)
      let old := elems (elWidth dst) nt vd
      let at_ := if n < nt then n * part else 0
      some (packElems (elWidth dst) (old.take at_ ++ rs.map Prod.fst ++ old.drop (at_ + n)), rs.foldl (fun a x => a ||| x.2) 0)

/-! ## The MAC block (R155-R157) -/

/-- K of a format (Table 6.6). -/
def macK : Nat → Nat
  | 1 => 32
  | 4 => 8
  | 7 => 8
  | 5 => 4
  | 6 => 4
  | _ => 16

/-- A product, exact; a zero of integers has no sign. -/
def macProduct (fmt : Nat) (x y : FVal) : FVal :=
  match x.mul y with
  | .fin neg 0 e => .fin (neg && (floatFmt fmt).isSome) 0 e
  | v => v

/-- The exact sum of values, none of them a NaN: infinities of both signs make NaN; an exact zero is +0 unless every value is -0
(R156). -/
def exactSum (l : List FVal) : FVal :=
  if l.any (· = .nan) then .nan
  else
    let pos := l.any (· = .inf false)
    let neg := l.any (· = .inf true)
    if pos && neg then .nan
    else if pos then .inf false
    else if neg then .inf true
    else
      let base : Int := l.foldl (fun (b : Int) (v : FVal) => match v with | .fin _ _ e => min b e | _ => b) 0
      let v : Int := l.foldl (fun (a : Int) (x : FVal) => match x with | .fin n m e => a + signedAt n m e base | _ => a) 0
      if v = 0 then .fin (l.all FVal.isNeg) 0 0 else .fin (v < 0) v.natAbs base

/-- One accumulator element (R156): NV with any NaN or invalid sum. -/
def macElem (fmt : Nat) (c : FVal) (as_ bs : List FVal) : NumRes :=
  let s := exactSum (c :: (as_.zip bs).map fun (x : FVal × FVal) => macProduct fmt x.1 x.2)
  match s with
  | .nan => (fmtF32.nanBits, Flag.nv)
  | v => fmtF32.convert .rne false v

/-- Element i * K + k of a register for i of 0-3. -/
def macRow {α : Type} (k : Nat) (l : List α) (i : Nat) : List α := (l.drop (i * k)).take k

/-- The 16 pairs (i, j). -/
def macCells : List (Nat × Nat) := (List.range 16).map fun e => (e / 4, e % 4)

/-- MMA for all formats except IBF16. -/
def mma (fmt : Nat) (zero : Bool) (acc va vb : BitVec 512) : BitVec 512 × Nat :=
  let k := macK fmt
  let w := elWidth fmt
  let a := (elems w (4 * k) va).map (elVal fmt)
  let b := (elems w (4 * k) vb).map (elVal fmt)
  let c := (elems 32 16 acc).map fun (x : Nat) => if zero then FVal.fin false 0 0 else fmtF32.decode x
  joinRes 32 (macCells.map fun (x : Nat × Nat) => macElem fmt (c.getD (4 * x.1 + x.2) .nan) (macRow k a x.1) (macRow k b x.2))

/-! ## Intervals (R167-R170) -/

/-- An interval of exact bounds. -/
structure Interval where
  lo : FVal
  hi : FVal
deriving DecidableEq, Repr

/-- Valid: neither bound NaN and lower not above upper (R167). -/
def Interval.valid (x : Interval) : Bool := x.lo.le x.hi

/-- A product in which 0 times an infinity is 0 (R170). -/
def endProduct (x y : FVal) : FVal :=
  match x.mul y with
  | .nan => .fin false 0 0
  | v => v

/-- The exact interval product: least and greatest of the four endpoint products. -/
def Interval.mul (x y : Interval) : Interval :=
  let p := endProduct x.lo y.lo
  let q := endProduct x.lo y.hi
  let r := endProduct x.hi y.lo
  let t := endProduct x.hi y.hi
  { lo := (p.minVal q).minVal (r.minVal t), hi := (p.maxVal q).maxVal (r.maxVal t) }

/-- A lower sum with both infinities is -inf, an upper one +inf (R170). -/
def boundSum (lower : Bool) (l : List FVal) : FVal :=
  match exactSum l with
  | .nan => .inf lower
  | v => v

/-- The pair [-inf, +inf] as binary32, with IVINV. -/
def whole : NumRes × NumRes := ((0xFF800000, Flag.ivinv), (0x7F800000, 0))

/-- Bounds rounded outward to a format. -/
def outward (f : Fmt) (lo hi : FVal) : NumRes × NumRes := (f.convert .rdn false lo, f.convert .rup false hi)

/-- Joins pairs of bounds into two registers. -/
def joinPairs (l : List (NumRes × NumRes)) : BitVec 512 × BitVec 512 × Nat :=
  let (a, f1) := joinRes 32 (l.map Prod.fst)
  let (b, f2) := joinRes 32 (l.map Prod.snd)
  (a, b, f1 ||| f2)

/-- An IBF16 word as an interval (R167). -/
def ibf16 (w : Nat) : Interval := { lo := fmtBf16.decode (w % 65536), hi := fmtBf16.decode (w / 65536 % 65536) }

/-- The intervals of a pair of FP32 registers. -/
def pairIntervals (lo hi : BitVec 512) : List Interval :=
  ((elems 32 16 lo).zip (elems 32 16 hi)).map fun (x : Nat × Nat) => ({ lo := fmtF32.decode x.1, hi := fmtF32.decode x.2 } : Interval)

/-- One element of IBF16 MMA (R169, R170). -/
def macInterval (c : Interval) (as_ bs : List Interval) : NumRes × NumRes :=
  if !c.valid || as_.any (!·.valid) || bs.any (!·.valid) then whole
  else
    let ps := (as_.zip bs).map fun (x : Interval × Interval) => x.1.mul x.2
    outward fmtF32 (boundSum true (c.lo :: ps.map (·.lo))) (boundSum false (c.hi :: ps.map (·.hi)))

/-- IBF16 MMA into the accumulator pair. -/
def mmaInterval (zero : Bool) (acc acc1 va vb : BitVec 512) : BitVec 512 × BitVec 512 × Nat :=
  let a := (elems 32 16 va).map ibf16
  let b := (elems 32 16 vb).map ibf16
  let z : FVal := .fin false 0 0
  let c := if zero then List.replicate 16 ({ lo := z, hi := z } : Interval) else pairIntervals acc acc1
  joinPairs (macCells.map fun (x : Nat × Nat) =>
    macInterval (c.getD (4 * x.1 + x.2) { lo := .nan, hi := .nan }) (macRow 4 a x.1) (macRow 4 b x.2))

/-- One lane of IVOP (R168). -/
def ivopLane (func : Nat) (x y : Interval) : NumRes × NumRes :=
  match func with
  | 0 => outward fmtF32 (boundAdd .rdn true x.lo y.lo) (boundAdd .rup false x.hi y.hi)
  | 1 => outward fmtF32 (boundAdd .rdn true x.lo y.hi.neg) (boundAdd .rup false x.hi y.lo.neg)
  | 2 => outward fmtF32 (x.mul y).lo (x.mul y).hi
  | 3 => outward fmtF32 (x.lo.minVal y.lo) (x.hi.minVal y.hi)
  | 4 => outward fmtF32 (x.lo.maxVal y.lo) (x.hi.maxVal y.hi)
  | 5 => outward fmtF32 (x.lo.minVal y.lo) (x.hi.maxVal y.hi)
  | _ => outward fmtF32 x.hi.neg x.lo.neg
where
  /-- A sum of two bounds; with both infinities it is the wide one. -/
  boundAdd (r : RMode) (lower : Bool) (a b : FVal) : FVal :=
    match a.add r b with
    | .nan => .inf lower
    | v => v

/-- IVOP on pairs. -/
def ivop (func : Nat) (la ha lb hb : BitVec 512) : BitVec 512 × BitVec 512 × Nat :=
  joinPairs (((pairIntervals la ha).zip (pairIntervals lb hb)).map fun (x : Interval × Interval) =>
    if !x.1.valid || func ≠ 6 && !x.2.valid then whole else ivopLane func x.1 x.2)

/-- IVCVT PACK: a pair to IBF16 words, bounds rounded outward (R168). -/
def ivPack (lo hi : BitVec 512) : BitVec 512 × Nat :=
  joinRes 32 ((pairIntervals lo hi).map fun (x : Interval) =>
    if !x.valid then (0x7F80FF80, Flag.ivinv)
    else
      let (a, b) := outward fmtBf16 x.lo x.hi
      (a.1 + 65536 * b.1, a.2 ||| b.2))

/-- IVCVT UNPACK: IBF16 words to a pair, exact. -/
def ivUnpack (v : BitVec 512) : BitVec 512 × BitVec 512 × Nat :=
  joinPairs ((elems 32 16 v).map fun (w : Nat) =>
    let x := ibf16 w
    if !x.valid then whole else outward fmtF32 x.lo x.hi)

end Sys2Proof.Machine
end

