-- ==== Sys2Proof/Machine/TileOps.lean ====
section
/-! DEFINITION. What every tile instruction does alike (05, 06): registers and tile memory, fetch of the next word, faults,
waits, and the fields of Table 6.2. An instruction takes place where the lane runs and the tile's sequencer has fetched
that very word. -/

namespace Sys2Proof.Machine

/-! ## Tile space (01 Table 1.7, 05 Table 5.2) -/

/-- Base of tile `t`'s window. -/
def tileBase (t : Nat) : Nat := t * 0x40000

/-- First byte above the image's SRAM range. -/
def imageTop : Nat := 0x2E000

/-- The instruction word at a word address. -/
def ArraySt.wordAt (a : ArraySt) (t pc : Nat) : Nat := leNat (a.memory.readBytes (tileBase t + 0x30000 + 4 * pc) 4)

def ArraySt.tile (a : ArraySt) (t : Nat) : Tile := Tab.get ({} : Tile) a.tiles t
def ArraySt.setTile (a : ArraySt) (t : Nat) (x : Tile) : ArraySt := { a with tiles := Tab.set {} a.tiles t x }
def ArraySt.onTile (a : ArraySt) (t : Nat) (f : Tile → Tile) : ArraySt := a.setTile t (f (a.tile t))

/-- The power state of tile row `y`. -/
def ArraySt.row (a : ArraySt) (y : Nat) : RowPower := Tab.get .gated a.rows y
def ArraySt.setRow (a : ArraySt) (y : Nat) (p : RowPower) : ArraySt := { a with rows := Tab.set .gated a.rows y p }

/-- Row policy (Table 5.8): 0 EAGER, 1 LAZY, 2 HELD. -/
def ArraySt.policy (a : ArraySt) (y : Nat) : Nat := bits a.rowPolicy.toNat (2 * y + 1) (2 * y)

/-! ## Registers (R145) -/

def Tile.s (x : Tile) (i : Nat) : U32 := if i = 0 then 0 else Tab.get 0 x.sregs i
def Tile.setS (x : Tile) (i : Nat) (v : U32) : Tile := if i = 0 then x else { x with sregs := Tab.set 0 x.sregs i v }
def Tile.v (x : Tile) (i : Nat) : BitVec 512 := Tab.get 0 x.vregs i
def Tile.setV (x : Tile) (i : Nat) (v : BitVec 512) : Tile := { x with vregs := Tab.set 0 x.vregs i v }
def Tile.acc (x : Tile) (i : Nat) : BitVec 512 := Tab.get 0 x.accs i
def Tile.setAcc (x : Tile) (i : Nat) (v : BitVec 512) : Tile := { x with accs := Tab.set 0 x.accs i v }

/-- Raises flags: the flag word is sticky (R166). -/
def Tile.raise (x : Tile) (fl : Nat) : Tile := { x with flagWord := x.flagWord ||| w32 fl }

/-- A result written to a scalar register with its flags. -/
def Tile.putS (x : Tile) (i : Nat) (r : NumRes) : Tile := (x.setS i (w32 r.1)).raise r.2

/-! ## Fields (Table 6.2) -/

/-- Bits `hi` to `lo` of the word's low 26. -/
def fld (w : BitVec 26) (hi lo : Nat) : Nat := bits w.toNat hi lo

/-- A signed field. -/
def sfld (w : BitVec 26) (n : Nat) : Int := sext n w.toNat

/-! ## Fetch and faults (R144, R178) -/

/-- The major opcodes of Table 6.3. -/
def majorOps : List Nat :=
  [0x01, 0x02, 0x03, 0x04, 0x05, 0x06, 0x07, 0x08, 0x09, 0x0A, 0x0C, 0x0D, 0x0E, 0x0F, 0x10, 0x11, 0x14, 0x15, 0x16, 0x17, 0x18] ++
    [0x20, 0x21, 0x22, 0x23, 0x24, 0x26, 0x27, 0x30, 0x31, 0x32, 0x33, 0x34, 0x35]

-- Tile fault codes (Table 6.11).
namespace TileFault
def encoding := 1
def fetch := 2
def range := 3
def align := 4
def oddAcc := 5
def send := 6
def chan := 7
def dma := 8
def entry := 9
end TileFault

/-- A running sequencer fetches its next word: beyond 0xFFF, or with an undefined major opcode, it faults. -/
def ArraySt.fetch (a : ArraySt) (t : Nat) : ArraySt :=
  let x := a.tile t
  match x.seq with
  | .run =>
    if 0xFFF < x.pc then a.setTile t { x with seq := .fault TileFault.fetch }
    else if majorOps.contains (a.wordAt t x.pc / 2 ^ 26) then a
    else a.setTile t { x with seq := .fault TileFault.encoding }
  | _ => a

/-- How an instruction ends: the array after it with the tile's program counter moved, or a wait without effect. -/
inductive TileEnd where
  | done (a : ArraySt) (x : Tile)
  | wait
deriving DecidableEq, Repr

/-- The tile's instruction retires and the next word in order follows. -/
def Tile.next (x : Tile) : Tile := { x with pc := x.pc + 1 }

/-- A register-only instruction. -/
def TileEnd.reg (a : ArraySt) (x : Tile) : Except Nat TileEnd := .ok (.done a x.next)

/-- The instruction with major opcode `op` and low bits `w` is the one tile `t` of lane `l` executes now. -/
def State.tileRuns (s : State) (l : LaneId) (t op : Nat) (w : BitVec 26) : Bool :=
  let a := (s.lane l).array
  let x := a.tile t
  (s.lane l).isRunning && a.row (t / 32) = .running && x.active && x.seq = .run && a.wordAt t x.pc = op * 2 ^ 26 + w.toNat

/-- Executes an instruction: a fault stops the tile where it stands (R178), a wait leaves it to be issued again, and an end is
followed by the fetch of the next word. -/
def State.tileExec (s : State) (l : LaneId) (t op : Nat) (w : BitVec 26) (f : ArraySt → Tile → Except Nat TileEnd) : State :=
  if !s.tileRuns l t op w then s
  else
    s.onLane l fun x =>
      let a := x.array
      { x with
        array := match f a (a.tile t) with
          | .error code => a.setTile t { a.tile t with seq := .fault code }
          | .ok .wait => a
          | .ok (.done a' y) => (a'.setTile t y).fetch t }

/-- A fault where a condition holds. -/
def faultIf (c : Bool) (code : Nat) : Except Nat Unit := if c then .error code else .ok ()

/-- The encoding fault where a condition holds. -/
def badWord (c : Bool) : Except Nat Unit := faultIf c TileFault.encoding

/-! ## Addresses (R152) -/

/-- Byte address of a register plus a signed offset, modulo 2^32. -/
def tileAddr (base : U32) (off : Int) : Nat := (base + BitVec.ofInt 32 off).toNat

/-- The checks of an access of `n` bytes: alignment, and the range below 0x2_E000. -/
def checkAddr (a n : Nat) : Except Nat Unit := do
  faultIf (a % n ≠ 0) TileFault.align
  faultIf (imageTop < a + n) TileFault.range

/-- Bytes of a tile's SRAM. -/
def ArraySt.read (a : ArraySt) (t addr n : Nat) : List Byte := a.memory.readBytes (tileBase t + addr) n
def ArraySt.write (a : ArraySt) (t addr : Nat) (bs : List Byte) : ArraySt :=
  { a with memory := a.memory.writeBytes (tileBase t + addr) bs }

/-- 64 bytes as a register. -/
def vecOf (bs : List Byte) : BitVec 512 := BitVec.ofNat 512 (leNat bs)
def vecBytes (v : BitVec 512) : List Byte := leBytes 64 v.toNat

end Sys2Proof.Machine
end

