-- ==== Sys2Proof/Machine/TileInstr.lean ====
section
/-! DEFINITION. The tile instructions of 06: one definition per major opcode. -/

namespace Sys2Proof.Machine

/-! ## Scalar integers (R150) -/

/-- ALU functions (Table 6.4). -/
def aluFunc (func : Nat) (a b : U32) : Option U32 :=
  let one : Bool → U32 := fun c => if c then 1 else 0
  match func with
  | 0x00 => some (a + b)
  | 0x01 => some (a - b)
  | 0x02 => some (a &&& b)
  | 0x03 => some (a ||| b)
  | 0x04 => some (a ^^^ b)
  | 0x05 => some (a <<< (b.toNat % 32))
  | 0x06 => some (a >>> (b.toNat % 32))
  | 0x07 => some (a.sshiftRight (b.toNat % 32))
  | 0x08 => some (a * b)
  | 0x09 => some (BitVec.ofInt 32 (a.toInt * b.toInt / 2 ^ 32))
  | 0x0A => some (BitVec.ofNat 32 (a.toNat * b.toNat / 2 ^ 32))
  | 0x0B => some (one (a.slt b))
  | 0x0C => some (one (a.ult b))
  | 0x0D => some (if a.slt b then a else b)
  | 0x0E => some (if a.slt b then b else a)
  | 0x0F => some (if a.ult b then a else b)
  | 0x10 => some (if a.ult b then b else a)
  | _ => none

/-- ALU (R150). -/
def execAlu (l : LaneId) (t : Fin 1024) (w : BitVec 26) (s : State) : Host.Outcome State Fault Refusal :=
  .next (s.tileExec l t 0x01 w fun a x => do
    badWord (fld w 5 0 ≠ 0)
    match aluFunc (fld w 10 6) (x.s (fld w 20 16)) (x.s (fld w 15 11)) with
    | some v => TileEnd.reg a (x.setS (fld w 25 21) v)
    | none => .error TileFault.encoding)

/-- An I-layout operation of sa and imm16 into sd. -/
def immOp (w : BitVec 26) (f : U32 → Nat → U32) (a : ArraySt) (x : Tile) : Except Nat TileEnd :=
  TileEnd.reg a (x.setS (fld w 25 21) (f (x.s (fld w 20 16)) (fld w 15 0)))

/-- ADDI (R150): the sign-extended immediate. -/
def execAddi (l : LaneId) (t : Fin 1024) (w : BitVec 26) (s : State) : Host.Outcome State Fault Refusal :=
  .next (s.tileExec l t 0x02 w (immOp w fun v i => v + BitVec.ofInt 32 (sext 16 i)))

/-- ANDI (R150). -/
def execAndi (l : LaneId) (t : Fin 1024) (w : BitVec 26) (s : State) : Host.Outcome State Fault Refusal :=
  .next (s.tileExec l t 0x03 w (immOp w fun v i => v &&& w32 i))

/-- ORI (R150). -/
def execOri (l : LaneId) (t : Fin 1024) (w : BitVec 26) (s : State) : Host.Outcome State Fault Refusal :=
  .next (s.tileExec l t 0x04 w (immOp w fun v i => v ||| w32 i))

/-- XORI (R150). -/
def execXori (l : LaneId) (t : Fin 1024) (w : BitVec 26) (s : State) : Host.Outcome State Fault Refusal :=
  .next (s.tileExec l t 0x05 w (immOp w fun v i => v ^^^ w32 i))

/-- LUI (R150). -/
def execLui (l : LaneId) (t : Fin 1024) (w : BitVec 26) (s : State) : Host.Outcome State Fault Refusal :=
  .next (s.tileExec l t 0x06 w fun a x => do
    badWord (fld w 20 16 ≠ 0)
    immOp w (fun _ i => w32 (i * 0x10000)) a x)

/-- SHI (R150). -/
def execShi (l : LaneId) (t : Fin 1024) (w : BitVec 26) (s : State) : Host.Outcome State Fault Refusal :=
  .next (s.tileExec l t 0x07 w fun a x => do
    badWord (fld w 15 7 ≠ 0 || fld w 6 5 = 3)
    immOp w (fun v _ =>
      let n := fld w 4 0
      if fld w 6 5 = 0 then v <<< n else if fld w 6 5 = 1 then v >>> n else v.sshiftRight n) a x)

/-! ## Scalar floating point (R151) -/

/-- FALU functions (Table 6.4). -/
def faluFunc (func : Nat) (r : RMode) (a b : U32) : Option NumRes :=
  let x := F32.val a
  let y := F32.val b
  match func with
  | 0x00 => some (fAdd fmtF32 r x y)
  | 0x01 => some (fSub fmtF32 r x y)
  | 0x02 => some (fMul fmtF32 r x y)
  | 0x03 => some (fDiv fmtF32 r x y)
  | 0x04 => some (fSqrt fmtF32 r x)
  | 0x05 => some (fMin fmtF32 x y)
  | 0x06 => some (fMax fmtF32 x y)
  | 0x07 => some ((F32.abs a).toNat, 0)
  | 0x08 => some ((F32.negate a).toNat, 0)
  | _ => none

/-- FALU. -/
def execFalu (l : LaneId) (t : Fin 1024) (w : BitVec 26) (s : State) : Host.Outcome State Fault Refusal :=
  .next (s.tileExec l t 0x08 w fun a x => do
    let func := fld w 10 6
    badWord (fld w 3 0 ≠ 0 || [0x04, 0x07, 0x08].contains func && fld w 15 11 ≠ 0)
    match faluFunc func (rmodeOf (fld w 5 4)) (x.s (fld w 20 16)) (x.s (fld w 15 11)) with
    | some r => TileEnd.reg a (x.putS (fld w 25 21) r)
    | none => .error TileFault.encoding)

/-- FCMP functions. -/
def fcmpFunc (func : Nat) (a b : U32) : Option NumRes :=
  let x := F32.val a
  let y := F32.val b
  let bool : Bool × Nat → NumRes := fun c => (flag c.1, c.2)
  match func with
  | 0 => some (flag (x.cmp y = some .eq), 0)
  | 1 => some (bool (fOrder (· = .lt) x y))
  | 2 => some (bool (fOrder (fun o => o = .lt || o = .eq) x y))
  | 3 => some (flag (x.cmp y = none), 0)
  | _ => none

/-- FCMP. -/
def execFcmp (l : LaneId) (t : Fin 1024) (w : BitVec 26) (s : State) : Host.Outcome State Fault Refusal :=
  .next (s.tileExec l t 0x09 w fun a x => do
    badWord (fld w 3 0 ≠ 0)
    match fcmpFunc (fld w 10 6) (x.s (fld w 20 16)) (x.s (fld w 15 11)) with
    | some r => TileEnd.reg a (x.putS (fld w 25 21) r)
    | none => .error TileFault.encoding)

/-- FCVT functions. -/
def fcvtFunc (func : Nat) (r : RMode) (a : U32) : Option NumRes :=
  let int : Int × Nat → NumRes := fun c => (unsext 32 c.1, c.2)
  match func with
  | 0 => some (int (toFixed r (-(2 ^ 31)) (2 ^ 31 - 1) 0 (F32.val a)))
  | 1 => some (int (toFixed r 0 (2 ^ 32 - 1) 0 (F32.val a)))
  | 2 => some (fmtF32.convert r false (fixedVal a.toInt 0))
  | 3 => some (fmtF32.convert r false (fixedVal a.toNat 0))
  | 4 => some (fmtBf16.convert r false (F32.val a))
  | 5 => some (fmtF32.convert r false (fmtBf16.decode (a.toNat % 65536)))
  | _ => none

/-- FCVT. -/
def execFcvt (l : LaneId) (t : Fin 1024) (w : BitVec 26) (s : State) : Host.Outcome State Fault Refusal :=
  .next (s.tileExec l t 0x0A w fun a x => do
    badWord (fld w 3 0 ≠ 0 || fld w 15 11 ≠ 0)
    match fcvtFunc (fld w 10 6) (rmodeOf (fld w 5 4)) (x.s (fld w 20 16)) with
    | some r => TileEnd.reg a (x.putS (fld w 25 21) r)
    | none => .error TileFault.encoding)

/-! ## Loads and stores (R152) -/

/-- Bytes an M-layout size moves. -/
def sizeBytes (size : Nat) : Nat := if size = 0 then 1 else if size = 2 then 4 else 2

/-- LD. -/
def execLd (l : LaneId) (t : Fin 1024) (w : BitVec 26) (s : State) : Host.Outcome State Fault Refusal :=
  .next (s.tileExec l t 0x0C w fun a x => do
    let size := fld w 15 14
    let n := sizeBytes size
    let addr := tileAddr (x.s (fld w 20 16)) (sfld w 14)
    checkAddr addr n
    let v := leNat (a.read t addr n)
    TileEnd.reg a (x.setS (fld w 25 21) (if size = 3 then BitVec.ofInt 32 (sext 16 v) else w32 v)))

/-- ST. -/
def execSt (l : LaneId) (t : Fin 1024) (w : BitVec 26) (s : State) : Host.Outcome State Fault Refusal :=
  .next (s.tileExec l t 0x0D w fun a x => do
    badWord (fld w 15 14 = 3)
    let n := sizeBytes (fld w 15 14)
    let addr := tileAddr (x.s (fld w 20 16)) (sfld w 14)
    checkAddr addr n
    TileEnd.reg (a.write t addr (leBytes n (x.s (fld w 25 21)).toNat)) x)

/-- The V-layout's address, and the tile with sa moved on by PI. -/
def vAddr (w : BitVec 26) (x : Tile) : Except Nat (Nat × Tile) := do
  let sa := fld w 21 17
  badWord (fld w 15 12 ≠ 0 || fld w 16 16 = 1 && sa = 0)
  let addr := tileAddr (x.s sa) (sfld w 12 * 64)
  checkAddr addr 64
  .ok (addr, if fld w 16 16 = 1 then x.setS sa (x.s sa + 64) else x)

/-- LDV. -/
def execLdv (l : LaneId) (t : Fin 1024) (w : BitVec 26) (s : State) : Host.Outcome State Fault Refusal :=
  .next (s.tileExec l t 0x0E w fun a x => do
    let (addr, x) ← vAddr w x
    TileEnd.reg a (x.setV (fld w 25 22) (vecOf (a.read t addr 64))))

/-- STV. -/
def execStv (l : LaneId) (t : Fin 1024) (w : BitVec 26) (s : State) : Host.Outcome State Fault Refusal :=
  .next (s.tileExec l t 0x0F w fun a x => do
    let (addr, x) ← vAddr w x
    TileEnd.reg (a.write t addr (vecBytes (x.v (fld w 25 22)))) x)

/-- LDACC. -/
def execLdacc (l : LaneId) (t : Fin 1024) (w : BitVec 26) (s : State) : Host.Outcome State Fault Refusal :=
  .next (s.tileExec l t 0x10 w fun a x => do
    badWord (fld w 22 22 ≠ 0)
    let (addr, x) ← vAddr w x
    TileEnd.reg a (x.setAcc (fld w 25 23) (vecOf (a.read t addr 64))))

/-- STACC. -/
def execStacc (l : LaneId) (t : Fin 1024) (w : BitVec 26) (s : State) : Host.Outcome State Fault Refusal :=
  .next (s.tileExec l t 0x11 w fun a x => do
    badWord (fld w 22 22 ≠ 0)
    let (addr, x) ← vAddr w x
    TileEnd.reg (a.write t addr (vecBytes (x.acc (fld w 25 23)))) x)

/-! ## Branches (R153, R154) -/

/-- Continues at a word; below 0x100 is a fault. -/
def branchTo (a : ArraySt) (x : Tile) (target : Nat) : Except Nat TileEnd := do
  faultIf (target < 0x100) TileFault.fetch
  .ok (.done a { x with pc := target })

/-- Whether cond 0 to 6 holds. -/
def brHolds (cond : Nat) (a b : U32) : Bool :=
  match cond with
  | 0 => a = b
  | 1 => a ≠ b
  | 2 => a.slt b
  | 3 => !a.slt b
  | 4 => a.ult b
  | 5 => !a.ult b
  | _ => true

/-- BR, with JAL under cond 7. -/
def execBr (l : LaneId) (t : Fin 1024) (w : BitVec 26) (s : State) : Host.Outcome State Fault Refusal :=
  .next (s.tileExec l t 0x14 w fun a x => do
    let cond := fld w 15 12
    badWord (7 < cond || cond = 7 && fld w 20 16 ≠ 0)
    if cond = 7 then branchTo a (x.setS (fld w 25 21) (w32 (x.pc + 1))) (fld w 11 0)
    else if brHolds cond (x.s (fld w 25 21)) (x.s (fld w 20 16)) then branchTo a x (fld w 11 0)
    else TileEnd.reg a x)

/-- DBNZ. -/
def execDbnz (l : LaneId) (t : Fin 1024) (w : BitVec 26) (s : State) : Host.Outcome State Fault Refusal :=
  .next (s.tileExec l t 0x15 w fun a x => do
    badWord (fld w 20 12 ≠ 0 || fld w 25 21 = 0)
    let v := x.s (fld w 25 21) - 1
    let x := x.setS (fld w 25 21) v
    if v = 0 then TileEnd.reg a x else branchTo a x (fld w 11 0))

/-- JR. -/
def execJr (l : LaneId) (t : Fin 1024) (w : BitVec 26) (s : State) : Host.Outcome State Fault Refusal :=
  .next (s.tileExec l t 0x16 w fun a x => branchTo a x ((x.s (fld w 25 21)).toNat % 0x1000))

/-- END (R154). -/
def execEndBlock (l : LaneId) (t : Fin 1024) (w : BitVec 26) (s : State) : Host.Outcome State Fault Refusal :=
  .next (s.tileExec l t 0x17 w fun a x => do
    badWord (w ≠ 0)
    .ok (.done a { x with seq := .idle, pc := x.pc + 1 }))

/-- Row `y` goes to sleep unless its policy is HELD or an active tile of it has not met its step end (05 R139). -/
def ArraySt.sleepRow (a : ArraySt) (y : Nat) : ArraySt :=
  if a.policy y ≠ 2 ∧ (a.tiles.all fun e => e.1 / 32 ≠ y || !e.2.active || (e.2.seq = .stepEnd && e.2.dmaq.isEmpty)) then a.setRow y .gated
  else a

/-- STEPEND (R154): waits until the DMA queue is empty. The row sleeps with its last active tile (05 R139). -/
def execStepend (l : LaneId) (t : Fin 1024) (w : BitVec 26) (s : State) : Host.Outcome State Fault Refusal :=
  .next (s.tileExec l t 0x18 w fun a x => do
    badWord (w ≠ 0)
    if !x.dmaq.isEmpty then .ok .wait
    else
      let y := { x with seq := .stepEnd, pc := x.pc + 1 }
      .ok (.done ((a.setTile t y).sleepRow (t.val / 32)) y))

/-! ## MAC block and element-wise unit -/

/-- MMA (R155-R157, R169). -/
def execMma (l : LaneId) (t : Fin 1024) (w : BitVec 26) (s : State) : Host.Outcome State Fault Refusal :=
  .next (s.tileExec l t 0x20 w fun a x => do
    let acc := fld w 25 23
    let va := x.v (fld w 22 19)
    let vb := x.v (fld w 18 15)
    let fmt := fld w 14 12
    let zero : Bool := fld w 11 11 = 1
    badWord (fld w 10 0 ≠ 0)
    faultIf (fmt = 5 && acc % 2 = 1) TileFault.oddAcc
    if fmt = 5 then
      let (lo, hi, fl) := mmaInterval zero (x.acc acc) (x.acc (acc + 1)) va vb
      TileEnd.reg a (((x.setAcc acc lo).setAcc (acc + 1) hi).raise fl)
    else
      let (v, fl) := mma fmt zero (x.acc acc) va vb
      TileEnd.reg a ((x.setAcc acc v).raise fl))

/-- ACC (R158). -/
def execAcc (l : LaneId) (t : Fin 1024) (w : BitVec 26) (s : State) : Host.Outcome State Fault Refusal :=
  .next (s.tileExec l t 0x21 w fun a x => do
    let acc := fld w 25 23
    let v := fld w 22 19
    let func := fld w 18 16
    badWord (fld w 15 0 ≠ 0 || 2 < func || func = 2 && v ≠ 0)
    TileEnd.reg a (if func = 0 then x.setV v (x.acc acc) else if func = 1 then x.setAcc acc (x.v v) else x.setAcc acc 0))

/-- VOP (R159, R160). -/
def execVop (l : LaneId) (t : Fin 1024) (w : BitVec 26) (s : State) : Host.Outcome State Fault Refusal :=
  .next (s.tileExec l t 0x22 w fun a x => do
    let vd := fld w 25 22
    let func := fld w 10 6
    badWord (fld w 3 0 ≠ 0 || vopUnary func && fld w 17 14 ≠ 0)
    match vop (fld w 13 11) func (fld w 5 4) (x.v vd) (x.v (fld w 21 18)) (x.v (fld w 17 14)) with
    | some (v, fl) => TileEnd.reg a ((x.setV vd v).raise fl)
    | none => .error TileFault.encoding)

/-- VCVT (R164, R165). -/
def execVcvt (l : LaneId) (t : Fin 1024) (w : BitVec 26) (s : State) : Host.Outcome State Fault Refusal :=
  .next (s.tileExec l t 0x23 w fun a x => do
    let vd := fld w 25 22
    badWord (fld w 5 0 ≠ 0)
    match vcvt (fld w 17 15) (fld w 14 12) (fld w 11 9) (fld w 7 6) (fld w 8 8 = 1) (x.v vd) (x.v (fld w 21 18)) with
    | some (v, fl) => TileEnd.reg a ((x.setV vd v).raise fl)
    | none => .error TileFault.encoding)

/-- VMISC (R161). -/
def execVmisc (l : LaneId) (t : Fin 1024) (w : BitVec 26) (s : State) : Host.Outcome State Fault Refusal :=
  .next (s.tileExec l t 0x24 w fun a x => do
    let v := fld w 25 22
    let sr := fld w 21 17
    let lane := fld w 16 12
    let func := fld w 11 9
    badWord (fld w 8 0 ≠ 0 || 4 < func || func ≤ 2 && lane ≠ 0 || 15 < lane)
    let y := (x.s sr).toNat
    let lanes := elems 32 16 (x.v v)
    TileEnd.reg a (match func with
      | 0 => x.setV v (packElems 32 (List.replicate 16 y))
      | 1 => x.setV v (packElems 16 (List.replicate 32 y))
      | 2 => x.setV v (packElems 8 (List.replicate 64 y))
      | 3 => x.setS sr (w32 (lanes.getD lane 0))
      | _ => x.setV v (packElems 32 (lanes.set lane y))))

/-- Writes a pair of registers (R167). -/
def Tile.setPair (x : Tile) (p : Nat) (r : BitVec 512 × BitVec 512 × Nat) : Tile :=
  (((x.setV (2 * p) r.1).setV (2 * p + 1) r.2.1).raise r.2.2)

/-- IVOP (R168, R170). -/
def execIvop (l : LaneId) (t : Fin 1024) (w : BitVec 26) (s : State) : Host.Outcome State Fault Refusal :=
  .next (s.tileExec l t 0x26 w fun a x => do
    let pa := fld w 22 20
    let pb := fld w 19 17
    let func := fld w 16 12
    badWord (fld w 11 0 ≠ 0 || 6 < func || func = 6 && pb ≠ 0)
    TileEnd.reg a (x.setPair (fld w 25 23) (ivop func (x.v (2 * pa)) (x.v (2 * pa + 1)) (x.v (2 * pb)) (x.v (2 * pb + 1)))))

/-- IVCVT (R168). -/
def execIvcvt (l : LaneId) (t : Fin 1024) (w : BitVec 26) (s : State) : Host.Outcome State Fault Refusal :=
  .next (s.tileExec l t 0x27 w fun a x => do
    let v := fld w 25 22
    let p := fld w 21 19
    let func := fld w 18 16
    badWord (fld w 15 0 ≠ 0 || 2 < func)
    TileEnd.reg a (match func with
      | 0 =>
        let (y, fl) := ivPack (x.v (2 * p)) (x.v (2 * p + 1))
        (x.setV v y).raise fl
      | 1 => x.setPair p (ivUnpack (x.v v))
      | _ => x.setPair p (x.v v, x.v v, 0)))

/-! ## Network and DMA -/

/-- SEND (R174, R128). -/
def execSend (l : LaneId) (t : Fin 1024) (w : BitVec 26) (s : State) : Host.Outcome State Fault Refusal :=
  .next (s.tileExec l t 0x30 w fun a x => do
    let n := fld w 25 22
    let addr := (x.s (fld w 21 17)).toNat
    let f := fld w 16 12 + 1
    let rt := Tab.get ({} : Route) x.routes n
    badWord (fld w 11 0 ≠ 0)
    faultIf (rt.dest = .undeclared || rt.maxFlits < f || imageTop < addr + 32 * f || addr % 32 ≠ 0) TileFault.send
    let msg : Message := { dest := rt.dest, channel := rt.channel, payload := a.read t addr (32 * f) }
    let sent := { a with flight := a.flight ++ [msg] }
    match rt.dest with
    | .tile _ =>
      if rt.credits = 0 then .ok .wait
      else TileEnd.reg sent { x with routes := Tab.set {} x.routes n { rt with credits := rt.credits - 1 } }
    | _ => TileEnd.reg sent x)

/-- The route that feeds channel `ch` of tile `t` (R127). -/
def ArraySt.feeder (a : ArraySt) (t ch : Nat) : Option (Nat × Nat) :=
  a.tiles.findSome? fun e => (e.2.routes.find? fun r => r.2.dest = .tile t && r.2.channel = ch).map fun r => (e.1, r.1)

/-- RELEASE (R175, R126). -/
def execRelease (l : LaneId) (t : Fin 1024) (w : BitVec 26) (s : State) : Host.Outcome State Fault Refusal :=
  .next (s.tileExec l t 0x31 w fun a x => do
    let ch := fld w 25 22
    let c := Tab.get ({} : Channel) x.channels ch
    badWord (fld w 21 0 ≠ 0)
    faultIf (c.kind = .undeclared || c.tokens = 0) TileFault.chan
    let freed := { c with head := (c.head + 1) % c.slotCount, tokens := c.tokens - 1 }
    let due := if c.kind = .message then (a.feeder t ch).toList else []
    TileEnd.reg { a with creditsDue := a.creditsDue ++ due } { x with channels := Tab.set {} x.channels ch freed })

/-- CHHEAD (R176). -/
def execChhead (l : LaneId) (t : Fin 1024) (w : BitVec 26) (s : State) : Host.Outcome State Fault Refusal :=
  .next (s.tileExec l t 0x32 w fun a x => do
    let c := Tab.get ({} : Channel) x.channels (fld w 25 22)
    badWord (fld w 11 0 ≠ 0)
    faultIf (c.kind = .undeclared) TileFault.chan
    if c.tokens = 0 then .ok .wait
    else TileEnd.reg a (x.setS (fld w 21 17) (w32 (c.base + c.head * c.slotSize))))

/-- DMA (R177, R132). -/
def execDma (l : LaneId) (t : Fin 1024) (w : BitVec 26) (s : State) : Host.Outcome State Fault Refusal :=
  .next (s.tileExec l t 0x33 w fun a x => do
    let ch := fld w 24 21
    let c := Tab.get ({} : Channel) x.channels ch
    let sram := (x.s (fld w 20 16)).toNat
    let off := (x.s (fld w 15 11)).toNat
    let len := (x.s (fld w 10 6)).toNat
    badWord (fld w 5 0 ≠ 0)
    faultIf (c.kind ≠ .dma || len = 0 || 65536 < len || len % 64 ≠ 0 || sram % 64 ≠ 0 || off % 64 ≠ 0 ||
      imageTop < sram + len || a.segmentSize < off + len) TileFault.dma
    let queued := (x.dmaq.filter fun d => d.channel = ch).length
    if 8 ≤ x.dmaq.length || c.slotCount ≤ c.tokens + queued then .ok .wait
    else TileEnd.reg a { x with dmaq := x.dmaq ++ [{ toSegment := fld w 25 25 = 1, channel := ch, sram := sram, offset := off, length := len }] })

/-! ## Special registers and flags (R166) -/

/-- TILE_STATUS (05 Table 5.5). -/
def tileStatus (first aborted : Bool) (dma : Bool) (k : Nat) : U32 := w32 (k % 16 + 0x20 * flag dma + 0x40 * flag aborted + 0x80 * flag first)

/-- A special register (05 Table 5.3). -/
def specialReg (n t : Nat) (status : U32) (epoch : U64) (cycles : U32) : U32 :=
  match n with
  | 0x00 => w32 t
  | 0x01 => status
  | 0x02 => epoch.setWidth 32
  | 0x03 => (epoch >>> 32).setWidth 32
  | 0x04 => cycles
  | 0x05 => cycles
  | _ => 0

/-- SRR. The cycle counter's reads are free values (assumption log 25). -/
def execSrr (l : LaneId) (t : Fin 1024) (w : BitVec 26) (s : State) : Host.Outcome State Fault Refusal :=
  let st := (s.lane l).step
  let x := (s.lane l).array.tile t
  let n := fld w 15 0
  let status := tileStatus st.firstStep st.abortedLast (!x.dmaq.isEmpty) s.img.kMod
  let v := specialReg n t status x.stepEpoch (Config.freeWord s.fresh)
  .next ((if n = 4 ∨ n = 5 then { s with fresh := s.fresh + 1 } else s).tileExec l t 0x34 w fun a x => do
    badWord (fld w 20 16 ≠ 0)
    TileEnd.reg a (x.setS (fld w 25 21) v))

/-- FLAGS. -/
def execFlags (l : LaneId) (t : Fin 1024) (w : BitVec 26) (s : State) : Host.Outcome State Fault Refusal :=
  .next (s.tileExec l t 0x35 w fun a x => do
    badWord (fld w 15 8 ≠ 0)
    TileEnd.reg a { x.setS (fld w 25 21) x.flagWord with flagWord := x.flagWord &&& ~~~w32 (fld w 7 0) })

end Sys2Proof.Machine
end

