-- ==== Sys2Proof/Machine/TileArray.lean ====
section
/-! DEFINITION. The tile array outside its instructions (05): firing, messages, credits, DMA, the output collector, the
input distributor, the start of a step and its abort. -/

namespace Sys2Proof.Machine

/-! ## Firing and arrivals -/

/-- Changes the tile array of lane `l`. -/
def State.onArray (s : State) (l : LaneId) (f : ArraySt → ArraySt) : State := s.onLane l fun x => { x with array := f x.array }

/-- A route has a credit; routes to edge ports have no limit (R126). -/
def Route.hasCredit (r : Route) : Bool :=
  match r.dest with
  | .edge _ => true
  | .tile _ => 0 < r.credits
  | .undeclared => false

/-- A block is ready (R129). -/
def Tile.blockReady (x : Tile) (b : Block) : Bool :=
  (List.range 16).all fun i =>
    (!b.tokenMask.getLsbD i || 0 < (Tab.get ({} : Channel) x.channels i).tokens) &&
      (!b.creditMask.getLsbD i || (Tab.get ({} : Route) x.routes i).hasCredit)

/-- TILE_BLOCK_FIRE (R129): an idle sequencer of a running row fires the lowest ready block. -/
def execTileBlockFire (l : LaneId) (t : Fin 1024) (s : State) : Host.Outcome State Fault Refusal :=
  let a := (s.lane l).array
  let x := a.tile t
  .next (if !((s.lane l).isRunning && a.row (t.val / 32) = .running && x.active && x.seq = .idle) then s
  else match x.blocks.find? x.blockReady with
    | none => s
    | some b =>
      s.onArray l fun a =>
        if b.entry < 0x100 then a.setTile t { x with seq := .fault TileFault.entry }
        else (a.setTile t { x with seq := .run, pc := b.entry }).fetch t)

/-- A message lands in its channel's next free slot (R126, R174). -/
def ArraySt.land (a : ArraySt) (t : Nat) (m : Message) : ArraySt :=
  let x := a.tile t
  let c := Tab.get ({} : Channel) x.channels m.channel
  let slot := if c.slotCount = 0 then 0 else (c.head + c.tokens) % c.slotCount
  (a.write t (c.base + slot * c.slotSize) m.payload).setTile t
    { x with channels := Tab.set {} x.channels m.channel { c with tokens := c.tokens + 1 } }

/-- Removes the first element a condition picks. -/
def takeFirst {α : Type} (f : α → Bool) : List α → Option (α × List α)
  | [] => none
  | x :: xs => if f x then some (x, xs) else (takeFirst f xs).map fun r => (r.1, x :: r.2)

/-- MESSAGE_ARRIVAL (R126, R139, R140): the oldest message for the tile lands, or wakes a LAZY row and waits in the router. -/
def execMessageArrival (l : LaneId) (t : Fin 1024) (s : State) : Host.Outcome State Fault Refusal :=
  let a := (s.lane l).array
  let y := t.val / 32
  .next (if !(s.lane l).isRunning then s
  else match takeFirst (fun m => m.dest = .tile t.val) a.flight with
    | none => s
    | some (m, rest) =>
      s.onArray l fun a =>
        match a.row y with
        | .running => { a with flight := rest }.land t m
        | .waking => a
        | .gated => if a.policy y = 1 then a.setRow y .waking else a)

/-- CREDIT_ARRIVAL (R126). -/
def execCreditArrival (l : LaneId) (t : Fin 1024) (route : Fin 16) (s : State) : Host.Outcome State Fault Refusal :=
  let a := (s.lane l).array
  .next (match takeFirst (fun c => c = (t.val, route.val)) a.creditsDue with
    | none => s
    | some (_, rest) =>
      s.onArray l fun a => { a with creditsDue := rest }.onTile t fun y =>
        { y with routes := Tab.modify ({} : Route) y.routes route fun r => { r with credits := r.credits + 1 } })

/-- Moves the bytes of a descriptor (R132). -/
def ArraySt.moveDma (a : ArraySt) (t : Nat) (d : DmaDesc) : ArraySt :=
  if d.toSegment then { a with segment := a.segment.writeBytes d.offset (a.read t d.sram d.length) }
  else a.write t d.sram (a.segment.readBytes d.offset d.length)

/-- DMA_COMPLETION (R132, R177): descriptors complete in order, each with a token. -/
def execDmaCompletion (l : LaneId) (t : Fin 1024) (s : State) : Host.Outcome State Fault Refusal :=
  let a := (s.lane l).array
  .next (match (a.tile t).dmaq with
    | [] => s
    | d :: rest =>
      s.onArray l fun a => (a.moveDma t d).onTile t fun y =>
        { y with
          dmaq := rest
          channels := Tab.modify ({} : Channel) y.channels d.channel fun c => { c with tokens := c.tokens + 1 } })

/-- ROW_WAKE_COMPLETE (R23, R139). -/
def execRowWakeComplete (l : LaneId) (y : Fin 32) (s : State) : Host.Outcome State Fault Refusal :=
  .next (if (s.lane l).array.row y = .waking then s.onArray l fun a => a.setRow y .running else s)

/-! ## The output collector (R136) -/

/-- Bytes of one element of an output binding (07 R188). -/
def OutBinding.elSize (b : OutBinding) : Nat := if b.kind = 6 then 8 else if b.kind = 5 ∧ b.fmt = 0x10 then 8 else 4

/-- Bytes of its tensor. -/
def OutBinding.size (b : OutBinding) : Nat := b.elSize * b.count

/-- Every element has arrived. -/
def Tensor.complete (x : Tensor) (b : OutBinding) : Bool := (List.range b.size).all fun i => (Tab.get none x.bytes i).isSome

/-- The tensor's bytes. -/
def Tensor.data (x : Tensor) (b : OutBinding) : List Byte := (List.range b.size).map fun i => (Tab.get none x.bytes i).getD 0

/-- Writes bytes from an offset up. -/
def Tensor.write (x : Tensor) (off : Nat) (bs : List Byte) : Tensor :=
  { x with bytes := ((List.range bs.length).zip bs).foldl (fun (t : Tab (Option Byte)) e => Tab.set none t (off + e.1) (some e.2)) x.bytes }

/-- The active image. -/
def State.image (s : State) : Option Image := s.img.images.find? fun i => some i.slot = s.img.activeSlot

/-- OUTPUT_COLLECT (R136): the oldest message at the edge port goes into its binding's tensor, or is discarded with
INVALID_OUT. A step's complete bindings are taken further at STEP_COMPLETE (assumption log 27). -/
def execOutputCollect (l : LaneId) (y : Fin 32) (s : State) : Host.Outcome State Fault Refusal :=
  let a := (s.lane l).array
  .next (if !(s.lane l).isRunning then s
  else match takeFirst (fun m => m.dest = .edge y.val) a.flight with
    | none => s
    | some (m, rest) =>
      let n := u16At m.payload 0
      let off := u32At m.payload 4
      let bs := m.payload.drop 8
      let b := (s.image.map (·.outputs)).bind fun o => o.find? fun b => b.index = n && off + bs.length ≤ b.size
      s.onLane l fun x =>
        let x := { x with array := { a with flight := rest } }
        match b with
        | none => { x with model := { x.model with invalidOut := satTo 32 (x.model.invalidOut + 1) } }
        | some _ => { x with step := { x.step with tensors := Tab.modify {} x.step.tensors n fun t => t.write off bs } })

/-! ## The input distributor (R135, 04 R90, 06 R171) -/

/-- The value N / den * 2^e, its bits below the 80th replaced by one sticky bit: every rounding of it is that of the exact
value. -/
def quotVal (N : Int) (den : Nat) (e : Int) : FVal :=
  .fin (N < 0) (2 * (N.natAbs * 2 ^ 80 / den) + flag (N.natAbs * 2 ^ 80 % den ≠ 0)) (e - 81)

/-- A field type of 07 R186: bytes, denominator of its unit, and its "no reading" (00 Table 0.4). -/
def fieldForm : Nat → Nat × Nat × Option Nat
  | 1 => (2, 64, some 0x8000)
  | 2 => (2, 10, some 0xFFFF)
  | 3 => (4, 1000, some 0xFFFFFFFF)
  | 4 => (2, 20, some 0xFFFF)
  | 5 => (2, 1, some 0xFFFF)
  | 6 => (4, 1, none)
  | 7 => (2, 1, none)
  | _ => (1, 1, none)

/-- raw / den + sign * a exactly, for a finite a. -/
def offsetBy (raw : Int) (den : Nat) (up : Bool) (a : F32) : FVal :=
  match F32.val a with
  | .fin _ m e =>
    let d : Int := if up then m * den else -((m * den : Nat) : Int)
    if 0 ≤ e then quotVal (raw + d * 2 ^ e.toNat) den 0 else quotVal (raw * 2 ^ (-e).toNat + d) den e
  | _ => quotVal raw den 0

/-- The rack of a chip slot (09 Table 9.1). -/
def Topology.slotRack (t : Topology) (c : Nat) : Option Nat :=
  (t.trays.find? fun e => e.2.enable && e.2.firstSlot ≤ c && c < e.2.firstSlot + e.2.count).map fun e => e.2.rack

/-- Element `i` of an input binding: the ends of its interval; a point has equal ends. -/
def InBinding.element (b : InBinding) (imageId : Nat) (tLimit : Nat → Option U16) (fb : List Byte) (i : Nat) : FVal × FVal :=
  let (n, den, absent) := fieldForm b.fieldType
  let v := fieldAt fb (b.frameOffset + i * b.stride) n
  if some v = absent then
    let free := Config.absentInterval imageId b.index
    match b.fieldType, tLimit (b.firstSlot + i) with
    | 1, some t => (quotVal t.toInt 64 0, quotVal 0x7FFF 64 0)
    | _, _ => (F32.val free.1, F32.val free.2)
  else
    let raw : Int := if b.fieldType = 1 then sext 16 v + (if b.role = 2 then b.pairOffset.toInt else 0) else v
    (offsetBy raw den false b.accuracy, offsetBy raw den true b.accuracy)

/-- The element converted to the tensor's format: its bits and their width. -/
def convertEl (fmt : Nat) (x : FVal × FVal) : Nat × Nat :=
  if fmt = 0x10 then ((fmtF32.convert .rdn false x.1).1 + 2 ^ 32 * (fmtF32.convert .rup false x.2).1, 64)
  else if fmt = 5 then ((fmtBf16.convert .rdn false x.1).1 + 2 ^ 16 * (fmtBf16.convert .rup false x.2).1, 32)
  else ((toElem fmt .rne true x.1).1, elWidth fmt)

/-- The point a point tensor takes: the reading itself. -/
def InBinding.point (b : InBinding) : InBinding := if b.fmt = 5 ∨ b.fmt = 0x10 then b else { b with accuracy := 0 }

/-- The converted tensor of a binding. -/
def InBinding.tensor (b : InBinding) (imageId : Nat) (tLimit : Nat → Option U16) (fb : List Byte) : List Byte :=
  let els := (List.range b.count).map fun i => convertEl b.fmt (b.point.element imageId tLimit fb i)
  let w := if b.fmt = 0x10 then 64 else elWidth b.fmt
  leBytes ((w * b.count + 7) / 8) (els.foldr (fun (x : Nat × Nat) (acc : Nat) => x.1 % 2 ^ x.2 + 2 ^ x.2 * acc) 0)

/-- Cuts bytes into pieces of at most `n`. -/
def slices (n : Nat) : Nat → List Byte → List (List Byte)
  | 0, _ => []
  | k + 1, bs => if bs.isEmpty then [] else bs.take n :: slices n k (bs.drop n)

/-- The messages of a binding, one for each slot it fills (07 R186). -/
def ArraySt.inject (a : ArraySt) (b : InBinding) (bs : List Byte) : List Message :=
  let c := Tab.get ({} : Channel) (a.tile b.tile).channels b.channel
  if c.slotSize = 0 then []
  else (slices c.slotSize bs.length bs).map fun p => { dest := .tile b.tile, channel := b.channel, payload := p }

/-! ## Start of a step (Table 5.7), its completion and its abort -/

/-- Wakes row `y` at the grant: EAGER with an active tile; HELD rows run from activation (R139). -/
def ArraySt.wakeRow (a : ArraySt) (y : Nat) : ArraySt :=
  if a.row y = .gated ∧ a.policy y = 0 ∧ a.tiles.any (fun e => e.1 / 32 = y && e.2.active) then a.setRow y .waking else a

/-- A tile at the grant: epoch latched, INPUT channels emptied, flag word cleared, ready to fire (R145, R154). -/
def Tile.atGrant (x : Tile) (epoch : Nat) : Tile :=
  if !x.active then x
  else
    { x with
      stepEpoch := BitVec.ofNat 64 epoch, flagWord := 0, seq := .idle
      channels := (x.channels.map fun e => (e.1, if e.2.kind = .input then { e.2 with head := 0, tokens := 0 } else e.2)) }

/-- The lane's part of a step grant on the frame of the tick. -/
def Lane.startStep (x : Lane) (img : Image) (epoch due : Nat) (tLimit : Nat → Option U16) (fb : List Byte) : Lane :=
  let a := x.array
  let inputTo : Message → Bool := fun m =>
    match m.dest with
    | .tile t => (Tab.get ({} : Channel) (a.tile t).channels m.channel).kind = .input
    | _ => false
  let a := { a with
    tiles := a.tiles.map fun e => (e.1, e.2.atGrant epoch)
    flight := a.flight.filter fun m => !inputTo m }
  let a := (List.range 32).foldl ArraySt.wakeRow a
  let a := { a with flight := a.flight ++ img.inputs.flatMap fun b => a.inject b (b.tensor img.imageId tLimit fb) }
  { x with array := a, step := { x.step with running := true, epoch := epoch, due := due, tensors := [] } }

/-- The step of a lane is complete (R137). -/
def Lane.stepDone (x : Lane) (img : Image) : Bool :=
  let a := x.array
  (a.tiles.all fun e => !e.2.active || (e.2.seq = .stepEnd && e.2.dmaq.isEmpty)) &&
    (img.outputs.all fun b => (Tab.get ({} : Tensor) x.step.tensors b.index).complete b) &&
    (a.tiles.all fun e => e.2.channels.all fun c => c.2.kind ≠ .message || c.2.tokens = 0) &&
    (a.tiles.all fun e => e.2.routes.all fun r =>
      match r.2.dest with
      | .tile t => r.2.credits = (Tab.get ({} : Channel) (a.tile t).channels r.2.channel).slotCount
      | _ => true)

/-- Every channel empty and every route with its full credit (R126). -/
def ArraySt.refill (a : ArraySt) : ArraySt :=
  { a with
    flight := [], creditsDue := []
    tiles := a.tiles.map fun e => (e.1,
      { e.2 with
        channels := e.2.channels.map fun c => (c.1, { c.2 with head := 0, tokens := 0 })
        routes := e.2.routes.map fun r => (r.1,
          match r.2.dest with
          | .tile t => { r.2 with credits := (Tab.get ({} : Channel) (a.tile t).channels r.2.channel).slotCount }
          | _ => r.2) }) }

/-- The abort save record of a tile (06 Table 6.12). -/
def Tile.saveRecord (x : Tile) : List Byte :=
  let (code, word) := match x.seq with
    | .fault c => (c, x.pc)
    | .run => (0, x.pc)
    | _ => (0, 0xFFFFFFFF)
  le16 1 ++ le16 1680 ++ le16 code ++ le16 0 ++ le32 word ++ leW x.flagWord ++
    (List.range 32).flatMap (fun i => leW (x.s i)) ++ (List.range 16).flatMap (fun i => vecBytes (x.v i)) ++
    (List.range 8).flatMap (fun i => vecBytes (x.acc i))

/-- A tile's part of an abort: queued DMA finishes without tokens, the record is saved, every register is zero (R138, 06 R179). -/
def ArraySt.abortTile (a : ArraySt) (t : Nat) : ArraySt :=
  let x := a.tile t
  if !x.active then a
  else
    let a := x.dmaq.foldl (fun (a : ArraySt) d => a.moveDma t d) a
    (a.write t 0x2E400 x.saveRecord).setTile t
      { x with seq := .stepEnd, pc := 0, sregs := [], vregs := [], accs := [], flagWord := 0, dmaq := [] }

/-- Abort of a lane's step (R138). -/
def Lane.abortStep (x : Lane) : Lane :=
  let a := (x.array.tiles.map Prod.fst).foldl ArraySt.abortTile x.array
  let a := a.refill
  let a := { a with rows := a.rows.filter fun e => a.policy e.1 = 2 }
  { x with array := a, step := { x.step with running := false, abortedLast := true, firstStep := false, tensors := [] } }

end Sys2Proof.Machine
end

