-- ==== Sys2Proof/Machine/ImageCheck.lean ====
section
/-! DEFINITION. The loader's check of an image (07 R181-R190): header, section table, lengths, digest and every section, and
the record of what later rules read of the image. -/

namespace Sys2Proof.Machine

/-- A structural refusal (R190): record or section index, reason of Table 7.10, variant. -/
def imgBad (index reason variant : Nat) : Reply := { status := SC.badParam, r0 := w32 (index * 65536 + reason * 256 + variant) }

/-- The refusals of R183. -/
def tooLong (v limit : Nat) : Reply := { status := SC.lengthExceedsBuffer, r0 := lo32 v, r1 := lo32 limit, r2 := hi32 v }
def allOnesLength (v limit : Nat) : Reply := { status := SC.badLength, r0 := lo32 v, r1 := lo32 limit, r2 := hi32 v }

/-- Refuses where a condition holds. -/
def refuseIf (c : Bool) (r : Reply) : Except Reply Unit := if c then .error r else .ok ()

/-- A section entry (Table 7.2) with its index in the table. -/
structure Section where
  idx : Nat
  ty : Nat
  variant : Nat
  count : Nat
  off : Nat
  size : Nat
deriving DecidableEq, Repr

def Section.fin (x : Section) : Nat := x.off + x.size

def sectionTable (b : List Byte) : List Section :=
  (List.range (u16At b 0x1C)).map fun i =>
    let o := 0x80 + 24 * i
    { idx := i, ty := u16At b o, variant := u8At b (o + 2), count := u32At b (o + 4), off := u64At b (o + 8), size := u64At b (o + 16) }

/-- Types by scope (Table 7.3). -/
def variantTypes : List Nat := [1, 2, 3, 4, 5, 6, 7]
def commonTypes : List Nat := [0x10, 0x11, 0x12, 0x13]

/-- Length of an image whose image_length field R183 refuses is not checked in the header. -/
def imageLength (b : List Byte) : Nat := u64At b 8
def allOnes64 : Nat := 0xFFFFFFFFFFFFFFFF

/-- Step 1 of R190: the header (Table 7.1). -/
def checkHeader (b : List Byte) : Except Reply Unit := do
  let n := imageLength b
  refuseIf (u16At b 0 ≠ 1 || u16At b 2 ≠ 128 || u32At b 4 ≠ 0x494B584D || 4 ≤ u32At b 0x18 ||
    u16At b 0x1C = 0 || 4096 < u16At b 0x1C || u8At b 0x1E = 0 || 8 < u8At b 0x1E || u8At b 0x1F ≠ 0 ||
    !zeroRange b 0x24 12 || !zeroRange b 0x60 32) (imgBad 0 0x01 0xFF)
  refuseIf (n ≤ 0x80000000 && (n % 64 ≠ 0 || n < 256)) (imgBad 0 0x01 0xFF)
  refuseIf (u32At b 0x20 ≠ 1) (imgBad 0 0x0D 0xFF)

/-- The first element that a condition picks refuses. -/
def refuseFirst {α : Type} (l : List α) (c : α → Bool) (r : α → Reply) : Except Reply Unit :=
  match l.find? c with
  | some x => .error (r x)
  | none => .ok ()

/-- Sections that lie inside the image, of which an overlap is judged. -/
def Section.inside (x : Section) (n : Nat) : Bool := x.fin ≤ n

/-- How often each type may stand for a variant, and the commons (R182). -/
def sectionCounts (secs : List Section) (variants : Nat) (hasTable : Bool) : Except Reply Unit := do
  let n := fun (ty v : Nat) => (secs.filter fun x => x.ty = ty && x.variant = v).length
  let bad := fun (v : Nat) => imgBad 0 0x04 v
  refuseFirst (List.range variants) (fun v =>
    [1, 2, 4, 6].any (fun ty => n ty v ≠ 1) || [3, 5].any (fun ty => 1 < n ty v) || n 7 v ≠ flag hasTable) bad
  refuseIf (n 0x10 0xFF ≠ 1 || n 0x11 0xFF ≠ 1 || 1 < n 0x12 0xFF || n 0x13 0xFF ≠ flag hasTable) (bad 0xFF)

/-- Step 2: the section table. -/
def checkSections (b : List Byte) (secs : List Section) : Except Reply Unit := do
  let nv := u8At b 0x1E
  let n := imageLength b
  let head := 0x80 + 24 * secs.length
  refuseFirst secs (fun x => !(variantTypes ++ commonTypes).contains x.ty || u8At b (0x80 + 24 * x.idx + 3) ≠ 0)
    fun x => imgBad x.idx 0x01 x.variant
  refuseFirst secs (fun x => if variantTypes.contains x.ty then nv ≤ x.variant else x.variant ≠ 0xFF) fun x => imgBad x.idx 0x04 x.variant
  refuseFirst secs (fun x => x.off % 64 ≠ 0 || x.off < head ||
    (x.inside n && secs.any fun y => y.idx < x.idx && y.inside n && x.off < y.fin && y.off < x.fin)) fun x => imgBad x.idx 0x03 x.variant
  sectionCounts secs nv (bit (u32At b 0x18) 1)

/-- Step 3: the lengths (R183). -/
def checkLengths (b : List Byte) (secs : List Section) : Except Reply Unit := do
  let n := imageLength b
  refuseIf (n = allOnes64) (allOnesLength n 0x80000000)
  refuseIf (0x80000000 < n) (tooLong n 0x80000000)
  refuseFirst secs (fun x => x.size = allOnes64) fun x => allOnesLength x.size n
  refuseFirst secs (fun x => n < x.fin) fun x => tooLong x.fin n

/-- Records of a section in order: `f` reads one at an offset and says where the next begins. -/
def walkRecs {α : Type} (f : Nat → Nat → Except Reply (α × Nat)) : Nat → Nat → Nat → Except Reply (List α)
  | 0, _, _ => .ok []
  | n + 1, i, off => do
    let (r, next) ← f i off
    let rest ← walkRecs f n (i + 1) next
    .ok (r :: rest)

/-- A record must end within its section. -/
def within (x : Section) (fin : Nat) : Except Reply Unit := refuseIf (x.fin < fin) (tooLong fin x.fin)

/-- Records of one size. -/
def fixedRecs {α : Type} (x : Section) (size : Nat) (f : Nat → α) : Except Reply (List α) :=
  walkRecs (fun _ o => do within x (o + size); .ok (f o, o + size)) x.count 0 x.off

/-- The variant declaration at an offset (Table 7.4). -/
def variantAt (b : List Byte) (o : Nat) : Variant :=
  { index := u8At b (o + 4), fold := u8At b (o + 5), residency := if u8At b (o + 6) = 0 then .resident else .streamed
    tileCount := u16At b (o + 8), colSpan := u8At b (o + 0xA), sramNeed := u32At b (o + 0xC), tBody := u32At b (o + 0x10)
    inputBytes := u32At b (o + 0x14), segmentSize := u64At b (o + 0x18), stateSize := u64At b (o + 0x20)
    rowPolicy := BitVec.ofNat 64 (u64At b (o + 0x28)), streamRow := (List.range 32).map fun y => u32At b (o + 0x40 + 4 * y) }

/-- A VARIANT declaration by itself (reason 0x08). -/
def variantOk (b : List Byte) (o v : Nat) : Bool :=
  u16At b o = 1 && u16At b (o + 2) = 224 && u8At b (o + 4) = v && [1, 2, 4, 8].contains (u8At b (o + 5)) && u8At b (o + 6) ≤ 1 &&
    u8At b (o + 7) = 0 && 1 ≤ u16At b (o + 8) && u16At b (o + 8) ≤ 1024 && 1 ≤ u8At b (o + 0xA) && u8At b (o + 0xA) ≤ 32 &&
    u8At b (o + 0xB) = 0 && zeroRange b (o + 0x30) 16 && zeroRange b (o + 0xC0) 32 &&
    ((List.range 32).all fun y => bits (u64At b (o + 0x28)) (2 * y + 1) (2 * y) ≠ 3) &&
    (u8At b (o + 6) = 1 || zeroRange b (o + 0x40) 128)

/-- PROGRAM records: tile, word address count, offset of the words. -/
def programRecs (b : List Byte) (x : Section) : Except Reply (List (Nat × Nat × Nat)) :=
  walkRecs (fun i o => do
    within x (o + 4)
    let n := u16At b (o + 2)
    within x (o + 4 + 4 * n)
    refuseIf (1023 < u16At b o || n = 0 || 3840 < n) (imgBad i 0x05 x.variant)
    .ok ((u16At b o, n, o + 4), o + 4 + 4 * n)) x.count 0 x.off

/-- SRAM_INIT records: tile, SRAM offset, length, offset of the bytes. -/
def sramRecs (b : List Byte) (x : Section) : Except Reply (List (Nat × Nat × Nat × Nat)) :=
  walkRecs (fun i o => do
    within x (o + 12)
    let n := u32At b (o + 8)
    let next := o + 12 + (n + 3) / 4 * 4
    within x next
    refuseIf (1023 < u16At b o || imageTop < u32At b (o + 4) + n) (imgBad i 0x05 x.variant)
    .ok ((u16At b o, u32At b (o + 4), n, o + 12), next)) x.count 0 x.off

/-- SEGMENT_INIT records: segment offset, length, offset of the bytes. -/
def segmentRecs (b : List Byte) (x : Section) (size : Nat) : Except Reply (List (Nat × Nat × Nat)) :=
  walkRecs (fun i o => do
    within x (o + 16)
    let n := u64At b (o + 8)
    within x (o + 16 + n)
    refuseIf (n % 64 ≠ 0 || size < u64At b o + n) (imgBad i 0x08 x.variant)
    .ok ((u64At b o, n, o + 16), o + 16 + n)) x.count 0 x.off

def chKindOf : Nat → ChKind
  | 1 => .message | 2 => .dma | 3 => .input | _ => .undeclared

/-- Channel `c`, route `r` and block `k` of a GRAPH record (Table 7.5). -/
def channelAt (b : List Byte) (o c : Nat) : Channel :=
  { kind := chKindOf (u8At b (o + 4 + 8 * c)), slotCount := u8At b (o + 5 + 8 * c), slotSize := 32 * u8At b (o + 6 + 8 * c)
    base := u32At b (o + 8 + 8 * c) }

def routeAt (b : List Byte) (o r : Nat) : Route :=
  let d := u16At b (o + 0x84 + 4 * r)
  { dest := if d = 0xFFFF then .undeclared else if 0x8000 ≤ d then .edge (d - 0x8000) else .tile d
    channel := u8At b (o + 0x86 + 4 * r), maxFlits := u8At b (o + 0x87 + 4 * r) }

def blockAt (b : List Byte) (o k : Nat) : Block :=
  { entry := u16At b (o + 0xC4 + 8 * k), tokenMask := BitVec.ofNat 16 (u16At b (o + 0xC8 + 8 * k))
    creditMask := BitVec.ofNat 16 (u16At b (o + 0xCA + 8 * k)) }

/-- A GRAPH record: the tile with its channels, routes and blocks. -/
structure GraphRec where
  tile : Nat
  blocks : List Block
  channels : List Channel
  routes : List Route
deriving DecidableEq, Repr

def graphAt (b : List Byte) (o : Nat) : GraphRec :=
  { tile := u16At b o, blocks := (List.range (u8At b (o + 2))).map (blockAt b o)
    channels := (List.range 16).map (channelAt b o), routes := (List.range 16).map (routeAt b o) }

/-- Limits of Table 5.6 on a channel and on a route, given the channel it names. -/
def Channel.declOk (c : Channel) : Bool :=
  c.kind = .undeclared || (1 ≤ c.slotCount && c.slotCount ≤ 64 && 32 ≤ c.slotSize && c.slotSize ≤ 1024 && c.base % 64 = 0)

def Route.declOk (r : Route) (dest : Nat → Nat → Option Channel) : Bool :=
  match r.dest with
  | .undeclared => true
  | .edge y => y < 32 && 1 ≤ r.maxFlits && r.maxFlits ≤ 32 && r.channel = 0
  | .tile t =>
    match dest t r.channel with
    | some c => c.kind = .message && 1 ≤ r.maxFlits && r.maxFlits ≤ 32 && 32 * r.maxFlits ≤ c.slotSize
    | none => false

/-- Checks of the GRAPH section (reasons 0x05 to 0x07). -/
def checkGraph (b : List Byte) (x : Section) (gs : List GraphRec) : Except Reply Unit := do
  let recs := (List.range gs.length).zip gs
  let v := x.variant
  refuseFirst recs (fun e => 1023 < e.2.tile || e.2.channels.any fun c => c.kind ≠ .undeclared && imageTop ≤ c.base) fun e => imgBad e.1 0x05 v
  refuseFirst recs (fun e => e.2.blocks.isEmpty || 64 < e.2.blocks.length || e.2.blocks.any fun k =>
      k.entry < 0x100 || 0xFFF < k.entry || (List.range 16).any fun i =>
        (k.tokenMask.getLsbD i && (e.2.channels.getD i {}).kind = .undeclared) ||
          (k.creditMask.getLsbD i && (e.2.routes.getD i {}).dest = .undeclared)) fun e => imgBad e.1 0x06 v
  let dest := fun (t c : Nat) => (gs.find? (·.tile = t)).bind fun g => g.channels[c]?
  let feeds := fun (t c : Nat) => (gs.map fun g => (g.routes.filter fun r => r.dest = .tile t && r.channel = c).length).sum
  refuseFirst recs (fun e =>
    let o := x.off + 708 * e.1
    u8At b (o + 3) ≠ 0 || (List.range 16).any (fun c => 3 < u8At b (o + 4 + 8 * c) || u8At b (o + 7 + 8 * c) ≠ 0) ||
      e.2.channels.any (fun c => !c.declOk) || e.2.routes.any (fun r => !r.declOk dest) ||
      (List.range 16).any (fun c => (e.2.channels.getD c {}).kind = .message && feeds e.2.tile c ≠ 1)) fun e => imgBad e.1 0x07 v

/-- An input binding (Table 7.6). -/
def inBindingAt (b : List Byte) (o : Nat) : InBinding :=
  { index := u16At b o, role := u8At b (o + 2), fieldType := u8At b (o + 3), frameOffset := u32At b (o + 4), count := u16At b (o + 8)
    stride := u16At b (o + 0xA), fmt := u8At b (o + 0xC), channel := u8At b (o + 0xD), tile := u16At b (o + 0xE)
    accuracy := f32At b (o + 0x10), pairOffset := BitVec.ofNat 16 (u16At b (o + 0x14)), firstSlot := u16At b (o + 0x16) }

/-- Bytes of its converted tensor. -/
def InBinding.size (b : InBinding) : Nat := ((if b.fmt = 0x10 then 64 else elWidth b.fmt) * b.count + 7) / 8

/-- An output binding (Table 7.7). -/
def outBindingAt (b : List Byte) (o : Nat) : OutBinding :=
  { index := u16At b o, kind := u8At b (o + 2), cls := u8At b (o + 3), period := u8At b (o + 4), sense := u8At b (o + 5)
    horizon := u8At b (o + 6), fmt := u8At b (o + 7), firstTarget := u16At b (o + 8), count := u16At b (o + 0xA), tolerance := f32At b (o + 0xC) }

/-- An input binding's own fields (reason 0x09). -/
def InBinding.ok (b : InBinding) : Bool :=
  b.index ≤ 4095 && b.role ≤ 2 && 1 ≤ b.fieldType && b.fieldType ≤ 8 && 1 ≤ b.count && b.count ≤ 4096 &&
    b.frameOffset + (b.count - 1) * b.stride + (fieldForm b.fieldType).1 ≤ 69520 && (b.fmt ≤ 7 || b.fmt = 0x10) && b.channel ≤ 15 &&
    F32.finite b.accuracy && F32.le 0 b.accuracy && (b.role = 2 || b.pairOffset = 0)

/-- Checks of the INPUTS section against every variant's graph (R186, R187). -/
def checkInputs (ins : List InBinding) (graphs : List (List GraphRec)) : Except Reply Unit := do
  let recs := (List.range ins.length).zip ins
  let chan := fun (g : List GraphRec) (b : InBinding) => (g.find? (·.tile = b.tile)).bind fun r => r.channels[b.channel]?
  let need := fun (c : Channel) (b : InBinding) =>
    ((ins.filter fun o => o.tile = b.tile && o.channel = b.channel).map fun o => (o.size + c.slotSize - 1) / c.slotSize).sum
  let paired := fun (b : InBinding) => b.role = 0 || ins.any fun o => o.role = 3 - b.role && o.firstSlot = b.firstSlot && o.count = b.count
  refuseFirst recs (fun e =>
    let b := e.2
    !b.ok || (ins.take e.1).any (·.index = b.index) || !paired b ||
      graphs.any fun g => match chan g b with
        | some c => c.kind ≠ .input || c.slotCount < need c b
        | none => true) fun e => imgBad e.1 0x09 0xFF
  refuseIf (0x100000 < (ins.map InBinding.size).sum) (imgBad 0 0x09 0xFF)

/-- An output binding's own fields (reason 0x0A). -/
def OutBinding.ok (b : OutBinding) : Bool :=
  let loop := b.kind = 1 || b.kind = 2
  b.index ≤ 8191 && 1 ≤ b.kind && b.kind ≤ 6 && b.cls ≤ 1 && (if b.cls = 1 then 10 ≤ b.period && b.period ≤ 100 else b.period = 0) &&
    (if loop then b.sense = 0x01 || b.sense = 0xFF else b.sense = 0) && (if b.kind = 5 then b.horizon ≤ 2 else b.horizon = 0) &&
    (if b.kind = 5 then b.fmt = 5 || b.fmt = 0x10 else if b.kind = 6 then b.fmt = 5 else b.fmt = 6) && 1 ≤ b.count && b.count ≤ 4096 &&
    (if b.kind = 6 then b.firstTarget = 0 else b.firstTarget + b.count ≤ (if loop then 256 else 4096)) &&
    F32.finite b.tolerance && F32.le 0 b.tolerance

def OutBinding.overlaps (a b : OutBinding) : Bool :=
  a.kind = b.kind && a.horizon = b.horizon && a.kind ≠ 6 && a.firstTarget < b.firstTarget + b.count && b.firstTarget < a.firstTarget + a.count

/-- Checks of the OUTPUTS section (R188, R91). -/
def checkOutputs (b : List Byte) (x : Section) (outs : List OutBinding) : Except Reply Unit := do
  let recs := (List.range outs.length).zip outs
  refuseFirst recs (fun e => !e.2.ok || !zeroRange b (x.off + 24 * e.1 + 0x10) 8 ||
    (outs.take e.1).any fun o => o.index = e.2.index || o.overlaps e.2) fun e => imgBad e.1 0x0A 0xFF
  refuseIf (outs.any (fun o => 1 ≤ o.kind && o.kind ≤ 3) &&
    !((List.range 3).all fun h => outs.any fun o => o.kind = 5 && o.horizon = h)) (imgBad 0 0x0B 0xFF)

/-- A STATE_MAP entry (Table 7.8). -/
def stateMapAt (b : List Byte) (o : Nat) : StateMap :=
  { logical := u64At b o, tile := u16At b (o + 8), off := u32At b (o + 0xC), length := u32At b (o + 0x10) }

/-- Bytes 0 to size - 1 are covered exactly once. -/
def coversOnce (size : Nat) (l : List (Nat × Nat)) : Bool :=
  let recs := (List.range l.length).zip l
  (l.map Prod.snd).sum = size && l.all (fun e => e.1 + e.2 ≤ size) &&
    recs.all fun e => (l.take e.1).all fun o => e.2.1 + e.2.2 ≤ o.1 || o.1 + o.2 ≤ e.2.1

/-- A rectangle of entries at an offset, and a TABLE_MAP entry (Table 7.9). -/
def rectAt (b : List Byte) (o : Nat) : Rect :=
  { rowFirst := u16At b o, rowCount := u16At b (o + 2), colFirst := u16At b (o + 4), colCount := u16At b (o + 6) }

def tableMapAt (b : List Byte) (o : Nat) : TableMap :=
  { rect := rectAt b o, tile := u16At b (o + 8), off := u32At b (o + 0xC), stride := u32At b (o + 0x10) }

def Rect.meets (a b : Rect) : Bool :=
  a.rowFirst < b.rowFirst + b.rowCount && b.rowFirst < a.rowFirst + a.rowCount &&
    a.colFirst < b.colFirst + b.colCount && b.colFirst < a.colFirst + a.colCount

def Rect.ok (r : Rect) : Bool :=
  1 ≤ r.rowCount && r.rowFirst + r.rowCount ≤ 4096 && 1 ≤ r.colCount && r.colFirst + r.colCount ≤ 4096

/-- The maps of a variant (R189). -/
def checkStateMap (v : Variant) (tiles : List Nat) (l : List StateMap) : Bool :=
  coversOnce v.stateSize (l.map fun e => (e.logical, e.length)) && l.all fun e =>
    if e.tile = 0xFFFF then e.off + e.length ≤ v.segmentSize else tiles.contains e.tile && e.off + e.length ≤ imageTop

def checkTableMap (tiles : List Nat) (l : List TableMap) : Bool :=
  let recs := (List.range l.length).zip l
  (l.map fun m => m.rect.rowCount * m.rect.colCount).sum = 4096 * 4096 &&
    (l.all fun m => m.rect.ok && tiles.contains m.tile && 4 * m.rect.colCount ≤ m.stride &&
      m.off + (m.rect.rowCount - 1) * m.stride + 4 * m.rect.colCount ≤ imageTop) &&
    recs.all fun e => (l.take e.1).all fun o => !(o.rect.meets e.2.rect)

/-- A thermal parameter block at an offset (Table 4.4). -/
def thermalAt (b : List Byte) (o : Nat) : ThermalBlock :=
  { adaptEnable := bit (u32At b (o + 4)) 0
    tLimit := (List.range 16).foldl (fun (t : Tab U16) k => Tab.set 0x1680 t k (BitVec.ofNat 16 (u16At b (o + 8 + 2 * k)))) []
    marginMin := BitVec.ofNat 16 (u16At b (o + 0x28)), marginMax := BitVec.ofNat 16 (u16At b (o + 0x2A))
    marginGain := BitVec.ofNat 16 (u16At b (o + 0x2C)), marginDecay := BitVec.ofNat 16 (u16At b (o + 0x2E))
    disagreeBand := BitVec.ofNat 16 (u16At b (o + 0x30)), rainflowGate := BitVec.ofNat 16 (u16At b (o + 0x32))
    disagreeTicks := u32At b (o + 0x34), adaptRel := u16At b (o + 0x38), warnLevel := u16At b (o + 0x3A), adaptAbs := f32At b (o + 0x3C)
    trendHorizon := u16At b (o + 0x40)
    excl := (List.range (u16At b (o + 0x42))).map fun n => (u16At b (o + 0x44 + 4 * n), u8At b (o + 0x46 + 4 * n)) }

/-- A slot has a sensor pair among the bindings. -/
def pairedSlot (ins : List InBinding) (c : Nat) : Bool := ins.any fun b => b.role = 1 && b.firstSlot ≤ c && c < b.firstSlot + b.count

/-- Offset of the first offending field of a thermal parameter block (R114, 00 R6, R7). -/
def thermalBad (b : List Byte) (o : Nat) (ins : List InBinding) : Option Nat :=
  let p := thermalAt b o
  let n := u16At b (o + 0x42)
  let ex := (List.range p.excl.length).zip p.excl
  let top : U16 → Int := BitVec.toInt
  if u16At b o ≠ 1 then some 0 else if u16At b (o + 2) ≠ 196 then some 2 else if 2 ≤ u32At b (o + 4) then some 4
  else if top p.marginMin ≤ 0 then some 0x28 else if top p.marginMax ≤ top p.marginMin then some 0x2A
  else if p.marginGain.toNat < 256 ∨ 1024 < p.marginGain.toNat then some 0x2C
  else if top p.disagreeBand ≤ 0 then some 0x30 else if top p.rainflowGate ≤ 0 then some 0x32
  else if p.disagreeTicks < 10 ∨ 1000000 < p.disagreeTicks then some 0x34 else if p.warnLevel = 0 then some 0x3A
  else if !F32.finite p.adaptAbs || F32.lt p.adaptAbs 0 then some 0x3C
  else if p.trendHorizon = 0 ∨ 3650 < p.trendHorizon then some 0x40 else if 32 < n then some 0x42
  else match ex.find? (fun e => 4095 < e.2.1 || 1 < e.2.2 || u8At b (o + 0x47 + 4 * e.1) ≠ 0 || !pairedSlot ins e.2.1 ||
      (p.excl.take e.1).contains e.2) with
    | some e => some (0x44 + 4 * e.1)
    | none => if zeroRange b (o + 0x44 + 4 * n) (4 * (32 - n)) then none else some (0x44 + 4 * n)

/-- An IBF16 word that keeps R92: both ends finite, lower not above upper. -/
def couplingOk (w : Nat) : Bool :=
  F32.finite (w32 (w % 65536 * 65536)) && F32.finite (w32 (w / 65536 * 65536)) && (ibf16 w).valid

/-- What the checks of the sections gather. -/
structure Gathered where
  variants : List Variant := []
  graphs : List (List GraphRec) := []
  inputs : List InBinding := []
  outputs : List OutBinding := []
  params : Option ThermalBlock := none
  priors : U32 × U32 := (0, 0)
deriving DecidableEq, Repr

/-- The first section of a type, for a variant. -/
def findSec (secs : List Section) (ty v : Nat) : Option Section := secs.find? fun x => x.ty = ty && x.variant = v

/-- The graph records of a variant, none where its section cannot be read. -/
def graphsOf (b : List Byte) (secs : List Section) (v : Nat) : List GraphRec :=
  match findSec secs 4 v with
  | some x => (fixedRecs x 708 (graphAt b)).toOption.getD []
  | none => []

def programsOf (b : List Byte) (secs : List Section) (v : Nat) : List (Nat × Nat × Nat) :=
  match findSec secs 2 v with
  | some x => (programRecs b x).toOption.getD []
  | none => []

/-- The VARIANT section agrees with the records (reason 0x08, R193, R189). -/
def variantAgrees (v : Variant) (progs graphs : List Nat) (stateSize : Option Nat) (inputBytes : Nat) : Bool :=
  progs.length = v.tileCount && distinct progs && graphs.length = v.tileCount && progs.all graphs.contains &&
    progs.all (fun t => t % 32 < v.colSpan) && (stateSize.getD v.stateSize = v.stateSize) && v.inputBytes = inputBytes

/-- Step 5 of R190 on one section. -/
def checkSection (b : List Byte) (secs : List Section) (g : Gathered) (x : Section) : Except Reply Gathered := do
  let vs := (secs.filter (·.ty = 1)).map fun s => variantAt b s.off
  let ins := ((findSec secs 0x10 0xFF).map fun s => (fixedRecs s 24 (inBindingAt b)).toOption.getD []).getD []
  let own := (vs.find? (·.index = x.variant)).getD {}
  let tiles := (graphsOf b secs x.variant).map GraphRec.tile
  match x.ty with
  | 0x01 =>
    within x (x.off + 224)
    let v := variantAt b x.off
    refuseIf (x.count ≠ 1 || !variantOk b x.off x.variant) (imgBad x.idx 0x08 x.variant)
    let progs := (programsOf b secs x.variant).map Prod.fst
    refuseIf (!variantAgrees v progs tiles (vs.head?.map Variant.stateSize) (ins.map InBinding.size).sum) (imgBad x.idx 0x08 x.variant)
    refuseIf (0x100000 < v.inputBytes) (imgBad x.idx 0x09 x.variant)
    .ok { g with variants := g.variants ++ [{ v with tiles := tiles }] }
  | 0x02 => do let _ ← programRecs b x; .ok g
  | 0x03 => do let _ ← sramRecs b x; .ok g
  | 0x04 => do
    let gs ← fixedRecs x 708 (graphAt b)
    checkGraph b x gs
    .ok { g with graphs := g.graphs ++ [gs] }
  | 0x05 => do let _ ← segmentRecs b x own.segmentSize; .ok g
  | 0x06 => do
    let l ← fixedRecs x 24 (stateMapAt b)
    refuseIf (!checkStateMap own tiles l) (imgBad x.idx 0x0C x.variant)
    .ok g
  | 0x07 => do
    let l ← fixedRecs x 24 (tableMapAt b)
    refuseIf (!checkTableMap tiles l) (imgBad x.idx 0x0C x.variant)
    .ok g
  | 0x10 => do
    refuseIf (x.count = 0 || 4096 < x.count) (imgBad x.idx 0x09 0xFF)
    let l ← fixedRecs x 24 (inBindingAt b)
    checkInputs l ((secs.filter (·.ty = 1)).map fun s => graphsOf b secs s.variant)
    .ok { g with inputs := l }
  | 0x11 => do
    refuseIf (x.count = 0 || 8192 < x.count) (imgBad x.idx 0x0A 0xFF)
    let l ← fixedRecs x 24 (outBindingAt b)
    checkOutputs b x l
    .ok { g with outputs := l }
  | 0x12 => do
    within x (x.off + 196)
    refuseIf (x.count ≠ 1 || (thermalBad b x.off ins).isSome) (imgBad x.idx 0x0E 0xFF)
    .ok { g with params := some (thermalAt b x.off) }
  | _ => do
    within x (x.off + 8)
    refuseIf (x.count ≠ 2 || !couplingOk (u32At b x.off) || !couplingOk (u32At b (x.off + 4))) (imgBad x.idx 0x0C 0xFF)
    .ok { g with priors := (w32 (u32At b x.off), w32 (u32At b (x.off + 4))) }

/-- The digest over the image with its digest field zero (R181). -/
def imageDigest (b : List Byte) : List Byte := sha384 (b.take 0x30 ++ zeros 48 ++ b.drop 0x60)

/-- R190 on the bytes of a slot, in lane `laneCode`: the checked image, or the refusal. -/
def checkImage (slot laneCode : Nat) (dram : Mem) : Except Reply Image := do
  let base := slot * 0x80000000
  let head := dram.readBytes base 128
  checkHeader head
  let tab := dram.readBytes base (128 + 24 * u16At head 0x1C)
  let secs := sectionTable tab
  checkSections tab secs
  checkLengths tab secs
  let b := dram.readBytes base (imageLength head)
  refuseIf (imageDigest b ≠ bytesAt b 0x30 48) (imgBad 0 0x02 laneCode)
  let g ← secs.foldlM (checkSection b secs) {}
  .ok {
    slot := slot, length := imageLength b, imageId := u64At b 0x10, decimAllowed := bit (u32At b 0x18) 0, hasTable := bit (u32At b 0x18) 1
    variants := g.variants, inputs := g.inputs, outputs := g.outputs, params := g.params, priors := g.priors, digest := bytesAt b 0x30 48 }

end Sys2Proof.Machine
end

