-- ==== Sys2Proof/Machine/Coupling.lean ====
section
/-! DEFINITION. The Row Coupling Table (04 R92-R98): entries, adaptation, COUPLING_ACCESS, hour windows and digests. -/

namespace Sys2Proof.Machine

/-! ## Exact values -/

/-- The exact value of a finite binary32, 0 for any other. -/
def F32.rat (x : F32) : Rat :=
  match F32.val x with
  | .fin neg m e =>
    let v : Rat := if 0 ≤ e then ((m * 2 ^ e.toNat : Nat) : Rat) else (m : Rat) / ((2 ^ (-e).toNat : Nat) : Rat)
    if neg then -v else v
  | _ => 0

/-- A rational as a value that rounds like it. -/
def ratVal (q : Rat) : FVal := quotVal q.num q.den 0

/-- A BF16 half of an entry as binary32. -/
def bf16Lo (w : U32) : F32 := w <<< 16
def bf16Hi (w : U32) : F32 := w &&& 0xFFFF0000

/-- An entry from its ends, rounded down or up to BF16 as told. -/
def entryOf (lo hi : Rat) (rLo rHi : RMode) : U32 :=
  w32 ((fmtBf16.convert rLo false (ratVal lo)).1 % 65536 + 65536 * (fmtBf16.convert rHi false (ratVal hi)).1)

/-! ## Entries -/

def Rect.has (r : Rect) (i : Nat) : Bool :=
  let row := i / 4096
  let col := i % 4096
  r.rowFirst ≤ row && row < r.rowFirst + r.rowCount && r.colFirst ≤ col && col < r.colFirst + r.colCount

/-- The entries of a range, row by row. -/
def Rect.entries (r : Rect) : List Nat :=
  (List.range r.rowCount).flatMap fun i => (List.range r.colCount).map fun j => 4096 * (r.rowFirst + i) + r.colFirst + j

/-- Changes an entry, its value before the change kept as its anchor of the hour window where it has none (R94). -/
def Lane.changeEntry (x : Lane) (i : Nat) (w : U32) : Lane :=
  let old := x.entry i
  let x := x.putEntry i w
  if (Tab.get none x.model.anchors i).isSome then x
  else { x with model := { x.model with anchors := Tab.set none x.model.anchors i (some old) } }

/-- Sets an entry and its anchor (R96). -/
def Lane.writeEntry (x : Lane) (i : Nat) (w : U32) : Lane :=
  let x := x.putEntry i w
  { x with model := { x.model with anchors := Tab.set none x.model.anchors i (some w) } }

/-- The entry's anchor: its value at the start of the hour window, or as last written. -/
def Lane.anchor (x : Lane) (i : Nat) : U32 := (Tab.get none x.model.anchors i).getD (x.entry i)

/-- Adaptation of chip slots of a rack that is not in RUN is suspended (R95). -/
def State.slotSuspended (s : State) (c : Nat) : Bool :=
  match s.cfg.topo.slotRack c with
  | some k => s.rackState k ≠ .run
  | none => false

/-- Whether a FREEZE holds the entry. -/
def ModelSt.frozenAt (m : ModelSt) (i : Nat) : Bool := (m.frozen.find? fun e => e.1.has i).elim false Prod.snd

/-- Adaptation of the whole table is frozen or suspended. -/
def State.adaptOff (s : State) : Bool := !s.cfg.thermal.adaptEnable || s.inNet

/-- Adaptation of an entry is frozen or suspended (R95), or its row or column is of an absent slot (R92). -/
def State.entryHeld (s : State) (m : ModelSt) (i : Nat) : Bool :=
  let r := i / 4096
  let c := i % 4096
  s.adaptOff || m.frozenAt i || s.slotSuspended r || s.slotSuspended c || s.slotAbsent r || s.slotAbsent c

/-- One bound of an update, within L of its anchor (R94); whether it was clamped. A limit that BF16 cannot hold is rounded
toward the anchor (assumption log 27). -/
def clampBound (v anchor l : Rat) : Rat × Bool := if v < anchor - l then (anchor - l, true) else if anchor + l < v then (anchor + l, true) else (v, false)

/-- The greatest move of a bound in the window. -/
def ThermalBlock.reach (b : ThermalBlock) (anchor : Rat) (times : Nat) : Rat :=
  let rel : Rat := (b.adaptRel : Rat) / 65536 * |anchor|
  (times : Rat) * max rel (F32.rat b.adaptAbs)

/-- A TABLE_UPDATE element on one entry (R94). -/
def Lane.adapt (x : Lane) (b : ThermalBlock) (now i : Nat) (w : U32) : Lane :=
  let a := x.anchor i
  let times := if x.model.widened.any (fun e => e.1.has i && now < e.2) then 4 else 1
  let aLo := F32.rat (bf16Lo a)
  let aHi := F32.rat (bf16Hi a)
  let (lo, c1) := clampBound (F32.rat (bf16Lo w)) aLo (b.reach aLo times)
  let (hi, c2) := clampBound (F32.rat (bf16Hi w)) aHi (b.reach aHi times)
  let w' :=
    if hi < lo then entryOf ((lo + hi) / 2) ((lo + hi) / 2) .rdn .rup
    else entryOf lo hi (if lo < aLo then .rup else .rdn) (if hi < aHi then .rup else .rdn)
  let x := x.changeEntry i w'
  if c1 || c2 then { x with model := { x.model with adaptClamped := satTo 32 (x.model.adaptClamped + 1) } } else x

/-- An hour window in ticks (R94). -/
def hourTicks : Nat := 36000000

/-- Sets the entries of present slots to the image's prior interval, and widens their adaptation for one hour window (R98). -/
def Lane.widen (x : Lane) (priors : U32 × U32) (absent : Nat → Bool) (now : Nat) (r : Rect) : Lane :=
  let x := r.entries.foldl (fun (x : Lane) i =>
    if absent (i / 4096) || absent (i % 4096) then x else x.changeEntry i (if i / 4096 = i % 4096 then priors.2 else priors.1)) x
  { x with model := { x.model with widened := (r, now + hourTicks) :: x.model.widened.filter fun e => now < e.2 } }

/-- A slot that has become absent or present: its row and column are [0, 0], and the entries it has as neighbour in the rows of
its rack's chips start from the prior interval (R98; assumption log 27). -/
def Lane.slotChanged (x : Lane) (priors : U32 × U32) (rackSlots : List Nat) (absent : Nat → Bool) (now c : Nat) : Lane :=
  let x := (List.range 4096).foldl (fun (x : Lane) j => (x.changeEntry (4096 * c + j) 0).changeEntry (4096 * j + c) 0) x
  rackSlots.foldl (fun (x : Lane) i => x.widen priors absent now { rowFirst := i, rowCount := 1, colFirst := c, colCount := 1 }) x

/-- The chip slots of the rack of slot `c`. -/
def State.rackSlots (s : State) (c : Nat) : List Nat :=
  match s.cfg.topo.slotRack c with
  | some k =>
    (s.cfg.topo.trays.filter fun e => e.2.enable && e.2.rack = k).flatMap fun e => (List.range e.2.count).map (e.2.firstSlot + ·)
  | none => []

/-! ## Step boundary -/

/-- The header of a coupling block (Table 4.7). -/
def couplingHeader (r : Rect) (epoch : Nat) : List Byte :=
  le16 1 ++ le16 24 ++ le16 r.rowFirst ++ le16 r.rowCount ++ le16 r.colFirst ++ le16 r.colCount ++ zeros 4 ++ le64 epoch

/-- The whole table of `src` into `dst`. -/
def copyTable (src dst : Lane) : Lane := (List.range (4096 * 4096)).foldl (fun (d : Lane) i => d.changeEntry i (src.entry i)) dst

/-- One operation at a step boundary (Table 4.6). -/
def State.couplingStep (s : State) (o : CouplingOp) : State :=
  let onModel := fun (f : ModelSt → ModelSt) => s.onLanes fun x => { x with model := f x.model }
  let s := match o.op with
    | 0 => s.writeTransfer o.addr (couplingHeader o.rect s.now ++ o.rect.entries.flatMap fun i => leW (s.main.entry i))
    | 1 => s.onLanes fun x => (o.rect.entries.zip o.words).foldl (fun (x : Lane) (e : Nat × U32) => x.writeEntry e.1 e.2) x
    | 2 => onModel fun m => { m with frozen := (o.rect, true) :: m.frozen }
    | 3 => onModel fun m => { m with frozen := (o.rect, false) :: m.frozen }
    | 4 =>
      match s.mainLane with
      | some l =>
        let src := s.lane l
        let s := s.onLane l.other fun x => if x.isRunning then copyTable src x else x
        s.onLanes fun x => { x with model := { x.model with diverged := false } }
      | none => s
    | _ =>
      let priors := (s.image.map Image.priors).getD (0, 0)
      s.onLanes fun x => x.widen priors s.slotAbsent s.now o.rect
  s.finish o.cmd .done

/-- Table updates of a completed step: index and entry words, less the entries a WRITE of the same boundary wrote (R94-R96). -/
def State.tableUpdates (s : State) (written : Nat → Bool) (updates : LaneId → List (Nat × U32)) : State :=
  let run := fun (x : Lane) (l : List (Nat × U32)) =>
    l.foldl (fun (x : Lane) e =>
      if 16777216 ≤ e.1 || !couplingOk e.2.toNat || written e.1 || s.entryHeld x.model e.1 then x
      else x.adapt s.cfg.thermal s.now e.1 e.2) x
  { s with
    laneA := if s.laneA.isRunning then run s.laneA (updates .A) else s.laneA
    laneB := if s.laneB.isRunning then run s.laneB (updates .B) else s.laneB }

/-- What a step boundary does to the table: slots that changed, operations in order, updates last (R95, R96, R98). -/
def State.couplingBoundary (s : State) (updates : LaneId → List (Nat × U32)) : State :=
  let priors := (s.image.map Image.priors).getD (0, 0)
  let s := s.onLanes fun x =>
    let due := x.model.absentDue
    let x := due.foldl (fun (x : Lane) e => x.slotChanged priors (s.rackSlots e.1) s.slotAbsent s.now e.1) x
    { x with model := { x.model with absentDue := [] } }
  let ops := s.img.couplingOps
  let s := ops.foldl State.couplingStep { s with img := { s.img with couplingOps := [] } }
  s.tableUpdates (fun i => ops.any fun o => o.op = 1 && o.rect.has i) updates

/-! ## COUPLING_ACCESS (R115, R116) -/

/-- The image is stepping (R119). -/
def State.stepping (s : State) : Bool :=
  s.img.activeSlot.isSome && !s.main.model.fault && (s.img.act = .idle || s.img.act = .preparing || s.img.act = .prepared)

/-- Refusals by mode (Table 4.14, 07 R200). -/
def couplingAxes (p : Packet) (s : State) : Except Reply Unit :=
  let op := u8At p.block 4
  axes [(s.mode.lifeCycle = .blank || s.mode.lifeCycle = .returning || !((s.image.map Image.hasTable).getD false), .notInMode),
    (op = 4 && s.laneCtl.redundancy ≠ .duplex, .notInMode),
    (s.mode.update = .handover && (op = 1 || op = 4 || op = 5), .busy s.handoverLeft),
    (s.img.act = .boundary || s.img.act = .loaded || s.img.act = .started, .busy s.activationLeft)]

/-- Index of the first entry of a WRITE block that breaks R92. -/
def State.badEntry (s : State) (r : Rect) (words : List U32) : Option Nat :=
  ((List.range words.length).zip (r.entries.zip words)).findSome? fun e =>
    let (n, i, w) := e
    if !couplingOk w.toNat || (w ≠ 0 && (s.slotAbsent (i / 4096) || s.slotAbsent (i % 4096))) then some n else none

/-- Restarts G_base of the units of a mask (R112). -/
def State.baselineReset (s : State) (mask : Nat) : State × List CfgItem :=
  let units := (List.range 17).filter (bit mask)
  let items := units.map fun u => CfgItem.gBase u none
  let s := (s.apply items).onLanes fun x =>
    { x with model := { x.model with
        capacity := units.foldl (fun (t : Tab CapacityUnit) u => Tab.modify {} t u fun c => { c with pending := [], indices := [], slope := none, days := none }) x.model.capacity } }
  (s, items)

def couplingBody (id : Nat) (p : Packet) (s : State) : Except Reply (State × CmdEnd) := do
  let b := p.block
  let op := u8At b 4
  let r := rectAt b 8
  let addr := u64At b 16
  refuseIf (6 < op) (p.badField 4)
  if op = 6 then
    let (s, items) := s.baselineReset (u32At b 24)
    .ok (s, .reply { Reply.done with save := items })
  else
    refuseIf (op ≠ 4 && !r.ok) .badNone
    refuseIf (op ≤ 1 && !addrOk addr (24 + 4 * r.rowCount * r.colCount)) .badNone
    if op = 1 then
      let blk := s.main.dram.readBytes addr 24
      refuseIf (u16At blk 0 ≠ 1 || u16At blk 2 ≠ 24 || rectAt blk 4 ≠ r || u32At blk 12 ≠ 0) .badNone
      let words := (List.range (r.rowCount * r.colCount)).map fun i => w32 (leNat (s.main.dram.readBytes (addr + 24 + 4 * i) 4))
      match s.badEntry r words with
      | some n => .error (.badParam n)
      | none => .ok ({ s with img := { s.img with couplingOps := s.img.couplingOps ++ [{ cmd := id, op := op, rect := r, addr := addr, words := words }] } }, .later [])
    else .ok ({ s with img := { s.img with couplingOps := s.img.couplingOps ++ [{ cmd := id, op := op, rect := r, addr := addr }] } }, .later [])

/-- COUPLING_ACCESS (0x0304). Operations but BASELINE_RESET take effect at the next step boundary. -/
def execCouplingAccess (p : Packet) (s : State) : Host.Outcome State Fault Refusal :=
  .next (s.runCmd 0x0304 false p (fun p => p.checkBlock 32 [(5, 3), (0x1C, 4)]) couplingAxes fun _ p s => couplingBody p.id p s)

/-! ## Windows and digests -/

/-- Checkpoints the rainflow counts and residues of the active lane, with the time (R111). -/
def State.checkpointRain (s : State) : State :=
  let kept : Tab RainKept := s.main.model.chips.filterMap fun e =>
    let k : RainKept := { bins := e.2.bins, residue := e.2.residue }
    if k = {} then none else some (e.1, k)
  s.cfgReg fun c => { c with rain := kept, rainTime := some s.tick.t0Time }

/-- HOUR_WINDOW_START (R94, R111): a window of 36,000,000 ticks is over; anchors recorded, rainflow counts checkpointed. -/
def execHourWindowStart (s : State) : Host.Outcome State Fault Refusal :=
  .next (if !s.anyLane || s.img.activeSlot.isNone || decide (s.now < s.main.model.windowStart + 36000000) then s
  else
    let s := s.onLanes fun x => { x with model := { x.model with anchors := [], windowStart := s.now } }
    s.checkpointRain)

/-- SWEEP_DIGEST (R97): the lanes' digests are compared without tolerance. -/
def execSweepDigest (s : State) : Host.Outcome State Fault Refusal :=
  .next (if !s.bothLanes || Config.tableDigest s.laneA.entry = Config.tableDigest s.laneB.entry then s
  else
    (s.onLanes fun x => { x with model := { x.model with diverge := satTo 32 (x.model.diverge + 1), diverged := true } }).logLanes
      Cls.notice 0x030A none32 [])

end Sys2Proof.Machine
end

