-- ==== Sys2Proof/Machine/TrayLink.lean ====
section
/-! DEFINITION. The tray link (09): upward and downward frames, tray states, ports, the hard-wired lines, and
NETWORK_CONFIGURE, which carries the tray table with the topology (10 R260-R262). -/

namespace Sys2Proof.Machine

def State.trayRec (s : State) (t : Nat) : TrayRec := Tab.get {} s.cfg.topo.trays t
def State.trayDyn (s : State) (t : Nat) : Tray := Tab.get {} s.tray.trays t
def State.onTray (s : State) (t : Nat) (f : Tray → Tray) : State :=
  { s with tray := { s.tray with trays := Tab.modify {} s.tray.trays t f } }
def State.onPort (s : State) (p : Nat) (f : Port → Port) : State :=
  { s with tray := { s.tray with ports := Tab.modify {} s.tray.ports p f } }

/-- The enabled trays. -/
def State.traysOn (s : State) : List Nat := (s.cfg.topo.trays.filter fun e => e.2.enable).map (·.1)

/-- A tray event carries the rack and the incarnation (09 R253). -/
def State.logTray (s : State) (cls ty t : Nat) : State :=
  s.logRm cls ty (w32 t) [w32 (s.trayRec t).rack, ((s.trayDyn t).incarnation).getD none32]

/-! ## Downward frames (09 R245, R246, R248, R251, Table 9.11) -/

/-- Signed 32-bit difference of sequence numbers. -/
def seqDiff (a b : U32) : Int := (a - b).toInt

/-- The entries of a frame to a tray: released caps and floors, or in NET the net cap for every present slot. -/
def State.capEntries (s : State) (t : Nat) (net : Bool) : List (Nat × Nat) :=
  let r := s.trayRec t
  (List.range r.count).map fun i =>
    if net then
      let absent := ((s.trayDyn t).latched[i]?.map fun c => c.status.getLsbD 2).getD false
      if absent then (0xFFFF, 0) else (s.cfg.netCap, 0)
    else
      let c := Tab.get {} s.rel.caps (r.firstSlot + i)
      (c.cap, c.floor)

/-- Sends a tray one CAP or HALT frame on both planes of its pair. -/
def State.sendTray (s : State) (t : Nat) (net repeated reply : Bool) : State :=
  let d := s.trayDyn t
  let r := s.trayRec t
  let halt := d.halted && !reply
  let epoch := if net then s.now else s.rel.capEpoch.getD s.now
  let seq := Tab.get 0 s.tray.seq t
  let fr : DownFrame :=
    { tray := t, ty := if halt then 0x12 else 0x11, flags := packFlags [net, reply, repeated, s.tick.holdover]
      incarnation := d.incarnation.getD none32, seq := seq, time := s.tick.t0Time, epoch := epoch, reason := flag halt
      entries := s.capEntries t net }
  let s := s.onTray t fun x => { x with replyEpoch := if reply then x.replyEpoch <|> some epoch else x.replyEpoch }
  let s := { s with tray := { s.tray with sent := Tab.set none s.tray.sent t (some fr), seq := Tab.set 0 s.tray.seq t (seq + 1) } }
  [r.pair, r.pair + 2].foldl (fun (s : State) p => s.onPort p fun x => { x with txFrames := satTo 32 (x.txFrames + 1) }) s

/-- The frames of one release: every LIVE tray, and the reply again to every tray in RESYNC that has been heard. -/
def State.sendCaps (s : State) (net repeated : Bool) : State :=
  s.traysOn.foldl (fun (s : State) t =>
    match (s.trayDyn t).state with
    | .live => s.sendTray t net repeated false
    | .resync => if (s.trayDyn t).incarnation.isSome then s.sendTray t net repeated true else s
    | _ => s) s

/-! ## Upward frames (09 R237, R243, R250-R252, Table 9.6) -/

/-- A chip record (Table 9.4). -/
def chipRecAt (b : List Byte) (o : Nat) : ChipRec :=
  { power := BitVec.ofNat 16 (u16At b o), hotSpot := BitVec.ofNat 16 (u16At b (o + 2)), hotSpotAux := BitVec.ofNat 16 (u16At b (o + 4))
    die := BitVec.ofNat 16 (u16At b (o + 6)), pace := BitVec.ofNat 32 (u32At b (o + 8)), pMin := BitVec.ofNat 16 (u16At b (o + 12))
    status := BitVec.ofNat 16 (u16At b (o + 14)) }

/-- The row of Table 9.6, counted from 1, that discards a frame before its sequence number is looked at. -/
def State.frameFault (s : State) (port : Nat) (f : UpFrame) : Option Nat :=
  let b := f.payload
  let size := u16At b 2
  let ty := u8At b 4
  let t := u16At b 6
  let count := u8At b 0x20
  let r := s.trayRec t
  let up := ty = 1 ∨ ty = 2
  if size = 0xFFFF ∨ 2048 < size ∨ size ≠ b.length then some 1
  else if u16At b 0 ≠ 1 ∨ size % 4 ≠ 0 ∨ size < 40 ∨ (up ∧ size < 40 + 16 * count) then some 2
  else if u8At b 5 / 16 ≠ 0 ∨ !zeroRange b 0x22 6 ∨ (up ∧ ((List.range count).any fun i => u16At b (40 + 16 * i + 14) / 128 ≠ 0)) then some 3
  else if ¬ up then some 4
  else if !r.enable ∨ f.mac ≠ r.mac ∨ f.ipv6 ≠ r.ipv6 then some 5
  else if count ≠ r.count then some 6
  else if port ≠ r.pair ∧ port ≠ r.pair + 2 then some 7
  else none

/-- A discard: counted against the port and, but for a duplicate, against the tray the frame names; the first of a tray in a
period of 10,000 ticks is logged (09 R257, 19 R526). -/
def State.discardFrame (s : State) (port : Nat) (f : UpFrame) (row : Nat) : State :=
  let t := u16At f.payload 6
  let s := s.onPort port fun x => { x with rxDiscarded := satTo 32 (x.rxDiscarded + 1) }
  if row = 8 ∨ f.payload.length < 8 ∨ 511 < t then s
  else
    let s := s.onTray t fun x => { x with discards := satTo 32 (x.discards + 1) }
    let d := s.trayDyn t
    let per := (s.now - 1) / 10000
    if d.discardPeriod = some per then s
    else
      (s.onTray t fun x => { x with discardPeriod := some per, discardsLogged := x.discards }).logRm Cls.notice 0x0D08 (w32 t)
        [w32 row, w32 (d.discards - d.discardsLogged), w32 port]

/-- A resync begins or begins again: incarnation recorded, window's telemetry dropped, the reply sent (09 R251, R252). -/
def State.startResync (s : State) (t : Nat) (inc : U32) : State :=
  let was := (s.trayDyn t).state
  let s := s.onTray t fun x =>
    { x with
      state := .resync, seqs := if x.incarnation = some inc then x.seqs else [], incarnation := some inc
      newLatch := none, replyEpoch := none }
  let s := if was = .resync then s else s.logTray Cls.notice 0x0D03 t
  s.sendTray t s.inNet false true

/-- Receives one frame of a tray (09 R237, R243, R250-R252). -/
def State.receiveFrame (s : State) (port : Nat) (f : UpFrame) : State :=
  if !f.formOk then s
  else match s.frameFault port f with
    | some row => s.discardFrame port f row
    | none =>
      let b := f.payload
      let t := u16At b 6
      let inc := BitVec.ofNat 32 (u32At b 8)
      let seq := BitVec.ofNat 32 (u32At b 0x0C)
      let epoch := u64At b 0x18
      let count := u8At b 0x20
      let s := s.onTray t fun x => if port < 2 then { x with planeA := some s.now } else { x with planeB := some s.now }
      let d := s.trayDyn t
      let same := d.incarnation = some inc
      if same && d.seqs.contains seq then s.discardFrame port f 8
      else if same && d.seqs.any (fun x => seqDiff seq x ≤ 0) then s.discardFrame port f 9
      else
        let started := u8At b 4 = 2 || !same || d.state = .missing || d.state = .lost
        let early := !started && d.state = .resync &&
          (epoch = 0xFFFFFFFFFFFFFFFF || match d.replyEpoch with
            | some e => decide (epoch < e)
            | none => true)
        if early then s.discardFrame port f 11
        else
          let s := if started then s.startResync t inc else s
          let s := s.onPort port fun x => { x with rxFrames := satTo 32 (x.rxFrames + 1) }
          let s := s.onTray t fun x => { x with flags := u8At b 5, seqs := seq :: x.seqs.filter fun y => 0 < seqDiff seq y }
          if started then s
          else
            let recs := (List.range count).map fun i => chipRecAt b (40 + 16 * i)
            let s := if d.state = .resync then (s.onTray t fun x => { x with state := .live }).logTray Cls.notice 0x0D04 t else s
            s.onTray t fun x => { x with newLatch := some (seq, recs) }

/-- TELEMETRY (09 R247). -/
def execTelemetry (port : Fin 4) (frame : UpFrame) (s : State) : Host.Outcome State Fault Refusal :=
  .next (s.receiveFrame port.val frame)

/-- RESYNC (09 R251). -/
def execResync (port : Fin 4) (frame : UpFrame) (s : State) : Host.Outcome State Fault Refusal :=
  .next (s.receiveFrame port.val frame)

/-! ## Tray states (09 R242, R249, R253, R254) -/

/-- The state a tray shows at T0: MISSING from age 3 and LOST from age 10,000. -/
def Tray.shown (d : Tray) : TrayState :=
  match d.state with
  | .live => if 3 ≤ d.age then .missing else .live
  | .missing => if 10000 ≤ d.age then .lost else .missing
  | .resync => if 10000 ≤ d.age then .lost else .resync
  | st => st

/-- TRAY_MISSING: the age of a LIVE tray reached 3. -/
def execTrayMissing (tray : Fin 512) (s : State) : Host.Outcome State Fault Refusal :=
  let d := s.trayDyn tray.val
  .next (if d.state = .live ∧ 3 ≤ d.age ∧ d.newLatch.isNone then
      (s.onTray tray.val fun x => { x with state := .missing }).logTray Cls.warning 0x0D01 tray.val
    else s)

/-- TRAY_LOST: the age of a MISSING or unanswered RESYNC tray reached 10,000. -/
def execTrayLost (tray : Fin 512) (s : State) : Host.Outcome State Fault Refusal :=
  let d := s.trayDyn tray.val
  .next (if (d.state = .missing ∨ d.state = .resync) ∧ 10000 ≤ d.age then
      (s.onTray tray.val fun x => { x with state := .lost }).logTray Cls.alarm 0x0D02 tray.val
    else s)

/-- TRAY_RECORD_CHANGE: at the T0 after a change the tray is RESYNC with the incarnation it has, or DISABLED (09 R242). -/
def State.changeTray (s : State) (t : Nat) : State :=
  let d := s.trayDyn t
  if !d.changed then s
  else if !(s.trayRec t).enable then
    s.onTray t fun x => { x with changed := false, state := .disabled, age := 0, newLatch := none, latched := [], halted := false }
  else
    let s := s.onTray t fun x =>
      { x with
        changed := false, state := .resync, replyEpoch := none, newLatch := none
        age := if x.state = .disabled then 0 else x.age }
    if d.state = .resync then s else s.logTray Cls.notice 0x0D03 t

def execTrayRecordChange (tray : Fin 512) (s : State) : Host.Outcome State Fault Refusal := .next (s.changeTray tray.val)

/-- What the window has latched closes into the frame: ages, and the records last latched. -/
def State.latchTrays (s : State) : State :=
  s.traysOn.foldl (fun (s : State) t => s.onTray t fun x =>
    match x.newLatch with
    | some (_, recs) => { x with age := 0, latched := recs, newLatch := none }
    | none => { x with age := satTo 32 (x.age + 1) }) s

/-- The tray age byte (09 R254). -/
def Tray.ageByte (d : Tray) : Byte :=
  let age := min d.age 63
  match d.shown with
  | .live => BitVec.ofNat 8 age
  | .missing => BitVec.ofNat 8 (0x40 + age)
  | .resync => BitVec.ofNat 8 (0x80 + age)
  | .lost => 0xFF
  | .disabled => 0xC0

/-- The telemetry element of a chip slot (Table 9.8); a record with ABSENT set is taken as absent (Table 9.6). -/
def Tray.element (d : Tray) (i : Nat) : ChipRec :=
  let last : ChipRec := (d.latched[i]?).getD { status := 0 }
  let last : ChipRec := if last.status.getLsbD 2 then {} else last
  match d.shown with
  | .live => last
  | .disabled => {}
  | _ => { pace := last.pace, pMin := last.pMin, status := last.status &&& 0xFFFE }

/-- Both sections of the input frame. -/
def State.traySections (s : State) : Tab Byte × Tab ChipRec :=
  s.traysOn.foldl (fun (acc : Tab Byte × Tab ChipRec) t =>
    let d := s.trayDyn t
    let r := s.trayRec t
    (Tab.set 0xC0 acc.1 t d.ageByte,
      (List.range r.count).foldl (fun (c : Tab ChipRec) i => Tab.set {} c (r.firstSlot + i) (d.element i)) acc.2)) ([], [])

/-! ## Ports and lines (09 R238, R255, R256, R258) -/

def execPortDown (port : Fin 4) (s : State) : Host.Outcome State Fault Refusal :=
  .next (if (Tab.get ({} : Port) s.tray.ports port.val).up then
      (s.onPort port.val fun x => { x with up := false, ptp := 0, syncMisses := 3, linkDowns := satTo 32 (x.linkDowns + 1) }).logRm
        Cls.warning 0x0D06 (w32 port.val) []
    else s)

def execPortUp (port : Fin 4) (s : State) : Host.Outcome State Fault Refusal :=
  .next (if (Tab.get ({} : Port) s.tray.ports port.val).up then s
    else (s.onPort port.val fun x => { x with up := true, ptp := 1 }).logRm Cls.notice 0x0D07 (w32 port.val) [])

/-- The Ringmaster answers a neighbour solicitation for its own address. -/
def execNeighbourSolicitation (port : Fin 4) (s : State) : Host.Outcome State Fault Refusal :=
  .next { s with tray := { s.tray with neighbourAnswers := Tab.modify 0 s.tray.neighbourAnswers port.val (· + 1) } }

/-- A rack with an enabled tray. -/
def State.rackTrays (s : State) (k : Nat) : Bool := s.cfg.topo.trays.any fun e => e.2.enable && e.2.rack = k

/-- FLOW_LOSS_N[k] filtered as asserted: `us`, at least 10 µs, low without a break (09 R255). -/
def execFlowLoss (rack : Fin 16) (us : Nat) (s : State) : Host.Outcome State Fault Refusal :=
  let k := rack.val
  .next (if Tab.get false s.tray.flowLoss k || decide (us < 10) then s
    else
      let s := { s with tray := { s.tray with flowLoss := Tab.set false s.tray.flowLoss k true } }
      if s.rackTrays k then (s.setCause k Cause.flowLoss true).logRm Cls.prot 0x0D05 (w32 k) []
      else s.logRm Cls.notice 0x0D05 (w32 k) [])

/-- FLOW_LOSS_N[k] filtered as released: `us`, at least 1 ms, high without a break. -/
def execFlowLossRelease (rack : Fin 16) (us : Nat) (s : State) : Host.Outcome State Fault Refusal :=
  .next (if us < 1000 then s
    else { s with tray := { s.tray with flowLoss := Tab.set false s.tray.flowLoss rack.val false } }.setCause rack.val Cause.flowLoss false)

/-- COOL_FAULT_N[k] is released when every cause has been absent for 1 s (09 R256). -/
def execCoolFaultRelease (rack : Fin 16) (s : State) : Host.Outcome State Fault Refusal :=
  .next (if Tab.get 0 s.tray.causes rack.val = 0 ∧ Tab.get 0 s.tray.causeEnd rack.val + 10000 ≤ s.now then
      { s with tray := { s.tray with coolFault := Tab.set false s.tray.coolFault rack.val false } } else s)

/-! ## Views (09 R258) -/

def State.trayRecord (s : State) (t : Nat) : List Byte :=
  let d := s.trayDyn t
  let st := match d.state with
    | .disabled => 0 | .live => 1 | .missing => 2 | .resync => 3 | .lost => 4
  let seen := fun (p : Option Nat) => match p with
    | some e => decide (s.now ≤ e + 100)
    | none => false
  le16 t ++ le8 st ++ le8 (packFlags [d.halted, bit d.flags 1, seen d.planeA, seen d.planeB]) ++ leW (d.incarnation.getD none32) ++
    le32 (if d.state = .disabled then 0 else d.age) ++ le32 d.discards

def State.portRecord (s : State) (p : Nat) : List Byte :=
  let x := Tab.get ({} : Port) s.tray.ports p
  le8 p ++ le8 (flag x.up) ++ le8 x.ptp ++ zeros 1 ++ le32 x.rxFrames ++ le32 x.txFrames ++ le32 x.rxDiscarded ++ le32 x.linkDowns ++
    le32 x.fecCorrected ++ le32 x.fecUncorrected ++ zeros 4

/-! ## NETWORK_CONFIGURE (10 R260-R262, 09 R241) -/

def optIdx (v : Nat) : Option Nat := if v = 0xFF then none else some v

def pumpGroupAt (b : List Byte) (o : Nat) : PumpGroup :=
  { lead := u8At b o, lag := optIdx (u8At b (o + 1)), dpAi := u8At b (o + 2), flowPi := u8At b (o + 3), racks := u16At b (o + 4)
    speedMax := u16At b (o + 6), dpCollapse := u16At b (o + 8), gapUs := u16At b (o + 0x0A), groupLoop := u8At b (o + 0x0C)
    stageUp := u8At b (o + 0x0D), stageDown := u8At b (o + 0x0E), stageUpS := u16At b (o + 0x10), stageDownS := u16At b (o + 0x12)
    rotateH := u16At b (o + 0x14), floorRamp := u16At b (o + 0x16), curveA := f32At b (o + 0x18), curveB := f32At b (o + 0x1C) }

def rackRecAt (b : List Byte) (o : Nat) : RackRec :=
  { group := u8At b (o + 1), vSupply := u8At b (o + 2), vReturn := u8At b (o + 3), vBypass := optIdx (u8At b (o + 4))
    valveSense := u8At b (o + 5), fans := ([6, 7, 8].map fun i => u8At b (o + i)).filter (· ≠ 0xFF), flowSrc := u8At b (o + 9)
    flowIdx := u8At b (o + 0x0A), dpAi := u8At b (o + 0x0B), tSupAi := u8At b (o + 0x0C), tRetAi := u8At b (o + 0x0D)
    flowMin := u32At b (o + 0x10), dpCollapse := u16At b (o + 0x14), gapUs := u16At b (o + 0x16)
    leakMask := BitVec.ofNat 64 (u64At b (o + 0x18)) }

def hxAt (b : List Byte) : HxSup :=
  { tAi := [0x290, 0x291, 0x292, 0x293].map (u8At b), priFlowSrc := u8At b 0x294, priFlowIdx := u8At b 0x295, spLoop := u8At b 0x296
    approachWarn := BitVec.ofNat 16 (u16At b 0x298), supplyHigh := BitVec.ofNat 16 (u16At b 0x29A), dpConfirmUs := u16At b 0x2A0
    deficitS := u16At b 0x2A2, driftLimit := u16At b 0x2A4, driftS := u16At b 0x2A6, warnH := u16At b 0x2A8 }

def trayRecAt (b : List Byte) (o : Nat) : TrayRec :=
  { rack := u8At b (o + 2), pair := u8At b (o + 3), firstSlot := u16At b (o + 4), count := u8At b (o + 6), enable := bit (u8At b (o + 7)) 0
    mac := bytesAt b (o + 8) 6, ipv6 := bytesAt b (o + 0x10) 16 }

/-- The topology of a block (Table 10.1). -/
def topologyAt (b : List Byte) : Topology :=
  { accepted := true, rackEnable := u16At b 8, groupEnable := u8At b 0x0A
    groups := (List.range 4).foldl (fun t g => Tab.set {} t g (pumpGroupAt b (0x10 + 32 * g))) []
    racks := (List.range 16).foldl (fun t k => Tab.set {} t k (rackRecAt b (0x90 + 32 * k))) []
    hx := hxAt b
    trays := ((List.range 512).filter fun t => bit (u8At b (0x2B7 + 32 * t)) 0).foldl
      (fun t i => Tab.set {} t i (trayRecAt b (0x2B0 + 32 * i))) [] }

/-- The refusal word of 10 R261. -/
def netWord (record field : Nat) : Reply := .badParam (record * 65536 + field)

/-- Whether a value stands in a list twice. -/
def twice (l : List Nat) : Bool := !distinct l

/-- Checks of Tables 10.2 to 10.5 and of R261 on the enabled records. -/
def Topology.checks (t : Topology) (b : List Byte) : List (Bool × Reply) :=
  let gs := (List.range 4).filter (bit t.groupEnable)
  let ks := (List.range 16).filter (bit t.rackEnable)
  let pumps := fun (upto : Nat) => (gs.filter (· < upto)).flatMap fun g => (t.group g).pumps
  let valves := fun (upto : Nat) => (ks.filter (· < upto)).flatMap fun k => (t.rack k).valves.map (·.1)
  let fans := fun (upto : Nat) => (ks.filter (· < upto)).flatMap fun k => (t.rack k).fans
  let leaks := fun (upto : Nat) => (ks.filter (· < upto)).foldl (fun (m : U64) k => m ||| (t.rack k).leakMask) 0
  (gs.flatMap fun g =>
    let r := t.group g
    let w := netWord (0x10 + 32 * g)
    let lag := r.lag.getD 0xFF
    [(7 < r.lead || (pumps g).contains r.lead, w 0),
      (r.lag.isSome && (7 < lag || lag = r.lead || (pumps g).contains lag), w 1), (63 < r.flowPi, w 3), (outside 100 500 r.gapUs, w 0x0A),
      (outside 50 100 r.stageUp, w 0x0D), (decide (r.stageDown < 10 ∨ r.stageUp < r.stageDown + 10), w 0x0E),
      (outside 1 600 r.stageUpS, w 0x10), (outside 1 3600 r.stageDownS, w 0x12), (8760 < r.rotateH, w 0x14), (outside 1 1000 r.floorRamp, w 0x16),
      (!positive r.curveA, w 0x18), (!positive r.curveB, w 0x1C)]) ++
  (ks.flatMap fun k =>
    let r := t.rack k
    let o := 0x90 + 32 * k
    let w := netWord o
    let before := valves k
    let bypass := r.vBypass.toList
    [(decide (u8At b o ≠ k), w 0), (3 < r.group || decide (gs.filter (fun g => bit (t.group g).racks k) ≠ [r.group]), w 1),
      (63 < r.vSupply || before.contains r.vSupply, w 2), (63 < r.vReturn || (r.vSupply :: before).contains r.vReturn, w 3),
      (bypass.any fun v => 63 < v || (r.vSupply :: r.vReturn :: before).contains v, w 4),
      (r.fans.any (fun f => 47 < f || (fans k).contains f) || twice r.fans, w 6), (2 < r.flowSrc, w 9), (63 < r.flowIdx, w 0x0A),
      (r.gapUs ≠ 0 && outside 100 500 r.gapUs, w 0x16), (r.leakMask &&& leaks k ≠ 0, w 0x18)]) ++
  ([(decide (2 < t.hx.priFlowSrc), netWord 0x290 4), (63 < t.hx.priFlowIdx, netWord 0x290 5), (outside 50 500 t.hx.dpConfirmUs, netWord 0x2A0 0),
    (outside 1 600 t.hx.deficitS, netWord 0x2A0 2), (outside 32768 65535 t.hx.driftLimit, netWord 0x2A0 4),
    (outside 60 3600 t.hx.driftS, netWord 0x2A0 6), (outside 1 8760 t.hx.warnH, netWord 0x2A0 8)] : List (Bool × Reply))

/-- Checks of the tray table (09 R241). -/
def Topology.trayChecks (t : Topology) (b : List Byte) : List (Bool × Reply) :=
  t.trays.flatMap fun e =>
    let r := e.2
    let w := netWord (0x2B0 + 32 * e.1)
    let before := t.trays.filter fun x => x.1 < e.1
    [(decide (u16At b (0x2B0 + 32 * e.1) ≠ e.1), w 0), (15 < r.rack, w 2), (1 < r.pair, w 3),
      (4096 < r.firstSlot + r.count || before.any (fun x => decide (x.2.firstSlot < r.firstSlot + r.count ∧ r.firstSlot < x.2.firstSlot + x.2.count)), w 4),
      (r.count = 0 || 16 < r.count, w 6), (before.any (fun x => x.2.mac = r.mac), w 8), (before.any (fun x => x.2.ipv6 = r.ipv6), w 0x10)]

/-- Whether the structural fields of two group records agree (10 R262). -/
def PumpGroup.sameShape (a b : PumpGroup) : Bool :=
  a.lead = b.lead && a.lag = b.lag && a.dpAi = b.dpAi && a.flowPi = b.flowPi && a.racks = b.racks && a.groupLoop = b.groupLoop

/-- Whether the structural fields of two rack records agree. -/
def RackRec.sameShape (a b : RackRec) : Bool :=
  a.group = b.group && a.vSupply = b.vSupply && a.vReturn = b.vReturn && a.vBypass = b.vBypass && a.fans = b.fans && a.flowSrc = b.flowSrc &&
    a.flowIdx = b.flowIdx && a.dpAi = b.dpAi && a.tSupAi = b.tSupAi && a.tRetAi = b.tRetAi && a.leakMask = b.leakMask

/-- Whether the channel and loop indices of two heat-exchanger records agree. -/
def HxSup.sameShape (a b : HxSup) : Bool :=
  a.tAi = b.tAi && a.priFlowSrc = b.priFlowSrc && a.priFlowIdx = b.priFlowIdx && a.spLoop = b.spLoop

/-- The racks that a change of topology concerns (10 R262): those of changed rack, group and tray records, and every rack where the
heat exchanger's indices change. -/
def Topology.concerned (old new : Topology) : List Nat :=
  let racks := (List.range 16).filter fun k =>
    bit old.rackEnable k && (!bit new.rackEnable k || !(old.rack k).sameShape (new.rack k))
  let groups := (List.range 4).filter fun g =>
    (bit old.groupEnable g || bit new.groupEnable g) && (bit old.groupEnable g ≠ bit new.groupEnable g || !(old.group g).sameShape (new.group g))
  let served := (List.range 16).filter fun k =>
    bit old.rackEnable k && groups.any fun g => bit old.groupEnable g && bit (old.group g).racks k || bit new.groupEnable g && bit (new.group g).racks k
  let trays := (old.trays.filter fun e => (Tab.get ({} : TrayRec) new.trays e.1).enable && (Tab.get ({} : TrayRec) new.trays e.1).rack ≠ e.2.rack).flatMap
    fun e => [e.2.rack, (Tab.get ({} : TrayRec) new.trays e.1).rack].filter (bit old.rackEnable)
  let all := if old.hx.sameShape new.hx then [] else (List.range 16).filter (bit old.rackEnable)
  racks ++ served ++ trays ++ all

/-- Structure checks of the block: version, size, reserved fields (00 R6, R7). -/
def networkShape (p : Packet) : Except Reply Unit := do
  let groups := (List.range 4).map fun g => (0x10 + 32 * g + 0x0F, 1)
  let racks := (List.range 16).map fun k => (0x90 + 32 * k + 0x0E, 2)
  let trays := (List.range 512).map fun t => (0x2B0 + 32 * t + 0x0E, 2)
  p.checkBlock 17072 ([(4, 4), (0x0B, 5)] ++ groups ++ racks ++ [(0x297, 1), (0x29C, 4), (0x2AA, 6)] ++ trays)
  let b := p.block
  deny ((decide (16 ≤ u8At b 0x0A), p.badField 0x0A) ::
    ((List.range 16).map (fun k => (decide (8 ≤ u8At b (0x95 + 32 * k)), p.badField (0x95 + 32 * k))) ++
      (List.range 512).map (fun t => (decide (2 ≤ u8At b (0x2B7 + 32 * t)), p.badField (0x2B7 + 32 * t)))))

def networkConfigureBody (p : Packet) (s : State) : Except Reply (State × CmdEnd) := do
  let t := topologyAt p.block
  let old := s.planned.topo
  deny (t.checks p.block)
  deny (t.trayChecks p.block)
  let barred := if old.accepted then (old.concerned t).any fun k => s.rackState k = .run else false
  deny [(barred, Reply.notInMode)]
  let items := [CfgItem.topology t]
  .ok ((s.deferPass items).logConfig p SC.ok, .reply { Reply.done with save := items })

/-- NETWORK_CONFIGURE (10 R260). -/
def execNetworkConfigure (p : Packet) (s : State) : Host.Outcome State Fault Refusal :=
  .next (s.runCmd 0x0505 false p networkShape
    (fun _ s => axes [(s.mode.update = .handover, .busy s.handoverLeft), (s.mode.lifeCycle = .returning, .notInMode)])
    fun _ => networkConfigureBody)

/-- The state that starts with a topology: roles of the groups as recorded. -/
def State.freshGroups (s : State) (old : Topology) : State :=
  (List.range 4).foldl (fun (s : State) g =>
    let r := s.cfg.topo.group g
    let o := old.group g
    let kept := old.accepted && bit old.groupEnable g && o.lead = r.lead && o.lag = r.lag
    if !s.groupOn g then (if (s.groupDyn g).flowStop then s.clearFlowStop (.group (Fin.ofNat 4 g)) else s).onGroup g fun _ => {}
    else s.onGroup g fun d =>
      let d := if kept then d else { d with lead := r.lead, lag := r.lag, pumpFailed := none, rotating := false, netFailDue := false }
      if o = r then d else { d with armed := false, flows := [], speeds := [] }) s

/-- A topology takes effect at a governor pass (10 R260, R262; 09 R242): racks newly enabled enter COMMISSION, changed trays are
marked, detectors of changed records are disarmed. -/
def State.putTopology (s : State) (t : Topology) : State :=
  let before := s.cfg
  let old := s.cfg.topo
  let wasOn := fun k => old.accepted && bit old.rackEnable k
  let gone := (List.range 16).filter fun k => wasOn k && !(t.accepted && bit t.rackEnable k)
  let s := gone.foldl (fun (s : State) k =>
    let s := s.clearFlowStop (.rack (Fin.ofNat 16 k))
    ((s.setCause k Cause.groupStop false).setCause k Cause.isolated false).onRack k fun _ => {}) s
  let changed := (List.range 512).filter fun i => Tab.get ({} : TrayRec) old.trays i ≠ Tab.get ({} : TrayRec) t.trays i
  let s := (s.apply [.topology t]).freshGroups old
  let s := changed.foldl (fun (s : State) i => s.onTray i fun x => { x with changed := true }) s
  let s := ((List.range 16).filter s.rackOn).foldl (fun (s : State) k =>
    let s := if old.rack k = t.rack k then s else s.onRack k fun d => { d with armed := false, lowRun := 0 }
    if wasOn k then s else s.moveRack k .commission) s
  let s := s.restageReference before
  if old.hx = t.hx then s else { s with cool := { s.cool with
    hxApproach := false, hxHigh := false, approachAbove := 0, approachBelow := 0, outletAbove := 0, outletBelow := 0 } }

end Sys2Proof.Machine
end

