-- ==== Sys2Proof/Machine/Sensing.lean ====
section
/-! DEFINITION. Sensing and leak detection (13): analog channels and their checks, the critical comparators, leak states and the
isolation they cause, pulse inputs, rack harnesses, and the sensing opcodes. -/

namespace Sys2Proof.Machine

def State.analogDyn (s : State) (n : Nat) : AnalogDyn := Tab.get {} s.sense.analog n
def State.onAnalog (s : State) (n : Nat) (f : AnalogDyn → AnalogDyn) : State :=
  { s with sense := { s.sense with analog := Tab.modify {} s.sense.analog n f } }
def State.leakDyn (s : State) (n : Nat) : LeakDyn := Tab.get {} s.sense.leak n
def State.leakRec (s : State) (n : Nat) : LeakRec := Tab.get {} s.cfg.leak n
def State.pulseDyn (s : State) (n : Nat) : PulseDyn := Tab.get {} s.sense.pulse n
def State.pulseRec (s : State) (n : Nat) : PulseRec := Tab.get {} s.cfg.pulse n
def State.onPulse (s : State) (n : Nat) (f : PulseDyn → PulseDyn) : State :=
  { s with sense := { s.sense with pulse := Tab.modify {} s.sense.pulse n f } }
def State.harness (s : State) (k : Nat) : Harness := Tab.get {} s.sense.harness k
def State.onHarness (s : State) (k : Nat) (f : Harness → Harness) : State :=
  { s with sense := { s.sense with harness := Tab.modify {} s.sense.harness k f } }

/-! ## Analog channels (13 R316-R323) -/

/-- A channel whose encoding is T16. -/
def AnalogRec.isT16 (r : AnalogRec) : Bool := r.ty = 1 || r.ty = 2 || ((r.ty = 3 || r.ty = 4) && r.unit = 1)

/-- "No reading" of the channel's encoding (00 R9). -/
def AnalogRec.noReading (r : AnalogRec) : U16 := if r.isT16 then 0x8000 else 0xFFFF

/-- The value in the unit of the record: native, or linear between scale_lo and scale_hi (13 R317). -/
def AnalogRec.scaled (r : AnalogRec) (x : F32) : F32 :=
  if r.unit = 0 then x
  else
    let lo : F32 := if r.ty = 3 then 0x40800000 else 0
    let span : F32 := if r.ty = 3 then 0x41800000 else 0x41200000
    F32.add r.scaleLo (F32.mul (F32.sub r.scaleHi r.scaleLo) (F32.div (F32.sub x lo) span))

/-- The encoded value and whether it is held at a limit (00 R10, Table 0.4). -/
def AnalogRec.encode (r : AnalogRec) (x : F32) : U16 × Bool :=
  let v := r.scaled x
  if r.isT16 then
    let n := (F32.toInt .rne (F32.mul v 0x42800000)).getD (if F32.isNeg v then -32768 else 32768)
    (t16Sat n, decide (n < -32767 ∨ 32767 < n))
  else
    let n := (F32.toInt .rne (F32.mul v (if r.unit = 2 then 0x41200000 else 0x447A0000))).getD (if F32.isNeg v then -1 else 65535)
    (BitVec.ofNat 16 (min 65534 n.toNat), decide (n < 0 ∨ 65534 < n))

/-- The analog element (Tables 13.2, 13.3). -/
def AnalogRec.element (r : AnalogRec) (d : AnalogDyn) : AnalogEl :=
  if r.ty = 0 then {}
  else
    let hot := r.compat && d.bits ≠ 0
    let fault := !r.compat && d.bits ≠ 0
    let enc : U16 × Bool := if hot then (0x7FFF, false) else match d.y with
      | some y => r.encode y
      | none => (r.noReading, false)
    let none_ := fault || d.suspect || d.settling
    { value := if none_ then r.noReading else enc.1
      status := BitVec.ofNat 16 (d.bits + packFlags [fault, false, false, false, false, d.suspect, hot, !none_ && enc.2, d.settling, d.critAbove]) }

/-- The strapped critical threshold in degrees C (13 R324). -/
def SenseSt.threshold (q : SenseSt) : Nat := 70 + 5 * q.tcrit

/-- The checks OPEN, SHORT, RANGE and EXCITATION of a channel, each true where it fails (13 Table 13.4). -/
def AnalogRec.failing (r : AnalogRec) (i : AnalogIn) : List Bool :=
  let out := fun (lo hi : F32) => F32.lt i.value lo || F32.lt hi i.value
  match r.ty with
  | 1 =>
    let opened := decide (2500 < i.ohm ∨ i.microAmp < 250)
    let shorted := decide (i.ohm < 600)
    [opened, shorted, out 0xC2480000 0x43480000 && !opened && !shorted, i.compliance]
  | 2 => [decide (1000000 < i.ohm), decide (i.ohm < 100), out 0xC2200000 0x42FA0000, i.compliance]
  | 3 =>
    let opened := F32.lt i.value 0x3F000000
    let shorted := F32.lt 0x41C00000 i.value
    [opened, shorted, out 0x40666666 0x41A80000 && !opened && !shorted, false]
  | 4 => [false, false, out 0xBE4CCCCD 0x41280000, false]
  | _ => [false, false, false, false]

/-- The channel's runs of failing and passing checks after one more tick (13 R319). -/
def AnalogDyn.countChecks (d : AnalogDyn) (fails : List Bool) : AnalogDyn :=
  let runs := fun (l : List Nat) (want : Bool) => (List.range 4).map fun k => runOf ((fails.getD k false) == want) (l.getD k 0)
  { d with failRun := runs d.failRun true, passRun := runs d.passRun false }

/-- A sample is checked and passes the channel's filter (13 R316, R319); CRIT_ABOVE ends 2 degrees below the threshold (R324). -/
def State.sampleAnalog (s : State) (i : AnalogIn) : State :=
  let r := s.cfg.analogRec i.chan
  if r.ty = 0 then s
  else s.onAnalog i.chan fun d =>
    let d := d.countChecks (r.failing i)
    if !F32.finite i.value then d
    else
      let y := firstOrder d.y i.value r.tau
      { d with y := some y, critAbove := d.critAbove && F32.le (F32.ofInt ((s.sense.threshold : Int) - 2)) i.value }

/-- A check has failed for 10 ticks (13 R319): the event goes with FAULT, which COMPAT keeps clear. -/
def execInputFault (chan : Fin 256) (which : Fin 4) (s : State) : Host.Outcome State Fault Refusal :=
  let n := chan.val
  let r := s.cfg.analogRec n
  let d := s.analogDyn n
  .next (if r.ty = 0 ∨ bit d.bits (which.val + 1) ∨ d.failRun.getD which.val 0 < 10 then s
    else
      let was := s.analogFaulty n
      let s := s.onAnalog n fun d => { d with bits := d.bits + 2 ^ (which.val + 1) }
      if was || !s.analogFaulty n then s
      else
        let s := s.logRm (if n < 16 then Cls.alarm else Cls.warning) (if n < 16 then 0x0702 else 0x0701) (w32 n) [w32 (which.val + 1)]
        s.degradeDetectors fun i => i.1 = some n)

/-- A check has passed for 1,000 ticks (13 R319). -/
def execInputClear (chan : Fin 256) (which : Fin 4) (s : State) : Host.Outcome State Fault Refusal :=
  let n := chan.val
  .next (if !bit (s.analogDyn n).bits (which.val + 1) || decide ((s.analogDyn n).passRun.getD which.val 0 < 1000) then s
    else
      let was := s.analogFaulty n
      let s := s.onAnalog n fun d => { d with bits := d.bits - 2 ^ (which.val + 1) }
      if was && !s.analogFaulty n then s.logRm Cls.notice 0x0703 (w32 n) [w32 (which.val + 1)] else s)

/-- SETTLING ends 5 ms after a change of type (13 R316). -/
def execSettlingEnd (chan : Fin 256) (s : State) : Host.Outcome State Fault Refusal :=
  .next (s.onAnalog chan.val fun d => { d with settling := d.settling && decide (s.now < d.typeAt + 50) })

/-- A channel the reference model checks (13 R322). -/
def State.modelChecked (s : State) (n : Nat) : Bool :=
  s.anyLane && !s.inNet && s.img.activeSlot = some 7 && (s.cfg.analogRec n).modelBand ≠ 0 && s.cfg.topo.accepted &&
    (s.cfg.topo.hx.tAi.contains n ||
      (List.range 16).any fun k => s.rackOn k && ((s.cfg.topo.rack k).tSupAi = n || (s.cfg.topo.rack k).tRetAi = n))

/-- The reading of a channel lies within an interval (T16 numbers) widened by its model_band; `none` where it has none. -/
def State.withinBand (s : State) (n : Nat) (lo hi : Int) : Option Bool :=
  let r := s.cfg.analogRec n
  (s.analogDyn n).y.map fun y =>
    let x := (r.encode y).1.toInt
    decide (lo - r.modelBand.toInt ≤ x ∧ x ≤ hi + r.modelBand.toInt)

/-- INPUT_SUSPECT: the reading has stood outside the reference model's estimate interval `lo` to `hi`, widened by model_band, for
`ticks`, and the mark is set; or within it, and the mark is cleared with a NOTICE (13 R322). -/
def execInputSuspect (chan : Fin 256) (on : Bool) (lo hi : Int) (ticks : Nat) (s : State) : Host.Outcome State Fault Refusal :=
  let n := chan.val
  .next (if !s.modelChecked n ∨ (s.analogDyn n).suspect = on ∨ ticks < 10000 ∨ s.withinBand n lo hi ≠ some (!on) then s
    else (s.onAnalog n fun d => { d with suspect := on }).logLanes (if on then Cls.warning else Cls.notice) 0x0704 (w32 n) [])

/-- SYS_SHDN: a critical comparator has stood above the threshold for `us`, at least 20 µs (13 R321, R325). An OPEN channel acts
only with COMPAT, and so does a SHORT one. -/
def execSysShdn (chan : Fin 16) (us : Nat) (s : State) : Host.Outcome State Fault Refusal :=
  let n := chan.val
  let r := s.cfg.analogRec n
  let blind := bit (s.analogDyn n).bits 1 || bit (s.analogDyn n).bits 2
  .next (if r.ty ≠ 1 ∨ (blind ∧ !r.compat) ∨ us < 20 then s
    else
      let s := s.onAnalog n fun d => { d with critAbove := true }
      let s := if s.sense.sysShdn then s else { s with sense := { s.sense with sysShdn := true, critTripped := 2 ^ n } }
      s.logRm Cls.prot 0x0705 (w32 n) [])

/-- The straps as the Ringmaster samples them once per second: a change is logged, subject 0 for TCRIT_SEL and 1 for NET_SPD
(13 R324, 21 R517). -/
def execTcritStrapChanged (tcritSel : Fin 8) (netSpd : Fin 4) (s : State) : Host.Outcome State Fault Refusal :=
  let a := s.sense.tcritLogged ≠ tcritSel.val
  let b := s.sense.netSpdLogged ≠ netSpd.val
  let s := { s with sense := { s.sense with tcritLogged := tcritSel.val, netSpdLogged := netSpd.val } }
  let s := if a then s.logRm Cls.warning 0x0706 0 [] else s
  .next (if b then s.logRm Cls.warning 0x0706 1 [] else s)

/-! ## Leak channels (13 R326-R330) -/

/-- State code of a channel (Table 13.6). -/
def LeakDyn.code (r : LeakRec) (d : LeakDyn) : Nat :=
  if r.ty = 0 then 0 else if d.wet then (if d.broken then 4 else 2) else if d.fault then 5 else if d.broken then 3 else 1

def LeakRec.hasBreak (r : LeakRec) : Bool := r.ty = 1 || (r.ty = 2 && r.eolPresent)

/-- The location reported and whether it is uncertain (13 R328). -/
def LeakDyn.shownLocation (r : LeakRec) (d : LeakDyn) : Option Nat × Bool :=
  if r.ty ≠ 1 ∨ !d.wet then (none, false)
  else match d.location with
    | none => (none, d.broken)
    | some x => if r.lengthDm < x then (some r.lengthDm, true) else (some x, d.broken)

/-- The racks whose leak_mask names a channel. -/
def State.leakRacks (s : State) (n : Nat) : List Nat :=
  (List.range 16).filter fun k => s.rackOn k && (s.cfg.topo.rack k).leakMask.getLsbD n

/-- Changes a leak channel; on entry to another state its event is logged, and WET and WET_BREAK isolate (13 R329). -/
def State.setLeak (s : State) (n : Nat) (f : LeakDyn → LeakDyn) : State :=
  let r := s.leakRec n
  let was := (s.leakDyn n).code r
  let s := { s with sense := { s.sense with leak := Tab.modify {} s.sense.leak n f } }
  let code := (s.leakDyn n).code r
  if r.ty = 0 ∨ code = was then s
  else if code = 1 then s.logRm Cls.notice 0x070A (w32 n) []
  else if code = 2 ∨ code = 4 then
    let s := s.logRm Cls.alarm 0x0707 (w32 n) [w32 ((((s.leakDyn n).shownLocation r).1).getD 0xFFFF)]
    (s.leakRacks n).foldl (fun (s : State) k => s.leakIsolate k n) s
  else s.logRm Cls.alarm (if code = 3 then 0x0708 else 0x0709) (w32 n) []

/-- The place of a leak, 0.1 m, from the resistance of the locating conductor in milliohm (13 R328). -/
def LeakRec.placeOf (r : LeakRec) (mohm : Nat) : Option Nat :=
  (F32.toInt .rne (F32.mul 0x41200000 (F32.div (F32.ofRat mohm 1000) r.ohmPerM))).map Int.toNat

/-- The declaration wet, after wet_ms, with the locating resistance measured (13 R326-R329). -/
def execLeakWet (chan : Fin 64) (mohm : Option Nat) (s : State) : Host.Outcome State Fault Refusal :=
  let r := s.leakRec chan.val
  .next (if (s.leakDyn chan.val).wetRun < r.wetMs then s
    else s.setLeak chan.val fun d => { d with wet := true, location := mohm.bind r.placeOf })

/-- A break for 100 evaluations (13 R326). -/
def execLeakBreak (chan : Fin 64) (s : State) : Host.Outcome State Fault Refusal :=
  .next (if (s.leakRec chan.val).hasBreak && decide (100 ≤ (s.leakDyn chan.val).brokenRun) then
      s.setLeak chan.val fun d => { d with broken := true }
    else s)

/-- Dry for dry_s (13 R326). -/
def execLeakDry (chan : Fin 64) (s : State) : Host.Outcome State Fault Refusal :=
  .next (if (s.leakDyn chan.val).dryRun < 1000 * (s.leakRec chan.val).dryS then s
    else s.setLeak chan.val fun d => { d with wet := false, location := none })

/-- Excitation out of regulation (Table 13.6). -/
def execLeakFault (chan : Fin 64) (s : State) : Host.Outcome State Fault Refusal :=
  .next (s.setLeak chan.val fun d => { d with fault := d.fault || d.unregulated })

/-- The rope or sensor is intact again: BREAK ends, and FAULT with the excitation in regulation (Table 13.14). -/
def execLeakBreakClear (chan : Fin 64) (s : State) : Host.Outcome State Fault Refusal :=
  .next (s.setLeak chan.val fun d => { d with broken := d.broken && d.brokenRun ≠ 0, fault := d.fault && d.unregulated })

/-- The leak element (Table 13.7). -/
def State.leakEl (s : State) (n : Nat) : LeakEl :=
  let r := s.leakRec n
  let d := s.leakDyn n
  if r.ty = 0 then {}
  else
    let loc := d.shownLocation r
    { state := BitVec.ofNat 8 (d.code r)
      flags := BitVec.ofNat 8 (packFlags [loc.2, !(s.leakRacks n).isEmpty, d.eolSeen])
      location := BitVec.ofNat 16 (loc.1.getD 0xFFFF)
      conductance := BitVec.ofNat 16 d.conductance
      loopOhm := BitVec.ofNat 16 (if r.ty = 1 then d.loopOhm else 0xFFFF) }

/-- One evaluation of a channel (13 R326, R327): wet at or above wet_us, dry below half of it, broken by the loop's resistance or
the end-of-line current. -/
def LeakDyn.evaluate (d : LeakDyn) (r : LeakRec) (i : LeakIn) : LeakDyn :=
  { d with
    conductance := satBelow 16 i.conductance, loopOhm := min 0xFFFF i.loopOhm, eolSeen := i.eolSeen
    wetRun := runOf (decide (r.wetUs ≤ i.conductance)) d.wetRun
    dryRun := runOf (decide (2 * i.conductance < r.wetUs)) d.dryRun
    brokenRun := runOf (r.hasBreak && (r.ty = 1 && decide (r.loopMaxOhm < i.loopOhm) || decide (i.eolPercent < 50))) d.brokenRun
    unregulated := !i.regulated }

def State.sampleLeak (s : State) (i : LeakIn) : State :=
  { s with sense := { s.sense with leak := Tab.modify {} s.sense.leak i.chan fun d => d.evaluate (s.leakRec i.chan) i } }

/-! ## Pulse inputs (13 R331, R332) -/

/-- The frequency in 0.001 Hz of `periods` periods in a time of 5 ns units, to the nearest unit. -/
def pulseFreq (periods time : Nat) : Nat := (2 * periods * 200000000000 + time) / (2 * time)

/-- A sample of a pulse input: edges end FAULT and ZERO; above 100 kHz it saturates. -/
def State.samplePulse (s : State) (i : PulseIn) : State :=
  if !(s.pulseRec i.chan).on then s
  else s.onPulse i.chan fun d =>
    let periods := if 2 ≤ i.edges then i.edges - 1 else 1
    let freq := i.time.bind fun t => if t = 0 then none else some (pulseFreq periods t)
    { d with
      fault := d.fault && i.edges = 0, zero := d.zero && i.edges = 0, glitch := i.glitch, edges := satTo 16 i.edges
      quietRun := runOf (i.edges = 0) d.quietRun, floatRun := runOf i.floating d.floatRun
      overrange := match freq with
        | some f => decide (100000000 < f)
        | none => d.overrange
      lastFreq := match freq with
        | some f => w32 (min 100000000 f)
        | none => d.lastFreq }

/-- The pulse element (Table 13.9). -/
def State.pulseEl (s : State) (n : Nat) : PulseEl :=
  let d := s.pulseDyn n
  if !(s.pulseRec n).on then {}
  else
    { freq := if d.fault then none32 else if d.zero then 0 else d.lastFreq
      edges := BitVec.ofNat 16 d.edges, status := BitVec.ofNat 16 (packFlags [d.fault, d.zero, d.glitch, d.overrange]) }

/-- The line has rested between its thresholds for 10 ms (13 R331); detectors run on dp alone (10 R271). -/
def execPulseFloating (chan : Fin 64) (s : State) : Host.Outcome State Fault Refusal :=
  .next (if (s.pulseRec chan.val).on && !(s.pulseDyn chan.val).fault && decide (100 ≤ (s.pulseDyn chan.val).floatRun) then
      (s.onPulse chan.val fun d => { d with fault := true }).degradeDetectors fun i => i.2 = chan.val
    else s)

/-- No edge for zero_ms. -/
def execPulseZero (chan : Fin 64) (s : State) : Host.Outcome State Fault Refusal :=
  .next (if (s.pulseRec chan.val).on && decide (10 * (s.pulseRec chan.val).zeroMs ≤ (s.pulseDyn chan.val).quietRun) then
      s.onPulse chan.val fun d => { d with zero := true, overrange := false }
    else s)

/-! ## Rack harnesses (13 R333-R335) -/

/-- The CRC of an identity record (Table 13.10). -/
def harnessCrcOk (m : List Byte) : Bool := m.length = 256 && u32At m 0xFC = (crc32c (m.take 0xFC)).toNat

def harnessIdent (m : List Byte) : HarnessId := { part := bytesAt m 8 16, serial := bytesAt m 0x18 16 }

/-- The verdict on a memory (13 R334). -/
def State.harnessVerdict (s : State) (k : Nat) (m : List Byte) : HarnessState :=
  if !harnessCrcOk m then .crcError
  else match (Tab.get {} s.cfg.racks k).harness with
    | none => .noExpected
    | some h => if u8At m 4 = k ∧ harnessIdent m = h then .match_ else .mismatch

def HarnessState.code : HarnessState → Nat
  | .absent => 0 | .reading => 1 | .match_ => 2 | .mismatch => 3 | .crcError => 4 | .noExpected => 5

/-- A harness that does not match puts its rack into COMMISSION, with the reason (13 R334). -/
def State.harnessAlarm (s : State) (k : Nat) : State :=
  if !s.rackOn k || !s.harnessBad k then s
  else (s.moveRack k .commission).logRm Cls.alarm 0x070B (w32 k) [w32 (s.harness k).state.code]

/-- Presence gained: the memory is read. -/
def execHarnessPresenceGain (rack : Fin 16) (s : State) : Host.Outcome State Fault Refusal :=
  .next (if (s.harness rack.val).present then s
    else s.onHarness rack.val fun h => { h with present := true, state := .reading })

/-- Presence lost: the rack's state stays; a read in progress is abandoned, with the command that asked for it. -/
def execHarnessRemoved (rack : Fin 16) (s : State) : Host.Outcome State Fault Refusal :=
  let k := rack.val
  .next (if !(s.harness k).present then s
    else
      let cmd := (s.harness k).cmd
      let s := (s.onHarness k fun _ => {}).logRm Cls.alarm 0x070C (w32 k) []
      match cmd with
      | some c => s.finish c.1 .notInMode
      | none => s)

/-- A read has ended with what it found (13 R333-R335): a commanded READ or ACCEPT concludes, and a read at reset or on gaining
presence judges the rack. -/
def execHarnessReadDone (rack : Fin 16) (mem : List Byte) (s : State) : Host.Outcome State Fault Refusal :=
  let k := rack.val
  let h := s.harness k
  .next (if !h.present then s
    else match h.cmd with
      | some (id, op, addr) =>
        let s := s.onHarness k fun x => { x with mem := mem, cmd := none }
        if op = 1 then
          if !harnessCrcOk mem ∨ u8At mem 4 ≠ k then
            (s.onHarness k fun x => { x with state := s.harnessVerdict k mem }).finish id .badNone
          else
            let items := [CfgItem.harness k (some (harnessIdent mem))]
            let s := s.apply items
            let s := s.onHarness k fun x => { x with state := s.harnessVerdict k mem }
            let s := match s.runningCmd id with
              | some c => s.logConfig c.packet SC.ok
              | none => s
            s.finish id { Reply.done with save := items }
        else
          ((s.onHarness k fun x => { x with state := s.harnessVerdict k mem }).writeTransfer addr (fitBytes 256 mem)).finish id .done
      | none =>
        if h.state = .reading then
          (s.onHarness k fun x => { x with mem := mem, state := s.harnessVerdict k mem }).harnessAlarm k
        else s)

def harnessReadBody (id : Nat) (p : Packet) (s : State) : Except Reply (State × CmdEnd) := do
  let k := u8At p.block 4
  let op := u8At p.block 5
  let addr := u64At p.block 0x10
  deny [(15 < k, p.badField 4), (2 < op, p.badField 5), (op = 0 && !addrOk addr 256, Reply.badNone),
    (!(s.harness k).present, .notInMode), ((s.harness k).state = .reading || (s.harness k).cmd.isSome, .busy 400)]
  if op = 2 then
    let items := [CfgItem.harness k none]
    let s := (s.apply items).onHarness k fun x => { x with state := if x.state = .crcError then .crcError else .noExpected }
    .ok (s.logConfig p SC.ok, .reply { Reply.done with save := items })
  else .ok (s.onHarness k fun x => { x with cmd := some (id, op, addr) }, .later [])

/-- HARNESS_READ (13 R335); a read already in progress refuses it for at most its 40 ms. -/
def execHarnessRead (p : Packet) (s : State) : Host.Outcome State Fault Refusal :=
  .next (s.runCmd 0x0703 false p (fun p => p.checkBlock 24 [(6, 10)])
    (fun p s => if u8At p.block 5 = 0 then .ok () else axes (valveAxes s)) fun _ p s => harnessReadBody p.id p s)

/-! ## Configuration (13 R336, R337) -/

def analogRecAt (b : List Byte) (o : Nat) : AnalogRec :=
  { ty := u8At b (o + 2), compat := bit (u8At b (o + 3)) 0, unit := u8At b (o + 4), scaleLo := f32At b (o + 8), scaleHi := f32At b (o + 0x0C)
    tau := f32At b (o + 0x10), beta := u16At b (o + 0x14), modelBand := BitVec.ofNat 16 (u16At b (o + 0x16)) }

def pulseRecAt (b : List Byte) (o : Nat) : PulseRec :=
  { on := u8At b (o + 2) = 1, falling := bit (u8At b (o + 3)) 0, kFactor := f32At b (o + 8), glitchUs := u16At b (o + 0x14)
    zeroMs := u16At b (o + 0x16) }

def leakRecAt (b : List Byte) (o : Nat) : LeakRec :=
  { ty := u8At b (o + 1), eolPresent := bit (u8At b (o + 2)) 0, wetMs := u16At b (o + 4), dryS := u16At b (o + 6), wetUs := u16At b (o + 8)
    eolKohm := u16At b (o + 0x0A), loopMaxOhm := u16At b (o + 0x0C), lengthDm := u16At b (o + 0x0E), ohmPerM := f32At b (o + 0x10) }

/-- The offset of the first bad field of an analog record (Table 13.11, R315, R323). -/
def AnalogRec.badField (r : AnalogRec) (n : Nat) : Option Nat :=
  let current := r.ty = 3 || r.ty = 4
  (([(4 < r.ty || (n < 16 && 1 < r.ty), 2), (r.compat && !(r.ty = 1 || r.ty = 2), 3), (2 < r.unit || (r.unit ≠ 0 && !current), 4),
    (r.unit ≠ 0 && !F32.finite r.scaleLo, 8), (r.unit ≠ 0 && (!F32.finite r.scaleHi || F32.eq r.scaleHi r.scaleLo), 0x0C),
    (!(F32.finite r.tau && F32.le 0 r.tau && F32.le r.tau 0x42700000), 0x10),
    (if r.ty = 2 then outside 3000 4500 r.beta else decide (r.beta ≠ 0), 0x14), (r.modelBand.getLsbD 15, 0x16)] : List (Bool × Nat)).find? (·.1)).map (·.2)

/-- The offset of the first bad field of a pulse record; zero_ms is required of an input that is on. -/
def PulseRec.badField (r : PulseRec) : Option Nat :=
  (([(!(F32.finite r.kFactor && F32.le 0 r.kFactor), 8), (1000 < r.glitchUs, 0x14), (r.on && outside 1 15000 r.zeroMs, 0x16)] :
    List (Bool × Nat)).find? (·.1)).map (·.2)

/-- The offset of the first bad field of a leak record; a channel OFF needs no values. -/
def LeakRec.badField (r : LeakRec) : Option Nat :=
  if r.ty = 0 then none
  else
    (([(2 < r.ty, 1), (r.eolPresent && r.ty ≠ 2, 2), (outside 10 5000 r.wetMs, 4), (outside 1 3600 r.dryS, 6), (outside 1 1000 r.wetUs, 8),
      (outside 10 500 r.eolKohm, 0x0A), (r.ty = 1 && outside 10 2000 r.loopMaxOhm, 0x0C), (r.ty = 1 && outside 1 1500 r.lengthDm, 0x0E),
      (r.ty = 1 && !positive r.ohmPerM, 0x10)] : List (Bool × Nat)).find? (·.1)).map (·.2)

/-- The refusal word of 13 R336. -/
def inputWord (i off : Nat) : Reply := .badParam (i * 65536 + off)

/-- A channel that the record of a rack in RUN names. -/
def State.namedInRun (s : State) (f : RackRec → Bool) : Bool :=
  (List.range 16).any fun k => s.rackOn k && s.rackState k = .run && f (s.cfg.topo.rack k)

/-- A critical channel stands in the way of CLEAR_SHDN (13 R325). -/
def State.shdnBlocked (s : State) : Bool :=
  (List.range 16).any fun n =>
    let r := s.cfg.analogRec n
    r.ty = 1 && (s.analogFaulty n || match t16ToF32 (Tab.get ({} : AnalogEl) s.tick.frame.analog n).value with
      | some t => F32.lt (F32.ofInt ((s.sense.threshold : Int) - 5)) t
      | none => false)

def inputAxes (s : State) : List (Bool × Reply) := valveAxes s

/-- Structure checks of INPUT_CONFIGURE. -/
def inputShape (p : Packet) : Except Reply Unit := do
  p.checkBlock 8 []
  let b := p.block
  let count := u16At b 4
  deny [(b.length < 8 + 24 * count, p.badField 2), (u16At b 6 / 4 ≠ 0, p.badField 6)]
  deny ((List.range count).flatMap fun i =>
    let o := 8 + 24 * i
    let pulse := u8At b o = 1
    ([(decide (u8At b (o + 3) / 2 ≠ 0), inputWord i 3), (pulse && u8At b (o + 4) ≠ 0, inputWord i 4), (!zeroRange b (o + 5) 3, inputWord i 5),
      (pulse && !zeroRange b (o + 0x0C) 4, inputWord i 0x0C), (pulse && !zeroRange b (o + 0x10) 4, inputWord i 0x10)] : List (Bool × Reply)))

def inputConfigureBody (p : Packet) (s : State) : Except Reply (State × CmdEnd) := do
  let b := p.block
  let count := u16At b 4
  let clear := bit (u16At b 6) 1
  deny [(320 < count || (count = 0 && !clear), p.badField 4)]
  let at_ := fun i => 8 + 24 * i
  let plan := s.planned
  deny ((List.range count).flatMap fun i =>
    let o := at_ i
    let kind := u8At b o
    let n := u8At b (o + 1)
    let bad := if kind = 0 then (analogRecAt b o).badField n else if 1 < u8At b (o + 2) then some 2 else (pulseRecAt b o).badField
    ([(decide (1 < kind), inputWord i 0),
      ((kind = 1 && 63 < n) || ((List.range i).any fun j => u8At b (at_ j) = kind && u8At b (at_ j + 1) = n), inputWord i 1),
      (bad.isSome, inputWord i (bad.getD 0))] : List (Bool × Reply)))
  deny ((List.range count).map fun i =>
    let o := at_ i
    let n := u8At b (o + 1)
    (if u8At b o = 0 then (plan.analogRec n).ty ≠ u8At b (o + 2) && s.namedInRun (fun r => r.dpAi = n || r.tSupAi = n || r.tRetAi = n)
      else (Tab.get ({} : PulseRec) plan.pulse n).on ≠ (pulseRecAt b o).on && s.namedInRun (fun r => r.flowSrc = 1 && r.flowIdx = n), Reply.notInMode))
  deny [(clear && s.shdnBlocked, .notInMode)]
  if bit (u16At b 6) 0 then .ok (s, .reply .done)
  else
    let items := (List.range count).map fun i =>
      let o := at_ i
      if u8At b o = 0 then CfgItem.analog (u8At b (o + 1)) (analogRecAt b o) else CfgItem.pulse (u8At b (o + 1)) (pulseRecAt b o)
    let s := if clear then { s with sense := { s.sense with sysShdn := false, critTripped := 0 } } else s
    .ok ((s.defer items).logConfig p SC.ok, .reply { Reply.done with save := items })

/-- INPUT_CONFIGURE (13 R325, R336, R337). -/
def execInputConfigure (p : Packet) (s : State) : Host.Outcome State Fault Refusal :=
  .next (s.runCmd 0x0701 false p inputShape (fun _ s => axes (inputAxes s)) fun _ => inputConfigureBody)

def leakConfigureBody (p : Packet) (s : State) : Except Reply (State × CmdEnd) := do
  let b := p.block
  let count := u16At b 4
  deny [(count = 0 || 64 < count, p.badField 4)]
  let at_ := fun i => 8 + 24 * i
  let plan := s.planned
  deny ((List.range count).flatMap fun i =>
    let o := at_ i
    let n := u8At b o
    let bad := (leakRecAt b o).badField
    ([(63 < n || ((List.range i).any fun j => u8At b (at_ j) = n), inputWord i 0), (bad.isSome, inputWord i (bad.getD 0))] : List (Bool × Reply)))
  deny ((List.range count).map fun i =>
    let n := u8At b (at_ i)
    (leakRecAt b (at_ i) ≠ Tab.get ({} : LeakRec) plan.leak n && s.namedInRun (fun r => r.leakMask.getLsbD n), Reply.notInMode))
  if bit (u16At b 6) 0 then .ok (s, .reply .done)
  else
    let items := (List.range count).map fun i => CfgItem.leak (u8At b (at_ i)) (leakRecAt b (at_ i))
    .ok ((s.defer items).logConfig p SC.ok, .reply { Reply.done with save := items })

/-- LEAK_CONFIGURE (13 R336, R337). -/
def execLeakConfigure (p : Packet) (s : State) : Host.Outcome State Fault Refusal :=
  .next (s.runCmd 0x0702 false p
    (fun p => do
      p.checkBlock 8 []
      let b := p.block
      let count := u16At b 4
      deny [(b.length < 8 + 24 * count, p.badField 2), (u16At b 6 / 2 ≠ 0, p.badField 6)]
      deny ((List.range count).flatMap fun i =>
        let o := 8 + 24 * i
        ([(decide (u8At b (o + 2) / 2 ≠ 0), inputWord i 2), (!zeroRange b (o + 3) 1, inputWord i 3), (!zeroRange b (o + 0x14) 4, inputWord i 0x14)] :
          List (Bool × Reply))))
    (fun _ s => axes (inputAxes s)) fun _ => leakConfigureBody)

/-- An analog record takes effect at T0: a change of type settles for 5 ms (13 R316). -/
def State.putAnalog (s : State) (n : Nat) (r : AnalogRec) : State :=
  let was := (s.cfg.analogRec n).ty
  let s := s.apply [.analog n r]
  if was = r.ty then s else s.onAnalog n fun d => { suspect := d.suspect, settling := r.ty ≠ 0, typeAt := s.now }

def State.putPulse (s : State) (n : Nat) (r : PulseRec) : State :=
  let was := (s.pulseRec n).on
  let s := s.apply [.pulse n r]
  if was = r.on then s else s.onPulse n fun _ => {}

def State.putLeak (s : State) (n : Nat) (r : LeakRec) : State :=
  let was := (s.leakRec n).ty
  let s := s.apply [.leak n r]
  if was = r.ty then s else { s with sense := { s.sense with leak := Tab.set {} s.sense.leak n {} } }

/-! ## View (13 R338) -/

/-- A harness record. -/
def State.harnessRecord (s : State) (k : Nat) : List Byte :=
  let h := s.harness k
  le8 k ++ le8 (if h.cmd.isSome then 1 else h.state.code) ++ zeros 2 ++ fitBytes 12 (bytesAt h.mem 0x18 12)

/-- SENSE_STATUS (Table 13.13). -/
def SenseSt.status (q : SenseSt) : Nat := q.tcrit + 8 * flag q.sysShdn + 16 * q.critTripped

end Sys2Proof.Machine
end

