-- ==== Sys2Proof/Machine/Fieldbus.lean ====
section
/-! DEFINITION. Fieldbus (14): message buffers, mapped entries, error states, the opcodes BUS_CONFIGURE and BUS_AUTOBAUD, and
the view. -/

namespace Sys2Proof.Machine

def State.canChan (s : State) (c : Nat) : CanChan := Tab.get {} s.bus.chans c
def State.canRec (s : State) (c : Nat) : CanRec := Tab.get {} s.cfg.can c
def State.entryRec (s : State) (e : Nat) : EntryRec := Tab.get {} s.cfg.entries e
def State.entryDyn (s : State) (e : Nat) : EntryDyn := Tab.get {} s.bus.entries e
def State.onCan (s : State) (c : Nat) (f : CanChan → CanChan) : State :=
  { s with bus := { s.bus with chans := Tab.modify {} s.bus.chans c f } }
def State.onEntry (s : State) (e : Nat) (f : EntryDyn → EntryDyn) : State :=
  { s with bus := { s.bus with entries := Tab.modify {} s.bus.entries e f } }
def CanChan.onBuf (x : CanChan) (b : Nat) (f : CanBuf → CanBuf) : CanChan := { x with bufs := Tab.modify {} x.bufs b f }

/-- The channel takes part in its bus. -/
def CanState.live : CanState → Bool
  | .active | .passive => true
  | _ => false

/-- CHANNEL_DOWN: bus-off, held off, or detecting its rate (Table 14.6). -/
def CanState.down : CanState → Bool
  | .busOff | .heldOff | .detecting => true
  | _ => false

/-- Data bytes of a DLC. -/
def canLength (fdf : Bool) (dlc : Nat) : Nat :=
  if dlc ≤ 8 then dlc else if !fdf then 8 else
    match dlc with
    | 9 => 12 | 10 => 16 | 11 => 20 | 12 => 24 | 13 => 32 | 14 => 48 | _ => 64

def CanFrame.length (f : CanFrame) : Nat := canLength f.fdf f.dlc

/-- Bytes of a frame, as many as its length. -/
def CanFrame.bytes (f : CanFrame) : List Byte := fitBytes f.length f.data

/-- A filter matches (14 R344). -/
def CanFilter.matchesFrame (k : CanFilter) (f : CanFrame) : Bool :=
  k.enable && k.ide = f.ide && (f.ident ^^^ k.ident) &&& k.mask = 0

/-- The first discard of a channel in a period of 10,000 ticks logs the counts since the last such event (14 R356). -/
def State.logBusDiscard (s : State) (c : Nat) : State :=
  let x := s.canChan c
  let per := (s.now - 1) / 10000
  if x.discardPeriod = some per then s
  else
    (s.onCan c fun x => { x with discardPeriod := some per, unmatchedLogged := x.unmatched, fdLogged := x.fdIgnored }).logRm Cls.notice 0x0806 (w32 c)
      [w32 (x.unmatched - x.unmatchedLogged), w32 (x.fdIgnored - x.fdLogged)]

def State.canUnmatched (s : State) (c : Nat) : State :=
  (s.onCan c fun x => { x with unmatched := satTo 32 (x.unmatched + 1) }).logBusDiscard c

def State.canIgnored (s : State) (c : Nat) : State :=
  (s.onCan c fun x => { x with fdIgnored := satTo 16 (x.fdIgnored + 1) }).logBusDiscard c

/-! ## Message buffers (14 R344-R348) -/

/-- A frame comes for a buffer: into it, into the shadow while it is locked, or dropped. The frame numbers what it is, dropped or
not (Table 14.3; assumption log 23). -/
def CanBuf.take (b : CanBuf) (f : CanFrame) : CanBuf × Bool :=
  let n := b.count + 1
  if !b.locked then ({ b with count := n, content := some (n, f) }, false)
  else if b.shadow.isNone then ({ b with count := n, shadow := some (n, f) }, false)
  else ({ b with count := n, dropped := satTo 8 (b.dropped + 1) }, true)

/-- The lock ends: the shadow becomes the content, drops counted during the lock take the place of those shown. -/
def CanBuf.unlock (b : CanBuf) : CanBuf :=
  if !b.locked then b
  else { b with locked := false, content := b.shadow <|> b.content, shadow := none, droppedSeen := b.dropped, dropped := 0 }

/-- The 21 words of a buffer (Table 14.2). -/
def CanBuf.words (b : CanBuf) : List U32 :=
  let f : CanFrame := (b.content.map fun (e : Byte × CanFrame) => e.2).getD {}
  let seq := ((b.content.map fun (e : Byte × CanFrame) => e.1).getD 0).toNat
  let t := f.time.toNat
  let some_ := b.content.isSome
  let time := if some_ then t else 0
  let data := fitBytes 64 (if some_ then f.bytes else [])
  [w32 ((f.ident % 2 ^ 29) + (packFlags [f.ide, f.fdf, some_]) * 2 ^ 29),
    w32 (seq * 2 ^ 24 + f.length * 2 ^ 16 + b.droppedSeen * 256 + packFlags [f.brs, f.esi, b.droppedSeen ≠ 0] * 16 + f.dlc % 16), lo32 time, hi32 time] ++
    (List.range 16).map (fun i => w32 (u32At data (4 * i))) ++ [w32 (seq + 256 * flag b.expired)]

/-- A read of word 0 of buffer `buf` of channel `chan` locks it (14 R346). -/
def execCanBufferLock (chan : Fin 16) (buf : Fin 64) (s : State) : Host.Outcome State Fault Refusal :=
  let b := Tab.get ({} : CanBuf) (s.canChan chan.val).bufs buf.val
  let s := s.onCan chan.val fun x => x.onBuf buf.val fun y => { y with locked := true, lockAt := s.now }
  .next { s with hif := { s.hif with rdata := ((b.words.getD 0 0).setWidth 64) } }

/-- A read of word 20 releases the buffer; LOCK_EXPIRED is reported once (14 R346, R347). -/
def execCanBufferRelease (chan : Fin 16) (buf : Fin 64) (s : State) : Host.Outcome State Fault Refusal :=
  let b := Tab.get ({} : CanBuf) (s.canChan chan.val).bufs buf.val
  let s := s.onCan chan.val fun x => x.onBuf buf.val fun y => { y.unlock with expired := false }
  .next { s with hif := { s.hif with rdata := ((b.words.getD 20 0).setWidth 64) } }

/-- A lock not released within 1 ms (14 R347). -/
def execCanLockExpiry (chan : Fin 16) (buf : Fin 64) (s : State) : Host.Outcome State Fault Refusal :=
  let b := Tab.get ({} : CanBuf) (s.canChan chan.val).bufs buf.val
  .next (if b.locked && decide (b.lockAt + 10 ≤ s.now) then
      s.onCan chan.val fun x =>
        { x.onBuf buf.val (fun y => { y.unlock with expired := true }) with lockExpiries := satTo 16 (x.lockExpiries + 1) }
    else s)

/-! ## Mapped entries (14 R350-R354) -/

def EntryRec.signed (r : EntryRec) : Bool := bit r.flags 0
def EntryRec.bigEndian (r : EntryRec) : Bool := bit r.flags 1
def EntryRec.isFloat (r : EntryRec) : Bool := bit r.flags 2
def EntryRec.ide (r : EntryRec) : Bool := bit r.flags 3
def EntryRec.fd (r : EntryRec) : Bool := bit r.flags 4
def EntryRec.brs (r : EntryRec) : Bool := bit r.flags 5
def EntryRec.netFixed (r : EntryRec) : Bool := bit r.flags 6

/-- The raw field of a frame's bytes. -/
def EntryRec.rawAt (r : EntryRec) (bs : List Byte) : Nat :=
  let f := bytesAt bs r.offset r.width
  leNat (if r.bigEndian then f.reverse else f)

/-- raw x scale + bias in binary32. -/
def EntryRec.value (r : EntryRec) (raw : Nat) : F32 :=
  let x : F32 := if r.isFloat then BitVec.ofNat 32 raw
    else F32.ofInt (if r.signed then sext (8 * r.width) raw else (raw : Int))
  F32.add (F32.mul x r.scale) r.bias

/-- (value - bias) / scale, rounded to nearest and saturated to the field. -/
def EntryRec.rawOf (r : EntryRec) (v : F32) : Nat :=
  let x := F32.div (F32.sub v r.bias) r.scale
  if r.isFloat then x.toNat
  else
    let w := 8 * r.width
    let lo : Int := if r.signed then -((2 ^ (w - 1) : Nat) : Int) else 0
    let hi : Int := if r.signed then ((2 ^ (w - 1) : Nat) : Int) - 1 else ((2 ^ w : Nat) : Int) - 1
    let n := (F32.toInt .rne x).getD (if F32.isNeg x then lo else hi)
    unsext w (max lo (min hi n))

/-- FAULT of an IN entry (14 R351). -/
def EntryDyn.fault (d : EntryDyn) : Bool := d.stale || d.range || d.short || d.frozen

/-- BUS_ENTRY_FAULT is logged when FAULT sets. -/
def State.logEntry (s : State) (e : Nat) (was : Bool) : State :=
  if !was && (s.entryDyn e).fault then s.logRm Cls.warning 0x0805 (w32 e) [] else s

/-- One frame for one IN entry: its checks and its value (14 R350, R352). -/
def EntryRec.receive (r : EntryRec) (d : EntryDyn) (f : CanFrame) : EntryDyn :=
  let d := { d with stale := false, age := 0, short := decide (f.length < r.offset + r.width) }
  let d := if r.alive = 0xFF ∨ f.length ≤ r.alive then d
    else
      let b := f.bytes.getD r.alive 0
      let run := if d.aliveByte = some b then d.aliveRun + 1 else 1
      { d with aliveByte := some b, aliveRun := run, frozen := decide (3 ≤ run) }
  if d.short then d
  else
    let v := r.value (r.rawAt f.bytes)
    { d with value := v, range := !(F32.le r.lo v && F32.le v r.hi) }

/-- The mapping engine takes a frame for every IN entry whose buffer's filter it matches (14 R349, R350). -/
def State.mapFrame (s : State) (c : Nat) (f : CanFrame) : State :=
  let es := s.cfg.entries.filter fun e => e.2.dir = 1 && e.2.channel = c && (Tab.get ({} : CanFilter) (s.canRec c).filters (e.2.ident % 64)).matchesFrame f
  es.foldl (fun (s : State) e =>
    let was := (s.entryDyn e.1).fault
    (s.onEntry e.1 fun d => e.2.receive d f).logEntry e.1 was) s

/-- ISO 11898-1 counters after a good reception or transmission: passive ends at 127 (14 R355; assumption log 23). -/
def CanChan.good (x : CanChan) (rx : Bool) : CanChan :=
  let x := if rx then { x with recc := if 127 < x.recc then 127 else x.recc - 1 } else { x with tec := x.tec - 1 }
  if x.state = .passive ∧ x.tec < 128 ∧ x.recc < 128 then { x with state := .active } else x

/-- CAN_FRAME_RECEIVED (14 R342, R344, R349); a channel detecting its rate only counts. -/
def execCanFrameReceived (chan : Fin 16) (f : CanFrame) (s : State) : Host.Outcome State Fault Refusal :=
  let c := chan.val
  let x := s.canChan c
  let r := s.canRec c
  .next (if x.state = .detecting then
      { s with bus := { s.bus with autobaud := s.bus.autobaud.map fun (a : Autobaud) => if a.channel = c then { a with frames := a.frames + 1, brs := a.brs || f.brs } else a } }
    else if !x.state.live then s
    else if f.fdf ∧ !r.fd then s.canIgnored c
    else
      let s := s.onCan c fun x => { x.good true with rxFrames := satTo 32 (x.rxFrames + 1) }
      if f.rtr then s.canUnmatched c
      else
        let s := match (List.range 64).find? fun b => (Tab.get ({} : CanFilter) r.filters b).matchesFrame f with
          | none => s.canUnmatched c
          | some b =>
            let t := (Tab.get ({} : CanBuf) (s.canChan c).bufs b).take f
            s.onCan c fun x => { x.onBuf b (fun _ => t.1) with overruns := if t.2 then satTo 32 (x.overruns + 1) else x.overruns }
        s.mapFrame c f)

/-- An FD frame on a channel whose FD flag is clear (14 R342). -/
def execCanFdIgnored (chan : Fin 16) (s : State) : Host.Outcome State Fault Refusal :=
  .next (if (s.canChan chan.val).state.live && !(s.canRec chan.val).fd then s.canIgnored chan.val else s)

/-- No frame for timeout_ticks (14 R352). -/
def execCanEntryStale (entry : Nat) (s : State) : Host.Outcome State Fault Refusal :=
  let r := s.entryRec entry
  .next (if r.dir = 1 ∧ r.timing ≤ (s.entryDyn entry).age then
      (s.onEntry entry fun d => { d with stale := true }).logEntry entry (s.entryDyn entry).fault
    else s)

/-- The entry sends net_value (14 R354). -/
def State.entryOverride (s : State) (e : Nat) : Bool :=
  (s.entryRec e).dir = 2 && (s.entryRec e).netFixed && (s.inNet || s.wdogActing)

/-- What an OUT entry sends: net_value under OVERRIDE, else the value last released to it, if any. -/
def State.entryOut (s : State) (e : Nat) : Option F32 :=
  if s.entryOverride e then some (s.entryRec e).lo else (s.entryDyn e).outVal

/-- The OUT entries that form one frame with `e` (14 R353). -/
def State.frameMates (s : State) (e : Nat) : List (Nat × EntryRec) :=
  let r := s.entryRec e
  s.cfg.entries.filter fun x => x.2.dir = 2 && x.2.channel = r.channel && x.2.ident = r.ident && x.2.ide = r.ide

/-- Puts a field into a frame's bytes. -/
def putField (bs : List Byte) (off : Nat) (f : List Byte) : List Byte :=
  (bs.take off ++ f ++ bs.drop (off + f.length)).take bs.length

/-- The bytes of the frame that `e` is part of; bytes no entry covers are 0. -/
def State.frameData (s : State) (e : Nat) : List Byte :=
  let r := s.entryRec e
  (s.frameMates e).foldl (fun (bs : List Byte) x =>
    match s.entryOut x.1 with
    | none => bs
    | some v =>
      let f := leBytes x.2.width (x.2.rawOf v)
      putField bs x.2.offset (if x.2.bigEndian then f.reverse else f)) (zeros (canLength r.fd r.dlc))

/-- CAN_OUT_SEND: every period_ticks the frame of an OUT entry is handed to its controller; TX_FAIL stands until it is sent
(14 R353). -/
def execCanOutSend (entry : Nat) (s : State) : Host.Outcome State Fault Refusal :=
  let r := s.entryRec entry
  let mates := s.frameMates entry
  .next (if r.dir ≠ 2 ∨ mates.all (fun x => (s.entryOut x.1).isNone) ∨ (s.entryDyn entry).handed.any (fun e => decide (s.now < e + r.timing)) then s
    else
      let s := mates.foldl (fun (s : State) x => s.onEntry x.1 fun d => { d with txFail := true, handed := some s.now }) s
      if !(s.canChan r.channel).state.live then s
      else
        let rest := s.bus.sent.filter fun (x : Nat × Bool × Nat × List Byte) => !(x.1 = r.channel && x.2.1 = r.ide && x.2.2.1 = r.ident)
        { s with bus := { s.bus with sent := rest ++ [(r.channel, r.ide, r.ident, s.frameData entry)] } })

/-- CAN_FRAME_SENT: the frame handed over last has gone out (14 R351, R353). -/
def execCanFrameSent (entry : Nat) (s : State) : Host.Outcome State Fault Refusal :=
  let r := s.entryRec entry
  .next (match s.bus.sent.find? fun x => x.1 = r.channel && x.2.1 = r.ide && x.2.2.1 = r.ident with
    | none => s
    | some x =>
      if r.dir ≠ 2 ∨ !(s.canChan r.channel).state.live then s
      else
        let rest := s.bus.sent.filter fun y => y ≠ x
        let s := { s with bus := { s.bus with sent := rest } }
        let s := s.onCan r.channel fun c => { c.good false with txFrames := satTo 32 (c.txFrames + 1) }
        (s.frameMates entry).foldl (fun (s : State) m => s.onEntry m.1 fun d =>
          { d with txFail := false, age := 0, value := m.2.value (m.2.rawAt x.2.2.2) }) s)

/-- The bus-node element (Table 14.4). -/
def State.busEl (s : State) (e : Nat) : BusEl :=
  let r := s.entryRec e
  let d := s.entryDyn e
  if r.dir = 0 then {}
  else
    let inn := r.dir = 1
    { value := if inn && d.fault then none32 else d.value
      age := BitVec.ofNat 16 (satTo 16 d.age)
      status := BitVec.ofNat 16 (packFlags [inn && d.fault, inn && d.stale, inn && d.range, inn && d.short, inn && d.frozen, !inn && d.txFail,
        s.entryOverride e, (s.canChan r.channel).state.down]) }

/-! ## Error states (14 R355) -/

/-- A channel is error passive with the counters it has then. -/
def execBusErrorPassive (chan : Fin 16) (tec recc : Nat) (s : State) : Host.Outcome State Fault Refusal :=
  .next (if (s.canChan chan.val).state = .active then
      (s.onCan chan.val fun x => { x with state := .passive, tec := satTo 8 tec, recc := satTo 8 recc }).logRm Cls.warning 0x0801 (w32 chan.val) []
    else s)

/-- The OUT entries of a channel that is down set TX_FAIL. -/
def State.failOut (s : State) (c : Nat) : State :=
  (s.cfg.entries.filter fun e => e.2.dir = 2 && e.2.channel = c).foldl (fun (s : State) e => s.onEntry e.1 fun d => { d with txFail := true }) s

/-- Entry to bus-off; the ninth within 10 s holds the channel off. -/
def execBusOff (chan : Fin 16) (s : State) : Host.Outcome State Fault Refusal :=
  let c := chan.val
  let x := s.canChan c
  .next (if !x.state.live then s
    else
      let recent := s.now :: x.recent.filter fun e => s.now < e + 100000
      let held := decide (9 ≤ recent.length)
      let s := s.onCan c fun x =>
        { x with state := if held then .heldOff else .busOff, tec := 255, busOffs := satTo 32 (x.busOffs + 1), recent := recent }
      let s := (s.failOut c).logRm Cls.alarm 0x0802 (w32 c) []
      if held then s.logRm Cls.alarm 0x0804 (w32 c) [] else s)

/-- Recovery after 128 occurrences of 11 recessive bits, with AUTO_RECOVER. -/
def execBusRecovered (chan : Fin 16) (s : State) : Host.Outcome State Fault Refusal :=
  .next (if (s.canChan chan.val).state = .busOff ∧ (s.canRec chan.val).autoRecover then
      (s.onCan chan.val fun x => { x with state := .active, tec := 0, recc := 0 }).logRm Cls.notice 0x0803 (w32 chan.val) []
    else s)

/-- The 10 s are over and recovery resumes. -/
def execBusHoldOffEnd (chan : Fin 16) (s : State) : Host.Outcome State Fault Refusal :=
  .next (if (s.canChan chan.val).state = .heldOff ∧ (s.canChan chan.val).recent.headD 0 + 100000 ≤ s.now then s.onCan chan.val fun x => { x with state := .busOff } else s)

/-! ## Records (14 R343, R357, R358) -/

def canTimingAt (b : List Byte) (o : Nat) : CanTiming :=
  { nomBrp := u16At b o, nomTseg1 := u16At b (o + 2), nomTseg2 := u16At b (o + 4), nomSjw := u16At b (o + 6), datBrp := u8At b (o + 8)
    datTseg1 := u8At b (o + 9), datTseg2 := u8At b (o + 10), datSjw := u8At b (o + 11), tdcOffset := u8At b (o + 12) }

def canFilterAt (b : List Byte) (o : Nat) : CanFilter :=
  { enable := bit (u32At b o) 31, ide := bit (u32At b o) 29, ident := u32At b o % 2 ^ 29, mask := u32At b (o + 4) % 2 ^ 29 }

def canRecAt (b : List Byte) (o : Nat) : CanRec :=
  { enable := bit (u8At b (o + 1)) 0, fd := bit (u8At b (o + 1)) 1, term := bit (u8At b (o + 1)) 2, autoRecover := bit (u8At b (o + 1)) 3
    timing := canTimingAt b (o + 4)
    filters := (List.range 64).foldl (fun t k => Tab.set {} t k (canFilterAt b (o + 0x20 + 8 * k))) [] }

def entryRecAt (b : List Byte) (o : Nat) : EntryRec :=
  { dir := u8At b (o + 1), channel := u8At b (o + 2), flags := u8At b (o + 3), ident := u32At b (o + 4), offset := u8At b (o + 8)
    width := u8At b (o + 9), dlc := u8At b (o + 10), unit := u8At b (o + 11), scale := f32At b (o + 12), bias := f32At b (o + 16)
    timing := u16At b (o + 0x14), alive := u8At b (o + 0x16), lo := f32At b (o + 0x18), hi := f32At b (o + 0x1C) }

/-- The offset, from the timing's start, of the first field outside its range or rate (Table 14.8, R343). -/
def CanTiming.badField (t : CanTiming) : Option Nat :=
  let nd := t.nomBrp * (1 + t.nomTseg1 + t.nomTseg2)
  let dd := t.datBrp * (1 + t.datTseg1 + t.datTseg2)
  (([(outside 1 32 t.nomBrp, 0), (outside 2 256 t.nomTseg1, 2), (outside 1 128 t.nomTseg2, 4), (outside 1 t.nomTseg2 t.nomSjw, 6),
    (outside 1 32 t.datBrp, 8), (outside 1 32 t.datTseg1, 9), (outside 1 16 t.datTseg2, 10), (outside 1 t.datTseg2 t.datSjw, 11), (127 < t.tdcOffset, 12),
    (decide (80000000 < 10000 * nd ∨ 1000000 * nd < 80000000), 0), (decide (nd < dd ∨ 8000000 * dd < 80000000), 8),
    (decide (2000000 * dd < 80000000) && t.tdcOffset = 0, 12)] : List (Bool × Nat)).find? (·.1)).map (·.2)

/-- The offset of the first bad field of an entry record (Table 14.5); an entry OFF needs no values. -/
def EntryRec.badField (r : EntryRec) : Option Nat :=
  if r.dir = 0 then none
  else
    let inn := r.dir = 1
    let top := if inn then 63 else if r.ide then 2 ^ 29 - 1 else 0x7FF
    (([(2 < r.dir, 1), (15 < r.channel, 2), ((inn && 8 ≤ r.flags) || (r.isFloat && r.width ≠ 4) || (r.brs && !r.fd), 3), (top < r.ident, 4), (63 < r.offset, 8),
      (!(r.width = 1 || r.width = 2 || r.width = 4), 9), (if inn then decide (r.dlc ≠ 0) else decide ((if r.fd then 15 else 8) < r.dlc), 10), (5 < r.unit, 11),
      (!F32.finite r.scale || F32.eq r.scale 0, 12), (!F32.finite r.bias, 16), (outside 1 (if inn then 60000 else 10000) r.timing, 0x14),
      (if inn then 63 < r.alive && r.alive ≠ 0xFF else decide (r.alive ≠ 0xFF), 0x16), (if inn then !F32.le r.lo r.hi else decide (r.hi ≠ 0), 0x1C)] :
        List (Bool × Nat)).find? (·.1)).map (·.2)

/-- The mapped entries that a slot's descriptor names. -/
def LoopDesc.busRefs (d : LoopDesc) : List Nat :=
  (if d.spSrc = 0x08 then [d.spIdx] else []) ++ (if d.pvSrc = 0x08 then [d.pvIdx] else []) ++ (if d.outDest = 2 then [d.outIdx] else []) ++
    (d.terms.filter fun t => t.srcType = 0x08).map (·.srcIdx)

/-- The entry is used by a rack in RUN (14 R358). -/
def State.entryInRun (s : State) (e : Nat) : Bool :=
  (List.range 16).any fun k => s.rackOn k && s.rackState k = .run &&
    (((s.cfg.topo.rack k).flowSrc = 2 && (s.cfg.topo.rack k).flowIdx = e) ||
      s.cfg.loops.any fun d => d.2.enable && d.2.rack = k && d.2.busRefs.contains e)

/-- The channel is used by a rack in RUN: an entry on it is. -/
def State.canInRun (s : State) (c : Nat) : Bool :=
  s.cfg.entries.any fun e => e.2.dir ≠ 0 && e.2.channel = c && s.entryInRun e.1

/-- The refusal word of 14 R357. -/
def busWord (i off : Nat) : Reply := .badParam (i * 65536 + off)

def busAxes (s : State) : List (Bool × Reply) := valveAxes s

/-- Structure checks of BUS_CONFIGURE. -/
def busShape (p : Packet) : Except Reply Unit := do
  p.checkBlock 8 []
  let b := p.block
  let nc := u8At b 4
  let ne := u8At b 5
  deny [(b.length < 8 + 544 * nc + 32 * ne, p.badField 2), (u16At b 6 / 2 ≠ 0, p.badField 6)]
  deny ((List.range nc).flatMap fun i =>
    let o := 8 + 544 * i
    ([(decide (16 ≤ u8At b (o + 1)), busWord i 1), (!zeroRange b (o + 2) 2, busWord i 2), (!zeroRange b (o + 0x11) 15, busWord i 0x11)] : List (Bool × Reply)) ++
      (List.range 64).flatMap fun k =>
        ([(bit (u32At b (o + 0x20 + 8 * k)) 30, busWord i (0x20 + 8 * k)),
          (decide (2 ^ 29 ≤ u32At b (o + 0x24 + 8 * k)), busWord i (0x24 + 8 * k))] : List (Bool × Reply)))
  deny ((List.range ne).flatMap fun i =>
    let o := 8 + 544 * nc + 32 * i
    ([(decide (128 ≤ u8At b (o + 3)), busWord (nc + i) 3), (!zeroRange b (o + 0x17) 1, busWord (nc + i) 0x17)] : List (Bool × Reply)))

def busConfigureBody (p : Packet) (s : State) : Except Reply (State × CmdEnd) := do
  let b := p.block
  let nc := u8At b 4
  let ne := u8At b 5
  deny [(16 < nc, p.badField 4), (64 < ne, p.badField 5)]
  let chans := (List.range nc).map fun i => (u8At b (8 + 544 * i), canRecAt b (8 + 544 * i))
  let ents := (List.range ne).map fun i => (u8At b (8 + 544 * nc + 32 * i), entryRecAt b (8 + 544 * nc + 32 * i))
  let items := chans.map (fun e => CfgItem.can e.1 e.2) ++ ents.map fun e => CfgItem.entry e.1 e.2
  let plan := s.planned
  let result := plan.putAll items
  let canOf := fun c => Tab.get ({} : CanRec) result.can c
  let outs := result.entries.filter fun e => e.2.dir = 2
  deny (((List.range nc).zip chans).flatMap fun x =>
    let bad := x.2.2.timing.badField
    ([(15 < x.2.1 || (chans.take x.1).any (·.1 = x.2.1), busWord x.1 0), (bad.isSome, busWord x.1 (4 + bad.getD 0)),
      (!x.2.2.enable && outs.any (fun e => e.2.channel = x.2.1), busWord x.1 1)] : List (Bool × Reply)))
  deny (((List.range ne).zip ents).flatMap fun x =>
    let i := nc + x.1
    let e := x.2.1
    let r := x.2.2
    let bad := r.badField
    let mates := outs.filter fun m => r.dir = 2 && m.1 ≠ e && m.2.channel = r.channel && m.2.ident = r.ident && m.2.ide = r.ide
    ([(63 < e || (ents.take x.1).any (·.1 = e), busWord i 0), (bad.isSome, busWord i (bad.getD 0)),
      (r.dir = 2 && !(canOf r.channel).enable, busWord i 2), (mates.any (fun m => m.2.fd ≠ r.fd || m.2.brs ≠ r.brs), busWord i 3),
      (mates.any (fun m => m.2.dlc ≠ r.dlc), busWord i 10), (mates.any (fun m => m.2.timing ≠ r.timing), busWord i 0x14),
      (r.dir ≠ 2 && s.cfg.loops.any (fun d => d.2.enable && d.2.outDest = 2 && d.2.outIdx = e), busWord i 1)] : List (Bool × Reply)))
  deny (chans.map (fun e => (Tab.get ({} : CanRec) plan.can e.1 ≠ e.2 && s.canInRun e.1, Reply.notInMode)) ++
    ents.map fun e =>
      let old := Tab.get ({} : EntryRec) plan.entries e.1
      let exempt := { e.2 with lo := old.lo, hi := old.hi, timing := if e.2.dir = 1 then old.timing else e.2.timing }
      (exempt ≠ old && s.entryInRun e.1, Reply.notInMode))
  if bit (u16At b 6) 0 then .ok (s, .reply .done)
  else .ok ((s.defer items).logConfig p SC.ok, .reply { Reply.done with save := items })

/-- BUS_CONFIGURE (14 R357, R358). -/
def execBusConfigure (p : Packet) (s : State) : Host.Outcome State Fault Refusal :=
  .next (s.runCmd 0x0801 false p busShape (fun _ s => axes (busAxes s)) fun _ => busConfigureBody)

/-- A channel record takes effect at T0: enabling it or changing its timing rejoins the bus, as does naming it in bus-off. -/
def State.putCan (s : State) (c : Nat) (r : CanRec) : State :=
  let old := s.canRec c
  let s := s.apply [.can c r]
  s.onCan c fun x =>
    if x.state = .detecting then x
    else if !r.enable then { x with state := .off, tec := 0, recc := 0 }
    else if !old.enable || old.timing ≠ r.timing || x.state = .busOff || x.state = .heldOff || x.state = .off then { x with state := .active, tec := 0, recc := 0 }
    else x

/-- An entry record takes effect at T0: an entry whose field or direction changed starts anew. -/
def State.putEntry (s : State) (e : Nat) (r : EntryRec) : State :=
  let old := s.entryRec e
  let s := s.apply [.entry e r]
  if { old with lo := r.lo, hi := r.hi, timing := r.timing } = r then s else s.onEntry e fun d => { outVal := if old.dir = 2 then d.outVal else none }

/-! ## Automatic rate detection (14 R359, R360) -/

def busAutobaudBody (p : Packet) (s : State) : Except Reply (State × CmdEnd) := do
  let b := p.block
  let c := u8At b 4
  let n := u8At b 5
  let dwell := u16At b 8
  deny [(15 < c, p.badField 4), (n = 0 || 8 < n, p.badField 5), (outside 100 10000 dwell, p.badField 8), (outside 1 100 (u16At b 10), p.badField 10)]
  let cands := (List.range n).map fun i => canTimingAt b (16 + 16 * i)
  deny (((List.range n).zip cands).map fun x => (x.2.badField.isSome, p.badField (16 + 16 * x.1 + x.2.badField.getD 0)))
  deny [(s.canInRun c, Reply.notInMode), (s.bus.autobaud.any (·.channel = c), .busy (80100))]
  let a : Autobaud := { cmd := p.id, channel := c, apply := bit (u16At b 6) 0, framesNeeded := u16At b 10, candidates := cands, was := (s.canChan c).state
                        dwell := dwell, since := s.now }
  let s := s.onCan c fun x => { x with state := .detecting }
  .ok ({ s with bus := { s.bus with autobaud := s.bus.autobaud ++ [a] } }, .later [])

/-- BUS_AUTOBAUD (14 R359). -/
def execBusAutobaud (p : Packet) (s : State) : Host.Outcome State Fault Refusal :=
  .next (s.runCmd 0x0802 false p
    (fun p => do
      p.checkBlock 16 [(12, 4)]
      let n := u8At p.block 5
      deny ((decide (p.block.length < 16 + 16 * n), p.badField 2) :: (decide (u16At p.block 6 / 2 ≠ 0), p.badField 6) ::
        (List.range n).map fun i => (!zeroRange p.block (29 + 16 * i) 3, p.badField (29 + 16 * i))))
    (fun _ s => axes (busAxes s)) fun _ => busAutobaudBody)

/-- The detection on a channel ends: the channel resumes, and the command completes. -/
def State.endAutobaud (s : State) (a : Autobaud) (r0 : Nat) (items : List CfgItem) : State :=
  let s := { s with bus := { s.bus with autobaud := s.bus.autobaud.filter fun (x : Autobaud) => x.channel ≠ a.channel } }
  let s := (s.apply items).onCan a.channel fun x => { x with state := if a.was = .off then .off else .active, tec := 0, recc := 0 }
  let s := match items, s.runningCmd a.cmd with
    | _ :: _, some c => s.logConfig c.packet SC.ok
    | _, _ => s
  s.finish a.cmd { Reply.done with r0 := w32 r0, save := items }

/-- AUTOBAUD_CANDIDATE_END: accepted with its frames, or rejected at an error (`error`) or at the end of dwell_ms (14 R359, R360). -/
def execAutobaudCandidateEnd (chan : Fin 16) (error : Bool) (s : State) : Host.Outcome State Fault Refusal :=
  .next (match s.bus.autobaud.find? (·.channel = chan.val) with
    | none => s
    | some a =>
      if a.framesNeeded ≤ a.frames then
        let items := if a.apply then [CfgItem.can a.channel { s.canRec a.channel with timing := a.candidates.getD a.present {} }] else []
        s.endAutobaud a (a.present + 256 * flag a.brs + 65536 * satTo 16 a.frames) items
      else if !error && decide (s.now < a.since + 10 * a.dwell) then s
      else if a.present + 1 < a.candidates.length then
        { s with bus := { s.bus with autobaud := s.bus.autobaud.map fun (x : Autobaud) => if x.channel = a.channel then { x with present := x.present + 1, frames := 0, brs := false, since := s.now } else x } }
      else s.endAutobaud a 0xFF [])

/-! ## View (14 R361) -/

def CanState.code : CanState → Nat
  | .off => 0 | .active => 1 | .passive => 2 | .busOff => 3 | .heldOff => 4 | .detecting => 5

/-- A channel status record (Table 14.9). -/
def State.canRecord (s : State) (c : Nat) : List Byte :=
  let x := s.canChan c
  le8 c ++ le8 x.state.code ++ le8 (satTo 8 x.tec) ++ le8 (satTo 8 x.recc) ++ le32 x.rxFrames ++ le32 x.txFrames ++ le32 x.unmatched ++ le32 x.overruns ++
    le32 x.busOffs ++ le16 x.fdIgnored ++ le16 x.lockExpiries ++ zeros 4

end Sys2Proof.Machine
end

