-- ==== Sys2Proof/Machine/Thermal.lean ====
section
/-! DEFINITION. The runtime of the row thermal model (04): measurements and margins per frame, forecasts, headroom, the safety
filter, model faults, cycle counting and capacity; the completion and the abort of a step, and FORECAST_READ. -/

namespace Sys2Proof.Machine

/-! ## Exact values -/

/-- The nearest binary32 of an exact value (R102; assumption log 27). -/
def F32.near (q : Rat) : F32 := F32.ofVal .rne (ratVal q)

/-- A T16 in °C. -/
def t16Rat (t : U16) : Rat := (t.toInt : Rat) / 64

/-- The greater of two T16 values. -/
def t16Max (a b : U16) : U16 := if a.toInt < b.toInt then b else a

/-! ## Measurements (R103) -/

/-- What a frame gives of a chip's hot spot: whether it has a pair, and the readings, the only one being A. -/
structure ChipIn where
  paired : Bool := false
  a : Option U16 := none
  b : Option U16 := none
deriving DecidableEq, Repr

/-- The binding over a T16 field with a role that covers slot `c`. -/
def Image.sensor (i : Image) (role c : Nat) : Option InBinding :=
  i.inputs.find? fun b => b.role = role && b.fieldType = 1 && b.firstSlot ≤ c && c < b.firstSlot + b.count

/-- Its reading of the slot; sensor B with its offset. -/
def InBinding.reading (b : InBinding) (fb : List Byte) (c : Nat) : Option U16 :=
  let v := u16At fb (b.frameOffset + (c - b.firstSlot) * b.stride)
  if v = 0x8000 then none else some (t16Sat (sext 16 v + (if b.role = 2 then b.pairOffset.toInt else 0)))

/-- The readings of a chip: its pair, or one binding that covers it, or the hot spot its tray sends (assumption log 27). -/
def chipIn (img : Option Image) (fb : List Byte) (f : Frame) (c : Nat) : ChipIn :=
  let own := (Tab.get ({} : ChipRec) f.chips c).hotSpot
  let hot : ChipIn := { a := if own = 0x8000 then none else some own }
  match img with
  | none => hot
  | some i =>
    match i.sensor 1 c, i.sensor 2 c, i.sensor 0 c with
    | some a, some b, _ => { paired := true, a := a.reading fb c, b := b.reading fb c }
    | _, _, some a => { a := a.reading fb c }
    | _, _, _ => hot

/-- A sensor of the slot is on the exclusion list (R104). -/
def ThermalBlock.excluded (k : ThermalBlock) (c sensor : Nat) : Bool := k.excl.contains (c, sensor)
def ThermalBlock.exclOne (k : ThermalBlock) (c : Nat) : Bool := k.excluded c 0 || k.excluded c 1

/-- The hotter of the readings that may count. -/
def ChipIn.hotter (i : ChipIn) (dropA dropB : Bool) : Option U16 :=
  match (if dropA then none else i.a), (if dropB then none else i.b) with
  | some a, some b => some (t16Max a b)
  | some a, none => some a
  | none, b => b

/-! ## Margins (R102, R104, R532) -/

/-- m_floor. -/
def ThermalBlock.mFloor (k : ThermalBlock) (abar : Rat) (one : Bool) : Rat :=
  t16Rat k.marginMin + 3 * abar + (if one then t16Rat k.disagreeBand else 0)

/-- Residual, average and margin of a frame with a measurement and a forecast made 20 ticks before. -/
def ChipTh.residual (x : ChipTh) (k : ThermalBlock) (one : Bool) (y : Rat) (f : Forecast) : ChipTh :=
  let rho := y - (F32.rat f.lo + F32.rat f.hi) / 2
  let eps := y - F32.rat f.hi
  let abar := F32.near (F32.rat x.abar + (|rho| - F32.rat x.abar) / 10000)
  let m := F32.rat x.m
  let m := if 0 < eps then max m ((k.marginGain.toNat : Rat) / 256 * eps) else m
  let m := max (k.mFloor (F32.rat abar) one) (m - t16Rat k.marginDecay / 10000)
  { x with abar := abar, m := F32.near (min m (t16Rat k.marginMax)), resid := some (F32.near rho) }

/-- An event of the runtime: class, type. -/
abbrev ModelEvent := Nat × Nat

/-- One present chip in one frame. -/
def ChipTh.atFrame (x : ChipTh) (k : ThermalBlock) (now c : Nat) (i : ChipIn) : ChipTh × List ModelEvent :=
  let one := i.paired && k.exclOne c
  let dropA := i.paired && k.excluded c 0
  let dropB := i.paired && k.excluded c 1
  let x := { x with y := i.hotter dropA dropB }
  let feed := i.hotter (dropA || x.suspectA) (dropB || x.suspectB)
  let x := match feed, x.past.find? fun e => e.1 + 20 = now with
    | some y, some f => x.residual k one (t16Rat y) f.2
    | _, _ => x
  let x := { x with past := x.past.filter fun e => now ≤ e.1 + 20 }
  let top := t16Rat k.marginMax
  let m := F32.rat x.m
  let atMax := if x.atMax then decide ((9 : Rat) / 10 * top ≤ m) else decide (top ≤ m)
  let ev1 : List ModelEvent :=
    if atMax && !x.atMax then [(Cls.warning, 0x0302)] else if x.atMax && !atMax then [(Cls.notice, 0x0303)] else []
  let both := i.paired && i.a.isSome && i.b.isSome
  let far := both && decide (k.disagreeBand.toInt < |(i.a.getD 0).toInt - (i.b.getD 0).toInt|)
  let ev2 : List ModelEvent := if far && !x.disagree then [(Cls.notice, 0x0304)] else []
  ({ x with
      atMax := atMax, disagree := far
      disagreeRun := if far then x.disagreeRun + 1 else 0, agreeRun := if both && !far then x.agreeRun + 1 else 0 }, ev1 ++ ev2)

/-! ## The frame in one lane -/

/-- The chip slots that enabled trays hold. -/
def Topology.slots (t : Topology) : List Nat :=
  (t.trays.filter fun e => e.2.enable).flatMap fun e => (List.range e.2.count).map (e.2.firstSlot + ·)

/-- The T16 limit of a slot: that of its rack (Table 4.4). -/
def State.tLimit (s : State) (c : Nat) : Option U16 :=
  (s.cfg.topo.slotRack c).map fun k => Tab.get 0x1680 s.cfg.thermal.tLimit k

/-- One slot: presence, which R98 and R532 follow, and its measurements. -/
def Lane.frameChip (x : Lane) (k : ThermalBlock) (now c : Nat) (absent : Bool) (i : ChipIn) : Lane × List ModelEvent :=
  let p := Tab.get ({} : ChipTh) x.model.chips c
  let changed := p.present = absent
  let p := if absent then { p with present := false, y := none, resid := none, filtered := false }
    else if changed then { p with present := true, abar := 0, m := F32.near (k.mFloor 0 (i.paired && k.exclOne c)), atMax := false }
    else p
  let (p, ev) := if absent then (p, []) else p.atFrame k now c i
  let due := if changed then (x.model.absentDue.filter fun e => e.1 ≠ c) ++ [(c, absent)] else x.model.absentDue
  ({ x with model := { x.model with chips := Tab.set {} x.model.chips c p, absentDue := due } }, ev)

/-- G of a rack in this frame: summed power over the mean rise of its chips above the supply (R112). -/
def State.rackG (s : State) (x : Lane) (k : Nat) : Option Rat :=
  let cs := s.rackChips k
  let f := s.tick.frame
  let ai := (s.cfg.topo.rack k).tSupAi
  let ys := cs.filterMap fun c => (Tab.get ({} : ChipTh) x.model.chips c).y
  let w := cs.foldl (fun (n : Nat) c =>
    let p := (Tab.get ({} : ChipRec) f.chips c).power
    if p = 0xFFFF then n else n + p.toNat) 0
  match analogValue (s.cfg.analogRec ai) (Tab.get {} f.analog ai) with
  | none => none
  | some t =>
    let rise := ys.foldl (fun (a : Rat) y => a + (t16Rat y - F32.rat t)) 0 / (ys.length : Rat)
    if ys.isEmpty ∨ rise = 0 then none else some ((w : Rat) / 20 / rise)

/-- Adds this frame to the hour's average of every rack. -/
def Lane.sumCapacity (x : Lane) (s : State) : Lane :=
  let cap := ((List.range 16).filter s.rackOn).foldl (fun (t : Tab CapacityUnit) k =>
    match s.rackG x k with
    | none => t
    | some g => Tab.modify {} t k fun u => { u with sumG := u.sumG + g, frames := u.frames + 1 }) x.model.capacity
  { x with model := { x.model with capacity := cap } }

/-- The runtime's work on the frame of the tick in lane `l` (R102-R104, R112). -/
def State.thermalFrame (s : State) (l : LaneId) : State :=
  if !(s.lane l).isRunning then s
  else
    let f := s.tick.frame
    let fb := f.bytes
    let on := s.cfg.topo.slots
    let slots := on ++ ((s.lane l).model.chips.map Prod.fst).filter fun c => !on.contains c
    let s := slots.foldl (fun (s : State) c =>
      let (x, ev) := (s.lane l).frameChip s.cfg.thermal s.now c (s.slotAbsent c) (chipIn s.image fb f c)
      ev.foldl (fun (s : State) e => s.logIn l e.1 e.2 (w32 c) []) (s.setLane l x)) s
    s.onLane l fun x => x.sumCapacity s

/-! ## Sensor marks (R103) -/

/-- The sensor farther from the estimate of the present epoch, B where both are equally far: `true` is A; none without an
estimate (assumption log 27). -/
def ChipTh.farther (x : ChipTh) (now : Nat) (i : ChipIn) : Option Bool :=
  match x.past.find? fun e => e.1 + 20 = now, i.a, i.b with
  | some f, some a, some b =>
    let est := (F32.rat f.2.lo + F32.rat f.2.hi) / 2
    some (decide (|t16Rat b - est| < |t16Rat a - est|))
  | _, _, _ => none

/-- SENSOR_SUSPECT (R103): after disagree_ticks of disagreement one sensor is marked, in every running lane. -/
def execSensorSuspect (chip : Fin 4096) (s : State) : Host.Outcome State Fault Refusal :=
  let c := chip.val
  let one := fun (s : State) (l : LaneId) =>
    let p := Tab.get ({} : ChipTh) (s.lane l).model.chips c
    if !(s.lane l).isRunning || !p.present || p.disagreeRun < s.cfg.thermal.disagreeTicks || p.suspectA || p.suspectB then s
    else match p.farther s.now (chipIn s.image s.tick.frame.bytes s.tick.frame c) with
      | none => s
      | some a =>
        (s.onLane l fun x => { x with model := { x.model with
            chips := Tab.set {} x.model.chips c { p with suspectA := a, suspectB := !a } } }).logIn l Cls.warning 0x0305 (w32 c) []
  .next (one (one s .A) .B)

/-- SENSOR_CLEAR (R103): the mark clears after disagree_ticks within the band. -/
def execSensorClear (chip : Fin 4096) (s : State) : Host.Outcome State Fault Refusal :=
  let c := chip.val
  let one := fun (s : State) (l : LaneId) =>
    let p := Tab.get ({} : ChipTh) (s.lane l).model.chips c
    if !(s.lane l).isRunning || !(p.suspectA || p.suspectB) || p.agreeRun < s.cfg.thermal.disagreeTicks then s
    else
      (s.onLane l fun x => { x with model := { x.model with
          chips := Tab.set {} x.model.chips c { p with suspectA := false, suspectB := false } } }).logIn l Cls.notice 0x0306 (w32 c) []
  .next (one (one s .A) .B)

/-! ## Headroom (R105, R106, R109) -/

/-- No reading: telemetry missing, no sensor that counts, or no valid forecast at a horizon. -/
def ChipTh.noReading (p : ChipTh) (missing : Bool) : Bool :=
  missing || p.y.isNone || p.fc2.isNone || p.fc5.isNone || p.fc20.isNone

/-- A margin in steps of 1/64 °C, rounded up. -/
def marginSteps (m : F32) : Int := ⌈F32.rat m * 64⌉

/-- A bound in steps, rounded up. -/
def boundSteps (f : Forecast) : Int := ⌈F32.rat f.hi * 64⌉

/-- Headroom of a present chip in steps of 1/64 °C. -/
def State.headroom (s : State) (x : Lane) (c : Nat) : Int :=
  let p := Tab.get ({} : ChipTh) x.model.chips c
  let st := s.chipMissing c
  if x.model.fault || x.model.headroomZero || p.noReading st then 0
  else
    let lim := ((s.tLimit c).getD 0x1680).toInt
    let hs := [p.fc2, p.fc5, p.fc20].filterMap fun f => f.map fun f => lim - (boundSteps f + marginSteps p.m)
    match hs with
    | [] => 0
    | h :: t => t.foldl min h

/-! ## Model faults (R109) -/

/-- A model fault: causes 1 step aborts, 2 invalid forecasts. -/
def State.modelFault (s : State) (cause : Nat) : State :=
  if s.main.model.fault then s
  else
    let s := s.onLanes fun x => { x with model := { x.model with fault := true } }
    let s := s.logLanes Cls.faultC 0x0301 (w32 (s.img.activeSlot.getD 0xFF)) [w32 cause]
    if s.mode.authority = .predictive then s.dropAuthority .inner (s.now + 1) 1 else s

/-! ## Rainflow counting (R110) -/

/-- The bin of a range in 1/64 °C. -/
def rainBin (r : Nat) : Nat := min 31 (r / 128)

def ChipTh.countHalf (x : ChipTh) (a b : Int) (n : Nat) : ChipTh :=
  { x with bins := Tab.modify 0 x.bins (rainBin (a - b).natAbs) fun v => satTo 32 (v + n) }

/-- Four-point counting over turning points, newest first: an inner range no greater than both its neighbours is a full cycle. -/
def fourPoint : Nat → List Int → List Nat × List Int
  | n + 1, p4 :: p3 :: p2 :: p1 :: rest =>
    if (p3 - p2).natAbs ≤ (p2 - p1).natAbs ∧ (p3 - p2).natAbs ≤ (p4 - p3).natAbs then
      let (c, l) := fourPoint n (p4 :: p1 :: rest)
      ((p3 - p2).natAbs :: c, l)
    else ([], p4 :: p3 :: p2 :: p1 :: rest)
  | _, l => ([], l)

/-- One sample: the newest turning point of the residue is still open; it moves with the signal, and a reversal of at least the
gate closes it (assumption log 27). -/
def ChipTh.sample (x : ChipTh) (gate : Int) (y : Int) : ChipTh :=
  match x.residue.reverse with
  | [] => { x with residue := [y] }
  | [a] => if gate ≤ |y - a| then { x with residue := [a, y] } else x
  | z :: w :: rest =>
    if (w < z ∧ z < y) ∨ (z < w ∧ y < z) then { x with residue := (y :: w :: rest).reverse }
    else if |y - z| < gate then x
    else
      let (cycles, left) := fourPoint 64 (z :: w :: rest)
      let x := cycles.foldl (fun (x : ChipTh) r =>
        { x with bins := Tab.modify 0 x.bins (rainBin r) fun v => satTo 32 (v + 2) }) x
      match left.reverse with
      | p :: q :: more => if 64 ≤ left.length then { x.countHalf q p 1 with residue := more ++ [y] } else { x with residue := left.reverse ++ [y] }
      | l => { x with residue := l ++ [y] }

/-! ## The outputs of a step -/

/-- Element `i` of a binding of 4-byte elements. -/
def Tensor.word (b : OutBinding) (d : List Byte) (i : Nat) : U32 := w32 (fieldAt d (b.elSize * i) 4)

/-- A forecast element: both ends finite and in order (R100). -/
def forecastAt (b : OutBinding) (d : List Byte) (i : Nat) : Option Forecast :=
  let w := Tensor.word b d i
  let (lo, hi) := if b.fmt = 0x10 then (w, w32 (fieldAt d (8 * i + 4) 4)) else (bf16Lo w, bf16Hi w)
  if F32.finite lo && F32.finite hi && F32.le lo hi then some { lo := lo, hi := hi } else none

/-- Some element of the binding is not finite or inverted (Table 4.2). -/
def OutBinding.invalid (b : OutBinding) (d : List Byte) : Bool :=
  (List.range b.count).any fun i =>
    if b.kind = 5 then (forecastAt b d i).isNone
    else if b.kind = 6 then !couplingOk (fieldAt d (8 * i + 4) 4)
    else !F32.finite (Tensor.word b d i)

/-- The due epoch of a binding's result (02 R43, 07 R196). -/
def OutBinding.due (b : OutBinding) (n k : Nat) : Nat := if b.cls = 1 then n + b.period - 1 else n + k - 1

/-- A power in W rounded down to units of 0.05 W, in the encodable range (07 R188). -/
def capUnits (w : F32) : Nat := min 0xFFFE ⌊F32.rat w * 20⌋.toNat

/-- Forecasts of a completed step: each chip takes those of its bindings, all others lose theirs (R99, R106). -/
def Lane.takeForecasts (x : Lane) (img : Image) (data : OutBinding → List Byte) : Lane :=
  let n := x.step.epoch
  let fcs := img.outputs.filter fun b => b.kind = 5
  let at_ := fun (h c : Nat) =>
    ((fcs.find? fun b => b.horizon = h && b.firstTarget ≤ c && c < b.firstTarget + b.count).bind fun b =>
      forecastAt b (data b) (c - b.firstTarget))
  let chips := x.model.chips.map fun (e : Nat × ChipTh) =>
    if !e.2.present then (e.1, { e.2 with fc2 := none, fc5 := none, fc20 := none, filtered := false })
    else
      let f2 := at_ 0 e.1
      (e.1, { e.2 with
        fc2 := f2, fc5 := at_ 1 e.1, fc20 := at_ 2 e.1, filtered := false
        past := match f2 with
          | some f => e.2.past ++ [(n, f)]
          | none => e.2.past })
  { x with model := { x.model with chips := chips } }

/-- One rainflow sample of each present chip with a measurement. -/
def Lane.sampleRain (x : Lane) (k : ThermalBlock) : Lane :=
  let chips := x.model.chips.map fun (e : Nat × ChipTh) =>
    match e.2.present, e.2.y with
    | true, some y => (e.1, e.2.sample k.rainflowGate.toInt y.toInt)
    | _, _ => e
  { x with model := { x.model with chips := chips } }

/-- What the reference model proposes for a MODEL-sourced group loop (07 R528): its last proposal moved by its rule, kept within
[sp_min, sp_max] (assumption log 12). -/
def State.refProposal (s : State) (x : Lane) (n : Nat) : F32 :=
  let d := Tab.get ({} : LoopDesc) s.cfg.loops n
  let racks := (((List.range 4).find? fun g => (s.cfg.topo.group g).groupLoop = n && bit s.cfg.topo.groupEnable g).map
    fun g => (s.cfg.topo.group g).racks).getD 0
  let cs := ((List.range 16).filter (bit racks)).flatMap s.rackChips
  let room : Nat → Int := fun c =>
    let p := Tab.get ({} : ChipTh) x.model.chips c
    match p.fc20 with
    | some f => if p.noReading (s.chipMissing c) then 0
      else ((s.tLimit c).getD 0x1680).toInt - (boundSteps f + marginSteps p.m)
    | none => 0
  match Tab.get none x.model.refProp n with
  | none => d.spMax
  | some last =>
    let lo := F32.rat d.spMin
    let hi := F32.rat d.spMax
    let v := F32.rat last
    let low := cs.any fun c => room c < 128
    let lag := cs.any fun c => (Tab.get ({} : GovChip) x.gov.chips c).laggard
    if low || lag then F32.near (min hi (v + (hi - lo) / 1000))
    else if !cs.isEmpty && cs.all (fun c => 320 < room c) then F32.near (max lo (v - (hi - lo) / 10000))
    else last

/-! ## The safety filter (R108) -/

/-- The present chips of a rack, or of the row. -/
def State.affected (s : State) (rack : Option Nat) : List Nat :=
  match rack with
  | some k => s.rackChips k
  | none => ((List.range 16).filter s.rackOn).flatMap s.rackChips

/-- The chips of a set that block a protected move. -/
def State.blockers (s : State) (x : Lane) (set : List Nat) : List Nat := set.filter fun c => s.headroom x c ≤ 0

/-- Counts a blocked output. -/
def Lane.markFiltered (x : Lane) (cs : List Nat) : Lane :=
  let chips := cs.foldl (fun (t : Tab ChipTh) c => Tab.modify {} t c fun p => { p with filtered := true }) x.model.chips
  { x with model := { x.model with chips := chips, filteredCount := satTo 32 (x.model.filteredCount + 1) } }

/-- A set-point or feed-forward through the filter: the value that goes on. -/
def State.filterLoop (s : State) (x : Lane) (k : ResultKind) (b : OutBinding) (n : Nat) (v : F32) : Lane × F32 :=
  let seen := s.rel.sinceGrant.contains (k, n)
  let ref := match k with
    | .loopSp => if seen then (Tab.get none s.rel.setPoint n).getD (Tab.get ({} : LoopSlot) x.loops n).hostSp
        else (Tab.get ({} : LoopSlot) x.loops n).hostSp
    | _ => if seen then (Tab.get none s.rel.feedFwd n).getD 0 else 0
  let less := if b.sense = 1 then F32.lt v ref else F32.lt ref v
  let rack := (Tab.get ({} : LoopDesc) s.cfg.loops n).rack
  let stop := s.blockers x (s.affected (if rack < 16 then some rack else none))
  if less && !stop.isEmpty then (x.markFiltered stop, ref) else (x, v)

/-- A cap proposal through the filter; none where it is blocked and no cap was ever released. -/
def State.filterCap (s : State) (x : Lane) (c v : Nat) : Lane × Option Nat :=
  let ref := (Tab.get ({} : CapFloor) s.rel.caps c).cap
  let stop := s.blockers x (match s.cfg.topo.slotRack c with | some k => s.rackChips k | none => [])
  if ref ≠ 0xFFFF && v ≤ ref || stop.isEmpty then (x, some v)
  else (x.markFiltered stop, if ref = 0xFFFF then none else some ref)

/-- One output element on its way to the Hall of Mirrors or the governor. -/
def State.putOutput (s : State) (img : Image) (b : OutBinding) (d : List Byte) (x : Lane) (i : Nat) : Lane :=
  let n := b.firstTarget + i
  let due := b.due x.step.epoch (x.step.due + 1 - x.step.epoch)
  let w := if img.reference && b.kind = 1 then s.refProposal x n else Tensor.word b d i
  let x := if img.reference && b.kind = 1 then { x with model := { x.model with refProp := Tab.set none x.model.refProp n (some w) } } else x
  let result := fun (x : Lane) (k : ResultKind) (v : F32) =>
    { x with step := { x.step with results := x.step.results ++
        [{ kind := k, target := n, source := x.step.epoch, due := due, value := .word v }] } }
  let propose := fun (x : Lane) (isFloor : Bool) (v : Nat) =>
    { x with gov := { x.gov with proposals := x.gov.proposals ++ [{ slot := n, isFloor := isFloor, due := due, value := v }] } }
  if !F32.finite w then x
  else match b.kind with
    | 1 =>
      let (x, v) := s.filterLoop x .loopSp b n w
      result x .loopSp v
    | 2 =>
      let (x, v) := s.filterLoop x .loopFf b n w
      result x .loopFf v
    | 3 =>
      match s.filterCap x n (capUnits w) with
      | (x, some v) => propose x false v
      | (x, none) => x
    | 4 => propose x true (capUnits w)
    | _ => x

/-! ## Step boundary -/

/-- The entry updates a lane's completed step proposes (R94). -/
def Lane.updates (x : Lane) (img : Image) : List (Nat × U32) :=
  (img.outputs.filter fun b => b.kind = 6).flatMap fun b =>
    let d := (Tab.get ({} : Tensor) x.step.tensors b.index).data b
    (List.range b.count).map fun i => (fieldAt d (8 * i) 4, w32 (fieldAt d (8 * i + 4) 4))

/-- A new parameter block: margins move into its bounds at once, marks are kept (R114). -/
def State.putThermal (s : State) (k : ThermalBlock) : State :=
  let paired := fun (c : Nat) => match s.image with
    | some i => (i.sensor 1 c).isSome && (i.sensor 2 c).isSome
    | none => false
  let fix := fun (e : Nat × ChipTh) =>
    let lo := k.mFloor (F32.rat e.2.abar) (paired e.1 && k.exclOne e.1)
    (e.1, { e.2 with m := F32.near (min (t16Rat k.marginMax) (max lo (F32.rat e.2.m))) })
  (s.apply [.thermal k]).onLanes fun x => { x with model := { x.model with chips := x.model.chips.map fix } }

/-- What a step boundary does: the table's changes, then a parameter block that waits (R95, R96, R114). -/
def State.stepBoundary (s : State) (updates : LaneId → List (Nat × U32)) : State :=
  let s := s.couplingBoundary updates
  match s.img.blockDue with
  | some k => { s.putThermal k with img := { s.img with blockDue := none } }
  | none => s

/-- The boundary of a completed step, once every running lane has completed it. -/
def State.settleBoundary (s : State) : State :=
  let busy := fun (x : Lane) => x.isRunning && x.step.running
  let due := fun (x : Lane) => x.isRunning && x.step.boundaryDue
  if busy s.laneA || busy s.laneB || !(due s.laneA || due s.laneB) then s
  else match s.image with
    | none => s
    | some img =>
      let of := fun (l : LaneId) => if due (s.lane l) then (s.lane l).updates img else []
      (s.stepBoundary of).onLanes fun x => { x with step := { x.step with boundaryDue := false } }

/-! ## STEP_COMPLETE -/

/-- A completed step in lane `l`: validity, forecasts, cycle counting, the filter, results and proposals (Table 4.2). -/
def State.completeLane (s : State) (l : LaneId) (img : Image) : State :=
  let x := s.lane l
  let data := fun (b : OutBinding) => (Tab.get ({} : Tensor) x.step.tensors b.index).data b
  let bad := img.outputs.filter fun b => b.invalid (data b)
  let badFc := bad.any fun b => b.kind = 5
  let x := (x.takeForecasts img data).sampleRain s.cfg.thermal
  let x := { x with model := { x.model with
      invalidOut := satTo 32 (x.model.invalidOut + bad.length), invalidRun := if badFc then x.model.invalidRun + 1 else 0
      abortRun := 0, headroomZero := false, sourceEpoch := some x.step.epoch } }
  let x := img.outputs.foldl (fun (x : Lane) b =>
    let d := data b
    (List.range b.count).foldl (fun (x : Lane) i => s.putOutput img b d x i) x) x
  let x := { x with step := { x.step with running := false, firstStep := false, abortedLast := false, boundaryDue := true } }
  let s := s.setLane l x
  if 8 ≤ x.model.invalidRun then s.modelFault 2 else s

/-- STEP_COMPLETE (05 R137, 04). -/
def execStepComplete (l : LaneId) (s : State) : Host.Outcome State Fault Refusal :=
  .next (match s.image with
    | none => s
    | some img =>
      if (s.lane l).isRunning && (s.lane l).step.running && (s.lane l).stepDone img then (s.completeLane l img).settleBoundary else s)

/-! ## STEP_ABORT (02 R48, 05 R138) -/

/-- A lane whose step is still running at the instant of abort. -/
def State.stepOverdue (s : State) (x : Lane) : Bool := x.isRunning && x.step.running && x.step.due + s.tick.staleLimit ≤ s.now

/-- Counts a tick event: the counter is raised by whoever calls, its increments here (19 R471). -/
def State.countTick (s : State) (i : Nat) (event : U32) : State :=
  { s with evt := { s.evt with countPend := Tab.modify 0 s.evt.countPend i (· + 1) } }.setTickEvent event

def execStepAbort (s : State) : Host.Outcome State Fault Refusal :=
  .next (if !(s.stepOverdue s.laneA || s.stepOverdue s.laneB) then s
  else
    let clean := !(s.main.array.tiles.any fun e => match e.2.seq with | .fault _ => true | _ => false)
    let s := if clean then { s with upd := { s.upd with grantRun := 0 } } else s
    let s := s.onLanes fun x => x.abortStep
    let s := s.onLanes fun x => { x with model := { x.model with abortRun := x.model.abortRun + 1 } }
    let s := { s with
      tick := { s.tick with cntAbort := satTo 32 (s.tick.cntAbort + 1) }
      img := { s.img with stepAborts := satTo 32 (s.img.stepAborts + 1) } }
    let s := (s.countTick 4 0x20).settleBoundary
    if 8 ≤ s.main.model.abortRun then s.modelFault 1 else s)

/-! ## Capacity (R112, R113) -/

/-- Slope per hour and last value of the least-squares line through indices, oldest first. -/
def leastSquares (l : List Rat) : Rat × Rat :=
  let n : Rat := l.length
  let pts := (List.range l.length).zip l
  let sx : Rat := pts.foldl (fun (a : Rat) (p : Nat × Rat) => a + p.1) 0
  let sy : Rat := pts.foldl (fun (a : Rat) (p : Nat × Rat) => a + p.2) 0
  let sxx : Rat := pts.foldl (fun (a : Rat) (p : Nat × Rat) => a + p.1 * p.1) 0
  let sxy : Rat := pts.foldl (fun (a : Rat) (p : Nat × Rat) => a + p.1 * p.2) 0
  let b := (n * sxy - sx * sy) / (n * sxx - sx * sx)
  (b, (sy - b * sx) / n + b * (n - 1))

/-- An index in 1/32,768, kept below all ones. -/
def indexField (q : Rat) : Nat := min 0xFFFE ⌊q * 32768⌋.toNat

/-- A slope in 1/32,768 per day. -/
def slopeField (b : Rat) : Int := max (-32768) (min 32767 ⌊b * 24 * 32768⌋)

/-- One unit's hourly sample: its new state, a base that is now known, and whether it warns. -/
def CapacityUnit.sample (u : CapacityUnit) (k : ThermalBlock) (hour : Nat) (base : Option Rat) (g : Option Rat) :
    CapacityUnit × Option Rat × Bool :=
  let u := { u with sumG := 0, frames := 0 }
  match g with
  | none => ({ u with notSampled := true }, none, false)
  | some g =>
    let u := { u with notSampled := false }
    match base with
    | none =>
      let p := u.pending ++ [g]
      if 24 ≤ p.length then ({ u with pending := [] }, some (p.foldl (· + ·) 0 / p.length), false) else ({ u with pending := p }, none, false)
    | some b =>
      let l := u.indices ++ [g / b]
      let l := l.drop (l.length - 24)
      if l.length < 24 then ({ u with indices := l }, none, false)
      else
        let (slope, last) := leastSquares l
        let left : Rat := (last - (k.warnLevel : Rat) / 65536) / (-slope) / 24
        let days : Option Nat := if slope < 0 then some (min 0xFFFE ⌊max 0 left⌋.toNat) else none
        let warn := decide (slope < 0) && decide (left ≤ k.trendHorizon) &&
          (match u.warned with
            | none => true
            | some (h, d) => decide (h + 24 ≤ hour) || decide (2 * days.getD 0 ≤ d))
        ({ u with indices := l, slope := some (slopeField slope), days := days
                  warned := if warn then some (hour, days.getD 0) else u.warned }, none, warn)

/-- One unit of CAPACITY_SAMPLE. The heat exchanger's G is a free value: no rule gives its formula (assumption log 2). -/
def State.sampleUnit (s : State) (u : Nat) : State :=
  let x := s.main
  let c := Tab.get ({} : CapacityUnit) x.model.capacity u
  let g : Option Rat :=
    if u = 16 then some (F32.rat (Config.freeWord s.fresh))
    else if s.rackState u ≠ .run || c.frames = 0 then none else some (c.sumG / c.frames)
  let (c, base, warn) := c.sample s.cfg.thermal x.model.capacityHours (Tab.get none s.cfg.gBase u) g
  let s := s.onLanes fun y => { y with model := { y.model with capacity := Tab.set {} y.model.capacity u c } }
  let s := match base with
    | some b => s.applyStore [.gBase u (some b)]
    | none => s
  if warn then
    s.logLanes Cls.warning 0x0307 (w32 u)
      [w32 (indexField (c.indices.getLastD 0)), w32 (unsext 32 (c.slope.getD 0)), w32 (c.days.getD 0xFFFF)]
  else s

/-- CAPACITY_SAMPLE (R112, R113), once per hour window: racks that are enabled, and the heat exchanger. -/
def execCapacitySample (s : State) : Host.Outcome State Fault Refusal :=
  .next (if !s.anyLane || s.img.activeSlot.isNone || s.main.model.sampledWindow = some s.main.model.windowStart then s
  else
    let s := ((List.range 16).filter s.rackOn ++ [16]).foldl State.sampleUnit s
    let s := s.onLanes fun x => { x with model := { x.model with capacityHours := x.model.capacityHours + 1, sampledWindow := some x.model.windowStart } }
    { s with fresh := s.fresh + 1 })

/-! ## Records and FORECAST_READ (R116-R118) -/

/-- A T16 field: its bits and whether it saturated (00 R10). -/
def t16Field (v : Int) : Nat × Bool := ((t16Sat v).toNat, decide (v < -32767) || decide (32767 < v))

/-- The chip's table row is frozen or suspended (R95). -/
def State.rowFrozen (s : State) (m : ModelSt) (c : Nat) : Bool :=
  s.adaptOff || s.slotSuspended c || (List.range 4096).all fun j => m.frozenAt (4096 * c + j)

/-- A forecast's fields: estimate to nearest, bound up; "no reading" where the record is INVALID (R100, R106). -/
def forecastFields (ok : Bool) (f : Option Forecast) : List (Nat × Bool) :=
  match ok, f with
  | true, some f =>
    let est := (F32.rat f.lo + F32.rat f.hi) / 2
    [t16Field (((F32.toInt .rne (F32.near (est * 64))).getD 0)), t16Field (boundSteps f)]
  | _, _ => [(0x8000, false), (0x8000, false)]

/-- A forecast record (Table 4.10). -/
def State.forecastRecord (s : State) (c : Nat) : List Byte :=
  let x := s.main
  let p := Tab.get ({} : ChipTh) x.model.chips c
  let st := s.chipMissing c
  if s.slotAbsent c then le16 c ++ le16 1 ++ (List.replicate 11 0x8000).flatMap le16 ++ zeros 6
  else
    let noFc := p.fc2.isNone || p.fc5.isNone || p.fc20.isNone
    let fields := forecastFields (!noFc && !p.noReading st) p.fc2 ++ forecastFields (!noFc && !p.noReading st) p.fc5 ++
      forecastFields (!noFc && !p.noReading st) p.fc20
    let m := t16Field (marginSteps p.m)
    let h := t16Field (s.headroom x c)
    let r : Nat × Bool := match p.resid with
      | some v => t16Field ((F32.toInt .rne (F32.near (F32.rat v * 64))).getD 0)
      | none => (0x8000, false)
    let sat := (fields ++ [m, h, r]).any Prod.snd
    let flags := packFlags [false, noFc || p.noReading st, p.disagree, p.suspectA, p.suspectB, s.cfg.thermal.exclOne c,
      p.noReading st, p.atMax, s.rowFrozen x.model c, p.filtered, sat]
    le16 c ++ le16 flags ++ le16 ((p.y.getD 0x8000).toNat) ++ le16 m.1 ++ fields.flatMap (fun f => le16 f.1) ++ le16 h.1 ++
      le16 ((s.tLimit c).getD 0x1680).toNat ++ le16 r.1 ++ zeros 6

/-- A rainflow record (Table 4.12). -/
def State.rainRecord (s : State) (c : Nat) : List Byte :=
  let x := s.main
  let p := Tab.get ({} : ChipTh) x.model.chips c
  let age := match x.model.checkpoint with
    | some t => min 0xFFFFFFFE ((s.tick.t0Time.toNat - t.toNat) / 3600000000000)
    | none => 0xFFFFFFFF
  le16 c ++ le16 p.residue.length ++ le32 age ++ (List.range 32).flatMap fun b => le32 (Tab.get 0 p.bins b)

/-- The row summary record (Table 4.13). -/
def State.rowSummary (s : State) : List Byte :=
  let m := s.main.model
  let flags := packFlags [m.fault, s.adaptOff, m.diverged, !s.stepping]
  le16 1 ++ le16 160 ++ le32 flags ++ le32 m.filteredCount ++ le32 m.diverge ++ le32 m.adaptClamped ++ le32 m.invalidOut ++
    (List.range 17).flatMap fun u =>
      let c := Tab.get ({} : CapacityUnit) m.capacity u
      let base := Tab.get none s.cfg.gBase u
      let pend := base.isNone
      let idx := match base, c.indices.getLast? with
        | some _, some q => indexField q
        | _, _ => 0xFFFF
      le16 idx ++ le16 (unsext 16 (c.slope.getD 0)) ++ le16 (c.days.getD 0xFFFF) ++
        le16 (packFlags [pend, c.warned.isSome, c.notSampled])

/-- The reply header of FORECAST_READ (Table 4.9). -/
def forecastHeader (kind size first count : Nat) (sn : Snapshot) : List Byte :=
  le16 1 ++ le16 32 ++ le8 kind ++ le8 0 ++ le16 size ++ le16 first ++ le16 count ++ zeros 4 ++ le64 (epochField sn.epoch) ++
    le64 (epochField sn.sourceEpoch)

def forecastReadBody (p : Packet) (s : State) : Except Reply (State × CmdEnd) := do
  let b := p.block
  let kind := u8At b 4
  let first := u16At b 8
  let count := u16At b 10
  let addr := u64At b 16
  let size := if kind = 0 then 32 else if kind = 3 then 160 else 136
  refuseIf (3 < kind) (p.badField 4)
  refuseIf (count = 0 || 4096 < first + count || (kind = 3 && (first ≠ 0 || count ≠ 1))) .badNone
  refuseIf (!addrOk addr (32 + size * count)) .badNone
  let sn := s.tick.settled
  let recs := match kind with
    | 0 => sn.view.readBytes (0x120000 + 32 * first) (32 * count)
    | 3 => sn.view.readBytes 0x108000 160
    | _ => sn.rainflow.readBytes (136 * first) (136 * count)
  let s := s.writeTransfer addr (forecastHeader kind size first count sn ++ recs)
  let clear := fun (e : Nat × ChipTh) =>
    if first ≤ e.1 && e.1 < first + count then (e.1, { e.2 with bins := [], residue := [] }) else e
  let s := if kind = 2 then s.onLanes fun x => { x with model := { x.model with chips := x.model.chips.map clear } } else s
  .ok (s, .reply .done)

/-- FORECAST_READ (0x0305): records of one settled epoch; read-and-clear clears a range's counts and residues (R111, R117). -/
def execForecastRead (p : Packet) (s : State) : Host.Outcome State Fault Refusal :=
  .next (s.runCmd 0x0305 false p (fun p => p.checkBlock 24 [(5, 3), (12, 4)])
    (fun _ s => axes [(s.mode.lifeCycle = .blank || s.mode.lifeCycle = .returning, .notInMode)]) fun _ => forecastReadBody)

end Sys2Proof.Machine
end

