-- ==== Sys2Proof/Machine/Images.lean ====
section
/-! DEFINITION. Model images (07): staging, activation in the order of Table 7.11, the step grant, and MODEL_STATUS. -/

namespace Sys2Proof.Machine

/-- A slot's state code (Table 7.12). -/
def State.slotCode (s : State) (n : Nat) : Nat := Tab.get 0 s.img.slotState n

def State.setSlot (s : State) (n code : Nat) : State := { s with img := { s.img with slotState := Tab.set 0 s.img.slotState n code } }

/-! ## MODEL_STAGE (R190) -/

/-- Predicted ticks until a slot's staging completes: 1.2 s per GiB of image_length from its start. -/
def State.stageLeft (s : State) (n : Nat) : Nat :=
  match Tab.get none s.img.staging n with
  | none => 1
  | some (_, start) =>
    let len := leNat (s.main.dram.readBytes (n * 0x80000000 + 8) 8)
    start + (len * 12000 + 0x3FFFFFFF) / 0x40000000 - s.now

/-- The slot's staging is in progress. -/
def State.isStaging (s : State) (n : Nat) : Bool := (Tab.get none s.img.staging n).isSome

def modelStageBody (id : Nat) (p : Packet) (s : State) : Except Reply (State × CmdEnd) := do
  let n := u8At p.block 4
  refuseIf (7 < n || s.pinned (n * 0x80000000)) (p.badField 4)
  refuseIf (s.isStaging n) (.busy (s.stageLeft n))
  let s := s.setSlot n 4
  .ok ({ s with img := { s.img with staging := Tab.set none s.img.staging n (some (id, s.now)), images := s.img.images.filter (·.slot ≠ n) } },
    .later [])

/-- MODEL_STAGE (0x0301): the staging is in progress until MODEL_STAGE_DONE. -/
def execModelStage (p : Packet) (s : State) : Host.Outcome State Fault Refusal :=
  .next (s.runCmd 0x0301 false p (·.checkBlock 8 [(5, 3)])
    (fun _ s => axes [(s.mode.lifeCycle = .returning, .notInMode), (s.activating, .busy s.activationLeft)])
    fun _ p s => modelStageBody p.id p s)

/-- The check of a slot in every running lane, each of its own copy (R190): the image, or the first refusal. The reference model
of slot 7 is the firmware set's own (R192). -/
def State.checkSlot (s : State) (n : Nat) : Except Reply Image := do
  let held := s.img.images.find? fun i => i.slot = n && i.reference
  match held with
  | some i => .ok i
  | none =>
    if s.bothLanes then do
      let i ← checkImage n 0x0A s.laneA.dram
      let _ ← checkImage n 0x0B s.laneB.dram
      .ok i
    else if s.laneA.isRunning then checkImage n 0x0A s.laneA.dram
    else checkImage n 0x0B s.laneB.dram

/-- The shortfall of each running lane, for MODEL_STATUS (R195). -/
def State.noteShortfall (s : State) (i : Image) : State :=
  let note := fun (x : Lane) (f : Fit) =>
    if x.isRunning && !(i.fit x).ok then
      let g := i.fit x
      { f with short0 := g.short0, short1 := g.short1, short2 := g.short2 }
    else f
  { s with img := { s.img with fitA := note s.laneA s.img.fitA, fitB := note s.laneB s.img.fitB } }

/-- MODEL_STAGE_DONE (R190, R194, R195): the checks and the fit decide the command; a refused slot is EMPTY. -/
def execModelStageDone (slot : Fin 8) (s : State) : Host.Outcome State Fault Refusal :=
  let n := slot.val
  .next (match Tab.get none s.img.staging n with
    | none => s
    | some (id, _) =>
      let s := { s with img := { s.img with staging := Tab.set none s.img.staging n none } }
      if !s.anyLane then s.setSlot n 0
      else match s.checkSlot n with
        | .error r => (s.setSlot n 0).finish id r
        | .ok i =>
          match s.fitReply i with
          | .error r => ((s.setSlot n 0).noteShortfall i).finish id r
          | .ok r =>
            let s := s.setSlot n 1
            ({ s with
                img := { s.img with images := i :: s.img.images.filter (·.slot ≠ n), actPred := Config.freeTicks s.fresh }
                fresh := s.fresh + 1 }).finish id r)

/-! ## MODEL_ACTIVATE (R198, R199, R114) -/

/-- The parameter block an activation or a change of block carries: supplied, the image's, or the defaults of Table 4.4. -/
def Image.block (i : Image) (supplied : Option ThermalBlock) : ThermalBlock := (supplied <|> i.params).getD {}

/-- Starts an activation of an image that has passed its checks and fits. -/
def State.startActivation (s : State) (i : Image) (inherit : Bool) (block : Option ThermalBlock) (cmd : Option Nat) : State :=
  let s := s.setSlot i.slot 3
  { s with img := { s.img with
      act := .preparing, actSlot := i.slot, actInherit := inherit, actBlock := some (i.block block), actCmd := cmd } }

def modelActivateBody (id : Nat) (p : Packet) (s : State) : Except Reply (State × CmdEnd) := do
  let b := p.block
  let n := u8At b 4
  let fl := u8At b 5
  refuseIf (4 ≤ fl) (p.badField 5)
  refuseIf (bit fl 1 && b.length ≠ 204 || !bit fl 1 && b.length ≠ 8) (p.badField 2)
  refuseIf (7 < n || s.slotCode n = 0) (p.badField 4)
  refuseIf (s.isStaging n) (.busy (s.stageLeft n))
  let held := s.img.images.find? (·.slot = n)
  let bad := match held with
    | some i => if bit fl 1 then thermalBad b 8 i.inputs else none
    | none => none
  match bad with
  | some off => .error (p.badField (8 + off))
  | none =>
    let block := if bit fl 1 then some (thermalAt b 8) else none
    if s.img.activeSlot = some n ∧ !s.main.model.fault then
      let k := ((held.map fun i => i.block block).getD (block.getD {}))
      let s := { s with img := { s.img with blockDue := some k } }
      .ok (s.logConfig p SC.ok, .reply { Reply.done with save := [.thermal k] })
    else
      let i ← s.checkSlot n
      let r ← s.fitReply i
      let s := { s with img := { s.img with images := i :: s.img.images.filter (·.slot ≠ n) } }
      let s := s.logConfig p r.status
      .ok (s.startActivation i (bit fl 0) block (some id), .later [.thermal (i.block block)])

/-- The structure of MODEL_ACTIVATE: 8 bytes, or 204 with a block (checks 11 and 12). -/
def modelActivateShape (p : Packet) : Except Reply Unit := do
  p.checkLength
  p.checkShape { size := 8, reserved := [(6, 2)] }

/-- MODEL_ACTIVATE (0x0302). -/
def execModelActivate (p : Packet) (s : State) : Host.Outcome State Fault Refusal :=
  .next (s.runCmd 0x0302 false p modelActivateShape
    (fun _ s => axes [(s.inNet || s.mode.lifeCycle = .blank || s.mode.lifeCycle = .returning, .notInMode),
      (s.mode.update = .handover, .busy s.handoverLeft), (s.activating, .busy s.activationLeft)])
    fun _ p s => modelActivateBody p.id p s)

/-! ## The order of an activation (Table 7.11) -/

/-- The present epoch is a step epoch (02 R47). -/
def State.stepEpoch (s : State) : Bool := (s.now - s.img.phaseEpoch) % s.img.kMod = 0

/-- The image being activated. -/
def State.actImage (s : State) : Option Image := s.img.images.find? (·.slot = s.img.actSlot)

/-- ACTIVATION_PREPARE_DONE: SEGMENT_INIT stands in a fresh segment in every running lane. -/
def execActivationPrepareDone (s : State) : Host.Outcome State Fault Refusal :=
  .next (if s.img.act = .preparing then { s with img := { s.img with act := .prepared, swapTicks := 0 } } else s)

/-- Outputs with a protected direction (04 Table 4.1). -/
def Image.protects (i : Image) : Bool := i.outputs.any fun b => b.kind = 1 || b.kind = 2 || b.kind = 3

/-- ACTIVATION_BOUNDARY: at a step epoch of the old image once prepared, or at once where none is stepping (16 R397 for an image
without protected outputs). -/
def execActivationBoundary (s : State) : Host.Outcome State Fault Refusal :=
  .next (if s.img.act ≠ .prepared || (s.stepping && !s.stepEpoch) then s
  else
    let s := s.stepBoundary fun _ => []
    let s := if s.mode.authority = .predictive then s.loadHostRegisters else s
    let s := s.onLanes fun x => { x with model := { x.model with headroomZero := true } }
    let s := { s with img := { s.img with act := .boundary } }
    if s.mode.authority = .predictive ∧ (s.actImage.map Image.protects).getD false = false then s.dropAuthority .inner (s.now + 1) 2 else s)

/-! ### Load -/

/-- Writes PROGRAM, SRAM_INIT and GRAPH records into tile memory (R182, R185). -/
def loadTiles (b : List Byte) (secs : List Section) (v : Nat) : Mem :=
  let recs := fun {α : Type} (ty : Nat) (f : Section → Except Reply (List α)) =>
    match findSec secs ty v with
    | some x => match f x with
      | .ok l => l
      | .error _ => []
    | none => []
  let m : Mem := (recs 3 (sramRecs b)).foldl (fun (m : Mem) (r : Nat × Nat × Nat × Nat) =>
    m.writeBytes (tileBase r.1 + r.2.1) (bytesAt b r.2.2.2 r.2.2.1)) []
  let m := match findSec secs 4 v with
    | some x => (List.range x.count).foldl (fun (m : Mem) i =>
        let o := x.off + 708 * i
        m.writeBytes (tileBase (u16At b o) + 0x2E000) (bytesAt b o 708)) m
    | none => m
  (recs 2 (programRecs b)).foldl (fun (m : Mem) (r : Nat × Nat × Nat) =>
    m.writeBytes (tileBase r.1 + 0x30000 + 4 * 0x100) (bytesAt b r.2.2 (4 * r.2.1))) m

/-- The fresh segment: SEGMENT_INIT over zeros. -/
def loadSegment (b : List Byte) (secs : List Section) (v : Variant) : Mem :=
  match findSec secs 5 v.index with
  | some x => match segmentRecs b x v.segmentSize with
    | .ok l => l.foldl (fun (m : Mem) (r : Nat × Nat × Nat) => m.writeBytes r.1 (bytesAt b r.2.2 r.2.1)) []
    | .error _ => []
  | none => []

/-- A table of declarations by index. -/
def indexed {α : Type} [DecidableEq α] (d : α) (l : List α) : Tab α :=
  ((List.range l.length).zip l).foldl (fun (t : Tab α) e => Tab.set d t e.1 e.2) []

/-- The tiles of a variant, active with their declarations. -/
def loadGraph (gs : List GraphRec) : Tab Tile :=
  gs.foldl (fun (t : Tab Tile) g =>
    let x : Tile := { active := true, blocks := g.blocks, channels := indexed {} g.channels, routes := indexed {} g.routes }
    Tab.set {} t g.tile x) []

/-- Map entries of a section of 24-byte records. -/
def mapRecs {α : Type} (b : List Byte) (secs : List Section) (ty v : Nat) (f : List Byte → Nat → α) : List α :=
  match findSec secs ty v with
  | some x => (List.range x.count).map fun i => f b (x.off + 24 * i)
  | none => []

/-- The tile array as a variant leaves it after the load: HELD rows with an active tile run, every other row is gated (05 R139). -/
def loadArray (b : List Byte) (v : Variant) : ArraySt :=
  let secs := sectionTable b
  let tiles := loadGraph (graphsOf b secs v.index)
  let a : ArraySt :=
    { tiles := tiles, memory := loadTiles b secs v.index, segment := loadSegment b secs v, segmentSize := v.segmentSize
      rowPolicy := v.rowPolicy, stateMap := mapRecs b secs 6 v.index stateMapAt, tableMap := mapRecs b secs 7 v.index tableMapAt }
  let a := (List.range 32).foldl (fun (a : ArraySt) y =>
    if a.policy y = 2 && tiles.any (fun e => e.1 / 32 = y) then a.setRow y .running else a) a
  a.refill

/-- Loads a variant into a lane; an inherited table goes over entry by entry through the maps (R200). -/
def Lane.load (x : Lane) (i : Image) (v : Variant) (inherit : Bool) : Lane :=
  let b := x.dram.readBytes (i.slot * 0x80000000) i.length
  let old := x
  let y := { x with array := loadArray b v, model := { x.model with table := [] } }
  if inherit then (List.range (4096 * 4096)).foldl (fun (y : Lane) e => y.putEntry e (old.entry e)) y else y

/-- The variant a lane runs by its fit. -/
def Image.variantOf (i : Image) (f : Fit) : Variant := (i.variants.find? (·.index = f.variant)).getD {}

/-- ACTIVATION_LOAD_DONE: once the old image's last step is over, each running lane's tiles hold the variant of its fit. -/
def execActivationLoadDone (s : State) : Host.Outcome State Fault Refusal :=
  let busy := fun (x : Lane) => x.isRunning && x.step.running
  .next (if s.img.act ≠ .boundary || busy s.laneA || busy s.laneB then s
  else match s.actImage with
    | none => { s with img := { s.img with act := .idle } }
    | some i =>
      let s := (s.putFits i)
      let keep := s.img.actInherit && i.hasTable && (s.image.map Image.hasTable).getD false
      let one := fun (s : State) (l : LaneId) =>
        let f := match l with | .A => s.img.fitA | .B => s.img.fitB
        s.onLane l fun x => if x.isRunning then x.load i (i.variantOf f) keep else x
      { one (one s .A) .B with img := { s.img with act := .loaded } })

/-- ACTIVATION_START_DONE: carried state is installed; the runtime's own state stands (R200). -/
def execActivationStartDone (s : State) : Host.Outcome State Fault Refusal :=
  .next (if s.img.act ≠ .loaded then s
  else
    let s := s.onLanes fun x => { x with array := x.array.refill, step := { x.step with firstStep := true, abortedLast := false } }
    { s with img := { s.img with act := .started } })

/-! ## The step grant (02 R47) -/

/-- Grants the step of the present frame to every running lane. -/
def State.grantStep (s : State) (i : Image) : State :=
  let fb := s.tick.frame.bytes
  let s := { s with upd := { s.upd with grantRun := if s.mode.update = UpdatePhase.trial then s.upd.grantRun + 1 else 0 } }
  s.onLanes fun x => x.startStep i s.now (s.now + s.img.kMod - 1) s.tLimit fb

/-- The loops whose MODEL binding the image lacks (R201). -/
def unboundLoops (c : Cfg) (i : Image) : List Nat :=
  let has := fun (kind n : Nat) => i.outputs.any fun b => b.kind = kind && b.firstTarget ≤ n && n < b.firstTarget + b.count
  (c.loops.filter fun e => e.2.accepted &&
    (e.2.spSrc = 0x03 && !has 1 e.1 || (e.2.terms.any fun t => t.ty = 0x04 && t.srcType = 0x03) && !has 2 e.1)).map (·.1)

/-- A chip slot has a CHIP_CAP binding. -/
def Image.caps (i : Image) (c : Nat) : Bool := i.outputs.any fun b => b.kind = 3 && b.firstTarget ≤ c && c < b.firstTarget + b.count

/-- The governor at an activation: registers empty, unbound slots carry their last ceiling (08 R209). -/
def GovSt.atActivation (g : GovSt) (i : Image) : GovSt :=
  { g with
    proposals := [], staleProps := 0
    chips := g.chips.map fun (e : Nat × GovChip) =>
      (e.1, { e.2 with propCap := none, propFloor := none, carried := if i.caps e.1 then e.2.carried else some e.2.ceiling }) }

/-- The runtime at the first grant: counters restart, anchors are reset, the fault is cleared (R94, R200, R201). -/
def ModelSt.atActivation (m : ModelSt) (now : Nat) : ModelSt :=
  { m with
    fault := false, abortRun := 0, invalidRun := 0, filteredCount := 0, diverge := 0, adaptClamped := 0, invalidOut := 0
    anchors := [], widened := [], windowStart := now, refProp := [] }

/-- ACTIVATION_FIRST_GRANT (Table 7.11, R191, R201). -/
def execActivationFirstGrant (s : State) : Host.Outcome State Fault Refusal :=
  .next (if s.img.act ≠ .started then s
  else match s.actImage with
    | none => { s with img := { s.img with act := .idle } }
    | some i =>
      let s := match s.img.activeSlot with
        | some o => if o = i.slot then s else s.setSlot o 1
        | none => s
      let s := s.setSlot i.slot 2
      let s := s.onLanes fun x => { x with model := x.model.atActivation s.now, gov := x.gov.atActivation i }
      let k := s.kFor i
      let cmd := s.img.actCmd
      let s := { s with
        rel := { s.rel with sinceGrant := [] }
        img := { s.img with
          act := .idle, activeSlot := some i.slot, kMod := k, kNext := none, phaseEpoch := s.now, firstEpoch := some s.now
          remapped := false, stepAborts := 0, actCmd := none } }
      let s := match s.img.actBlock with
        | some b => s.putThermal b
        | none => s
      let s := (unboundLoops s.cfg i).foldl (fun (s : State) n => s.logLanes Cls.notice 0x0309 (w32 n) []) s
      let s := { s with img := { s.img with actBlock := none, blockDue := none } }
      let s := s.grantStep i
      let s := if bit s.mode.modeCfgActive 1 then s else s.startOver
      match cmd with
      | some id =>
        let save := match s.runningCmd id with
          | some r => r.save
          | none => []
        s.finish id { status := if k = 1 then SC.ok else SC.modelDecimated, r0 := w32 k, save := save }
      | none => s)

/-! ## MODEL_STATUS (R202) -/

/-- A lane's 24 bytes of the record. -/
def fitBytes24 (x : Lane) (f : Fit) (active : Bool) : List Byte :=
  let cols := (List.range 32).foldl (fun (n : Nat) y => n + x.columns y) 0
  (if active && x.isRunning then le8 f.variant ++ le8 f.fold ++ le8 f.residency ++ le8 f.k ++ le32 f.tPred
    else le8 0xFF ++ zeros 7) ++ le16 cols ++ le16 x.spares ++ le32 f.short0 ++ le32 f.short1 ++ le32 f.short2

/-- The model status record (Table 7.12). -/
def State.modelRecord (s : State) : List Byte :=
  let i := s.img
  let act := match i.act with
    | .idle => 0 | .preparing => 1 | .prepared => 1 | _ => 2
  let has := i.activeSlot.isSome
  le16 1 ++ le16 96 ++ le8 (i.activeSlot.getD 0xFF) ++ le8 act ++ le8 i.kMod ++ le8 (packFlags [s.main.model.fault, i.remapped]) ++
    (List.range 8).flatMap (fun n => le8 (s.slotCode n)) ++ le64 ((s.image.map Image.imageId).getD 0) ++
    fitBytes24 s.laneA i.fitA has ++ fitBytes24 s.laneB i.fitB has ++ le32 i.swapTicks ++ le32 i.stepAborts ++
    le64 (epochField i.firstEpoch) ++ le32 i.actPred ++ zeros 4

/-- MODEL_STATUS (0x0303): the record of the settled epoch. -/
def execModelStatus (p : Packet) (s : State) : Host.Outcome State Fault Refusal :=
  .next (s.runCmd 0x0303 false p (·.checkBlock 16 [(4, 4)]) noAxis fun _ p s => do
    let addr := u64At p.block 8
    refuseIf (!addrOk addr 96) .badNone
    .ok (s.writeTransfer addr (fitBytes 96 s.tick.settled.model), .reply .done))

end Sys2Proof.Machine
end

