-- ==== Sys2Proof/Machine/Governor.lean ====
section
/-! DEFINITION. Power governance (08): the governor's pass in its stages (Table 8.1), what takes effect with it, and the governor
opcodes. Powers are in units of 0.05 W; readings of the rules are in assumption log 28. -/

namespace Sys2Proof.Machine

/-! ## Slots of a pass -/

/-- A present chip slot in a pass: where it is, what frame and configuration say of it, its ceiling, and its cap as the stages leave it. -/
structure GSlot where
  c : Nat
  rack : Nat
  group : Nat
  tray : Nat
  job : Option Nat
  prio : Nat
  capMax : Nat
  capDef : Nat
  pMin : Nat
  power : Option Nat
  token : U32
  wait : Bool
  missing : Bool
  held : Bool
  halted : Bool
  isolated : Bool
  commission : Bool
  last : Nat
  prev : Option Nat
  kappa : Nat := 0
  cap : Nat := 0
  bound : Bool := false
  laggard : Bool := false
  taken : Nat := 0
deriving DecidableEq, Repr

def Lane.govChip (x : Lane) (c : Nat) : GovChip := Tab.get {} x.gov.chips c
def Lane.govJob (x : Lane) (j : Nat) : GovJob := Tab.get {} x.gov.jobs j
def Lane.onGovChip (x : Lane) (c : Nat) (f : GovChip → GovChip) : Lane :=
  { x with gov := { x.gov with chips := Tab.modify {} x.gov.chips c f } }
def Lane.onGovJob (x : Lane) (j : Nat) (f : GovJob → GovJob) : Lane :=
  { x with gov := { x.gov with jobs := Tab.modify {} x.gov.jobs j f } }

/-- The job of a slot (R205). -/
def Cfg.jobOf (g : Cfg) (c : Nat) : Option (Nat × Job) :=
  g.jobs.findSome? fun e => match e.2 with
    | some j => if j.members.contains c then some (e.1, j) else none
    | none => none

/-- The policies of a job (R230). -/
def Cfg.paceOf (g : Cfg) (j : Nat) : PacePolicy := (Tab.get none g.pace j).getD g.paceDefault
def Cfg.swingOf (g : Cfg) (j : Nat) : SwingPolicy := (Tab.get none g.swing j).getD g.swingDefault

/-- The supply group of a rack. -/
def Cfg.groupOf (g : Cfg) (rack : Nat) : Nat := Tab.get 0 g.envelope.rackGroup rack

/-- The slot as a pass starts with it; a held slot's cap is its last released one (R204). -/
def State.govSlot (s : State) (x : Lane) (c : Nat) : GSlot :=
  let rc := Tab.get ({} : ChipRec) s.tick.frame.chips c
  let rack := (s.cfg.topo.slotRack c).getD 0
  let tray := (s.cfg.topo.slotTray c).getD 0
  let j := s.cfg.jobOf c
  let def_ := match j with
    | some (_, j) => j.capDefault
    | none => s.cfg.envelope.defaultCap
  let rel := (Tab.get ({} : CapFloor) s.rel.caps c).cap
  { c := c, rack := rack, group := s.cfg.groupOf rack, tray := tray, job := j.map Prod.fst, prio := (j.map fun e => e.2.priority).getD 0
    capMax := (j.map fun e => e.2.capMax).getD s.cfg.envelope.defaultCap, capDef := def_, pMin := rc.pMin.toNat
    power := if rc.power = 0xFFFF then none else some rc.power.toNat, token := rc.pace, wait := rc.status.getLsbD 0
    missing := s.chipMissing c, held := s.chipMissing c || rc.pMin = 0xFFFF, halted := (s.trayDyn tray).halted
    isolated := s.rackState rack = .isolated, commission := s.rackState rack = .commission
    last := if rel = 0xFFFF then def_ else rel, prev := (x.govChip c).cap }

/-- The present slots in slot order. -/
def State.govSlots (s : State) (x : Lane) : List GSlot :=
  ((List.range 4096).filter s.cfg.topo.slots.contains |>.filter fun c => !s.slotAbsent c).map (s.govSlot x)

/-- What a slot adds to P_m (R212, R216). -/
def GSlot.measured (p : GSlot) : Nat := if p.held && !(p.halted && !p.missing) then p.last else p.power.getD p.last

/-- What a slot adds to the sum of caps: a halted one its measured power, or its cap while its telemetry is missing (R216). -/
def GSlot.counted (p : GSlot) : Nat := if p.halted && !p.missing then p.power.getD p.last else p.cap

def sumBy (f : GSlot → Nat) (l : List GSlot) : Nat := l.foldl (fun n p => n + f p) 0

/-! ## Marks and proposals (R207, R229) -/

/-- A mark ends at the first record latched in this frame that says the other thing. -/
def State.endMark (s : State) (x : Lane) (c : Nat) : Lane :=
  let g := x.govChip c
  let fresh := match s.cfg.topo.slotTray c with
    | some t => decide ((Tab.get 0xC0 s.tick.frame.trayAge t).toNat % 0x40 = 0) && (s.trayDyn t).latched.isEmpty = false
    | none => false
  let absent := (Tab.get ({} : ChipRec) s.tick.frame.chips c).status.getLsbD 2
  if fresh && (g.mark = .absent && !absent || g.mark = .present && absent) then x.onGovChip c fun g => { g with mark := .none } else x

/-- One proposal in a pass: waits, is stale, or is adopted. -/
def State.adopt (s : State) (x : Lane) (p : Proposal) : Lane :=
  if s.now < p.due then { x with gov := { x.gov with proposals := x.gov.proposals ++ [p] } }
  else if p.due + s.tick.staleLimit < s.now then { x with gov := { x.gov with staleProps := satTo 32 (x.gov.staleProps + 1) } }
  else
    let off : Bool := match s.cfg.topo.slotRack p.slot with
      | some k => decide (s.rackState k = .commission)
      | none => true
    if off then x
    else x.onGovChip p.slot fun g =>
      if p.isFloor then { g with propFloor := some p.value }
      else { g with propCap := some p.value, carried := if s.mode.authority = .predictive then none else g.carried }

def State.adoptAll (s : State) (x : Lane) : Lane :=
  x.gov.proposals.foldl s.adopt { x with gov := { x.gov with proposals := [] } }

/-! ## Pace (R219-R223) -/

/-- What one frame adds to a governed slot's history (R219, R221, R225, Table 8.14). -/
def GovChip.observe (g : GovChip) (p : GSlot) (window : Nat) : GovChip × Bool :=
  let back := match g.lastToken with
    | some t => decide ((p.token - t).toInt < 0)
    | none => false
  let rose := p.wait && !g.waiting && g.lastToken.isSome
  ({ g with
      history := ((p.wait, p.power) :: g.history).take window, waiting := p.wait, lastToken := some p.token
      setAgo := if rose then some 0 else g.setAgo.map fun n => min 1000 (n + 1)
      backLeft := if back then window else g.backLeft - 1 }, back)

/-- Members of a job in a pass (R219). -/
def Lane.members (x : Lane) (l : List GSlot) (j : Nat) : List GSlot :=
  l.filter fun p => p.job = some j && !p.held && !p.isolated && !p.commission && (x.govChip p.c).backLeft = 0

/-- The laggards of members: non-waiting, and behind or equal to every other non-waiting one. -/
def laggardsOf (ms : List GSlot) : List GSlot :=
  let work := ms.filter fun p => !p.wait
  work.filter fun p => work.all fun q => decide ((p.token - q.token).toInt ≤ 0)

/-- The token furthest behind. -/
def behindToken : List GSlot → U32
  | [] => 0
  | p :: ps => ps.foldl (fun t q => if (q.token - t).toInt < 0 then q.token else t) p.token

/-- A job's detection in one pass, and whether PACE_LIMITED is logged with which slot. -/
def GovJob.detect (j : GovJob) (k : PacePolicy) (now : Nat) (ms : List GSlot) : GovJob × Option Nat :=
  let waiting := (ms.filter (·.wait)).length
  let barrier := 2 ≤ ms.length && k.quorum * ms.length ≤ 65536 * waiting && waiting < ms.length
  let pace := if barrier then (laggardsOf ms).head? else none
  let slot := pace.map (·.c)
  let due := match j.lastPaceLog with
    | some e => decide (e + k.window ≤ now)
    | none => true
  let log := slot.isSome && slot ≠ j.paceSlot && due
  ({ j with
      members := ms.length, waiting := waiting, atBarrier := barrier, paceSlot := slot
      token := (pace.map (·.token)).getD (behindToken ms), limitedTicks := if slot.isSome then satTo 32 (j.limitedTicks + 1) else j.limitedTicks
      lastPaceLog := if log then some now else j.lastPaceLog }, if log then slot else none)

/-- Detection in a lane: histories, then every job with PACE_ENABLE; events by type, slot or job, and data. -/
def State.paceDetect (s : State) (x : Lane) (l : List GSlot) : Lane × List (Nat × Nat × List U32) :=
  let (x, back) := l.foldl (fun (a : Lane × List (Nat × Nat × List U32)) p =>
    if p.held then a
    else
      let w := (match p.job with | some j => s.cfg.paceOf j | none => s.cfg.paceDefault).window
      let (g, b) := (a.1.govChip p.c).observe p w
      (a.1.onGovChip p.c fun _ => g, if b then a.2 ++ [(0x0406, p.c, [])] else a.2)) (x, [])
  s.cfg.jobs.foldl (fun (a : Lane × List (Nat × Nat × List U32)) e =>
    match e.2 with
    | none => a
    | some j =>
      if !j.paceEnable then (a.1.onGovJob e.1 fun g => { g with members := (a.1.members l e.1).length, paceSlot := none, atBarrier := false }, a.2)
      else
        let (g, log) := (a.1.govJob e.1).detect (s.cfg.paceOf e.1) s.now (a.1.members l e.1)
        (a.1.onGovJob e.1 fun _ => g, match log with | some c => a.2 ++ [(0x0404, e.1, [w32 c])] | none => a.2)) (x, back)

/-- The laggards a job has in this pass. -/
def Lane.isLaggard (x : Lane) (l : List GSlot) (p : GSlot) : Bool :=
  match p.job with
  | some j => (x.govJob j).paceSlot.isSome && (laggardsOf (x.members l j)).any fun q => q.c = p.c
  | none => false

/-- Passes with the flag set in the window, and the sum and number of the powers while working. -/
def GovChip.waits (g : GovChip) : Nat := (g.history.filter Prod.fst).length
def GovChip.work (g : GovChip) : Nat × Nat :=
  g.history.foldl (fun (a : Nat × Nat) h => match h with
    | (false, some p) => (a.1 + p, a.2 + 1)
    | _ => a) (0, 0)

/-- The target of R221, or none. -/
def syncTarget (k : PacePolicy) (g lag : GovChip) (pMin : Nat) : Option Nat :=
  let (sum, n) := g.work
  if n = 0 ∨ k.window ≤ lag.waits then none
  else some (max pMin (sum * (k.window - g.waits) * (65536 + k.guard) / (n * (k.window - lag.waits) * 65536)))

/-- One pass of a slot's sync cap: its new value, and the cap that applies in this pass (R221, R222). -/
def State.syncStep (s : State) (x : Lane) (p : GSlot) : Option Nat × Option Nat :=
  let g := x.govChip p.c
  match p.job with
  | none => (none, none)
  | some j =>
    let k := s.cfg.paceOf j
    let gj := x.govJob j
    if p.held || p.isolated || p.commission || s.mode.authority = .manual then (none, none)
    else if gj.syncActive then
      if gj.lastPace = some p.c then (none, none)
      else match syncTarget k g (x.govChip (gj.lastPace.getD 0)) p.pMin with
        | none => (g.syncCap, none)
        | some t =>
          let cur := g.syncCap.getD p.cap
          let v := if t < cur then max t (cur - k.step) else min t (cur + k.step)
          (some v, some v)
    else match g.syncCap with
      | none => (none, none)
      | some v => if p.kappa ≤ v + k.step then (none, none) else (some (v + k.step), some (v + k.step))

/-! ## Stages 1 to 4 (R209-R211) -/

/-- The ceiling of a governed slot (R209, Table 8.15). -/
def State.ceiling (s : State) (x : Lane) (p : GSlot) : Nat :=
  let g := x.govChip p.c
  let host := Tab.get none s.cfg.hostCaps p.c
  let other := (host <|> g.carried).getD p.capDef
  let bound := (s.image.map fun i => i.caps p.c).getD false
  let src := if s.mode.authority = .predictive && bound && !p.commission then
      match g.propCap with
      | some v => min v (host.getD v)
      | none => other
    else other
  min src p.capMax

/-- Ceiling and rack state. -/
def State.stage12 (s : State) (x : Lane) (p : GSlot) : GSlot :=
  if p.held then { p with cap := p.last, kappa := (x.govChip p.c).ceiling }
  else
    let k := s.ceiling x p
    let low := p.isolated || s.mode.lifeCycle = .blank || s.mode.lifeCycle = .returning
    { p with kappa := k, cap := if low then p.pMin else k }

/-- Sync cap and P_min clamp. -/
def GSlot.stage34 (p : GSlot) (sync : Option Nat) : GSlot :=
  if p.held then p
  else
    let c := match sync with
      | some v => min p.cap v
      | none => p.cap
    if c < p.pMin then { p with cap := p.pMin, bound := true } else { p with cap := c }

/-! ## Envelope (R212-R216) -/

/-- The budget of a window of `n` ticks with limit `lim` W, history newest first with the present frame. -/
def budget (n lim : Nat) (hist : List Nat) : Int := ((20 * n * lim : Nat) : Int) - (((hist.take (n - 1)).foldl (· + ·) 0 : Nat) : Int)

/-- A slot that take may cut. -/
def GSlot.free (p : GSlot) : Bool := !p.held && !p.isolated && !p.halted

/-- One class of take. -/
def takeClass (l : List GSlot) (e : Nat) (k : GSlot → Bool) : List GSlot × Nat :=
  let h := sumBy (fun p => if k p then p.cap - p.pMin else 0) l
  if h = 0 then (l, e)
  else (l.map fun p =>
      if k p then
        let r := min (p.cap - p.pMin) ((e * (p.cap - p.pMin) + h - 1) / h)
        { p with cap := p.cap - r, taken := p.taken + r }
      else p, e - h)

/-- The procedure take over the slots a condition picks (R214). -/
def take (l : List GSlot) (e : Nat) (k : GSlot → Bool) : List GSlot × Nat :=
  ([0, 1, 2, 3].flatMap fun pr => [(pr, false), (pr, true)]).foldl (fun (a : List GSlot × Nat) cl =>
    if a.2 = 0 then a else takeClass a.1 a.2 fun p => k p && p.free && p.prio = cl.1 && p.laggard = cl.2) (l, e)

/-- What remains short of a scope: group, or 255 the row; units, window, and the hard budget it is measured against. -/
structure Short where
  scope : Nat
  left : Nat
  window : Nat
  hard : Option Int
deriving DecidableEq, Repr

/-- The row's window budgets: length, value; only present limits. -/
def Envelope.budgets (e : Envelope) (hist : List Nat) (hardOnly : Bool) : List (Nat × Int) :=
  ([(10, e.l1ms), (100, e.l10ms), (1000, e.l100ms), (10000, e.l1s)].take (if hardOnly then 1 else 4)).filterMap fun w =>
    w.2.map fun lim => (w.1, budget w.1 lim hist)

/-- The least budget, the shorter window first: a hard one that equals a soft one counts (R213). -/
def leastBudget : List (Nat × Int) → Option (Nat × Int)
  | [] => none
  | b :: bs => some (bs.foldl (fun m c => if c.2 < m.2 then c else m) b)

/-- The envelope stage: caps cut, whether a budget was exceeded, and what remains short. -/
def envelopeStage (e : Envelope) (row : List Nat) (groups : Tab (List Nat)) (hardOnly : Bool) (l : List GSlot) :
    List GSlot × Bool × List Short :=
  let inGroup := fun (g : Nat) (p : GSlot) => p.group = g
  let (l, hit, sh) := (List.range 16).foldl (fun (a : List GSlot × Bool × List Short) g =>
    match Tab.get none e.group1ms g with
    | none => a
    | some lim =>
      let b := budget 10 lim (Tab.get [] groups g)
      let excess := ((sumBy GSlot.counted (a.1.filter (inGroup g)) : Nat) : Int) - b
      if excess ≤ 0 then a
      else
        let boundJobs := (a.1.filter fun p => inGroup g p && p.bound).filterMap (·.job)
        let first := fun (p : GSlot) => inGroup g p && (match p.job with | some j => boundJobs.contains j | none => false)
        let (l, rest) := take a.1 excess.toNat first
        let (l, rest) := take l rest fun p => inGroup g p && !first p
        (l, true, if rest = 0 then a.2.2 else a.2.2 ++ [{ scope := g, left := rest, window := 10, hard := some b }])) (l, false, [])
  match leastBudget (e.budgets row hardOnly) with
  | none => (l, hit, sh)
  | some (w, b) =>
    let excess := ((sumBy GSlot.counted l : Nat) : Int) - b
    if excess ≤ 0 then (l, hit, sh)
    else
      let (l, rest) := take l excess.toNat fun _ => true
      (l, true, if rest = 0 then sh else sh ++ [{ scope := 255, left := rest, window := w, hard := if w = 10 then some b else none }])

/-! ### Halts (R216) -/

/-- A tray's rank: highest priority, then lowest-numbered job (256 where every slot is unassigned), then its number. -/
def trayRank (l : List GSlot) (t : Nat) : Nat × Nat × Nat :=
  let ps := l.filter fun p => p.tray = t
  (ps.foldl (fun n p => max n p.prio) 0, (ps.filterMap (·.job)).foldl Nat.min 256, t)

/-- Selected before: lower priority, then the higher job, then the higher tray. -/
def rankBefore (a b : Nat × Nat × Nat) : Bool :=
  a.1 < b.1 || a.1 = b.1 && (b.2.1 < a.2.1 || a.2.1 = b.2.1 && b.2.2 < a.2.2)

def insertRank (x : Nat × Nat × Nat) : List (Nat × Nat × Nat) → List (Nat × Nat × Nat)
  | [] => [x]
  | y :: ys => if rankBefore x y then x :: y :: ys else y :: insertRank x ys

/-- The trays to halt for a scope: in order, until the rest fits. -/
def selectHalts (l : List GSlot) (inScope : GSlot → Bool) (b : Int) : List Nat :=
  let trays := (l.filter fun p => inScope p && !p.halted).map (·.tray)
  let ranked := (trays.dedup.map (trayRank l)).foldr insertRank []
  (ranked.foldl (fun (a : List Nat × Int) r =>
    if a.2 ≤ b then a
    else (a.1 ++ [r.2.2], a.2 - ((sumBy GSlot.counted (l.filter fun p => inScope p && p.tray = r.2.2) : Nat) : Int)))
    ([], ((sumBy GSlot.counted (l.filter inScope) : Nat) : Int))).1

/-! ## Ramp (R217) -/

/-- Units by which the row may move in one tick for a ramp in W per ms. -/
def rampUnits (r : Nat) : Nat := 2 * r

/-- Limits rises: those of the P_min clamp in full, then laggards, then the others in proportion. -/
def rampUpStage (r : Nat) (l : List GSlot) : List GSlot × Bool :=
  let from_ := fun (p : GSlot) => p.prev.getD 0
  let inc := fun (p : GSlot) => if p.held then 0 else p.cap - from_ p
  let fall := sumBy (fun p => from_ p - p.cap) l
  let budget := rampUnits r + fall
  let total := sumBy inc l
  if r = 0 ∨ total ≤ budget then (l, false)
  else
    let must := fun (p : GSlot) => if p.bound then inc p else min (inc p) (p.pMin - from_ p)
    let left := budget - sumBy must l
    let lagSum := sumBy (fun p => if p.laggard then inc p - must p else 0) l
    let lagGive := min left lagSum
    let left2 := left - lagGive
    let restSum := sumBy (fun p => if p.laggard then 0 else inc p - must p) l
    (l.map fun p =>
      if inc p = 0 then p
      else
        let want := inc p - must p
        let give := if p.laggard then want * lagGive / max 1 lagSum else want * left2 / max 1 restSum
        { p with cap := from_ p + must p + min want give }, true)

/-- Limits falls that soft budgets or pace ask for: `fast` holds the caps that ceilings, hard budgets and isolation give alone. -/
def rampDownStage (r : Nat) (fast l : List GSlot) : List GSlot × Bool :=
  let both := l.zip fast
  let soft := fun (e : GSlot × GSlot) => if e.1.held then 0 else min (e.1.prev.getD e.1.cap) e.2.cap - e.1.cap
  let total := both.foldl (fun (n : Nat) e => n + soft e) 0
  if r = 0 ∨ total ≤ rampUnits r then (l, false)
  else (both.map fun e => { e.1 with cap := e.1.cap + (soft e - soft e * rampUnits r / total) }, true)

/-! ## Floors (R225, R226) -/

/-- A job's swing in one pass: floors fall, and a swing gives new ones. -/
def State.swingJob (s : State) (x : Lane) (l : List GSlot) (j : Nat) : Lane :=
  let k := s.cfg.swingOf j
  let ms := x.members l j
  let governed := (l.filter fun p => !p.held).length
  let e := s.cfg.envelope
  let unset := k.decay = 0 && e.rampDown = 0
  let drop := (x.govJob j).swingDrop
  let slots := l.filter fun p => p.job = some j
  let x := slots.foldl (fun (x : Lane) p => x.onGovChip p.c fun g =>
    match g.swingFloor with
    | none => g
    | some f => { g with swingFloor := if f ≤ drop || !g.waiting || unset || p.held then none else some (f - drop) }) x
  let hit := (ms.filter fun p => match (x.govChip p.c).setAgo with | some n => n < k.detect | none => false).length
  let x := x.onGovJob j fun g => { g with swingUnset := unset }
  if unset || ms.isEmpty || 65536 * hit < k.frac * ms.length then x
  else
    let x := ms.foldl (fun (x : Lane) p => x.onGovChip p.c fun g =>
      let (sum, n) := g.work
      if g.waiting && g.swingFloor.isNone && 0 < n then { g with swingFloor := some (k.level * sum / (65536 * n)) } else g) x
    let holders := (ms.filter fun p => (x.govChip p.c).swingFloor.isSome).length
    let d := if k.decay ≠ 0 then (2 * k.decay + max 1 holders - 1) / max 1 holders
      else (2 * e.rampDown * ms.length + max 1 (governed * holders) - 1) / max 1 (governed * holders)
    x.onGovJob j fun g => { g with swingDrop := d }

/-- The floor of a slot (R226). -/
def State.floorOf (s : State) (x : Lane) (p : GSlot) : Nat :=
  let g := x.govChip p.c
  if p.held then (Tab.get ({} : CapFloor) s.rel.caps p.c).floor
  else if s.mode.authority = .manual || p.isolated || p.commission then 0
  else min p.cap (max (g.swingFloor.getD 0) (if s.mode.authority = .predictive then g.propFloor.getD 0 else 0))

/-! ## After the stages -/

/-- Runs above and within the cap (Table 8.14). -/
def GovChip.overRuns (g : GovChip) (p : GSlot) (cap : Nat) : GovChip :=
  match p.power with
  | none => { g with overRun := 0 }
  | some w =>
    if 21 * cap < 20 * w then { g with overRun := g.overRun + 1, underRun := 0 }
    else
      let run := g.underRun + 1
      { g with overRun := 0, underRun := run, overCap := g.overCap && run < 10 }

/-- A slot that is absent in a pass. -/
def GovChip.gone (g : GovChip) : GovChip :=
  { g with
    absent := true, cap := none, syncCap := none, swingFloor := none, laggard := false, floorBound := false, held := false
    history := [], lastToken := none, setAgo := none, overRun := 0, overCap := false }

/-- Ceiling-limited runs of a job's pace slot (R220-R222). -/
def GovJob.runs (j : GovJob) (caps : Nat → Option GSlot) : GovJob :=
  match j.paceSlot.bind caps with
  | some p =>
    let lim := p.cap = p.kappa
    { j with
      ceilingLimited := lim, ceilRun := if lim then (if j.lastPace = some p.c then j.ceilRun + 1 else 1) else 0
      noCeilRun := if lim then 0 else j.noCeilRun + 1, lastPace := some p.c }
  | none => { j with ceilingLimited := false, ceilRun := 0, noCeilRun := j.noCeilRun + 1 }

/-- Saved power of a job in W (R223). -/
def Lane.savedPower (x : Lane) (l : List GSlot) (j : Nat) : Nat :=
  ((l.filter fun p => p.job = some j).foldl (fun (n : Nat) p =>
    let g := x.govChip p.c
    match g.syncCap with
    | some v =>
      let (sum, k) := g.work
      if v < p.kappa && k ≠ 0 then n + (sum / k - v) else n
    | none => n) 0) / 20

/-- A scope's shortfall in one pass: what is kept, and the words of a SHED_REQUEST (R215). -/
def Shed.pass (d : Shed) (now w window : Nat) : Shed × Option (List U32) :=
  if w = 0 then ({ d with leftW := 0, clearRun := d.clearRun + 1 }, none)
  else
    let log := !d.active || d.lastW + d.lastW / 2 < w
    ({ active := true, leftW := w, clearRun := 0, window := window
       lastW := if log then w else d.lastW, lastPass := if log then now else d.lastPass }, if log then some [w32 w, w32 window] else none)

/-! ## The pass (R206, R210) -/

/-- Stages 1 to 7 in lane `x`: its new state, the cap set, the slots, events (class, type, subject, data) and trays to halt. -/
def State.passStages (s : State) (x : Lane) : Lane × Tab CapFloor × List (Nat × Nat × Nat × List U32) × List Nat :=
  let e := s.cfg.envelope
  let predictive := s.mode.authority = .predictive
  let x := s.cfg.topo.slots.foldl s.endMark x
  let x := if x.gov.predictive && !predictive then
      { x with gov := { x.gov with chips := x.gov.chips.map fun (c : Nat × GovChip) => (c.1, { c.2 with carried := some c.2.ceiling }) } }
    else x
  let x := s.adoptAll x
  let l := s.govSlots x
  let pm := sumBy GSlot.measured l
  let groups := (List.range 16).foldl (fun (t : Tab (List Nat)) g =>
    Tab.set [] t g ((sumBy GSlot.measured (l.filter fun p => p.group = g) :: Tab.get [] x.gov.groupHistory g).take 10)) []
  let row := (pm :: x.gov.rowHistory).take 10000
  let (x, paceEv) := s.paceDetect x l
  let l := l.map fun p => s.stage12 x { p with laggard := x.isLaggard l p }
  let fast := (envelopeStage e row groups true (l.map fun p => p.stage34 none)).1
  let syncs := l.map fun p => (p, s.syncStep x p)
  let l := syncs.map fun q => q.1.stage34 q.2.2
  let x := syncs.foldl (fun (x : Lane) q => x.onGovChip q.1.c fun g => { g with syncCap := q.2.1 }) x
  let (l, binding, short) := envelopeStage e row groups false l
  let (l, up) := rampUpStage e.rampUp l
  let (l, down) := rampDownStage e.rampDown fast l
  let l := l.map fun p => if p.held then p else { p with cap := max p.cap p.pMin }
  let x := s.cfg.jobs.foldl (fun (x : Lane) j =>
    if (j.2.map (·.swingEnable)).getD false && s.mode.authority ≠ .manual then s.swingJob x l j.1 else x) x
  let caps := l.foldl (fun (t : Tab CapFloor) p => Tab.set {} t p.c { cap := p.cap, floor := s.floorOf x p }) []
  let x := l.foldl (fun (x : Lane) p => x.onGovChip p.c fun g =>
    { g.overRuns p p.last with
      cap := some p.cap, floor := s.floorOf x p, ceiling := p.kappa, floorBound := p.bound, laggard := p.laggard, held := p.held
      absent := false, taken := p.taken }) x
  let seen := l.map (·.c)
  let gone := fun (c : Nat × GovChip) => if seen.contains c.1 then c else (c.1, c.2.gone)
  let x := { x with gov := { x.gov with chips := x.gov.chips.map gone } }
  let x := s.cfg.jobs.foldl (fun (x : Lane) j => x.onGovJob j.1 fun g =>
    { g.runs (fun c => l.find? fun p => p.c = c) with savedW := x.savedPower l j.1 }) x
  let halts := short.flatMap fun h => match h.hard with
    | some b => selectHalts l (fun p => h.scope = 255 || p.group = h.scope) b
    | none => []
  let scopes := List.range 16 ++ [255]
  let (sheds, shedEv) := scopes.foldl (fun (a : Tab Shed × List (Nat × Nat × Nat × List U32)) g =>
    let h := short.find? fun h => h.scope = g
    let (d, ev) := (Tab.get ({} : Shed) a.1 g).pass s.now (((h.map (·.left)).getD 0 + 19) / 20) ((h.map (·.window)).getD 10)
    (Tab.set {} a.1 g d, match ev with | some ws => a.2 ++ [(Cls.alarm, 0x0401, if g = 255 then 0xFF else g, ws)] | none => a.2)) (x.gov.sheds, [])
  let shedW := short.foldl (fun n h => max n ((h.left + 19) / 20)) 0
  let x := { x with gov := { x.gov with
      rowHistory := row, groupHistory := groups, sheds := sheds, envelopeBinding := binding, rampLimited := up || down
      shedW := shedW, predictive := predictive, epoch := s.now } }
  (x, caps, paceEv.map (fun ev => (Cls.notice, ev.1, ev.2.1, ev.2.2)) ++ shedEv, if e.accepted then halts.dedup else [])

/-- Stops trays and logs HALT_REQUEST, which names the first five (R216, 19 Table 19.1). -/
def State.haltTrays (s : State) (l : LaneId) (ts : List Nat) : State :=
  if ts.isEmpty || s.inNet then s
  else
    let s := ts.foldl (fun (s : State) t => s.onTray t fun d => { d with halted := true }) s
    s.logIn l Cls.prot 0x0403 none32 ((ts.take 5).map w32)

/-- One lane's pass: its cap set is a result of the present epoch (R206). -/
def State.lanePass (s : State) (l : LaneId) : State × List Nat :=
  if !(s.lane l).isRunning then (s, [])
  else
    let (x, caps, ev, halts) := s.passStages (s.lane l)
    let x := { x with
      step := { x.step with results := x.step.results ++
        [{ kind := .capSet, target := 0, source := s.now, due := s.now, value := .caps caps }] }
      gov := { x.gov with halts := if s.inNet then x.gov.halts else satTo 32 (x.gov.halts + halts.length) } }
    let s := s.setLane l x
    (ev.foldl (fun (s : State) e => s.logIn l e.1 e.2.1 (w32 e.2.2.1) e.2.2.2) s, halts)

/-- What a pass starts with: accepted items in order (R208, 10 R260), with what they do to the governor's own state. -/
def State.passItem (s : State) (i : CfgItem) : State :=
  let onGov := fun (f : GovSt → GovSt) => (s.apply [i]).onLanes fun x => { x with gov := f x.gov }
  let chip := fun (c : Nat) (f : GovChip → GovChip) => onGov fun g => { g with chips := Tab.modify {} g.chips c f }
  let job := fun (j : Nat) (f : GovJob → GovJob) => onGov fun g => { g with jobs := Tab.modify {} g.jobs j f }
  let jobs := fun (own : Nat → Bool) (f : GovJob → GovJob) => onGov fun g =>
    { g with jobs := g.jobs.map fun (e : Nat × GovJob) => if own e.1 then (e.1, f e.2) else e }
  let noPace := fun (g : GovJob) => { g with paceSlot := none, ceilRun := 0, noCeilRun := 0, syncActive := false, lastPace := none, lastPaceLog := none }
  let noSwing := fun (g : GovJob) => { g with swingDrop := 0, swingUnset := false }
  match i with
  | .topology t => s.putTopology t
  | .job j _ =>
    let ms := ((Tab.get none s.cfg.jobs j).map (·.members)).getD []
    (job j fun _ => {}).onLanes fun x => ms.foldl (fun (x : Lane) c => x.onGovChip c fun g => { g with swingFloor := none }) x
  | .pace (some j) _ => job j noPace
  | .paceRemove (some j) => job j noPace
  | .pace none _ => jobs (fun j => (Tab.get none s.cfg.pace j).isNone) noPace
  | .paceRemove none => jobs (fun j => (Tab.get none s.cfg.pace j).isNone) noPace
  | .swing (some j) _ => job j noSwing
  | .swingRemove (some j) => job j noSwing
  | .swing none _ => jobs (fun j => (Tab.get none s.cfg.swing j).isNone) noSwing
  | .swingRemove none => jobs (fun j => (Tab.get none s.cfg.swing j).isNone) noSwing
  | .hostCap c _ => chip c fun g => { g with carried := none }
  | .uncarry c => chip c fun g => { g with carried := none }
  | .mark c m => chip c fun g => { g with mark := m }
  | .releaseHalt c =>
    match s.cfg.topo.slotTray c with
    | some t => s.onTray t fun d => { d with halted := false }
    | none => s
  | i => s.apply [i]

/-- Puts in force what waits for the pass. -/
def State.passStart (s : State) : State := s.passDue.foldl State.passItem { s with passDue := [] }

/-- Ends a governor command with the cap set of its pass (R208, R211). -/
def State.endGov (s : State) (w : GovWait) : State :=
  let save := match s.runningCmd w.cmd with
    | some r => r.save
    | none => []
  let r : Reply := if w.bound = 0 then { Reply.done with save := save } else { status := SC.capFloorBound, r0 := w32 w.bound, save := save }
  s.finish w.cmd r

/-- Ends the commands whose pass's cap set has been released: `due` is its due epoch. -/
def State.endGovs (s : State) (due : Nat) : State :=
  let now := s.govWait.filter fun w => match w.pass with | some e => e ≤ due | none => false
  let rest := s.govWait.filter fun w => match w.pass with | some e => due < e | none => true
  now.foldl State.endGov { s with govWait := rest }

/-- The governor's part of FRAME_READY: every running lane's pass, halts from the lane whose content counts, and commands noted
with their pass; in NET, where no cap set is released, they end with the pass. -/
def State.governorPass (s : State) : State :=
  let (s, ha) := s.lanePass .A
  let (s, hb) := s.lanePass .B
  let s := match s.mainLane with
    | some .A => s.haltTrays .A ha
    | some .B => s.haltTrays .B hb
    | none => s
  let main := s.main
  let mark := fun (w : GovWait) =>
    if w.pass.isSome then w
    else { w with pass := some s.now, bound := (w.slots.filter fun c => (main.govChip c).floorBound).length }
  let s := if s.anyLane then { s with govWait := s.govWait.map mark } else s
  if s.inNet && s.anyLane then s.endGovs s.now else s

/-! ## Rows of their own -/

/-- SYNC_ACTIVE_ENTRY (R221): the job enters SYNC_ACTIVE, and its first sync caps lower the cap set of the present pass, within
ramp_down (R217). -/
def execSyncActiveEntry (job : Fin 256) (s : State) : Host.Outcome State Fault Refusal :=
  let j := job.val
  let one := fun (s : State) (l : LaneId) =>
    let x := s.lane l
    let g := x.govJob j
    let on := ((Tab.get none s.cfg.jobs j).map (·.paceEnable)).getD false
    if !x.isRunning || !on || g.syncActive || g.ceilRun < (s.cfg.paceOf j).confirm then s
    else
      let x := x.onGovJob j fun g => { g with syncActive := true, noCeilRun := 0 }
      let ms := (x.members (s.govSlots x) j).map fun p =>
        { p with cap := (x.govChip p.c).cap.getD p.last, kappa := (x.govChip p.c).ceiling }
      let cut := fun (p : GSlot) => match (s.syncStep x p).2 with
        | some v => p.cap - max p.pMin v
        | none => 0
      let total := sumBy cut ms
      let r := rampUnits s.cfg.envelope.rampDown
      let give := fun (p : GSlot) => if r = 0 ∨ total ≤ r then cut p else cut p * r / total
      let low := fun (c : Nat) (f : CapFloor) => match ms.find? fun p => p.c = c with
        | some p => { cap := f.cap - give p, floor := min f.floor (f.cap - give p) }
        | none => f
      let x' := ms.foldl (fun (y : Lane) p => y.onGovChip p.c fun g =>
        { g with syncCap := (s.syncStep x p).1, cap := some (p.cap - give p) }) x
      let fix := fun (o : OwnResult) => match o.value with
        | .caps t => if o.due = s.now then { o with value := .caps (t.map fun e => (e.1, low e.1 e.2)) } else o
        | _ => o
      s.setLane l { x' with step := { x'.step with results := x'.step.results.map fix } }
  .next (one (one s .A) .B)

/-- SYNC_ACTIVE_END (R222): confirm passes without a ceiling-limited pace slot; the sync caps then rise pass by pass. -/
def execSyncActiveEnd (job : Fin 256) (s : State) : Host.Outcome State Fault Refusal :=
  let j := job.val
  .next (s.onLanes fun x =>
    let g := x.govJob j
    if g.syncActive && (s.cfg.paceOf j).confirm ≤ g.noCeilRun then x.onGovJob j fun g => { g with syncActive := false } else x)

/-- Applies a lane's shed row in each running lane. -/
def State.shedRow (s : State) (scope : Nat) (due : Shed → Bool) (f : Shed → Shed) (cls ty : Nat) (ws : Shed → List U32) : State :=
  let one := fun (s : State) (l : LaneId) =>
    let d := Tab.get ({} : Shed) (s.lane l).gov.sheds scope
    if !(s.lane l).isRunning || !due d then s
    else (s.onLane l fun x => { x with gov := { x.gov with sheds := Tab.set {} x.gov.sheds scope (f d) } }).logIn l cls ty (w32 scope) (ws d)
  one (one s .A) .B

/-- SHED_REPEAT (R215): 10,000 passes after the last report while a shortfall remains; `scope` a group, or 255 the row. -/
def execShedRepeat (scope : Nat) (s : State) : Host.Outcome State Fault Refusal :=
  .next (s.shedRow scope (fun d => d.active && 0 < d.leftW && d.lastPass + 10000 ≤ s.now)
    (fun d => { d with lastW := d.leftW, lastPass := s.now }) Cls.alarm 0x0401 fun d => [w32 d.leftW, w32 d.window])

/-- SHED_CLEAR (R215): 100 passes without a shortfall. -/
def execShedClear (scope : Nat) (s : State) : Host.Outcome State Fault Refusal :=
  .next (s.shedRow scope (fun d => d.active && 100 ≤ d.clearRun) (fun d => { d with active := false, lastW := 0 }) Cls.notice 0x0402 fun _ => [])

/-- OVER_CAP (R233): ten consecutive passes with the chip's power more than 5 % above its cap. -/
def execOverCap (chip : Fin 4096) (s : State) : Host.Outcome State Fault Refusal :=
  let c := chip.val
  let one := fun (s : State) (l : LaneId) =>
    let g := (s.lane l).govChip c
    if !(s.lane l).isRunning || g.overCap || g.overRun < 10 then s
    else (s.onLane l fun x => x.onGovChip c fun g => { g with overCap := true }).logIn l Cls.warning 0x0405 (w32 c) []
  .next (one (one s .A) .B)

/-! ## Opcodes (R227-R232) -/

/-- Axes of the governor opcodes (Table 8.15). -/
def govAxes (_ : Packet) (s : State) : Except Reply Unit :=
  axes [(s.mode.update = .handover, .busy s.handoverLeft), (s.mode.lifeCycle = .returning, .notInMode)]

/-- A governor command takes effect at the next pass and ends with its cap set. -/
def State.govCommand (s : State) (p : Packet) (id : Nat) (items : List CfgItem) (slots : List Nat) : State × CmdEnd :=
  let s := (s.deferPass items).logConfig p SC.ok
  ({ s with govWait := s.govWait ++ [{ cmd := id, slots := slots }] }, .later items)

/-- R227's refusal of a field: words all ones, offset in the packet. -/
def Packet.badJob (p : Packet) (off : Nat) : Reply := { status := SC.badParam, r0 := none32, r1 := w32 (p.hdr + off) }

/-- The set bits of bytes, numbered from `n`. -/
def setBits : Nat → List Byte → List Nat
  | _, [] => []
  | n, x :: l => ((List.range 8).filter fun i => x.getLsbD i).map (n + ·) ++ setBits (n + 8) l

/-- Members by the bits of 512 bytes. -/
def memberList (b : List Byte) (off : Nat) : List Nat := setBits 0 (bytesAt b off 512)

def jobDefineBody (id : Nat) (p : Packet) (s : State) : Except Reply (State × CmdEnd) := do
  let b := p.block
  let j := u8At b 4
  let op := u8At b 5
  let ms := memberList b 0x10
  let capMax := u16At b 8
  let capDef := u16At b 0xA
  refuseIf (1 < op) (p.badJob 5)
  refuseIf (3 < u8At b 6) (p.badJob 6)
  refuseIf (4 ≤ u8At b 7) (p.badJob 7)
  refuseIf (!zeroRange b 0xC 4) (p.badJob 0xC)
  if op = 1 then
    refuseIf (!ms.isEmpty) (.badParam (ms.headD 0))
    .ok (s.govCommand p id [.job j none] [])
  else
    let taken := fun (c : Nat) => s.planned.jobs.any fun e => e.1 ≠ j && (e.2.map fun d => d.members.contains c).getD false
    match ms.find? taken with
    | some c => .error (.badParam c)
    | none =>
      refuseIf (capMax < capDef) .badNone
      let d : Job := { priority := u8At b 6, paceEnable := bit (u8At b 7) 0, swingEnable := bit (u8At b 7) 1, capMax := capMax
                       capDefault := capDef, members := ms }
      .ok (s.govCommand p id [.job j (some d)] [])

/-- JOB_DEFINE (0x0401). -/
def execJobDefine (p : Packet) (s : State) : Host.Outcome State Fault Refusal :=
  .next (s.runCmd 0x0401 false p (·.checkBlock 528 []) govAxes fun _ p s => jobDefineBody p.id p s)

/-- A limit field: all ones is absent. -/
def limitAt (b : List Byte) (off : Nat) : Option Nat := if u32At b off = 0xFFFFFFFF then none else some (u32At b off)

def rowEnvelopeBody (id : Nat) (p : Packet) (s : State) : Except Reply (State × CmdEnd) := do
  let b := p.block
  refuseIf (200 < u16At b 0x1E) (p.badField 0x1E)
  refuseFirst (List.range 16) (fun k => 15 < u8At b (0x20 + k)) fun k => p.badField (0x20 + k)
  let e : Envelope :=
    { accepted := true, l1ms := limitAt b 4, l10ms := limitAt b 8, l100ms := limitAt b 12, l1s := limitAt b 16, rampUp := u32At b 0x14
      rampDown := u32At b 0x18, defaultCap := u16At b 0x1C, capTol := u16At b 0x1E
      rackGroup := (List.range 16).foldl (fun (t : Tab Nat) k => Tab.set 0 t k (u8At b (0x20 + k))) []
      group1ms := (List.range 16).foldl (fun (t : Tab (Option Nat)) g => Tab.set none t g (limitAt b (0x30 + 4 * g))) [] }
  .ok (s.govCommand p id [.envelope e] [])

/-- ROW_ENVELOPE_SET (0x0402). -/
def execRowEnvelopeSet (p : Packet) (s : State) : Host.Outcome State Fault Refusal :=
  .next (s.runCmd 0x0402 false p (·.checkBlock 112 []) govAxes fun _ p s => rowEnvelopeBody p.id p s)

/-- What one CAP_SET entry changes (R229). -/
def capItems (b : List Byte) (o : Nat) : List CfgItem :=
  let c := u16At b o
  let fl := u8At b (o + 2)
  (if fl = 0 then [.hostCap c (some (u16At b (o + 4)))] else []) ++ (if bit fl 0 then [.hostCap c none, .uncarry c] else []) ++
    (if bit fl 1 then [.mark c .absent] else []) ++ (if bit fl 2 then [.mark c .present] else [])

/-- The structure of CAP_SET: its size by its count. -/
def capSetShape (p : Packet) : Except Reply Unit := do
  p.checkLength
  let b := p.block
  let n := u16At b 4
  p.checkShape { size := 8 }
  deny [(n ≠ 0 && n ≤ 4096 && u16At b 2 ≠ 8 + 8 * n, p.badField 2), (4 ≤ u16At b 6, p.badField 6)]
  refuseFirst (List.range n) (fun i => 8 ≤ u8At b (0xA + 8 * i)) fun i => p.badField (0xA + 8 * i)
  refuseFirst (List.range n) (fun i => u8At b (0xB + 8 * i) ≠ 0) fun i => p.badField (0xB + 8 * i)
  refuseFirst (List.range n) (fun i => u16At b (0xE + 8 * i) ≠ 0) fun i => p.badField (0xE + 8 * i)

def capSetBody (id : Nat) (p : Packet) (s : State) : Except Reply (State × CmdEnd) := do
  let b := p.block
  let n := u16At b 4
  let slot := fun (i : Nat) => u16At b (8 + 8 * i)
  refuseIf (n = 0 || 4096 < n) (p.badField 4)
  refuseFirst (List.range n) (fun i => 4095 < slot i || ((List.range i).any fun k => slot k = slot i)) fun i => p.badField (8 + 8 * i)
  refuseFirst (List.range n) (fun i => bits (u8At b (0xA + 8 * i)) 2 1 = 3) fun i => p.badField (0xA + 8 * i)
  let items := (if bit (u16At b 6) 0 then [CfgItem.clearHostCaps] else []) ++
    (List.range n).flatMap (fun i => capItems b (8 + 8 * i)) ++
    (if bit (u16At b 6) 1 then (List.range n).map fun i => CfgItem.releaseHalt (slot i) else [])
  .ok (s.govCommand p id items ((List.range n).map slot))

/-- CAP_SET (0x0403). -/
def execCapSet (p : Packet) (s : State) : Host.Outcome State Fault Refusal :=
  .next (s.runCmd 0x0403 false p capSetShape govAxes fun _ p s => capSetBody p.id p s)

/-- Job and scope of a policy block: the job it names, or none for the default (R230). -/
def policyScope (p : Packet) : Except Reply (Option Nat) := do
  let b := p.block
  refuseIf (2 < u8At b 5) (p.badField 5)
  refuseIf (u8At b 5 = 1 && u8At b 4 ≠ 0) (p.badField 4)
  .ok (if u8At b 5 = 1 then none else some (u8At b 4))

def pacePolicyBody (id : Nat) (p : Packet) (s : State) : Except Reply (State × CmdEnd) := do
  let b := p.block
  let j ← policyScope p
  if u8At b 5 = 2 then .ok (s.govCommand p id [.paceRemove j] [])
  else
    let k : PacePolicy := { quorum := u16At b 6, window := u16At b 8, confirm := u16At b 10, guard := u16At b 12, step := u16At b 14 }
    deny [(k.quorum = 0, p.badField 6), (k.window < 10 || 10000 < k.window, p.badField 8), (k.confirm = 0 || 1000 < k.confirm, p.badField 10),
      (32768 < k.guard, p.badField 12), (k.step = 0 || 2000 < k.step, p.badField 14)]
    .ok (s.govCommand p id [.pace j k] [])

/-- PACE_POLICY_SET (0x0404). -/
def execPacePolicySet (p : Packet) (s : State) : Host.Outcome State Fault Refusal :=
  .next (s.runCmd 0x0404 false p (·.checkBlock 16 []) govAxes fun _ p s => pacePolicyBody p.id p s)

def swingPolicyBody (id : Nat) (p : Packet) (s : State) : Except Reply (State × CmdEnd) := do
  let b := p.block
  let j ← policyScope p
  if u8At b 5 = 2 then .ok (s.govCommand p id [.swingRemove j] [])
  else
    let k : SwingPolicy := { frac := u16At b 6, detect := u16At b 8, level := u16At b 10, decay := u32At b 12 }
    deny [(k.frac = 0, p.badField 6), (k.detect = 0 || 100 < k.detect, p.badField 8)]
    .ok (s.govCommand p id [.swing j k] [])

/-- SWING_POLICY_SET (0x0405). -/
def execSwingPolicySet (p : Packet) (s : State) : Host.Outcome State Fault Refusal :=
  .next (s.runCmd 0x0405 false p (·.checkBlock 16 []) govAxes fun _ p s => swingPolicyBody p.id p s)

/-! ## Records (Tables 8.8, 8.10, 8.12) -/

/-- A released cap. -/
def State.relCap (s : State) (c : Nat) : CapFloor := Tab.get {} s.rel.caps c

/-- Units of 0.05 W as W. -/
def toW (n : Nat) : Nat := n / 20

/-- A window's measured average in W. -/
def average (hist : List Nat) (n : Nat) : Nat := ((hist.take n).foldl (· + ·) 0) / (20 * n)

/-- The sum of the released caps of slots. -/
def State.capSum (s : State) (l : List GSlot) : Nat := l.foldl (fun n p => n + (if (s.relCap p.c).cap = 0xFFFF then 0 else (s.relCap p.c).cap)) 0

/-- The governor row record. -/
def State.govRowRecord (s : State) : List Byte :=
  let x := s.main
  let g := x.gov
  let l := s.govSlots x
  let flags := packFlags [!s.cfg.envelope.accepted, g.envelopeBinding, g.sheds.any (·.2.active), s.tray.trays.any (·.2.halted), g.rampLimited,
    s.mode.authority ≠ .predictive]
  let h := g.rowHistory
  le16 1 ++ le16 64 ++ le32 flags ++ le32 (toW (h.headD 0)) ++ le32 (toW (s.capSum l)) ++ le32 (average h 10) ++ le32 (average h 100) ++
    le32 (average h 1000) ++ le32 (average h 10000) ++ le32 g.shedW ++ le32 g.halts ++
    le16 (g.chips.filter fun e => e.2.floorBound).length ++ le16 (g.jobs.filter fun e => e.2.paceSlot.isSome).length ++
    le32 (g.jobs.foldl (fun (n : Nat) (e : Nat × GovJob) => n + e.2.savedW) 0) ++ le64 g.epoch ++ le32 g.staleProps ++ zeros 4

/-- A job record. -/
def State.govJobRecord (s : State) (j : Nat) : List Byte :=
  match Tab.get none s.cfg.jobs j with
  | none => zeros 64
  | some d =>
    let x := s.main
    let g := x.govJob j
    let l := (s.govSlots x).filter fun p => p.job = some j
    let any := fun (f : GovChip → Bool) => l.any fun p => f (x.govChip p.c)
    let flags := packFlags [true, g.paceSlot.isSome, g.ceilingLimited, g.syncActive, any fun c => c.swingFloor.isSome, g.swingUnset,
      any fun c => c.floorBound, l.any (·.halted)]
    le16 1 ++ le16 64 ++ le8 j ++ le8 (if g.atBarrier then 2 else 1) ++ le16 flags ++ le16 g.members ++ le16 g.waiting ++
      le16 (g.paceSlot.getD 0xFFFF) ++ le8 d.priority ++ le8 0 ++ leW g.token ++ le32 (toW (sumBy GSlot.measured l)) ++ le32 (toW (s.capSum l)) ++
      le32 g.savedW ++ le32 (toW (l.foldl (fun n p => n + (s.relCap p.c).floor) 0)) ++
      le32 (toW (l.foldl (fun n p => n + (x.govChip p.c).taken) 0)) ++ le32 g.limitedTicks ++ zeros 4 ++ le64 x.gov.epoch ++ zeros 8

/-- A chip record of the governor. -/
def State.govChipRecord (s : State) (c : Nat) : List Byte :=
  let j := s.cfg.jobOf c
  if s.slotAbsent c then
    le16 c ++ le16 (1 + 4096 * flag j.isNone) ++ le16 0xFFFF ++ le16 0xFFFF ++ le16 0xFFFF ++ le16 0xFFFF ++ le16 0xFFFF ++
      le8 ((j.map Prod.fst).getD 0) ++ le8 0
  else
    let x := s.main
    let g := x.govChip c
    let p := s.govSlot x c
    let rc := Tab.get ({} : ChipRec) s.tick.frame.chips c
    let host := (Tab.get none s.cfg.hostCaps c).isSome
    let flags := packFlags [false, p.held, g.floorBound, host, g.carried.isSome && !host, g.laggard,
      match g.syncCap with | some v => decide (v < g.ceiling) | none => false, g.swingFloor.isSome, p.wait, g.overCap, p.halted,
      p.isolated, j.isNone]
    le16 c ++ le16 flags ++ le16 (s.relCap c).cap ++ le16 (s.relCap c).floor ++ le16 g.ceiling ++ le16 rc.pMin.toNat ++ le16 rc.power.toNat ++
      le8 ((j.map Prod.fst).getD 0) ++ le8 0

/-- GOVERNOR_STATUS (0x0406): records of one settled epoch. -/
def execGovernorStatus (p : Packet) (s : State) : Host.Outcome State Fault Refusal :=
  .next (s.runCmd 0x0406 false p (·.checkBlock 24 [(5, 3), (12, 4)]) noAxis fun _ p s => do
    let kind := u8At p.block 4
    let first := u16At p.block 8
    let count := u16At p.block 10
    let addr := u64At p.block 16
    refuseIf (2 < kind) (p.badField 4)
    if kind = 0 then statusReply s 0 64 0x109000 first count 1 addr
    else if kind = 1 then statusReply s 1 64 0x10A000 first count 256 addr
    else statusReply s 2 16 0x140000 first count 4096 addr)

end Sys2Proof.Machine
end

