-- ==== Sys2Proof/Machine/Mirrors.lean ====
section
/-! DEFINITION. The Hall of Mirrors (02 R41-R45, R530, R531; 15 R363-R376): deliveries, comparison, arbitration, the merge,
release, the release window, and the losses that follow from them. -/

namespace Sys2Proof.Machine

/-! ## Comparison (15 R366, R367) -/

/-- Two binary32 values agree: finite and at most the tolerance apart, or the same value. -/
def F32.agree (tol a b : F32) : Bool :=
  if F32.finite a && F32.finite b then
    decide (F32.rat a - F32.rat b ≤ F32.rat tol ∧ F32.rat b - F32.rat a ≤ F32.rat tol)
  else a = b

def natAgree (tol a b : Nat) : Bool := decide (a ≤ b + tol ∧ b ≤ a + tol)

def LaneCtlSt.countOf (c : LaneCtlSt) (k : OutKey) : Nat := ((c.counts.find? fun x => x.1 = k).map Prod.snd).getD 0

def LaneCtlSt.setCount (c : LaneCtlSt) (k : OutKey) (n : Nat) : LaneCtlSt :=
  let rest := c.counts.filter fun x => x.1 ≠ k
  { c with counts := if n = 0 then rest else (k, n) :: rest }

def State.mirrorSlot (s : State) (n : Nat) : MirrorSlot := Tab.get {} s.laneCtl.mirror n
def State.onMirror (s : State) (n : Nat) (f : MirrorSlot → MirrorSlot) : State :=
  { s with laneCtl := { s.laneCtl with mirror := Tab.modify {} s.laneCtl.mirror n f } }

def MirrorSlot.copy (m : MirrorSlot) : LaneId → Option LoopOut
  | .A => m.a
  | .B => m.b

def MirrorSlot.setCopy (m : MirrorSlot) (l : LaneId) (o : LoopOut) : MirrorSlot :=
  match l with
  | .A => { m with a := some o }
  | .B => { m with b := some o }

def HeldResult.copy (r : HeldResult) : LaneId → Option ResultVal
  | .A => r.copyA
  | .B => r.copyB

def HeldResult.setCopy (r : HeldResult) (l : LaneId) (v : ResultVal) : HeldResult :=
  match l with
  | .A => { r with copyA := some v }
  | .B => { r with copyB := some v }

def OtherOut.copy (o : OtherOut) : LaneId → Option Nat
  | .A => o.a
  | .B => o.b

def OtherOut.setCopy (o : OtherOut) (l : LaneId) (v : Nat) : OtherOut :=
  match l with
  | .A => { o with a := some v }
  | .B => { o with b := some v }

/-! ## The referee law (15 R370) -/

def ratAbs (q : Rat) : Rat := if q < 0 then -q else q

def State.loopDesc (s : State) (n : Nat) : LoopDesc := Tab.get {} s.cfg.loops n

/-- u_ref of a slot that takes part in referee tests, evaluated exactly (assumption log 13). -/
def State.refereeLaw (s : State) (n : Nat) (rHeld : F32) : Option Rat :=
  let d := s.loopDesc n
  if F32.eq d.refKp 0 && F32.eq d.refBias 0 && F32.eq d.refFloor 0 || !F32.lt d.outMin d.outMax then none
  else
    ((fieldSource s.cfg s.tick.frame d.pvSrc d.pvIdx).filter F32.finite).map fun raw =>
      let pv := F32.rat d.pvScale * F32.rat raw + F32.rat d.pvOffset
      let e := if d.reverse then pv - F32.rat rHeld else F32.rat rHeld - pv
      max (F32.rat d.outMin) (min (F32.rat d.outMax) (max (F32.rat d.refFloor) (F32.rat d.refBias + F32.rat d.refKp * e)))

def LoopDesc.span (d : LoopDesc) : Rat := F32.rat d.outMax - F32.rat d.outMin

/-- The referee distances of both lanes over the taking-part slots that disagreed in the tick; `none` where no slot takes part. -/
def State.distances (s : State) : Option (Rat × Rat) :=
  let ds := s.laneCtl.mirror.filterMap fun (e : Nat × MirrorSlot) =>
    match e.2.a, e.2.b, s.refereeLaw e.1 e.2.rHeld with
    | some a, some b, some u =>
      if e.2.disagreed then
        some (ratAbs (F32.rat a.out - u) / (s.loopDesc e.1).span, ratAbs (F32.rat b.out - u) / (s.loopDesc e.1).span)
      else none
    | _, _, _ => none
  if ds.isEmpty then none
  else some (ds.foldl (fun (acc : Rat × Rat) x => (acc.1 + x.1, acc.2 + x.2)) (0, 0))

/-! ## Arbitration (15 R368-R371) -/

/-- A lane fails a self-check or a plausibility check in this tick (15 R369). -/
def State.markFailed (s : State) (l : LaneId) : State := s.onStat l fun x => { x with failedAt := some s.now, qualRun := 0 }

/-- The lane failed one in this tick or in the K - 1 before it. -/
def State.failedLately (s : State) (l : LaneId) : Bool :=
  match (s.laneCtl.stat l).failedAt with
  | some e => decide (s.now < e + s.cfg.k)
  | none => false

/-- The more-cooling merge acts in this tick (15 R371). -/
def State.startMerge (s : State) : State :=
  let c := s.laneCtl
  if c.mergedNow then s
  else
    let s := { s with laneCtl := { c with
      merge := true, mergedNow := true, mergeRun := c.mergeRun + 1, cntMerge := satTo 32 (c.cntMerge + 1) } }
    if c.merge then s else (s.logRm Cls.faultC 0x0902 none32 []).setLaneEvent 0x8

/-- The steps of Table 15.2, once in a tick. -/
def State.arbitrate (s : State) : State :=
  if s.laneCtl.arbitrated then s
  else
    let s := { s with laneCtl := { s.laneCtl with
      arbitrated := true, cntArbitration := satTo 32 (s.laneCtl.cntArbitration + 1) } }.setLaneEvent 0x2
    let s := if s.laneCtl.drillGranted && !s.laneCtl.drillAcked then s.abandonDrill else s
    match s.failedLately .A, s.failedLately .B with
    | true, true => s.enterNet 3 true
    | true, false => s.loseLane .A Loss.plausibility
    | false, true => s.loseLane .B Loss.plausibility
    | false, false =>
      match s.distances with
      | some (a, b) =>
        if max a b < 16 * ratAbs (a - b) then s.loseLane (if b < a then .A else .B) Loss.arbitration else s.startMerge
      | none => s.startMerge

/-- Takes one comparison into account. In NET, where nothing is released, it counts for the lanes' agreement alone (15 R385). -/
def State.noteCompare (s : State) (k : OutKey) (agree : Bool) : State :=
  if agree then { s with laneCtl := s.laneCtl.setCount k 0 }
  else
    let s := { s with laneCtl := { s.laneCtl with cntDisagree := satTo 32 (s.laneCtl.cntDisagree + 1) } }.setLaneEvent 0x1
    if s.inNet then { s with laneCtl := { s.laneCtl with arbitrated := true, netAgreeRun := 0 } }
    else
      let n := s.laneCtl.countOf k + 1
      let s := { s with laneCtl := s.laneCtl.setCount k n }
      if s.cfg.k ≤ n then s.arbitrate else s

/-- Outputs that disagree are released merged: the lanes both run and the merge acts in this tick. -/
def State.merging (s : State) : Bool := s.laneCtl.redundancy = .duplex && s.laneCtl.mergedNow

/-- No lane output is released: NET, or a gap before the acknowledgement. -/
def State.withheld (s : State) : Bool := s.inNet || s.laneCtl.held

/-! ## Loop outputs (02 R41, R42) -/

/-- The release deadline of a slot, ns after T0. -/
def loopDeadline (n : Nat) : Nat := 6000 + (n + 1) * 40 + 1000

/-- A lower output of the loop cools more (15 R372). -/
def State.coolLow (s : State) (n : Nat) : Bool := (Tab.get 0 s.cfg.coolSense (n / 32)).getLsbD (n % 32)

/-- Releases a loop output to its destination; a motor channel takes tgt and r with it (11 R282). -/
def State.releaseLoop (s : State) (n : Nat) (o : LoopOut) (ns : Nat) : State :=
  let d := s.loopDesc n
  let s := s.onMirror n fun m => { m with closed := true }
  let s := { s with
    rel := { s.rel with loopOut := Tab.set none s.rel.loopOut n (some o.out) }
    tick := { s.tick with loopRelCur := max s.tick.loopRelCur ns } }
  if d.outDest = 1 then s.onMotor d.outIdx fun m => { m with pendingRef := some (o.out, o.tgt, o.r) }
  else if d.outDest = 2 then s.onEntry d.outIdx fun e => { e with outVal := some o.out }
  else s

/-- A slot's shortfall against the referee in SIMPLEX (15 R376). -/
def State.crossCheck (s : State) (n : Nat) (eff : EffMode) (o : LoopOut) : State :=
  let d := s.loopDesc n
  let short : Bool := match s.refereeLaw n o.r with
    | some u =>
      let d0 := if s.coolLow n then F32.rat o.out - u else u - F32.rat o.out
      (eff = .auto || eff = .track) && decide ((s.cfg.refMargin : Rat) / 65536 * d.span < d0)
    | none => false
  s.onMirror n fun m => { m with shortRun := if short then m.shortRun + 1 else 0, rHeld := o.r }

/-- What the merge takes of two loop outputs. -/
def State.coolerLoop (s : State) (n : Nat) (a b : LoopOut) : LoopOut :=
  if s.coolLow n then (if F32.lt b.out a.out then b else a) else (if F32.lt a.out b.out then b else a)

/-- The slot has an output in this tick: its pass has run and it is not OFF. -/
def State.slotOut (s : State) (l : LaneId) (n : Nat) : Option LoopSlot :=
  let x := Tab.get ({} : LoopSlot) (s.lane l).loops n
  if (s.lane l).isRunning && x.epoch = s.now && x.eff ≠ .off then some x else none

/-- The output is finite and inside its range (15 R369). -/
def LoopDesc.plausible (d : LoopDesc) (o : LoopOut) : Bool := F32.finite o.out && F32.le d.outMin o.out && F32.le o.out d.outMax

/-- The second copy of a loop output has come. -/
def State.compareLoop (s : State) (n ns : Nat) (a b : LoopOut) : State :=
  let ok := F32.agree (s.loopDesc n).mirrorTol a.out b.out
  let s := s.onMirror n fun m => { m with disagreed := !ok }
  let s := s.noteCompare (.loop n) ok
  if s.withheld then s
  else
    let act := if s.laneCtl.active = .A then a else b
    let s := if s.laneCtl.countOf (.loop n) = 0 then s.onMirror n fun m => { m with rHeld := act.r } else s
    s.releaseLoop n (if !ok && s.merging then s.coolerLoop n a b else act) ns

/-- A lane delivers a loop output, `ns` after T0. -/
def State.deliverLoop (s : State) (l : LaneId) (ns n : Nat) (o : Option LoopOut) : State :=
  match s.slotOut l n with
  | none => s
  | some x =>
    let m := s.mirrorSlot n
    if m.closed || (m.copy l).isSome || (s.laneCtl.stat l).outputsLost || decide (loopDeadline n < ns) then s
    else
      let v := o.getD { out := x.out, tgt := x.tgt, r := x.r }
      let s := if (s.loopDesc n).plausible v then s else s.markFailed l
      let s := s.onMirror n fun m => m.setCopy l v
      let s := { s with laneCtl := match l with
        | .A => { s.laneCtl with deliveredA := true }
        | .B => { s.laneCtl with deliveredB := true } }
      let m := s.mirrorSlot n
      match m.a, m.b with
      | some a, some b => s.compareLoop n ns a b
      | _, _ =>
        if s.laneCtl.redundancy = .simplexOn l && !s.laneCtl.held then (s.crossCheck n x.eff v).releaseLoop n v ns else s

/-! ## Model results (02 R43-R45, R530) -/

/-- A result by kind, target and due epoch. -/
abbrev ResultKey := ResultKind × Nat × Nat

def HeldResult.key (r : HeldResult) : ResultKey := (r.kind, r.target, r.due)

/-- The binding of the active image that gives a result. -/
def State.bindingOf (s : State) (k : ResultKind) (t : Nat) : Option OutBinding :=
  let code := match k with | .loopSp => 1 | .loopFf => 2 | .capSet => 0
  s.image.bind fun i => i.outputs.find? fun b => b.kind = code && b.firstTarget ≤ t && t < b.firstTarget + b.count

/-- The result passes the plausibility check (15 R369): its due epoch is that of its class, a cap is encodable, and no floor is
above its cap. -/
def State.plausibleResult (s : State) (r : HeldResult) (v : ResultVal) : Bool :=
  match v with
  | .word _ => match s.bindingOf r.kind r.target with
    | some b => b.due r.source s.img.kMod = r.due
    | none => true
  | .caps t => r.due = r.source && t.all fun e => decide (e.2.cap < 65536 ∧ e.2.floor ≤ e.2.cap)

/-- The result is decided: no copy of it is held any more. -/
def State.closeResult (s : State) (k : ResultKey) : State :=
  { s with tick := { s.tick with held := s.tick.held.filter (fun r => r.key ≠ k), done := k :: s.tick.done } }

/-- A result discarded as stale or superseded. A cap set counts in the counter, and not in results_discarded (assumption log 13). -/
def State.discardResult (s : State) (r : HeldResult) (superseded : Bool) : State :=
  let s := s.closeResult r.key
  let s := if r.kind = .capSet then s else { s with tick := { s.tick with discarded := s.tick.discarded + 1 } }
  if superseded then { s with tick := { s.tick with cntSuperseded := satTo 32 (s.tick.cntSuperseded + 1) } }.countTick 2 0x8
  else { s with tick := { s.tick with cntStale := satTo 32 (s.tick.cntStale + 1) } }.countTick 1 0x4

/-- The due epoch of the last result released for an output. -/
def TickSt.lastDue (t : TickSt) (k : ResultKind) (target : Nat) : Option Nat :=
  (t.lastReleased.find? fun x => x.1 = k && x.2.1 = target).map fun x => x.2.2

def State.noteReleased (s : State) (r : HeldResult) : State :=
  let rest := s.tick.lastReleased.filter fun (x : ResultKey) => !(x.1 = r.kind && x.2.1 = r.target)
  { s with tick := { s.tick with lastReleased := (r.kind, r.target, r.due) :: rest } }

/-- Releases a result, or withholds it where the authority is not PREDICTIVE (02 R530). A cap set goes to the trays (09 R248). -/
def State.releaseResult (s : State) (r : HeldResult) (v : ResultVal) (ns : Nat) : State :=
  let s := s.closeResult r.key
  match v with
  | .caps t =>
    let s := s.noteReleased r
    let s := { s with
      rel := { s.rel with caps := t, capEpoch := some r.due }
      tick := { s.tick with capReleased := true } }
    (s.sendCaps false false).endGovs r.due
  | .word w =>
    if s.mode.authority ≠ .predictive then s
    else
      let s := s.noteReleased r
      let key := (r.kind, r.target)
      let sp := if r.kind = .loopSp then Tab.set none s.rel.setPoint r.target (some w) else s.rel.setPoint
      let ff := if r.kind = .loopFf then Tab.set none s.rel.feedFwd r.target (some w) else s.rel.feedFwd
      let newest := match s.tick.lastAppliedDue with
        | some d => max d r.due
        | none => r.due
      { s with
        rel := { s.rel with
          setPoint := sp, feedFwd := ff
          sinceGrant := if s.rel.sinceGrant.contains key then s.rel.sinceGrant else key :: s.rel.sinceGrant }
        tick := { s.tick with lastAppliedDue := some newest, modelRelCur := max s.tick.modelRelCur ns } }

/-- One slot of two cap sets: cap and floor within cap_tol. -/
def State.capsAgree (s : State) (a b : CapFloor) : Bool :=
  natAgree s.cfg.envelope.capTol a.cap b.cap && natAgree s.cfg.envelope.capTol a.floor b.floor

/-- What the merge takes of two caps and floors. -/
def CapFloor.cooler (a b : CapFloor) : CapFloor := { cap := min a.cap b.cap, floor := min (max a.floor b.floor) (min a.cap b.cap) }

/-- Compares two copies of a result and answers what is to be released: `act` is the active lane's. -/
def State.compareResult (s : State) (r : HeldResult) (act other : ResultVal) : State × ResultVal :=
  match act, other with
  | .word x, .word y =>
    let b := (s.bindingOf r.kind r.target).getD {}
    let ok := F32.agree b.tolerance x y
    let s := s.noteCompare (.result r.kind r.target) ok
    let far := if b.sense = 1 then (if F32.lt x y then y else x) else (if F32.lt y x then y else x)
    (s, .word (if !ok && s.merging then far else x))
  | .caps x, .caps y =>
    let slots := (x.map Prod.fst) ++ (y.map Prod.fst).filter fun c => !(x.any fun e => e.1 = c)
    let s := slots.foldl (fun (s : State) c =>
      if s.laneCtl.redundancy = .duplex ∨ s.inNet then s.noteCompare (.cap c) (s.capsAgree (Tab.get {} x c) (Tab.get {} y c)) else s) s
    let merged := slots.foldl (fun (t : Tab CapFloor) c =>
      if s.capsAgree (Tab.get {} x c) (Tab.get {} y c) then t
      else Tab.set {} t c ((Tab.get {} x c).cooler (Tab.get {} y c))) x
    (s, .caps (if s.merging then merged else x))
  | v, _ => (s, v)

/-- Decides a held result, `ns` after T0 inside a release window: `alone` releases the active lane's copy without the standby's,
as a late result always is (02 R44, R45). -/
def State.settleResult (s : State) (k : ResultKey) (ns : Nat) (alone : Bool) : State :=
  match s.tick.held.find? fun r => r.key = k with
  | none => s
  | some r =>
    match r.copy s.laneCtl.active with
    | none => s
    | some act =>
      let other := if s.laneCtl.redundancy = .duplex then r.copy s.laneCtl.active.other else none
      let wait := s.laneCtl.redundancy = .duplex && other.isNone && !alone && r.due = s.now
      if s.withheld || s.now < r.due || wait then s
      else if s.now - r.due > s.tick.staleLimit then s.discardResult r false
      else if (s.tick.lastDue r.kind r.target).any fun d => decide (r.due ≤ d) then s.discardResult r true
      else match other with
        | none => s.releaseResult r act ns
        | some o =>
          let (s, v) := s.compareResult r act o
          if s.withheld then s else s.releaseResult r v ns

/-- In NET both copies of a result are compared and dropped, and no result is released. -/
def State.dropInNet (s : State) (k : ResultKey) : State :=
  match s.tick.held.find? fun r => r.key = k with
  | some { copyA := some a, copyB := some b, kind := kd, target := t, source := n, due := d } =>
    ((s.compareResult { kind := kd, target := t, source := n, due := d } a b).1).closeResult k
  | _ => s

/-- Puts a lane's copy of a result beside the other. -/
def putCopy (l : LaneId) (r : HeldResult) (v : ResultVal) (h : List HeldResult) : List HeldResult :=
  if h.any fun x => x.key = r.key then h.map fun x => if x.key = r.key then x.setCopy l v else x else h ++ [r.setCopy l v]

/-- A lane delivers a model result: what it has computed, or another value. -/
def State.deliverResult (s : State) (l : LaneId) (ns : Nat) (k : ResultKind) (t source due : Nat) (v : Option ResultVal) : State :=
  let mine := fun (o : OwnResult) => o.kind = k && o.target = t && o.due = due
  let val := v <|> ((s.lane l).step.results.find? mine).map (·.value)
  let r : HeldResult := { kind := k, target := t, source := source, due := due }
  match val with
  | none => s
  | some w =>
    let s := s.onLane l fun x => { x with step := { x.step with results := x.step.results.filter fun o => !mine o } }
    if (s.laneCtl.stat l).outputsLost then s
    else
      let s := if s.plausibleResult r w then s else s.markFailed l
      if s.tick.done.contains r.key then s
      else
        let s := { s with tick := { s.tick with held := putCopy l r w s.tick.held } }
        if s.inNet then s.dropInNet r.key
        else if s.tick.windowOpen then s.settleResult r.key ns false else s

/-! ## Speed floors, permits and valve entries (15 Table 15.1) -/

/-- Releases one of them; a speed floor in 0.01 rpm, a permit as 0 or 1, a valve entry as 256 × channel + action. -/
def State.releaseOther (s : State) (k : OutKey) (v : Nat) : State :=
  match k with
  | .speedFloor g => s.onGroup g fun d => if d.floorActive then { d with floor := v } else d
  | .permit m => s.setPermit m (v ≠ 0)
  | .valve cmd i =>
    (s.onValveCmds fun c =>
      if c.cmd = cmd && c.released ≤ i then
        { c with entries := c.entries.set i (v / 256, v % 256), through := i :: c.through.filter (· ≠ i) } else c).advanceValves
  | _ => s

/-- What the merge takes of two such values: the higher floor, the granted permit, the active lane's valve entry. -/
def coolerOther (k : OutKey) (act other : Nat) : Nat :=
  match k with
  | .valve _ _ => act
  | _ => max act other

def State.deliverOther (s : State) (l : LaneId) (k : OutKey) (v : Nat) : State :=
  let o := (s.laneCtl.others.find? fun x => x.key = k).getD { key := k }
  if (o.copy l).isSome || (s.laneCtl.stat l).outputsLost then s
  else
    let o := o.setCopy l v
    let s := { s with laneCtl := { s.laneCtl with others := o :: s.laneCtl.others.filter fun x => x.key ≠ k } }
    match o.a, o.b with
    | some a, some b =>
      let s := s.noteCompare k (a = b)
      let act := if s.laneCtl.active = .A then a else b
      let other := if s.laneCtl.active = .A then b else a
      if s.withheld then s else s.releaseOther k (if s.merging then coolerOther k act other else act)
    | _, _ => if s.laneCtl.redundancy = .simplexOn l && !s.laneCtl.held then s.releaseOther k v else s

/-- Releases alone what only the active lane has delivered. -/
def State.settleOthers (s : State) : State :=
  if s.withheld then s
  else s.laneCtl.others.foldl (fun (s : State) o =>
    match o.copy s.laneCtl.active, o.copy s.laneCtl.active.other with
    | some v, none => s.releaseOther o.key v
    | _, _ => s) s

/-- Completion content for a command the Ringmaster did not deliver is implausible (15 R369). -/
def State.deliverCompletion (s : State) (l : LaneId) (tag : U32) : State := if s.proto.tagInUse tag then s else s.markFailed l

/-- LANE_OUTPUT_DELIVERY (15 R366). A lane that is lost is no longer heard (15 R373). -/
def execLaneOutputDelivery (l : LaneId) (ns : Nat) (d : Delivery) (s : State) : Host.Outcome State Fault Refusal :=
  .next (if !(s.lane l).isRunning then s
  else match d with
    | .loop n o => s.deliverLoop l ns n o
    | .result k t source due v => s.deliverResult l ns k t source due v
    | .speedFloor g rpm => s.deliverOther l (.speedFloor g) ((rpm.map (100 * ·)).getD (s.groupDyn g).floor)
    | .permit m on => s.deliverOther l (.permit m) (flag (on.getD (s.motor m).permit))
    | .valve cmd i chan action => s.deliverOther l (.valve cmd i) (256 * chan + action % 256)
    | .completion tag => s.deliverCompletion l tag)

/-! ## Release deadlines and silence (02 R42, 15 R364, R385) -/

/-- The lane was to deliver loop outputs in this tick. -/
def State.dueLoops (s : State) (l : LaneId) : Bool := (s.lane l).loops.any fun e => (s.slotOut l e.1).isSome

/-- A lane is silent in this tick: R20, R40, or none of its loop outputs by the deadline of L255. -/
def State.silent (s : State) (l : LaneId) : Bool :=
  (s.laneCtl.stat l).outputsLost || s.dueLoops l && !(match l with | .A => s.laneCtl.deliveredA | .B => s.laneCtl.deliveredB)

/-- Silence, CNT_MISS and, in NET, qualification of one running lane. -/
def State.countSilence (s : State) (l : LaneId) : State :=
  if !(s.lane l).isRunning then s
  else
    let quiet := s.silent l
    let st := s.laneCtl.stat l
    let s := s.onStat l fun x =>
      { x with
        silentRun := if quiet then x.silentRun + 1 else 0
        silentTicks := if quiet then satTo 32 (x.silentTicks + 1) else x.silentTicks
        qualRun := if !s.inNet || quiet || x.failedAt = some s.now then 0 else x.qualRun + 1 }
    if st.frameLost then
      match l with
      | .A => { s with tick := { s.tick with cntMissA := satTo 32 (s.tick.cntMissA + 1) } }.countTick 5 0x40
      | .B => { s with tick := { s.tick with cntMissB := satTo 32 (s.tick.cntMissB + 1) } }.countTick 6 0x40
    else s

/-- An output that nobody released by its deadline: the active lane's value alone, or its last value held (02 R42). -/
def State.loopDue (s : State) (n : Nat) : State :=
  let m := s.mirrorSlot n
  if s.inNet || m.closed || ((s.slotOut .A n).isNone && (s.slotOut .B n).isNone && !s.laneCtl.held) then s
  else
    let hold := { s with tick := { s.tick with unsettled := true } }.onMirror n fun m => { m with closed := true, shortRun := 0 }
    if s.laneCtl.held then (if (s.loopDesc n).enable then hold else s)
    else match m.copy s.laneCtl.active with
      | some o =>
        let s := if s.laneCtl.countOf (.loop n) = 0 then s.onMirror n fun m => { m with rHeld := o.r } else s
        s.releaseLoop n o (loopDeadline n)
      | none => hold

/-- LOOP_RELEASE_DEADLINE (02 R42); at that of L255 the tick's silence is known (15 R364). -/
def execLoopReleaseDeadline (loop : Fin 256) (s : State) : Host.Outcome State Fault Refusal :=
  let s := s.loopDue loop.val
  .next (if loop.val ≠ 255 then s
  else
    let s := (s.countSilence .A).countSilence .B
    let agree := s.inNet && s.bothLanes && !s.laneCtl.arbitrated
    { s with laneCtl := { s.laneCtl with netAgreeRun := if agree then s.laneCtl.netAgreeRun + 1 else 0 } })

/-! ## The release window (02 R44, R45, R531) -/

/-- Inserts a result behind those of its due epoch or before. -/
def insertDue (r : HeldResult) : List HeldResult → List HeldResult
  | [] => [r]
  | x :: rest => if r.due < x.due then r :: x :: rest else x :: insertDue r rest

def byDue (h : List HeldResult) : List ResultKey := (h.foldl (fun (acc : List HeldResult) r => insertDue r acc) []).map HeldResult.key

/-- A held result that can never be released (02 R531). -/
def State.doomed (s : State) (r : HeldResult) : Bool :=
  (r.copy s.laneCtl.active).isNone && decide (s.tick.staleLimit < s.now - r.due)

/-- RELEASE_WINDOW_OPEN. In NET the trays get NET frames (15 R383), and what copies are held is dropped without count. -/
def execReleaseWindowOpen (s : State) : Host.Outcome State Fault Refusal :=
  let s := { s with tick := { s.tick with windowOpen := true } }
  .next (if s.inNet then
    { s with tick := { s.tick with held := s.tick.held.filter fun r => decide (s.now ≤ r.due + s.tick.staleLimit) } }.sendCaps true false
  else
    let s := (s.tick.held.filter s.doomed).foldl (fun (s : State) r => s.discardResult r false) s
    (byDue s.tick.held).foldl (fun (s : State) k => s.settleResult k 20000 false) s)

/-- A result due in this tick has not been released: it is held, or a lane has not delivered it, or its step still runs. -/
def State.lateNow (s : State) : Bool :=
  let stepLate := fun (x : Lane) => x.isRunning && x.step.running && s.image.any fun i =>
    i.outputs.any fun b => (b.kind = 1 || b.kind = 2) && b.due x.step.epoch s.img.kMod = s.now
  let notDelivered := fun (x : Lane) => x.isRunning && x.step.results.any fun o => o.due = s.now && !s.tick.done.contains (o.kind, o.target, o.due)
  s.tick.held.any (fun r => r.due = s.now) || stepLate s.laneA || stepLate s.laneB || notDelivered s.laneA || notDelivered s.laneB

/-- RELEASE_WINDOW_CLOSE: what only the active lane has delivered is released alone; what is due and not released is late; REPEAT
frames where no cap set has been released. -/
def execReleaseWindowClose (s : State) : Host.Outcome State Fault Refusal :=
  .next (if !s.tick.windowOpen then s
  else
    let close := fun (s : State) => { s with tick := { s.tick with windowOpen := false } }
    if s.inNet then close s
    else
      let s := ((byDue s.tick.held).foldl (fun (s : State) k => s.settleResult k 95000 true) s).settleOthers
      let s := if s.lateNow then { s with tick := { s.tick with cntLate := satTo 32 (s.tick.cntLate + 1) } }.countTick 0 0x2 else s
      close (if s.tick.capReleased then s else s.sendCaps false true))

/-! ## Losses (15 R364, R365, R371, R376; 01 R20) -/

/-- FLIT_LOST: a flit of a lane's frame (`frame`) or outputs is lost for good; the lane is silent in the tick, and its outputs count
as absent (01 R20). -/
def execFlitLost (l : LaneId) (frame : Bool) (s : State) : Host.Outcome State Fault Refusal :=
  .next (if !(s.lane l).isRunning then s
  else
    let s := s.onStat l fun x => { x with outputsLost := true, frameLost := x.frameLost || frame }
    { s with
      laneCtl := { s.laneCtl with mirror := s.laneCtl.mirror.map fun (e : Nat × MirrorSlot) =>
        if e.2.closed then e else (e.1, match l with | .A => { e.2 with a := none } | .B => { e.2 with b := none }) } })

/-- LANE_SILENT_LOST: three ticks of silence in a row (15 R364); both lanes silent in the same three enter the Safety Net. -/
def execLaneSilentLost (l : LaneId) (s : State) : Host.Outcome State Fault Refusal :=
  let quiet := fun (l : LaneId) => decide (3 ≤ (s.laneCtl.stat l).silentRun)
  .next (if !(s.lane l).isRunning || !quiet l then s
  else if (s.lane l.other).isRunning && !quiet l.other then s.loseLane l Loss.silent
  else (s.onStat l fun x => { x with silentRun := 0 }).enterNet 2 true)

/-- A second parity error of a physical tile within 720 hours writes a fence record (05 R141). -/
def State.noteParity (s : State) (l : LaneId) (tile : Nat) : State :=
  let lately := (s.laneCtl.stat l).parity.filter fun x => decide (s.now < x.2 + 30 * ticksPerDay)
  let key := match l with | .A => 0 | .B => 1
  let fences := Tab.get [] s.cfg.fenced key
  let s := s.onStat l fun x => { x with parity := (tile, s.now) :: lately }
  if (lately.any fun x => x.1 = tile) && !fences.contains tile then
    s.cfgReg fun c => { c with fenced := Tab.set [] c.fenced key (tile :: fences) }
  else s

/-- A lane migrates the configuration store: step 2 of a handover (20 R498). -/
def State.migrating (s : State) (l : LaneId) : Bool :=
  s.mode.update = .handover && s.upd.step = 2 && !s.upd.rollingBack && s.upd.onNew.contains l && (s.lane l).run = .copy

/-- SELF_CHECK_FAILURE: the lane is lost at once; failures of both lanes in one tick enter the Safety Net (15 R365). A lane that
migrates the store fails with reason MIGRATION, and the update with it (20 R498, Table 20.6). -/
def execSelfCheckFailure (l : LaneId) (tile : Option Nat) (s : State) : Host.Outcome State Fault Refusal :=
  .next (if s.migrating l then { s with upd := { s.upd with failed := some 5 } }.failRejoin l Loss.selfCheck
  else if !(s.lane l).isRunning then s
  else
    let s := (match tile with
      | some t => s.noteParity l t
      | none => s).markFailed l
    let o := s.laneCtl.stat l.other
    if o.selfCheckFail && o.failedAt = some s.now && !s.inNet then (s.noteLoss l Loss.selfCheck).enterNet 2 true
    else s.loseLane l Loss.selfCheck)

/-- MERGE_LIMIT_REACHED (15 R371). -/
def execMergeLimitReached (s : State) : Host.Outcome State Fault Refusal :=
  .next (if s.laneCtl.merge && s.laneCtl.redundancy = .duplex && decide (s.cfg.mergeLimit ≤ s.laneCtl.mergeRun) then
      s.loseLane s.laneCtl.active.other Loss.mergeLimit
    else s)

/-- REFEREE_CROSS_CHECK_FAIL (15 R376). -/
def execRefereeCrossCheckFail (s : State) : Host.Outcome State Fault Refusal :=
  let l := s.laneCtl.active
  let short := s.laneCtl.mirror.any fun e => decide (s.cfg.refTicks ≤ e.2.shortRun)
  .next (if s.laneCtl.redundancy = .simplexOn l && !s.laneCtl.held && short then s.loseLane l Loss.crossCheck else s)

end Sys2Proof.Machine
end

