-- ==== Sys2Proof/Machine/Lanes.lean ====
section
/-! DEFINITION. Lanes and fail-over (15): authority grants, the Trapeze and its drill, exit from the Safety Net, the start of lanes
and their resynchronisation (16 R404, R405), Ringmaster faults, and the lane status record. -/

namespace Sys2Proof.Machine

/-! ## Taking authority (15 R373, R374, R380) -/

/-- Lane `l` has acknowledged a grant: it is active, the other lane, where it runs, standby; SWITCH_EPOCH records the first epoch. -/
def State.takeAuthority (s : State) (l : LaneId) (epoch : Nat) : State :=
  let s := s.onLane l fun x => { x with run := .active }
  let s := s.onLane l.other fun x => if x.isRunning then { x with run := .standby } else x
  let s := s.onStat l fun x => { x with authExercised := true, ackEpoch := some s.now }
  { s with laneCtl := { s.laneCtl with
      active := l, held := false, granting := none, grantNo := 0, drillGranted := false, switchEpoch := some epoch } }

/-- AUTHORITY_GRANT: at the T0 after the loss of the active lane, and once again at the next (15 R373). -/
def execAuthorityGrant (s : State) : Host.Outcome State Fault Refusal :=
  let c := s.laneCtl
  let l := c.active.other
  .next (if c.gap && c.held && c.granting.isNone && decide (c.grantNo < 2) && (s.lane l).isRunning then
      { s with laneCtl := { c with granting := some l, grantNo := c.grantNo + 1, grantEpoch := s.now } }
    else s)

/-- DRILL_GRANT: at T0 + 95 µs of a drill, or of step 5 of a handover, the standby receives a grant for the next epoch. -/
def execDrillGrant (s : State) : Host.Outcome State Fault Refusal :=
  let c := s.laneCtl
  let due := c.drillCmd.isSome && !c.drillAcked || s.mode.update = .handover && s.upd.step = 5
  .next (if due && !c.drillGranted && c.redundancy = .duplex then
      { s with laneCtl := { c with drillGranted := true, granting := some c.active.other, grantNo := 1, grantEpoch := s.now + 1 } }
    else s)

/-- The end of a drill whose grant was acknowledged: DRILL_DONE, the command, and with RETEST the reset of the new standby. -/
def State.endDrill (s : State) : State :=
  match s.laneCtl.drillCmd with
  | none => s
  | some id =>
    let again := s.laneCtl.drillRetest
    let old := s.laneCtl.active.other
    let s := (s.finish id .done).setLaneEvent 0x200
    let s := { s with
      laneCtl := { s.laneCtl with drillCmd := none, drillGranted := false, drillAcked := false, drillRetest := false
                                  retesting := if again then some old else none }
      mode := { s.mode with test := again } }
    if again then
      let s := s.resetLane old
      { s with laneCtl := { s.laneCtl with redundancy := .simplexOn old.other, counts := [] } }.refitK
    else s

/-! ## Leaving the Safety Net (15 R385; 16 R397, R404, R405) -/

/-- A lane has qualified: it runs, has 100 clean ticks, and no firmware restart is in progress. -/
def State.qualified (s : State) (l : LaneId) : Bool :=
  (s.lane l).isRunning && decide (100 ≤ (s.laneCtl.stat l).qualRun) && !s.gen.rmRestart

/-- LANE_QUALIFIED: the grant goes out at the next T0, to the lane active before NET where it has qualified. -/
def execLaneQualified (l : LaneId) (s : State) : Host.Outcome State Fault Refusal :=
  let c := s.laneCtl
  .next (if s.inNet && c.granting.isNone && s.qualified l then
      let to_ := if s.qualified c.preNetActive then c.preNetActive else l
      { s with laneCtl := { c with granting := some to_, grantNo := c.grantNo + 1, grantEpoch := s.now + 1 } }
    else s)

/-- The reference model is activated where no image is active (16 R405). -/
def State.autoActivate (s : State) : State :=
  let life := s.mode.lifeCycle = .provisioned || s.mode.lifeCycle = .operational
  if life && !bit s.mode.modeCfgActive 2 && s.img.activeSlot.isNone && s.img.act = .idle && s.slotCode 7 = 1 then
    match s.img.images.find? fun i => i.slot = 7 with
    | some i => s.startActivation i false none none
    | none => s
  else s

/-- The caps the trays have been given in NET stand as released until the first cap set (15 R383; assumption log 13). -/
def State.capsAfterNet (s : State) : State :=
  let slots := s.cfg.topo.slots.filter fun c => !s.slotAbsent c
  let caps := slots.foldl (fun (t : Tab CapFloor) c => Tab.set {} t c { cap := s.cfg.netCap, floor := 0 }) []
  let s := { s with rel := { s.rel with caps := caps, capEpoch := none } }
  s.onLanes fun x => slots.foldl (fun (x : Lane) c => x.onGovChip c fun g => { g with cap := some s.cfg.netCap, floor := 0 }) x

/-- Leaves NET with lane `l` granted. -/
def State.exitNet (s : State) (l : LaneId) : State :=
  let both := s.qualified .A && s.qualified .B && decide (100 ≤ s.laneCtl.netAgreeRun)
  let s := s.capsAfterNet.takeAuthority l s.laneCtl.grantEpoch
  let s := if both then s else if (s.lane l.other).isRunning then s.resetLane l.other else s
  let s := s.onStat l.other fun x => if both then x else { x with resetEpoch := s.now }
  let s := { s with
    laneCtl := { s.laneCtl with
      redundancy := if both then .duplex else .simplexOn l
      netCause := 0, resumeEpoch := some s.laneCtl.grantEpoch, counts := [], mirror := [], merge := false, mergeRun := 0
      netAgreeRun := 0, preNetActive := l }
    rel := { s.rel with netActive := false }
    tick := { s.tick with held := [] }
    upd := { s.upd with duplexSince := s.now }
    mode := { s.mode with
      modeCfgActive := s.cfg.modeCfg, authSetByHost := false, predAvailTicks := 0
      startPhase := if s.mode.startPhase = StartPhase.qualify then .settle else s.mode.startPhase
      startNetExitMs := s.mode.startNetExitMs <|> some s.msNow } }
  let s := (s.logRm Cls.notice 0x0905 none32 []).setLaneEvent 0x80
  let s := if s.mode.authority = .predictive then s.dropAuthority .inner s.laneCtl.grantEpoch 3 else s
  let s := s.refitK.autoActivate
  if s.img.act = .idle && (!bit s.mode.modeCfgActive 1 || s.img.activeSlot.isNone) then s.startOver else s

/-! ## Acknowledgement (15 R373, R380, R381) -/

/-- AUTHORITY_ACK, by what was granted: a drill or a planned Trapeze, the exit from NET, or a fail-over. -/
def execAuthorityAck (l : LaneId) (s : State) : Host.Outcome State Fault Refusal :=
  let c := s.laneCtl
  .next (if c.granting ≠ some l || !(s.lane l).isRunning then s
  else if c.drillGranted then
    let s := (s.takeAuthority l c.grantEpoch).setLaneEvent 0x4
    { s with laneCtl := { s.laneCtl with cntSwitchover := satTo 32 (s.laneCtl.cntSwitchover + 1) } }.endDrill
  else if s.inNet then s.exitNet l
  else
    let s := s.takeAuthority l c.grantEpoch
    ({ s with laneCtl := { s.laneCtl with resumeEpoch := some c.grantEpoch } }.setLaneEvent 0x4).settleOthers)

/-- AUTHORITY_ACK_TIMEOUT: a drill's grant costs the standby; a second grant unacknowledged leaves no trustworthy lane. -/
def execAuthorityAckTimeout (s : State) : Host.Outcome State Fault Refusal :=
  let c := s.laneCtl
  .next (match c.granting with
    | none => s
    | some l =>
      let s := { s with laneCtl := { c with granting := none } }
      if c.drillGranted then
        let drill := c.drillCmd.isSome
        let s := s.loseLane l Loss.authAck
        if drill then s.setLaneEvent 0x400 else s
      else if c.grantNo < 2 then s
      else if s.inNet then
        let s := (s.noteLoss l Loss.authAck).resetLane l
        { s with laneCtl := { s.laneCtl with grantNo := 0 } }
      else ((s.noteLoss l Loss.authAck).resetLane l).enterNet 3 true)

/-! ## TRAPEZE_DRILL (15 R380) -/

def execTrapezeDrill (p : Packet) (s : State) : Host.Outcome State Fault Refusal :=
  let axis := fun (_ : Packet) (s : State) => axes [(s.laneCtl.redundancy ≠ .duplex || s.mode.update ≠ .idle, .notInMode),
    (s.laneCtl.gap || s.laneCtl.merge || s.laneCtl.drillCmd.isSome, .busy 3), (s.activating, .busy s.activationLeft)]
  .next (s.runCmd 0x0902 false p (·.checkBlock 8 [(6, 2)]) axis fun _ p s => do
    deny [(u16At p.block 4 / 2 ≠ 0, p.badField 4)]
    .ok ({ s with
      laneCtl := { s.laneCtl with drillCmd := some p.id, drillRetest := bit (u16At p.block 4) 0, drillGranted := false, drillAcked := false }
      mode := { s.mode with test := true } }, .later []))

/-! ## Out of reset (01 R24, 05 R141, 16 Table 16.5) -/

/-- Lanes in reset that nothing holds are released at T0 once the Ringmaster firmware runs; the wipe begins (01 R24). -/
def State.releaseLanes (s : State) : State :=
  if s.mode.startPhase = .rmBoot then s
  else [LaneId.A, .B].foldl (fun (s : State) l =>
    if (s.lane l).run = .reset && !s.laneCtl.hold l then
      (s.onLane l fun x => { x with run := .wipe }).onStat l fun x => { x with resetEpoch := s.now }
    else s) s

/-- LANE_WIPE_DONE (01 R24). -/
def execLaneWipeDone (l : LaneId) (s : State) : Host.Outcome State Fault Refusal :=
  .next (if (s.lane l).run = .wipe then s.onLane l fun x => x.wiped .test else s)

/-- LANE_SELF_TEST_DONE: tiles that fail, and those of the fence records, are fenced; a failed fence bypass or shift multiplexer
fails the lane (05 R141, R142). With the lane link failed, a lane that would be resynchronised stops at JOIN_WAIT (15 R378). -/
def execLaneSelfTestDone (l : LaneId) (failed : List Nat) (linkFault : Bool) (s : State) : Host.Outcome State Fault Refusal :=
  let kept := Tab.get [] s.cfg.fenced (match l with | .A => 0 | .B => 1)
  .next (if (s.lane l).run ≠ .test then s
  else if linkFault then s.failRejoin l Loss.selfCheck
  else
    let stop := s.laneCtl.linkFail && (s.lane l.other).isRunning
    let s := s.onLane l fun x => { x with
      fenced := kept ++ failed.filter (fun t => !kept.contains t), run := if stop then .joinWait else .copy }
    { s with fresh := s.fresh + 1 }.onStat l fun x => { x with resyncPct := Config.freeTicks s.fresh % 100 })

/-- What a lane holds when it starts from the store: slots, governor, and the runtime's kept records (03 R525, 04 R111, R112). -/
def State.startedLane (s : State) (x : Lane) : Lane :=
  let chips := s.cfg.rain.foldl (fun (t : Tab ChipTh) e => Tab.set {} t e.1 { bins := e.2.bins, residue := e.2.residue }) []
  { x with
    ready := true, run := .joinWait, loops := s.cfg.freshLoops
    model := { chips := chips, checkpoint := s.cfg.rainTime, windowStart := s.now } }

/-- LANE_READY: a lane that starts from NOR, while no other lane runs, reports READY (16 R404). -/
def execLaneReady (l : LaneId) (s : State) : Host.Outcome State Fault Refusal :=
  .next (if (s.lane l).run = .copy && !s.anyLane && s.inNet then
      let s := s.onLane l s.startedLane
      { s with mode := { s.mode with
          firstReady := s.mode.firstReady <|> some s.now
          startPhase := if s.mode.startPhase = .laneStart then .sync else s.mode.startPhase } }
    else s)

/-- START_WAIT_EXPIRY (16 R404): the in-step start falls at the next T0 with the READY lane alone. -/
def execStartWaitExpiry (s : State) : Host.Outcome State Fault Refusal :=
  .next (match s.mode.firstReady with
    | some e => if e + 10 * s.cfg.startWait ≤ s.now then { s with mode := { s.mode with startAlone := true } } else s
    | none => s)

/-- The in-step start, at the first T0 at which it is due (16 R404): each READY lane is RUNNING, and the reference model is staged
(07 R192). -/
def State.inStepStart (s : State) : State :=
  let a := s.laneA.ready
  let b := s.laneB.ready
  let due := !s.anyLane && s.inNet && (a && b || (a || b) && (s.mode.startAlone || a && s.laneCtl.holdB || b && s.laneCtl.holdA))
  if !due then s
  else
    let go := fun (x : Lane) => if x.ready then { x with ready := false, run := .running } else x
    let s := { s with
      laneA := go s.laneA, laneB := go s.laneB
      evt := { s.evt with laneIdxNext := 0 }
      mode := { s.mode with
        firstReady := none, startAlone := false
        startPhase := if s.mode.startPhase = StartPhase.sync || s.mode.startPhase = StartPhase.laneStart then .qualify else s.mode.startPhase } }
    s.stageReference

/-! ## Resynchronisation (15 R377, R378; 07 R197) -/

/-- A lane may be resynchronised: the other is active, outside NET and outside a gap, and the lane link works. -/
def State.mayResync (s : State) (l : LaneId) : Bool :=
  (s.lane l.other).run = .active && !s.inNet && !s.laneCtl.gap && !s.laneCtl.linkFail

def State.putFit (s : State) (l : LaneId) (f : Fit) : State :=
  match l with
  | .A => { s with img := { s.img with fitA := f } }
  | .B => { s with img := { s.img with fitB := f } }

/-- RESYNC_COPY_DONE: copy, fit and pre-copy rounds are over, and the lane waits to join; a lane whose fit refuses stays out
(07 R197). In a handover the copy begins with step 3. -/
def execResyncCopyDone (l : LaneId) (s : State) : Host.Outcome State Fault Refusal :=
  let early := s.mode.update = .handover && (s.upd.step = 1 || s.upd.step = 2)
  let wait := fun (s : State) => (s.onLane l fun x => { x with run := .joinWait }).onStat l fun x => { x with resyncPct := 100 }
  .next (if (s.lane l).run ≠ .copy || !s.mayResync l || early then s
  else match s.image with
    | none => wait s
    | some i =>
      let f := i.fit (s.lane l)
      if !f.ok then s.logRm Cls.faultC 0x030B (laneSubject l) [w32 f.short0, w32 f.short1, w32 f.short2]
      else
        let k := max f.k s.img.kMod
        let s := s.putFit l (i.fitAt (s.lane l) k)
        let s := if s.img.kMod < f.k then
            { s with img := { s.img with remapped := true } }.logRm Cls.warning 0x0308 (laneSubject l) [w32 f.variant, w32 f.fold, w32 f.k]
          else s
        wait s)

/-- The state of the active lane as the joining lane takes it: its own silicon, the frames it has received (02 Table 2.11), an empty staging queue. -/
def Lane.copyOf (own act : Lane) : Lane :=
  { act with
    run := .standby, ready := false, fused := own.fused, fenced := own.fenced, eccCorrected := 0, ferris := own.ferris
    staging := { nextIdx := act.staging.nextIdx } }

/-- Carries the logical state over through the state maps (07 R189, R197). -/
def ArraySt.carryState (new old : ArraySt) : ArraySt :=
  let logical := old.stateMap.foldl (fun (m : Mem) e => m.writeBytes e.logical (old.read e.tile e.off e.length)) []
  new.stateMap.foldl (fun (a : ArraySt) e => a.write e.tile e.off (logical.readBytes e.logical e.length)) new

/-- A command is in execution in the lanes, or one of the operations that keep a lane from joining is in progress (15 R378). -/
def State.joinBlocked (s : State) : Bool :=
  !s.proto.committed.isEmpty || (s.img.staging.any fun e => e.2.isSome) || s.img.act ≠ .idle || !s.img.couplingOps.isEmpty ||
    s.main.step.running

/-- RESYNC_JOIN: the final copy, then in step as standby (15 R378). A lane that runs another variant receives state and table through
the maps. -/
def execResyncJoin (l : LaneId) (s : State) : Host.Outcome State Fault Refusal :=
  let own := s.lane l
  let act := s.lane l.other
  .next (if own.run ≠ .joinWait || (s.laneCtl.stat l).resyncPct ≠ 100 || !s.mayResync l || s.joinBlocked then s
  else
    let fOwn := match l with | .A => s.img.fitA | .B => s.img.fitB
    let fAct := match l with | .A => s.img.fitB | .B => s.img.fitA
    let x := own.copyOf act
    let x := match s.image with
      | some i =>
        if fOwn.variant = fAct.variant then x
        else
          let y := x.load i (i.variantOf fOwn) true
          { y with array := y.array.carryState act.array }
      | none => x
    let s := s.setLane l x
    let s := s.onStat l fun x => { x with silentRun := 0, selfCheckFail := false, failedAt := none }
    let test := s.laneCtl.retesting = some l
    let s := { s with
      laneCtl := { s.laneCtl with redundancy := .duplex, counts := [], retesting := if test then none else s.laneCtl.retesting }
      mode := { s.mode with test := s.mode.test && !test }
      upd := { s.upd with duplexSince := s.now } }
    ((s.logRm Cls.notice 0x0907 (laneSubject l) [lo32 s.now, hi32 s.now]).setLaneEvent 0x20).refitK)

/-- RESYNC_TIMEOUT: the phases have not completed within 500 ms; it counts as a loss (15 R377). In a
handover the time counts from the end of step 2 (20 Table 20.4). -/
def execResyncTimeout (l : LaneId) (s : State) : Host.Outcome State Fault Refusal :=
  let r := (s.lane l).run
  let mid := r = .wipe || r = .test || r = .copy || r = .joinWait
  let test := s.laneCtl.retesting = some l
  let early := s.mode.update = .handover && (s.upd.step = 1 || s.upd.step = 2)
  .next (if mid && !early && s.mayResync l && decide ((s.laneCtl.stat l).resetEpoch + 5000 ≤ s.now) then
      let s := s.failRejoin l Loss.resyncFailed
      { s with laneCtl := { s.laneCtl with retesting := if test then none else s.laneCtl.retesting }
               mode := { s.mode with test := s.mode.test && !test } }
    else s)

/-- LANE_LINK_FAILURE (01 R21, 15 R378). -/
def execLaneLinkFailure (s : State) : Host.Outcome State Fault Refusal :=
  let stop := fun (x : Lane) => if x.run = .copy then { x with run := LaneRun.joinWait } else x
  .next (if s.laneCtl.linkFail then s
  else
    let s := { s with laneCtl := { s.laneCtl with linkFail := true } }.setLaneEvent 0x800
    if s.anyLane then { s with laneA := stop s.laneA, laneB := stop s.laneB } else s)

/-- LANE_LINK_RETURN: a lane that waits at JOIN_WAIT may join; one whose copy had not finished takes it up again. -/
def execLaneLinkReturn (s : State) : Host.Outcome State Fault Refusal :=
  .next (if !s.laneCtl.linkFail then s
  else
    let s := { s with laneCtl := { s.laneCtl with linkFail := false } }
    [LaneId.A, .B].foldl (fun (s : State) l =>
      if (s.lane l).run = .joinWait && !(s.lane l).ready then
        let s := s.onStat l fun x => { x with resetEpoch := s.now }
        if (s.laneCtl.stat l).resyncPct = 100 then s else s.onLane l fun x => { x with run := .copy }
      else s) s)

/-! ## The Ringmaster (01 R19, 15 R386) -/

/-- LOCKSTEP_DISAGREE: the Safety Net, and a firmware restart. -/
def execLockstepDisagree (s : State) : Host.Outcome State Fault Refusal := .next (s.enterNet 4 false)

/-- RM_WATCHDOG_EXPIRY: likewise. -/
def execRmWatchdogExpiry (s : State) : Host.Outcome State Fault Refusal := .next (s.enterNet 5 false)

/-! ## LANE_STATUS (15 R388) -/

/-- A lane's part of the record. -/
def State.lanePart (s : State) (l : LaneId) : List Byte :=
  let x := s.lane l
  let t := s.laneCtl.stat l
  let age := match t.ackEpoch with
    | some e => (s.now - e) / 36000000
    | none => 0xFFFFFFFF
  le8 x.spares ++ le8 (min 255 x.fenced.length) ++ le8 (min 255 (t.losses.filter fun e => decide (s.now < e + ticksPerDay)).length) ++
    le8 t.lastLoss ++ le8 t.resyncPct ++ le8 (packFlags [t.selfCheckFail, s.laneCtl.hold l, t.authExercised]) ++ zeros 2 ++
    le32 t.silentTicks ++ le32 t.disagreements ++ le32 age

/-- The lane status record (Table 15.9) of an epoch. -/
def State.laneRecord (s : State) (epoch : Option Nat) : List Byte :=
  le16 1 ++ le16 64 ++ leW s.laneStateWord ++ le64 (epochField epoch) ++ le64 (epochField s.laneCtl.switchEpoch) ++
    s.lanePart .A ++ s.lanePart .B

/-- LANE_STATUS (0x0903): the record of the settled epoch; before any, its epoch is all ones. -/
def execLaneStatus (p : Packet) (s : State) : Host.Outcome State Fault Refusal :=
  .next (s.runCmd 0x0903 true p (·.checkBlock 16 [(4, 4)]) noAxis fun _ p s => do
    let addr := u64At p.block 8
    deny [(!addrOk addr 64, .badNone)]
    let rec_ := match s.tick.settled.epoch with
      | some _ => s.tick.settled.view.readBytes 0x158000 64
      | none => s.laneRecord none
    .ok (s.writeTransfer addr rec_, .reply .done))

end Sys2Proof.Machine
end

