-- ==== Sys2Proof/Machine/Recorder.lean ====
section
/-! DEFINITION. The event recorder (19): records as bytes, sequence numbers, the eMMC ring, captures, and the opcodes
EVENT_READ, CAPTURE_REQUEST and CAPTURE_READ. -/

namespace Sys2Proof.Machine

/-- Records the ring holds (R462), and entries of the Ferris Wheel (R473). -/
def ringSize : Nat := 250000000
def ferrisSize : Nat := 960000

/-- The 60 bytes of a record the CRC covers (Table 19.1). -/
def LogRecord.body (r : LogRecord) : List Byte :=
  let e := r.event
  le16 1 ++ le16 64 ++ le8 e.cls ++ le8 e.origin ++ le16 e.ty ++ le64 r.seq ++ le64 e.epoch ++ le64 e.time.toNat ++
    leW e.subject ++ leW e.capture ++ fitBytes 20 (e.data.flatMap leW)

/-- A record of 64 bytes. -/
def LogRecord.bytes (r : LogRecord) : List Byte := r.body ++ leW (crc32c r.body)

/-- The marker returned in place of a torn record at a ring index (R463). -/
def tornMarker (index : Nat) : LogRecord :=
  { seq := 0xFFFFFFFFFFFFFFFF, event := { cls := Cls.notice, origin := 1, ty := 0x0003, subject := w32 index } }

/-! ## Staging and sequence numbers -/

def doEventStage (l : Option LaneId) (e : Event) (s : State) : State :=
  let e := { e with epoch := s.now, time := s.tick.t0Time }
  match l with
  | none => { s with evt := s.evt.stageRm e }
  | some l =>
    if (s.lane l).isRunning then
      s.onLane l fun x => { x with staging := x.staging.stage (match l with | .A => 2 | .B => 3) e }
    else s

/-- EVENT_STAGE: a record enters a running lane's staging queue, or the Ringmaster queue (R466). -/
def execEventStage (l : Option LaneId) (e : Event) (s : State) : Host.Outcome State Fault Refusal := .next (doEventStage l e s)

/-- Inserts a record after every record of no later epoch. -/
def insertByEpoch (e : Event) : List Event → List Event
  | [] => [e]
  | x :: xs => if x.epoch ≤ e.epoch then x :: insertByEpoch e xs else e :: x :: xs

/-- Orders records by epoch, each epoch's in the order given. -/
def sortByEpoch (l : List Event) : List Event := l.foldl (fun acc e => insertByEpoch e acc) []

/-- The newest capture, by identifier. -/
def EvtSt.newestCapture (q : EvtSt) : Option Capture :=
  q.captures.foldl (fun m c => match m with
    | some d => if d.id < c.id then some c else m
    | none => some c) none

/-- The slot a new capture takes: an empty one, or that of the oldest unlocked finished capture (R475). -/
def EvtSt.freeSlot (q : EvtSt) : Option Nat :=
  match (List.range 16).find? (fun n => !(q.captures.any (·.slot = n))) with
  | some n => some n
  | none => (q.captures.foldl (fun (m : Option Capture) c =>
      if c.locked || c.state = .waiting || c.state = .writing then m
      else match m with
        | some d => if c.id < d.id then some c else m
        | none => some c) none).map (·.slot)

/-- Starts a capture around `epoch`; it writes at once where none is writing (R474, R476). -/
def EvtSt.startCapture (q : EvtSt) (epoch : Nat) (seq : Option Nat) (host : Bool) (src : LaneId) : EvtSt :=
  match q.freeSlot with
  | none => q
  | some n =>
    let c : Capture := { slot := n, id := q.nextCapture, host := host, source := src, trigger := epoch, triggerSeq := seq
                         state := if q.captures.any (·.state = .writing) then .waiting else .writing }
    { q with captures := q.captures.filter (·.slot ≠ n) ++ [c], nextCapture := q.nextCapture + 1 }

/-- A PROTECTIVE record's capture field, and the capture it starts (R474). -/
def EvtSt.trigger (q : EvtSt) (e : Event) (seq : Nat) (src : Option LaneId) : EvtSt × U32 :=
  if e.cls ≠ Cls.prot then (q, none32)
  else
    let recent := match q.newestCapture with
      | some c => decide (c.trigger ≤ e.epoch ∧ e.epoch ≤ c.trigger + 10000)
      | none => false
    if recent then (q, w32 ((q.newestCapture).elim 0 (·.id)))
    else match src with
      | none => (q, 0xFFFFFFFD)
      | some l => if 4 ≤ q.unfinished then (q, 0xFFFFFFFE) else (q.startCapture e.epoch (some seq) false l, w32 q.nextCapture)

/-- Gives one record its sequence number; the record after a GAP skips the lost count (R468). -/
def EvtSt.assign (q : EvtSt) (src : Option LaneId) (e : Event) : EvtSt :=
  let (q, cap) := q.trigger e q.nextSeq src
  let lost := if e.ty = 0x0001 then (e.data.headD 0).toNat else 0
  { q with buffer := q.buffer ++ [{ seq := q.nextSeq, event := { e with capture := cap } }], nextSeq := q.nextSeq + 1 + lost }

/-- The lane records to move: of the main lane, from the next index to write, of epochs complete before the present one
(R467, R468). -/
def State.laneRecords (s : State) : List (Nat × Event) :=
  s.main.staging.queue.filter fun r => s.evt.laneIdxNext ≤ r.1 && r.2.epoch < s.now

/-- The move of every record that may move, in the order of R468. -/
def State.assignRecords (s : State) : State :=
  let lane := s.laneRecords
  let next := lane.foldl (fun m r => max m (r.1 + 1)) s.evt.laneIdxNext
  let gaps := (lane.filter (·.2.ty = 0x0001)).foldl (fun n r => n + (r.2.data.headD 0).toNat) 0
  let evts := sortByEpoch (s.evt.rmQueue ++ lane.map (·.2))
  let q := { s.evt with rmQueue := [], laneIdxNext := next, cntLost := satTo 32 (s.evt.cntLost + gaps) }
  let q := evts.foldl (fun q e => q.assign s.mainLane e) q
  { s with evt := q }.onLanes fun x => { x with staging := { x.staging with queue := x.staging.queue.filter fun r => next ≤ r.1 } }

/-- The records stay in their queues while the Ringmaster firmware does not run: in a restart (R469) and until RM_BOOT has ended
(assumption log 29). -/
def doEventSeqAssign (s : State) : State := if s.gen.rmRestart || !s.gen.rmReady then s else s.assignRecords

/-- LOG_RESTART takes the first number after the last one found and carries that one (R470); a life-cycle change alone comes
before it (20 R502). It is a record of the reset, so of epoch 1 (assumption log 29). -/
def State.logRestart (s : State) : State :=
  let last : Option Nat := if s.evt.nextSeq = 0 then none else some (s.evt.nextSeq - 1)
  let e : Event := { cls := Cls.notice, origin := 1, ty := 0x0002, epoch := 1, data := [lo32 (epochField last), hi32 (epochField last)] }
  let first := s.evt.rmQueue.takeWhile (·.ty = 0x0B0A)
  let q := { s.evt with rmQueue := s.evt.rmQueue.drop first.length }
  { s with evt := (first ++ [e]).foldl (fun q e => q.assign none e) q }

/-- EVENT_SEQ_ASSIGN: records move into the write buffer in the order of R468 and take sequence numbers; PROTECTIVE records
take captures (R467, R468, R469, R474). -/
def execEventSeqAssign (s : State) : Host.Outcome State Fault Refusal := .next (doEventSeqAssign s)

def doGap (l : Option LaneId) (s : State) : State :=
  match l with
  | none =>
    if 0 < s.evt.rmLost ∧ s.evt.rmQueue.length < 512 then
      let e := gapEvent 1 s.evt.rmLostOrigin s.evt.rmLost s.evt.rmLostEpoch s.now s.tick.t0Time
      { s with evt := { s.evt with rmQueue := s.evt.rmQueue ++ [e], cntLost := satTo 32 (s.evt.cntLost + s.evt.rmLost), rmLost := 0 } }
    else s
  | some l =>
    let code := match l with | .A => 2 | .B => 3
    let q := (s.lane l).staging
    if 0 < q.lost ∧ q.queue.length < 4096 ∧ (s.lane l).isRunning then
      let e := gapEvent code code q.lost q.lostEpoch s.now s.tick.t0Time
      s.onLane l fun x => { x with staging := { q with queue := q.queue ++ [(q.nextIdx, e)], nextIdx := q.nextIdx + 1, lost := 0 } }
    else s

/-- GAP: room has returned to a source that lost records, and it stages its GAP record (R468). -/
def execGap (l : Option LaneId) (s : State) : Host.Outcome State Fault Refusal := .next (doGap l s)

/-! ## The ring -/

/-- Appends records to the ring; the oldest fall out beyond its size. -/
def EvtSt.writeRing (q : EvtSt) (l : List LogRecord) : EvtSt :=
  let all := q.ring ++ l
  { q with
    ring := all.drop (all.length - ringSize), ringPos := (q.ringPos + l.length) % ringSize
    wrapped := q.wrapped || ringSize < all.length }

def doEventRingWrite (s : State) : State :=
  if s.gen.rmRestart || s.power.failing then s
  else
    let l := s.evt.buffer
    let hit := l.any fun r => s.cfg.irqClass ≤ r.event.cls
    let gap := l.any fun r => r.event.ty = 0x0001
    let s := { s with
      evt := { s.evt.writeRing l with buffer := [] }
      upd := { s.upd with recordWritten := s.upd.recordWritten || !l.isEmpty } }
    s.setEvtEvent (w32 (packFlags [hit, gap]))

/-- EVENT_RING_WRITE: the buffered records reach the ring; suspended during a firmware restart and in a power-fail
(R469, 21 R512). -/
def execEventRingWrite (s : State) : Host.Outcome State Fault Refusal := .next (doEventRingWrite s)

def doEmmcWriteFault (s : State) : State :=
  if s.gen.rmRestart || s.power.failing || s.evt.buffer.isEmpty then s
  else
    let pos := s.evt.ringPos
    { s with evt := s.evt.writeRing [{ seq := 0, event := { cls := 0, ty := 0 }, torn := true }] }.logRm Cls.faultC 0x0007 (w32 pos) [] 1

/-- EMMC_WRITE_FAULT: three retries failed; the ring position is skipped and reads as torn (R469). -/
def execEmmcWriteFault (s : State) : Host.Outcome State Fault Refusal := .next (doEmmcWriteFault s)

/-- Class of a count record: a step abort is a WARNING, the others NOTICE (02 R49). -/
def countClass (i : Nat) : Nat := if i = 4 then Cls.warning else Cls.notice

def doCountRecord (i : Fin 7) (s : State) : State :=
  let n := Tab.get 0 s.evt.countPend i
  let due := match Tab.get none (s.evt.countRecs.map fun e => (e.1, some e.2)) i with
    | some r => r.2 + 1000 ≤ s.now
    | none => true
  if n = 0 || !due then s
  else
    { s with evt := { s.evt with
        countPend := Tab.erase s.evt.countPend i
        countRecs := Tab.insert (Tab.erase s.evt.countRecs i) i (n, s.now) } }.logRm (countClass i) (0x0C01 + i.val) none32 [w32 n]

/-- COUNT_RECORD of a tick event of group 0x0C, in the order of Table 19.3: a counter that has risen writes its increments,
at most once per 1,000 ticks (R471). -/
def execCountRecord (counter : Fin 7) (s : State) : Host.Outcome State Fault Refusal := .next (doCountRecord counter s)

/-! ## Captures -/

def doCaptureWriteStart (s : State) : State :=
  if s.evt.captures.any (·.state = .writing) then s
  else match s.evt.captures.find? (·.state = .waiting) with
    | none => s
    | some c => { s with evt := { s.evt with captures := s.evt.captures.map fun (d : Capture) => if d.id = c.id then { d with state := .writing } else d } }

/-- CAPTURE_WRITE_START: the oldest waiting capture starts when none is writing (R476). -/
def execCaptureWriteStart (s : State) : Host.Outcome State Fault Refusal := .next (doCaptureWriteStart s)

/-- The frames of a capture that a lane's Ferris Wheel holds, by entry (R475). -/
def captureFrames (x : Lane) (first : Int) : Tab Frame :=
  ((x.ferris.map (·.2)).filterMap fun f =>
    let i := (f.epoch : Int) - first
    if 0 ≤ i ∧ i < 40000 then some (i.toNat, f) else none).foldl (fun t e => Tab.insert (Tab.erase t e.1) e.1 e.2) []

def doCaptureDone (s : State) : State :=
  match s.evt.captures.find? (·.state = .writing) with
  | none => s
  | some c =>
    if s.now < c.trigger + 20000 then s
    else
      let content := captureFrames s.main ((c.trigger : Int) - 20000)
      let missing := 40000 - content.length
      let d := { c with
        state := if missing = 0 then .complete else .partial_, missing := missing, frames := 40000, content := content
        source := s.mainLane.getD c.source, doneTime := s.tick.t0Time }
      let s := { s with evt := { s.evt with captures := s.evt.captures.map fun (x : Capture) => if x.id = c.id then d else x } }
      (s.logRm Cls.notice 0x0005 (w32 c.id) [w32 missing] 1).setEvtEvent (if missing = 0 then 0x8 else 0x10)

/-- CAPTURE_DONE: every frame of the capture has been written, from the main lane's Ferris Wheel or as zeros (R475, R476). -/
def execCaptureDone (s : State) : Host.Outcome State Fault Refusal := .next (doCaptureDone s)

/-- A capture directory record (Table 19.4). -/
def Capture.bytes (c : Capture) : List Byte :=
  let st := match c.state with | .waiting => 1 | .writing => 2 | .complete => 3 | .partial_ => 4
  le16 1 ++ le16 64 ++ le32 c.id ++ le8 st ++ le8 (packFlags [c.locked, c.host]) ++ le8 (match c.source with | .A => 2 | .B => 3) ++
    le8 0 ++ le32 c.missing ++ le64 c.trigger ++ le64 (epochField c.triggerSeq) ++ le64 (unsext 64 ((c.trigger : Int) - 20000)) ++
    le32 c.frames ++ zeros 4 ++ le64 c.doneTime.toNat ++ zeros 8

/-- The record of an empty slot. -/
def emptySlot : List Byte := le16 1 ++ le16 64 ++ zeros 60

/-! ## Opcodes -/

/-- Ring entries with their ring index, oldest first. -/
def EvtSt.indexed (q : EvtSt) : List (Nat × LogRecord) :=
  (List.range q.ring.length).map (fun i => (q.ringPos + ringSize - q.ring.length + i) % ringSize) |>.zip q.ring

/-- What EVENT_READ has examined so far: records to return, how many examined, the next seq, torn records found. -/
structure EventScan where
  out : List LogRecord := []
  seen : Nat := 0
  next : Nat
  torn : Nat := 0
deriving DecidableEq, Repr

/-- Examines one ring entry (R477): torn markers, GAP and LOG_RESTART are always returned. -/
def EventScan.look (count minClass : Nat) (x : EventScan) (r : Nat × LogRecord) : EventScan :=
  if count ≤ x.out.length ∨ 65536 ≤ x.seen then x
  else if r.2.torn then { x with out := x.out ++ [tornMarker r.1], seen := x.seen + 1, torn := x.torn + 1 }
  else
    let keep := minClass ≤ r.2.event.cls || r.2.event.ty = 0x0001 || r.2.event.ty = 0x0002
    { x with out := if keep then x.out ++ [r.2] else x.out, seen := x.seen + 1, next := r.2.seq + 1 }

def doEventRead (p : Packet) (dmaOk : Bool) (s : State) : State :=
  s.runCmd 0x0A01 true p (·.checkBlock 24 [(7, 1)]) noAxis fun _ p s => do
    let count := u16At p.block 4
    let minClass := u8At p.block 6
    let fromSeq := u64At p.block 8
    let addr := u64At p.block 16
    deny [(count = 0 || 16384 < count, p.badField 4), (addr % 4 ≠ 0, p.badField 16)]
    let all := s.evt.indexed
    let start := all.dropWhile fun r => r.2.torn || r.2.seq < fromSeq
    let start := if fromSeq ≤ s.evt.oldest then all else start
    let older := decide (fromSeq ≠ 0 ∧ fromSeq < s.evt.oldest)
    let x := start.foldl (EventScan.look count minClass) { next := fromSeq }
    let hdr := le16 1 ++ le16 24 ++ le32 x.out.length ++ le64 x.next ++ le32 (flag older) ++ zeros 4
    if dmaOk then
      let s := s.writeHost addr (hdr ++ x.out.flatMap (·.bytes))
      let s := { s with evt := { s.evt with
        cntTorn := satTo 32 (s.evt.cntTorn + x.torn)
        exported := if s.mode.lifeCycle = .returning ∧ minClass = 0 ∧ (fromSeq ≤ s.evt.exported ∨ fromSeq ≤ s.evt.oldest)
          then max s.evt.exported x.next else s.evt.exported } }
      let s := if x.torn = 0 then s else s.setEvtEvent 0x4
      .ok (s, .reply (.words (w32 x.out.length) (lo32 x.next) (hi32 x.next)))
    else .ok (s.dmaFault p.sq, .reply { status := SC.internal })

/-- EVENT_READ (R477, R463). `dmaOk` is false where the write to host memory fails. -/
def execEventRead (p : Packet) (dmaOk : Bool) (s : State) : Host.Outcome State Fault Refusal := .next (doEventRead p dmaOk s)

def doCaptureRequest (p : Packet) (s : State) : State :=
  s.runCmd 0x0A02 false p (·.checkBlock 16 [(5, 3), (12, 4)])
    (fun _ s => axes [(s.mode.lifeCycle = .returning, .notInMode)]) fun epoch p s =>
      let op := u8At p.block 4
      let id := u32At p.block 8
      let named := s.evt.captures.find? (·.id = id)
      let lock := fun b => { s with evt := { s.evt with captures := s.evt.captures.map fun (c : Capture) => if c.id = id then { c with locked := b } else c } }
      if op = 0 then
        if 4 ≤ s.evt.unfinished then
          let w := (s.evt.captures.find? (·.state = .writing)).elim 1 fun c => c.trigger + 300000 - s.now
          .error (.busy w)
        else
          let id := s.evt.nextCapture
          let s := { s with evt := s.evt.startCapture epoch none true (s.mainLane.getD .A) }
          let s := s.logLanes Cls.info 0x0006 (w32 id) [p.tag] (some (0x10 + p.sq))
          .ok (s, .reply (.words (w32 id) 0 0))
      else if op = 1 then
        if named.isNone || (12 ≤ (s.evt.captures.filter (·.locked)).length && !(named.elim false (·.locked))) then .error (p.badField 8)
        else .ok (lock true, .reply .done)
      else if op = 2 then (if named.isNone then .error (p.badField 8) else .ok (lock false, .reply .done))
      else .error (p.badField 4)

/-- CAPTURE_REQUEST (R478). -/
def execCaptureRequest (p : Packet) (s : State) : Host.Outcome State Fault Refusal := .next (doCaptureRequest p s)

/-- Entries `first` to `first + n - 1` of a capture; a missing frame is zeros (R475). -/
def Capture.entries (c : Capture) (first n : Nat) : List Byte :=
  (List.range n).flatMap fun i =>
    match Tab.get none (c.content.map fun e => (e.1, some e.2)) (first + i) with
    | some f => f.entry
    | none => zeros 0x11000

def doCaptureRead (p : Packet) (s : State) : State :=
  s.runCmd 0x0A03 false p (·.checkBlock 32 [(5, 3), (20, 4)]) noAxis fun _ p s => do
    let op := u8At p.block 4
    let id := u32At p.block 8
    let first := u32At p.block 12
    let count := u32At p.block 16
    let addr := u64At p.block 24
    if op = 0 then
      deny [(!addrOk addr 1024, p.badField 24)]
      let dir := (List.range 16).flatMap fun n => (s.evt.captures.find? (·.slot = n)).elim emptySlot Capture.bytes
      .ok (s.writeTransfer addr dir, .reply .done)
    else if op = 1 then
      match s.evt.captures.find? (·.id = id) with
      | none => .error (p.badField 8)
      | some c =>
        deny [(count = 0 || 1000 < count, p.badField 16), (!addrOk addr (count * 0x11000), p.badField 24),
          (c.state = .waiting || c.state = .writing, .notInMode), (c.frames < first + count, p.badField 12)]
        .ok (s.writeTransfer addr (c.entries first count), .reply .done)
    else .error (p.badField 4)

/-- CAPTURE_READ (R479). -/
def execCaptureRead (p : Packet) (s : State) : Host.Outcome State Fault Refusal := .next (doCaptureRead p s)

end Sys2Proof.Machine
end

