-- ==== Sys2Proof/Machine/Modes.lean ====
section
/-! DEFINITION. Modes and start-up (16): MODE_REQUEST and its pass, the host axis and its watchdog (17 R426, R427), entry into
PREDICTIVE, and the end of RM_BOOT. -/

namespace Sys2Proof.Machine

/-! ## MODE_REQUEST (16 R399-R401) -/

def authorityOf : Nat → Authority
  | 0 => .manual
  | 1 => .inner
  | _ => .predictive

def rackStateOf : Nat → RackState
  | 0 => .run
  | 1 => .service
  | 2 => .isolated
  | _ => .commission

/-- SC_NOT_IN_MODE naming the first refusing rack, or 0xFF for the authority axis (16 R400). -/
def notInModeAt (who : Nat) : Reply := { status := SC.notInMode, r0 := w32 who }

/-- A leak channel of the rack is wet or broken; BREAK, WET_BREAK and FAULT count as broken (10 R268, 13 R329). -/
def State.leakHolds (s : State) (k : Nat) : Bool :=
  (List.range 64).any fun n => (s.cfg.topo.rack k).leakMask.getLsbD n && ((s.leakDyn n).wet || (s.leakDyn n).broken || (s.leakDyn n).fault) && (s.leakRec n).ty ≠ 0

/-- A leak channel of the rack is declared wet. -/
def State.leakWetIn (s : State) (k : Nat) : Bool :=
  (List.range 64).any fun n => (s.cfg.topo.rack k).leakMask.getLsbD n && (s.leakDyn n).wet && (s.leakRec n).ty ≠ 0

/-- The transition is forbidden (Table 10.6, R268): COMMISSION is not entered by request. -/
def State.rackForbidden (s : State) (k : Nat) (st : RackState) : Bool :=
  let was := s.rackState k
  was ≠ st && (st = .commission || (was = .isolated && s.leakHolds k) || (was = .commission && st ≠ .isolated && s.harnessBad k))

/-- The refusals of Table 16.3. -/
def modeAxes (p : Packet) (s : State) : List (Bool × Reply) :=
  let value := u8At p.block 5
  let racks := u16At p.block 8
  let low := ((List.range 16).find? fun k => bit racks k).getD 0
  let bare := s.mode.lifeCycle = .blank || s.mode.lifeCycle = .returning
  if u8At p.block 4 = 0 then
    [(s.inNet || bare && value ≠ 0 && value < 3, notInModeAt 0xFF), (s.mode.update = .handover, .busy s.handoverLeft)]
  else
    [(s.inNet && value ≠ 2 || s.mode.lifeCycle = .returning, notInModeAt low), (s.mode.update = .handover && value ≠ 2, .busy s.handoverLeft)]

def modeRequestBody (p : Packet) (s : State) : Except Reply (State × CmdEnd) := do
  let b := p.block
  let axis := u8At b 4
  let value := u8At b 5
  let racks := u16At b 8
  let named := (List.range 16).filter fun k => bit racks k
  deny [(1 < axis, p.badField 4), ((axis = 0 && 2 < value) || 3 < value, p.badField 5), (u16At b 6 / 2 ≠ 0, p.badField 6),
    (axis = 0 && racks ≠ 0 || axis = 1 && racks = 0, p.badField 8), (axis = 1 && named.any (fun k => !s.rackOn k), p.badField 8)]
  let only := bit (u16At b 6) 0
  if axis = 0 then
    let a := authorityOf value
    deny [(a = .predictive && s.activating, .busy s.activationLeft), (a = .predictive && !s.predAvailable, notInModeAt 0xFF)]
    if only || s.mode.authority = a then
      .ok (if only then s else { s with mode := { s.mode with authSetByHost := true } }, .reply .done)
    else .ok ({ s with mode := { s.mode with pendingModes := s.mode.pendingModes ++ [.authority a p.id] } }, .later [])
  else
    let st := rackStateOf value
    match named.find? fun k => s.rackForbidden k st with
    | some k => .error (notInModeAt k)
    | none =>
      if only || named.all (fun k => s.rackState k = st) then .ok (s, .reply .done)
      else if s.inNet then .ok (named.foldl (fun (s : State) k => s.moveRack k st) s, .reply .done)
      else .ok ({ s with mode := { s.mode with pendingModes := s.mode.pendingModes ++ [.rack racks value p.id] } }, .later [])

/-- MODE_REQUEST (0x0901); with no lane RUNNING the Ringmaster executes one to ISOLATED (16 R408). -/
def execModeRequest (p : Packet) (s : State) : Host.Outcome State Fault Refusal :=
  let free := u8At p.block 4 = 1 && u8At p.block 5 = 2 && !s.anyLane
  .next (s.runCmd 0x0901 free p (·.checkBlock 12 [(10, 2)]) (fun p s => axes (modeAxes p s)) fun _ => modeRequestBody)

/-- One accepted request at the start of a pass; a forced change that meets it governs (16 R392, R401). -/
def State.applyMode (s : State) : ModeChange → State
  | .authority a cmd =>
    if a = .predictive && !s.predAvailable then s.finish cmd (notInModeAt 0xFF)
    else
      let s := s.moveAuthority a s.now
      { s with mode := { s.mode with authSetByHost := true } }.finish cmd .done
  | .rack racks value cmd =>
    let st := rackStateOf value
    let named := (List.range 16).filter fun k => bit racks k
    match named.find? fun k => st ≠ .isolated && s.leakWetIn k with
    | some k => s.finish cmd (notInModeAt k)
    | none => (named.foldl (fun (s : State) k => s.moveRack k st) s).finish cmd .done
  | .autoPredictive =>
    if s.predAvailable && s.mode.authority ≠ .predictive then ((s.moveAuthority .predictive s.now).setModeEvent 0x40).startOver
    else s.startOver

/-- The requests that wait, at the start of a pass. -/
def State.passModes (s : State) : State :=
  s.mode.pendingModes.foldl State.applyMode { s with mode := { s.mode with pendingModes := [] } }

/-- AUTO_PREDICTIVE_ENTRY (16 R406): from the next pass on. -/
def execAutoPredictiveEntry (s : State) : Host.Outcome State Fault Refusal :=
  let m := s.mode
  let due := bit m.modeCfgActive 1 && !m.authSetByHost && decide (s.cfg.predSettle ≤ m.predAvailTicks) && s.predAvailable
  .next (if due && m.authority ≠ .predictive && !(m.pendingModes.contains .autoPredictive) then
      { s with mode := { m with pendingModes := m.pendingModes ++ [.autoPredictive] } }
    else s)

/-! ## The host watchdog (17 R426, R427) -/

/-- The watchdog expires: SILENT, WDOG_EXPIRED and the event; its action follows from the axis. -/
def State.expireWatchdog (s : State) : State :=
  let s := { s with hif := { s.hif with wdogTicks := 0, wdogExpired := true, wdogDeferred := false } }
  ((s.setHostAxis false).setHifErr 0x1).logRm Cls.alarm 0x0101 none32 [] 1

/-- A firmware restart, or the millisecond after it. -/
def State.wdogWaits (s : State) : Bool :=
  s.gen.rmRestart || match s.gen.restartEnd with
    | some e => decide (s.now < e + 10)
    | none => false

/-- HOST_WATCHDOG_EXPIRY: the counter reaches 0; one that falls due in a firmware restart, or 1 ms after it, waits. -/
def execHostWatchdogExpiry (s : State) : Host.Outcome State Fault Refusal :=
  .next (if s.hif.wdogTicks ≠ 0 ∨ s.hif.wdogExpired then s
  else if s.wdogWaits then { s with hif := { s.hif with wdogDeferred := true } }
  else s.expireWatchdog)

/-- DEFERRED_WATCHDOG_EXPIRY: 1 ms after the restart. -/
def execDeferredWatchdogExpiry (s : State) : Host.Outcome State Fault Refusal :=
  .next (if s.hif.wdogDeferred && !s.wdogWaits then s.expireWatchdog else s)

/-! ## The end of RM_BOOT (16 R403; 21 R514; 19 R470) -/

/-- The authority a module reset leaves (Table 16.1). -/
def ModeSt.startAuthority (m : ModeSt) (c : Cfg) : Authority :=
  if m.lifeCycle = .blank ∨ m.lifeCycle = .returning ∨ bit c.modeCfg 0 then .manual else .inner

/-- The engines take their records: groups, trays not yet heard, bus channels. -/
def State.loadEngines (s : State) (c : Cfg) : State :=
  let s := { s with cfg := { c with topo := s.cfg.topo, can := s.cfg.can } }
  let s := (s.apply [.topology c.topo]).freshGroups {}
  let s := s.traysOn.foldl (fun (s : State) t => s.onTray t fun x => { x with state := .resync }) s
  c.can.foldl (fun (s : State) e => s.putCan e.1 e.2) s

/-- The permits of R403: the lead pump of every enabled group, and every enabled fan. -/
def State.bootPermits (s : State) : State :=
  let s := ((List.range 4).filter s.groupOn).foldl (fun (s : State) g => s.setPermit (s.cfg.topo.group g).lead true) s
  ((List.range 48).filter fun f => (s.motorRec (f + 8)).on).foldl (fun (s : State) f => s.setPermit (f + 8) true) s

/-- RM_BOOT_COMPLETE: the configuration store is read, engines are loaded, valves take their rack positions, permits are granted, the
unpowered cause of COOL_FAULT_N ends, and both lanes are released. -/
def execRmBootComplete (s : State) : Host.Outcome State Fault Refusal :=
  .next (if s.mode.startPhase ≠ .rmBoot then s
  else
    let c := s.nor.running
    let s := s.loadEngines c
    let s := { s with
      gen := { s.gen with rmReady := true, fwVersion := s.upd.runningSet.version }
      hif := { s.hif with wdogTicks := if s.hif.wdogExpired then 0 else 10 * c.wdogPeriod }
      tick := { s.tick with staleLimit := c.staleLimit }
      mode := { s.mode with
        authority := s.mode.startAuthority c, modeCfgActive := c.modeCfg, startPhase := .laneStart, laneStartEpoch := s.now } }
    let s := (List.range 16).foldl (fun (s : State) k => s.setCause k Cause.start false) s
    let racks := (List.range 16).filter s.rackOn
    let s := racks.foldl (fun (s : State) k => s.setCause k Cause.isolated (s.rackState k = .isolated)) s
    let s := s.driveRacks.bootPermits
    let s := racks.foldl (fun (s : State) k => if (s.harness k).present then s else s.harnessAlarm k) s
    let s := s.logRestart
    s.releaseLanes)

end Sys2Proof.Machine
end

