-- ==== Sys2Proof/Machine/Resets.lean ====
section
/-! DEFINITION. Module resets (17 R418, R419; 21 R512-R514; 20 R483, R502): power-on, power-fail, GEN_RESET and the reset of a
life-cycle change. What survives is what lies in NOR flash, in the eMMC, in fuses, in the field and in host memory. -/

namespace Sys2Proof.Machine

/-- The phase an update is abandoned in (16 R411). -/
def State.updating (s : State) : Bool := s.mode.update ≠ .idle

/-- The configuration store after the reset: state records of an abandoned update are carried over (20 R497). -/
def State.norAfter (s : State) : NorSt := if s.updating then s.nor.carryState else s.nor

/-- Banks and fuses after the reset: the running bank is booted, and a pending rollback writes its bank record (20 R483, R496). -/
def State.updAfter (s : State) : UpdSt :=
  let u := s.upd
  let trial := s.mode.update = .handover || s.mode.update = .trial
  { runningBank := u.runningBank, generation := if u.rollbackAtReset then u.generation + 1 else u.generation
    runningSet := u.runningSet, altSet := u.altSet, altValid := u.altValid, key0Revoked := u.key0Revoked, secFloor := u.secFloor
    lastReason := if u.rollbackAtReset then u.lastReason else if trial then 7 else 0 }

/-- A capture whose frames are gone with the lanes ends PARTIAL (19 R475; assumption log 29). -/
def Capture.cutShort (c : Capture) : Capture :=
  if c.state = .waiting || c.state = .writing then { c with state := .partial_, missing := 40000, frames := 40000 } else c

/-- The recorder after the reset: the ring and the capture area stay, numbering continues from what they hold (19 R470, R474). -/
def EvtSt.afterReset (q : EvtSt) : EvtSt :=
  let valid := (q.ring.filter (!·.torn)).getLast?
  { ring := q.ring, ringPos := q.ringPos, wrapped := q.wrapped, exported := q.exported
    nextSeq := match valid with | some r => r.seq + 1 | none => 0
    captures := q.captures.map Capture.cutShort, nextCapture := q.captures.foldl (fun m c => max m (c.id + 1)) 1 }

/-- A rack harness after the reset: its presence, and its identity still to be read (13 R334). -/
def harnessAfter (t : Tab Harness) : Tab Harness :=
  (t.filter (·.2.present)).map fun e => (e.1, { present := true, state := .reading })

/-- A Strongman supply over a reset of the logic: its state, its counters cleared (21 R511). -/
def supplyAfter (t : Tab Supply) : Tab Supply :=
  t.foldl (fun (r : Tab Supply) e => Tab.set {} r e.1 { state := e.2.state, vOut := e.2.vOut }) []

/-- The module after a reset in which the straps read so. -/
def State.moduleReset (s : State) (tcrit netSpd : Nat) : State :=
  let r : State := {
    pending := s.pending, fresh := s.fresh, hostMem := s.hostMem
    gen := { serial := s.gen.serial, fwVersion := s.upd.runningSet.version }
    hif := { irqs := s.hif.irqs, rdata := s.hif.rdata }
    mode := { lifeCycle := s.mode.lifeCycle }
    laneA := { fused := s.laneA.fused }, laneB := { fused := s.laneB.fused }
    nor := s.norAfter, evt := s.evt.afterReset, upd := s.updAfter
    valve := { v24 := s.valve.v24, supplies := supplyAfter s.valve.supplies }
    sense := { harness := harnessAfter s.sense.harness, tcrit := tcrit, netSpd := netSpd, tcritLogged := tcrit, netSpdLogged := netSpd } }
  if s.updating then r.logRm Cls.warning 0x090A none32 [w32 s.mode.update.code] 1 else r

/-- The records made so far reach the ring before a reset the firmware makes (17 R419, 20 R502). -/
def State.flushLog (s : State) : State := doEventRingWrite (doEventSeqAssign s)

/-- The key of GEN_RESET. -/
def resetKey : U32 := 0xA5C30001

/-- GEN_RESET: the key resets the module, its write logged first; any other value is ignored and logged (17 Table 17.3). -/
def execGenReset (value : U32) (s : State) : Host.Outcome State Fault Refusal :=
  .next (if value = resetKey then
      let s := (s.logRegWrite 0x020 value 0 false).flushLog
      s.moduleReset s.sense.tcritLogged s.sense.netSpdLogged
    else s.logRegWrite 0x020 value 0 true)

/-- POWER_ON_RESET: +48 V has risen; the straps are read (21 R512, R517). -/
def execPowerOnReset (tcritSel : Fin 8) (netSpd : Fin 4) (s : State) : Host.Outcome State Fault Refusal :=
  .next (s.moduleReset tcritSel.val netSpd.val)

/-- POWER_FAIL: motor gates off, every COOL_FAULT_N asserted, valve stages off, eMMC writing stopped; it ends in a power-on reset (21 R512-R514). -/
def execPowerFail (s : State) : Host.Outcome State Fault Refusal :=
  let off := fun (e : Nat × Motor) => (e.1, if e.2.state.driven then e.2.toCoast .none else e.2)
  let s := (List.range 16).foldl (fun (s : State) k => s.setCause k Cause.powerFail true) s
  .next ({ s with power := { failing := true }, motors := s.motors.map off }.stagesOff)

/-- LIFECYCLE_RESET: both copies of the store are wiped and the module starts in the new state; the change is the first record after
the reset (20 R502, 01 R34). -/
def execLifecycleReset (s : State) : Host.Outcome State Fault Refusal :=
  .next (match s.upd.lifeTarget with
    | none => s
    | some t =>
      let s := s.flushLog
      let s := { s with nor := {}, mode := { s.mode with lifeCycle := t } }
      let s := if t = .returning then { s with evt := { s.evt with exported := 0 } } else s
      let s := s.moduleReset s.sense.tcritLogged s.sense.netSpdLogged
      s.logRm Cls.notice 0x0B0A s.upd.runningSet.version [w32 t.code] 1)

end Sys2Proof.Machine
end

