-- ==== Sys2Proof/Machine/Update.lean ====
section
/-! DEFINITION. Update, identity and life cycle (20): staging, handover, trial, confirmation, rollback, status, attestation and
LIFECYCLE_SET. -/

namespace Sys2Proof.Machine

/-! ## The Thedja manifest (20 R484-R487) -/

/-- A part entry (Table 20.2). -/
structure FwPart where
  ty : Nat
  off : Nat
  len : Nat
  digest : List Byte
deriving DecidableEq, Repr

def partAt (b : List Byte) (i : Nat) : FwPart :=
  let o := 0x40 + 80 * i
  { ty := u8At b o, off := u32At b (o + 8), len := u32At b (o + 12), digest := bytesAt b (o + 16) 64 }

/-- The part entries, and where the signature block begins (R484). -/
def fwParts (b : List Byte) : List FwPart := (List.range (u8At b 0x17)).map (partAt b)
def sigStart (b : List Byte) : Nat := 0x40 + 80 * u8At b 0x17

/-- Bytes of the signature block (R485). -/
def sigSize : Nat := 3376

/-- The size of a bank's firmware area (R484). -/
def maxPackage : Nat := 0x07000000

/-- The refusal of a manifest header: reason 2 (Table 20.3). -/
def headerBad (status : Nat) : Reply := { status := status, r0 := none32, r1 := 2 }

/-- Check 4: the header under 00 R6 and R7, and its fields in their ranges. -/
def checkManifest (b : List Byte) : Except Reply Unit :=
  let trial := u16At b 0x1C
  let flags := u16At b 0x14
  deny [(u16At b 0 ≠ 1, headerBad SC.badVersion), (u16At b 2 % 4 ≠ 0 || u16At b 2 < 64, headerBad SC.badParam),
    (!zeroRange b 0x1E 34 || 8 ≤ flags || u32At b 4 ≠ 0x4A444854 || 1 < u8At b 0x16, headerBad SC.badParam),
    (127 < u32At b 0x0C || trial ≠ 0 && (trial < 60 || 3600 < trial) || bit flags 2 && u8At b 0x16 = 0, headerBad SC.badParam)]

/-- A part that lies where R484 wants it. -/
def FwPart.placed (x : FwPart) (sigEnd size : Nat) : Bool := x.off % 64 = 0 && sigEnd ≤ x.off && 0 < x.len && x.off + x.len ≤ size

/-- Check 6: bit t for each type missing, duplicated or out of place; bit 0 for an unknown type. -/
def badParts (b : List Byte) (size : Nat) : Nat :=
  let ps := fwParts b
  let bad := [1, 2, 3, 4, 5].filter fun t =>
    (ps.filter (·.ty = t)).length ≠ 1 || ps.any fun x => x.ty = t && !x.placed (sigStart b + sigSize) size
  maskOf bad + flag (ps.any fun x => x.ty = 0 || 5 < x.ty)

/-- Check 7: bit 0 Ed25519, bit 1 ML-DSA-65, bit 2 the key set is revoked (R485, R486). -/
def badSignature (b : List Byte) (revoked0 : Bool) : Nat :=
  let o := sigStart b
  let key := u8At b 0x16
  let msg := sha512 (b.take o)
  packFlags [!Config.ed25519Verify key msg (bytesAt b o 64), !Config.mlDsaVerify key msg (bytesAt b (o + 64) 3309), key = 0 && revoked0]

/-- Checks 6 to 9 of Table 20.3. -/
def checkPackage (b : List Byte) (u : UpdSt) : Except Reply FwSet := do
  let bad := badParts b b.length
  refuseIf (bad ≠ 0) { status := SC.manifestIncomplete, r0 := w32 bad }
  let sig := badSignature b u.key0Revoked
  refuseIf (sig ≠ 0) { status := SC.signatureFail, r0 := w32 sig }
  refuseFirst (fwParts b) (fun x => sha512 (bytesAt b x.off x.len) ≠ x.digest) fun x => { status := SC.signatureFail, r0 := w32 (256 * x.ty) }
  refuseIf (u32At b 0x0C < u.secFloor) { status := SC.badParam, r0 := none32, r1 := 1, r2 := w32 u.secFloor }
  .ok {
    version := w32 (u32At b 8), security := u32At b 0x0C, stateFrom := w32 (u32At b 0x10), flags := u16At b 0x14, keyIndex := u8At b 0x16
    trialS := u16At b 0x1C, parts := (fwParts b).map fun x => (x.ty, x.digest), manifest := b.take (sigStart b + sigSize) }

/-! ## UPDATE_STAGE (20 R488) -/

/-- A refusal at checks 6 to 10: STAGE_FAILED and its event; the reason has a number for check 9 only, otherwise a free value. -/
def State.stageFailed (s : State) (version : Nat) (r : Reply) : State :=
  let why := if r.status = SC.badParam then r.r1 else Config.freeWord s.fresh
  ({ s with fresh := s.fresh + 1 }.setUpdEvent 0x2).logRm Cls.warning 0x0B02 (w32 version) [why] 1

/-- The staged package goes: phase IDLE, and what was accepted meanwhile goes into the running copy (R488, R497). -/
def State.unstage (s : State) : State :=
  if s.mode.update = .staged then { s with nor := { s.nor with running := s.nor.alternate } }.putUpdate .idle else s

/-- STAGE on a package in the transfer area. -/
def State.stagePackage (s : State) (p : Packet) (norOk : Bool) : Except Reply (State × CmdEnd) := do
  let addr := u64At p.block 8
  let len := u32At p.block 0x10
  deny [(addr % 64 ≠ 0 || addr < transferBase || transferEnd < addr + len, p.badField 8),
    (len = 0xFFFFFFFF, { status := SC.badLength, r0 := w32 len, r1 := w32 p.block.length }),
    (maxPackage < len, { status := SC.lengthExceedsBuffer, r0 := w32 len, r1 := w32 maxPackage })]
  let b := s.main.dram.readBytes addr len
  let version := u32At b 8
  checkManifest b
  refuseIf (u32At b 0x18 ≠ len) { status := SC.badLength, r0 := w32 (u32At b 0x18) }
  match checkPackage b s.upd with
  | .error r => .ok (s.stageFailed version r, .reply r)
  | .ok set =>
    if norOk then
      let s := { s with upd := { s.upd with altSet := set, altValid := true } }.putUpdate .staged
      .ok ((s.setUpdEvent 0x1).logRm Cls.notice 0x0B01 set.version [] 1, .reply .done)
    else
      let r : Reply := { status := SC.internal }
      let s := { s with upd := { s.upd with altValid := false } }.unstage
      .ok ((s.stageFailed version r).logRm Cls.faultC 0x0B02 (w32 version) [] 1, .reply r)

def updateStageBody (norOk : Bool) (p : Packet) (s : State) : Except Reply (State × CmdEnd) := do
  let op := u8At p.block 4
  deny [(1 < op, p.badField 4)]
  if op = 1 then .ok (s.unstage, .reply .done) else s.stagePackage p norOk

/-- UPDATE_STAGE (0x0B01). `norOk` is false where NOR erase, write or readback fails. -/
def execUpdateStage (p : Packet) (norOk : Bool) (s : State) : Host.Outcome State Fault Refusal :=
  let axis := fun (_ : Packet) (s : State) => axes [(s.mode.lifeCycle = .returning || s.inNet || s.mode.update = .trial, .notInMode),
    (s.mode.update = .handover, .busy s.handoverLeft)]
  .next (s.runCmd 0x0B01 false p (·.checkBlock 24 [(5, 3), (0x14, 4)]) axis fun _ => updateStageBody norOk)

/-! ## The handover (20 R489, R490, R498) -/

/-- A step of Table 20.4 begins: STEP, its event and its record. -/
def State.setStep (s : State) (n : Nat) : State :=
  ({ s with upd := { s.upd with step := n, stepEpoch := s.now } }.setUpdEvent 0x4).logRm Cls.notice 0x0B03 s.upd.altSet.version [w32 n] 1

/-- A lane that is not the active one goes into reset for a reload; the other runs alone. -/
def State.takeDown (s : State) (l : LaneId) : State :=
  let s := if (s.lane l).run = .reset then s else s.resetLane l
  { s with
    tick := { s.tick with held := dropCopies l s.tick.held }
    laneCtl := { s.laneCtl with redundancy := .simplexOn l.other, counts := [], merge := false, mergeRun := 0 } }.refitK

/-- UPDATE_ACTIVATE (0x0B02): step 1 begins; the rainflow counts are checkpointed (04 R111). -/
def updateActivateBody (p : Packet) (s : State) : Except Reply (State × CmdEnd) := do
  deny [(s.upd.runningSet.version.toNat < s.upd.altSet.stateFrom.toNat, { status := SC.badParam, r0 := none32, r1 := 3 })]
  let l := s.laneCtl.active.other
  let s := s.checkpointRain.putUpdate .handover
  let s := { s with upd := { s.upd with
    cmd := some p.id, partsConfirmed := [], hostConfirmed := false, swapped := false, failed := none, rollingBack := false, onNew := [l] } }
  .ok ((s.takeDown l).setStep 1, .later [])

def execUpdateActivate (p : Packet) (s : State) : Host.Outcome State Fault Refusal :=
  let bad := fun (s : State) => s.mode.update ≠ .staged || s.laneCtl.redundancy ≠ .duplex || s.laneCtl.holdA || s.laneCtl.holdB
  let axis := fun (_ : Packet) (s : State) =>
    axes [(s.mode.update = .handover, .busy s.handoverLeft), (s.mode.update ≠ .handover && bad s, .notInMode)]
  .next (s.runCmd 0x0B02 false p (·.checkBlock 4 []) axis fun _ => updateActivateBody)

/-- SHADOW lasts 10,000 ticks (Table 20.4). -/
def shadowTicks : Nat := 10000

def State.shadowOver (s : State) : Bool := s.laneCtl.redundancy = .duplex && decide (s.upd.stepEpoch + shadowTicks ≤ s.now)

/-- HANDOVER_STEP: the present step has ended and the next begins (Table 20.4). Every record migrates unchanged (assumption log 29). -/
def execHandoverStep (s : State) : Host.Outcome State Fault Refusal :=
  let u := s.upd
  let n := u.onNew.headD s.laneCtl.active.other
  let duplex := s.laneCtl.redundancy = .duplex
  .next (if s.mode.update ≠ .handover || u.rollingBack || u.failed.isSome then s
  else match u.step with
    | 1 => if (s.lane n).run = .copy then s.setStep 2 else s
    | 2 => if (s.lane n).run = .copy then (s.onStat n fun x => { x with resetEpoch := s.now }).setStep 3 else s
    | 3 => if duplex then s.setStep 4 else s
    | 4 => if s.shadowOver then s.setStep 5 else s
    | 5 =>
      if s.laneCtl.active = n && duplex then
        ({ s with upd := { u with onNew := [n, n.other] } }.takeDown n.other).setStep 6
      else s
    | 6 => if duplex then s.setStep 7 else s
    | _ => s)

/-- Motor channels in a state. -/
def State.motorsIn (s : State) (f : MotorState → Bool) : List Nat := (s.motors.filter fun e => f e.2.state).map Prod.fst

/-- RM_SWAP: at T0 of step 7, forward or back, the Ringmaster firmware restarts from the other bank (20 R490). -/
def execRmSwap (s : State) : Host.Outcome State Fault Refusal :=
  .next (if s.mode.update = .handover && s.upd.step = 7 && !s.gen.rmRestart && s.laneCtl.redundancy = .duplex && s.upd.swapped = s.upd.rollingBack
      && s.upd.failed.isNone then
      { s with
        gen := { s.gen with rmRestart := true, rmRestartSwap := true }
        proto := s.proto.delayReady
        upd := { s.upd with
          swapped := !s.upd.rollingBack, runAtSwap := s.motorsIn (· = .run), badAtSwap := s.motorsIn fun st => st = .failed || st = .locked
          recordWritten := false, completionWritten := false } }
    else s)

/-! ## Rollback (20 R495-R497) -/

/-- Keys at which two tables differ. -/
def tabDiff {α : Type} [DecidableEq α] (d : α) (a b : Tab α) : List Nat :=
  let ks := Tab.keys a ++ (Tab.keys b).filter fun k => !(Tab.keys a).contains k
  ks.filter fun k => decide (Tab.get d a k ≠ Tab.get d b k)

/-- The configuration records in which two copies differ: opcode group or register block, and place in it. -/
def Cfg.diff (a b : Cfg) : List (Nat × Nat) :=
  let at_ := fun (g : Nat) (base : Nat) (l : List Nat) => l.map fun k => (g, base + k)
  let one := fun (g : Nat) (i : Nat) (c : Bool) => if c then [(g, i)] else []
  let harness := fun (t : Tab RackKept) => (List.range 16).map fun k => (Tab.get {} t k).harness
  at_ 2 0 (tabDiff {} a.loops b.loops) ++ at_ 2 256 (tabDiff {} a.loopKept b.loopKept) ++ one 5 1024 (a.topo ≠ b.topo) ++
    one 4 0 (a.envelope ≠ b.envelope) ++ at_ 4 1 (tabDiff none a.jobs b.jobs) ++ at_ 4 256 (tabDiff none a.pace b.pace) ++
    one 4 1024 (a.paceDefault ≠ b.paceDefault) ++ at_ 4 512 (tabDiff none a.swing b.swing) ++ one 4 1025 (a.swingDefault ≠ b.swingDefault) ++
    at_ 4 4096 (tabDiff none a.hostCaps b.hostCaps) ++ at_ 5 0 (tabDiff {} a.motors b.motors) ++ at_ 5 256 (tabDiff [] a.skipBands b.skipBands) ++
    at_ 6 0 (tabDiff {} a.valves b.valves) ++ at_ 7 0 (tabDiff none a.analog b.analog) ++ at_ 7 256 (tabDiff {} a.pulse b.pulse) ++
    at_ 7 512 (tabDiff {} a.leak b.leak) ++
    at_ 7 1024 ((List.range 16).filter fun k => (harness a.racks)[k]? ≠ (harness b.racks)[k]?) ++
    at_ 8 0 (tabDiff {} a.can b.can) ++ at_ 8 256 (tabDiff {} a.entries b.entries) ++ one 3 0 (a.thermal ≠ b.thermal) ++
    one 2 0x10000 (a.staleLimit ≠ b.staleLimit) ++
    one 3 0x10000 (decide ([a.k, a.mergeLimit, a.refTicks, a.refMargin, a.netCap] ≠
      [b.k, b.mergeLimit, b.refTicks, b.refMargin, b.netCap]) || decide (a.coolSense ≠ b.coolSense)) ++
    one 4 0x10000 (decide ((a.modeCfg, a.predSettle, a.startWait) ≠ (b.modeCfg, b.predSettle, b.startWait))) ++
    one 1 0x10000 (decide ((a.wdogAction, a.wdogPeriod) ≠ (b.wdogAction, b.wdogPeriod))) ++ one 5 0x10000 (a.irqClass ≠ b.irqClass) ++
    one 6 0x10000 (a.trialWindow ≠ b.trialWindow)

/-- Each configuration change that a rollback discards is a CONFIG_CHANGE of origin 0x30 with the record's key (R495, 19 R472). -/
def State.logDiscarded (s : State) : State :=
  (s.nor.alternate.diff s.nor.running).foldl (fun (s : State) k =>
    s.logRm Cls.info 0x0004 ((BitVec.ofNat 16 k.1 : BitVec 16) ++ Config.storeInstance k.1 k.2) [] 0x30) s

/-- A rollback can be hitless (R496). -/
def State.hitless (s : State) : Bool := !s.laneCtl.linkFail && !s.laneCtl.holdA && !s.laneCtl.holdB

/-- Ends UPDATE_ACTIVATE where it is still running: the update has failed (assumption log 29). -/
def State.failActivate (s : State) : State :=
  match s.upd.cmd with
  | some id => { s with upd := { s.upd with cmd := none } }.finish id { status := SC.internal }
  | none => s

/-- The rollback waits for the next module reset (R496). -/
def State.deferRollback (s : State) (reason : Nat) : State :=
  let s := s.failActivate.putUpdate .trial
  let s := { s with
    upd := { s.upd with rollbackAtReset := true, rollingBack := false, trialStopped := true, lastReason := reason, failed := none, step := 0 }
    laneCtl := { s.laneCtl with drillGranted := false, granting := if s.laneCtl.drillGranted then none else s.laneCtl.granting } }
  (s.setUpdEvent 0x40).logRm Cls.alarm 0x0B09 s.upd.altSet.version [w32 reason] 1

/-- The rollback is over: IDLE with the confirmed set, and the confirmed records in force at the next T0 (R495, 16 R396). -/
def State.endRollback (s : State) : State :=
  let s := s.logDiscarded
  let s := { s with nor := s.nor.carryState }
  let s := { s with
    due := s.due ++ [CfgItem.restore s.nor.running]
    upd := { s.upd with
      rollingBack := false, step := 0, partsConfirmed := [], hostConfirmed := false, trialStopped := false, swapped := false, onNew := [], failed := none } }
  ((s.putUpdate .idle).setUpdEvent 0x20).logRm Cls.notice 0x0B08 s.upd.altSet.version [w32 s.upd.lastReason] 1

/-- The next reverse step: a lane on the new set that is not active is reloaded; the active one hands over first; then the Ringmaster
swaps back. -/
def State.rollNext (s : State) : State :=
  let act := s.laneCtl.active
  match s.upd.onNew.find? (· ≠ act) with
  | some l => ({ s with upd := { s.upd with onNew := s.upd.onNew.filter (· ≠ l) } }.takeDown l).setStep 1
  | none => if s.upd.onNew.isEmpty then (if s.upd.swapped then s.setStep 7 else s.endRollback) else s.setStep 5

/-- Starts a rollback with a reason of Table 20.12. -/
def State.startRollback (s : State) (reason : Nat) : State :=
  if !s.hitless then s.deferRollback reason
  else
    let s := s.failActivate.putUpdate .handover
    let s := { s with
      upd := { s.upd with rollingBack := true, lastReason := reason, failed := none }
      laneCtl := { s.laneCtl with drillGranted := false, granting := if s.laneCtl.drillGranted then none else s.laneCtl.granting } }
    (s.logRm Cls.warning 0x0B07 s.upd.altSet.version [w32 reason] 1).rollNext

/-- A rollback in progress takes its next step once the present one has ended. -/
def State.rollOn (s : State) : State :=
  let act := s.laneCtl.active
  let duplex := s.laneCtl.redundancy = .duplex
  match s.upd.step with
  | 1 => if (s.lane act.other).run = .copy then (s.onStat act.other fun x => { x with resetEpoch := s.now }).setStep 3 else s
  | 3 => if !duplex then s else if s.upd.onNew.isEmpty then s.rollNext else s.setStep 4
  | 4 => if s.shadowOver then s.setStep 5 else s
  | 5 => if s.upd.onNew.contains act then s else s.rollNext
  | _ => s

/-- UPDATE_ROLLBACK: a failed update begins its rollback, or a rollback in progress goes on; a failure of a rollback defers it. -/
def execUpdateRollback (s : State) : Host.Outcome State Fault Refusal :=
  let u := s.upd
  .next (if s.gen.rmRestart || s.laneCtl.gap || u.rollbackAtReset then s
  else if u.rollingBack then (if u.failed.isSome || !s.hitless then s.deferRollback u.lastReason else s.rollOn)
  else if s.mode.update ≠ .handover && s.mode.update ≠ .trial then s
  else match u.failed with
    | some r => s.startRollback r
    | none => s)

/-! ## The Ringmaster restart ends (15 R386, 20 R490, R491) -/

/-- TRIAL begins when the swap completes, and UPDATE_ACTIVATE with it. -/
def State.beginTrial (s : State) : State :=
  let s := s.putUpdate .trial
  let cmd := s.upd.cmd
  let s := { s with upd := { s.upd with
    step := 0, trialStart := s.now, trialStopped := false, duplexSince := s.now, grantRun := 0, cmd := none, faultAtSwap := s.main.model.fault } }
  let s := s.logRm Cls.notice 0x0B04 s.upd.altSet.version [] 1
  match cmd with
  | some id => s.finish id .done
  | none => s

/-- RM_RESTART_COMPLETE: suspended functions resume; a bank swap ends the handover, or the rollback. -/
def execRmRestartComplete (s : State) : Host.Outcome State Fault Refusal :=
  .next (if !s.gen.rmRestart then s
  else
    let swap := s.gen.rmRestartSwap
    let s := { s with gen := { s.gen with rmRestart := false, rmRestartSwap := false, restartEnd := some s.now } }
    if !swap || s.mode.update ≠ .handover then s
    else if s.upd.rollingBack then s.endRollback
    else s.beginTrial)

/-! ## Trial and confirmation (20 R491-R494) -/

/-- Sixty seconds (Table 20.5). -/
def minute : Nat := 600000

/-- DUPLEX has held for 60 s since TRIAL began. -/
def State.duplexHeld (s : State) : Bool :=
  s.laneCtl.redundancy = .duplex && decide (max s.upd.duplexSince s.upd.trialStart + minute ≤ s.now)

/-- No plausibility failure in the last 60 s. -/
def State.plausible (s : State) : Bool :=
  [s.laneCtl.statA, s.laneCtl.statB].all fun x => match x.failedAt with
    | some e => decide (e + minute ≤ s.now)
    | none => true

/-- A part's condition to confirm (Table 20.5). -/
def State.partHealthy (s : State) : Nat → Bool
  | 1 => s.duplexHeld
  | 2 => s.duplexHeld && s.plausible
  | 3 => s.upd.recordWritten && s.upd.completionWritten
  | 4 => decide (s.upd.trialStart + minute ≤ s.now) && s.upd.runAtSwap.all fun n => (s.motor n).state = .run
  | 5 => s.img.activeSlot.isNone || decide (10000 ≤ s.upd.grantRun)
  | _ => false

/-- A part's failure condition (Table 20.5). -/
def State.partSick (s : State) : Nat → Bool
  | 1 => s.upd.failed.isSome
  | 2 => s.laneCtl.arbitrated
  | 3 => s.gen.rmRestart && !s.gen.rmRestartSwap
  | 4 => (s.motorsIn fun st => st = .failed || st = .locked).any fun n => !s.upd.badAtSwap.contains n
  | 5 => s.main.model.fault && !s.upd.faultAtSwap || s.laneCtl.statA.selfCheckFail || s.laneCtl.statB.selfCheckFail
  | _ => false

/-- A trial runs, and no rollback waits for a reset. -/
def State.inTrial (s : State) : Bool := s.mode.update = .trial && !s.upd.trialStopped

/-- PART_CONFIRMED. -/
def execPartConfirmed (part : Nat) (s : State) : Host.Outcome State Fault Refusal :=
  .next (if s.inTrial && s.partHealthy part && !s.partSick part && !s.upd.partsConfirmed.contains part then
      ({ s with upd := { s.upd with partsConfirmed := s.upd.partsConfirmed ++ [part] } }.setUpdEvent 0x8).logRm Cls.notice 0x0B05
        s.upd.altSet.version [w32 part] 1
    else s)

/-- PART_FAILED: the first failure starts a rollback at once. -/
def execPartFailed (part : Nat) (s : State) : Host.Outcome State Fault Refusal :=
  .next (if s.inTrial && s.partSick part then s.startRollback (s.upd.failed.getD 6) else s)

/-- Every part has confirmed, and the host where the manifest asks for it; a failure in the same instant governs (R493). -/
def State.confirmable (s : State) : Bool :=
  s.inTrial && [1, 2, 3, 4, 5].all (fun t => s.upd.partsConfirmed.contains t && !s.partSick t) &&
    (s.upd.hostConfirmed || !bit s.upd.altSet.flags 0)

/-- TRIAL_EXPIRED: the window has ended first (R493). -/
def execTrialExpired (s : State) : Host.Outcome State Fault Refusal :=
  .next (if s.inTrial && s.trialRemain = 0 && !s.confirmable then s.startRollback 2 else s)

/-- UPDATE_CONFIRMED: the bank record, the floor and the key set, the other copy of the store, and IDLE (R494). -/
def execUpdateConfirmed (s : State) : Host.Outcome State Fault Refusal :=
  .next (if !s.confirmable then s
  else
    let u := s.upd
    let set := u.altSet
    let oper := s.mode.lifeCycle = .operational
    let revoke := oper && bit set.flags 2 && set.keyIndex = 1 && !u.key0Revoked
    let s := { s with
      upd := { u with
        runningBank := 1 - u.runningBank, generation := u.generation + 1, runningSet := set, altSet := u.runningSet
        secFloor := if oper && bit set.flags 1 then max u.secFloor set.security else u.secFloor
        key0Revoked := u.key0Revoked || revoke, partsConfirmed := [], hostConfirmed := false, swapped := false, onNew := [] }
      nor := { s.nor with running := s.nor.alternate }
      gen := { s.gen with fwVersion := set.version } }
    let s := ((s.putUpdate .idle).setUpdEvent 0x10).logRm Cls.notice 0x0B06 set.version [] 1
    if revoke then s.logRm Cls.notice 0x0B0C set.version [] 1 else s)

/-- UPDATE_CONFIRM (0x0B03): ACCEPT, or REJECT with a rollback. -/
def execUpdateConfirm (p : Packet) (s : State) : Host.Outcome State Fault Refusal :=
  .next (s.runCmd 0x0B03 false p (·.checkBlock 8 [(5, 3)]) (fun _ s => axes [(s.mode.update ≠ .trial, .notInMode)]) fun _ p s => do
    let op := u8At p.block 4
    deny [(1 < op, p.badField 4)]
    if op = 0 then .ok ({ s with upd := { s.upd with hostConfirmed := true } }, .reply (.words (w32 (maskOf s.upd.partsConfirmed)) 0 0))
    else .ok (s.startRollback 1, .reply .done))

/-! ## UPDATE_STATUS and ATTEST (20 R501, R506) -/

/-- The status record. -/
def State.updateRecord (s : State) : List Byte :=
  le16 1 ++ le16 32 ++ leW s.updStateWord ++ leW s.gen.fwVersion ++ leW s.stagedVersion ++ le32 s.trialRemain ++ le64 s.upd.stepEpoch ++ zeros 4

/-- Writes a record to host memory, or stops the queue where that fails. -/
def State.reportHost (s : State) (p : Packet) (dmaOk : Bool) (addr : Nat) (bs : List Byte) (r : Reply) : State × CmdEnd :=
  if dmaOk then (s.writeHost addr bs, .reply r) else (s.dmaFault p.sq, .reply { status := SC.internal })

def execUpdateStatus (p : Packet) (dmaOk : Bool) (s : State) : Host.Outcome State Fault Refusal :=
  .next (s.runCmd 0x0B04 true p (·.checkBlock 16 [(4, 4)]) noAxis fun _ p s =>
    .ok (s.reportHost p dmaOk (u64At p.block 8) s.updateRecord .done))

/-- The set a part runs from: the lanes' parts by the active lane, the Ringmaster's by the swap (R489, R490). -/
def State.setOf (s : State) (part : Nat) : FwSet :=
  let new := if part = 3 || part = 4 then s.upd.swapped else s.upd.onNew.contains s.laneCtl.active
  if new then s.upd.altSet else s.upd.runningSet

/-- Measurements 1 to 8 (Table 20.8). -/
def State.rawMeasurement (s : State) (i : Nat) : List Byte :=
  if i ≤ 5 then ((s.setOf i).parts.find? (·.1 = i)).elim (zeros 64) Prod.snd
  else if i = 6 then sha512 (s.setOf 3).manifest
  else if i = 7 then le8 s.mode.lifeCycle.code ++ le8 s.upd.secFloor ++ le8 (flag s.upd.key0Revoked) ++ le8 0
  else s.image.elim (zeros 48) Image.digest

/-- A measurement padded to 64 bytes (Table 20.9). -/
def State.measurement (s : State) (i : Nat) : List Byte := fitBytes 64 (s.rawMeasurement i)

/-- The attestation report (Table 20.9). -/
def State.attestation (s : State) (nonce : List Byte) : List Byte :=
  let body := le16 1 ++ le16 3968 ++ zeros 4 ++ le64 s.gen.serial.toNat ++ leW s.gen.fwVersion ++ le32 s.upd.secFloor ++
    le8 s.mode.lifeCycle.code ++ le8 s.upd.runningBank ++ le8 s.mode.update.code ++ zeros 5 ++ fitBytes 32 nonce ++ le64 s.now ++ zeros 8 ++
    (List.range 8).flatMap fun i => s.measurement (i + 1)
  let d := sha512 body
  body ++ fitBytes 64 (Config.ed25519Sign d) ++ fitBytes 3309 (Config.mlDsaSign d) ++ zeros 3

def execAttest (p : Packet) (dmaOk : Bool) (s : State) : Host.Outcome State Fault Refusal :=
  .next (s.runCmd 0x0B05 true p (·.checkBlock 56 [(5, 3), (0x30, 8)]) noAxis fun _ p s => do
    let op := u8At p.block 4
    let addr := u64At p.block 8
    deny [(2 < op, p.badField 4), (addr % 4 ≠ 0, p.badField 8)]
    let bs := if op = 0 then s.attestation (bytesAt p.block 0x10 32) else (Config.certChain (op - 1)).take 32768
    .ok (s.reportHost p dmaOk addr bs (.words (w32 bs.length) 0 0)))

/-! ## LIFECYCLE_SET (20 R502-R504, 16 R412) -/

/-- The changes of Table 20.10. -/
def lifeMay : LifeCycle → LifeCycle → Bool
  | .blank, t => t = .provisioned || t = .returning
  | .provisioned, t => t ≠ .provisioned
  | .operational, t => t = .provisioned || t = .returning
  | .returning, t => t = .blank

def lifeOf : Nat → LifeCycle
  | 0 => .blank
  | 1 => .provisioned
  | 2 => .operational
  | _ => .returning

/-- Every record of the ring has been returned since entry to RETURN (R504). -/
def State.exported (s : State) : Bool := s.mode.lifeCycle = .returning && (s.evt.newest = 0xFFFFFFFFFFFFFFFF || decide (s.evt.newest < s.evt.exported))

/-- The ring and the capture area are erased; LOG_ERASED is the first record of the empty ring (R504). -/
def State.eraseLog (s : State) : State :=
  let s := s.flushLog
  let s := { s with evt := { s.evt with ring := [], ringPos := 0, wrapped := false, captures := [], buffer := [], rmQueue := [], exported := 0 } }
  (s.logRm Cls.notice 0x0B0B s.upd.runningSet.version [] 1).flushLog.setUpdEvent 0x80

def lifecycleBody (p : Packet) (s : State) : Except Reply (State × CmdEnd) := do
  let n := u8At p.block 4
  let flags := u8At p.block 5
  let t := lifeOf n
  let was := s.mode.lifeCycle
  deny [(3 < n, p.badField 4), (1 < flags, p.badField 5), (flags = 1 && t ≠ .returning, p.badField 5)]
  if flags = 1 then
    deny [(!s.exported, Reply.notInMode)]
    .ok (s.eraseLog, .reply .done)
  else if t = was then .ok (s, .reply .done)
  else
    deny [(!lifeMay was t, p.badField 4)]
    .ok ({ s with upd := { s.upd with lifeTarget := some t } }.logRm Cls.notice 0x0B0A s.upd.runningSet.version [w32 t.code] 1,
      .reply .done)

/-- LIFECYCLE_SET (0x0B06). -/
def execLifecycleSet (p : Packet) (s : State) : Host.Outcome State Fault Refusal :=
  let run := fun (s : State) => (List.range 16).any fun k => s.rackOn k && decide (s.rackState k = .run)
  let axis := fun (_ : Packet) (s : State) =>
    axes [(s.mode.authority ≠ .manual || s.mode.update ≠ .idle || s.inNet || run s, .notInMode)]
  .next (s.runCmd 0x0B06 false p (·.checkBlock 8 [(6, 2)]) axis fun _ => lifecycleBody)

end Sys2Proof.Machine
end

