-- ==== Sys2Proof/Machine/Spdm.lean ====
section
/-! DEFINITION. Attestation transport (17 R433) and the SPDM responder (20 R500): one request is served at a time, and its answer is kept by
content. During a firmware restart the mailbox shows Busy and takes no request (17 R432). -/

namespace Sys2Proof.Machine

/-- Serves a request unless the mailbox shows Busy. -/
def State.serve (s : State) (f : SpdmSt → SpdmSt) : Host.Outcome State Fault Refusal :=
  .next (if s.gen.rmRestart || !s.gen.rmReady then s else { s with spdm := f s.spdm })

/-- Answers in a connection that has negotiated; otherwise the request is unexpected. -/
def SpdmSt.whenReady (q : SpdmSt) (r : SpdmReply) : SpdmSt :=
  { q with response := some (if q.phase = .algorithms then r else .unexpected) }

/-- DOE_DISCOVERY: index 0 is DOE Discovery, index 1 CMA/SPDM; secured CMA/SPDM is not supported (17 R433). -/
def execDoeDiscovery (index : Byte) (s : State) : Host.Outcome State Fault Refusal :=
  let r : SpdmReply := if index = 0 then .doe (some 0) 1 else if index = 1 then .doe (some 1) 0 else .doe none 0
  s.serve fun q => { q with response := some r }

/-- DOE_ABORT: the request in progress is discarded (17 R433). -/
def execDoeAbort (s : State) : Host.Outcome State Fault Refusal := .next { s with spdm := { s.spdm with response := none } }

/-- GET_VERSION: versions 1.2 and 1.3; a connection starts anew (20 R500). -/
def execGetVersion (s : State) : Host.Outcome State Fault Refusal :=
  s.serve fun _ => { phase := .version, response := some (.version [0x12, 0x13]) }

/-- GET_CAPABILITIES: CERT_CAP, CHAL_CAP and MEAS_CAP with signature; no key exchange, no mutual authentication (20 R500). -/
def execGetCapabilities (version : Nat) (s : State) : Host.Outcome State Fault Refusal :=
  s.serve fun q =>
    if q.phase = .start then { q with response := some .unexpected }
    else if version = 0x12 || version = 0x13 then
      { phase := .capabilities, version := version, response := some (.capabilities true true true false false) }
    else { q with response := some .invalid }

/-- NEGOTIATE_ALGORITHMS: TPM_ALG_EDDSA_ED25519, and TPM_ALG_SHA_512 for base and measurement hash, where offered (20 R500). -/
def execNegotiateAlgorithms (ed25519 sha512 measSha512 : Bool) (s : State) : Host.Outcome State Fault Refusal :=
  s.serve fun q =>
    if q.phase = .capabilities || q.phase = .algorithms then
      { q with
        phase := if ed25519 && sha512 then SpdmPhase.algorithms else q.phase
        response := some (if ed25519 && sha512 then .algorithms ed25519 sha512 measSha512 else .invalid) }
    else { q with response := some .unexpected }

/-- The Ed25519 certificate chain stands in slot 0, the only one (20 R500). -/
def slotChain : List Byte := Config.certChain 0

/-- GET_DIGESTS: the digest of the chain of each slot. -/
def execGetDigests (s : State) : Host.Outcome State Fault Refusal :=
  s.serve fun q => q.whenReady (.digests [(0, sha512 slotChain)])

/-- GET_CERTIFICATE: a portion of the chain and what remains after it. -/
def execGetCertificate (slot offset length : Nat) (s : State) : Host.Outcome State Fault Refusal :=
  let rest := slotChain.drop offset
  s.serve fun q => q.whenReady (if slot = 0 && offset ≤ slotChain.length then .certificate (rest.take length) (rest.length - length) else .invalid)

/-- The responder's next signature, a free value of 64 bytes (assumption log 10). -/
def State.spdmSign (s : State) : List Byte := fitBytes 64 (Config.spdmSignature s.fresh)

/-- CHALLENGE: signed with the device key. -/
def execChallenge (slot : Nat) (nonce : List Byte) (s : State) : Host.Outcome State Fault Refusal :=
  let r : SpdmReply := if slot = 0 then .challengeAuth (sha512 slotChain) nonce s.spdmSign else .invalid
  { s with fresh := s.fresh + 1 }.serve fun q => q.whenReady r

/-- GET_MEASUREMENTS: the indices of Table 20.8, signed on request. -/
def execGetMeasurements (ask : MeasAsk) (sign : Bool) (nonce : List Byte) (s : State) : Host.Outcome State Fault Refusal :=
  let sig := if sign then some s.spdmSign else none
  let block := fun (i : Nat) => (i, s.rawMeasurement i)
  let all := (List.range 8).map fun i => block (i + 1)
  let r : SpdmReply := match ask with
    | .count => .measurements 8 [] nonce sig
    | .one i => if 1 ≤ i ∧ i ≤ 8 then .measurements 1 [block i] nonce sig else .invalid
    | .all => .measurements 8 all nonce sig
  { s with fresh := s.fresh + 1 }.serve fun q => q.whenReady r

end Sys2Proof.Machine
end

