-- ==== Sys2Proof/Machine/TickFlow.lean ====
section
/-! DEFINITION. The flow of a tick (02): T0 and the input frame, frame ready with passes and the step grant, publication of views, and the
discipline of tick time (R36; 09 R239). -/

namespace Sys2Proof.Machine

/-! ## Views (02 R50) -/

/-- The VIEW region at the end of a tick, by rising offset. -/
def State.renderViews (s : State) (epoch : Nat) : Mem :=
  let recs := fun (n : Nat) (f : Nat → List Byte) => (List.range n).flatMap f
  let f := s.tick.frame
  Mem.ofBytes 0x100000 s.loopView ++ Mem.ofBytes 0x108000 s.rowSummary ++ Mem.ofBytes 0x109000 s.govRowRecord ++
    Mem.ofBytes 0x10A000 (recs 256 s.govJobRecord) ++ Mem.ofBytes 0x120000 (recs 4096 s.forecastRecord) ++
    Mem.ofBytes 0x140000 (recs 4096 s.govChipRecord) ++ Mem.ofBytes 0x150000 (recs 512 s.trayRecord) ++
    Mem.ofBytes 0x152000 (recs 4 s.portRecord) ++ Mem.ofBytes 0x153000 (recs 16 s.rackRecord) ++
    Mem.ofBytes 0x153100 (recs 4 s.groupRecord) ++ Mem.ofBytes 0x154000 (recs 56 s.motorRecord) ++
    Mem.ofBytes 0x155000 (recs 64 s.valveRecord) ++ Mem.ofBytes 0x155400 (recs 2 s.supplyRecord) ++
    Mem.ofBytes 0x156000 (recs 256 fun n => (Tab.get {} f.analog n).bytes) ++ Mem.ofBytes 0x156400 (recs 64 fun n => (Tab.get {} f.leak n).bytes) ++
    Mem.ofBytes 0x156600 (recs 64 fun n => (Tab.get {} f.pulse n).bytes) ++ Mem.ofBytes 0x156800 (recs 16 s.harnessRecord) ++
    Mem.ofBytes 0x156900 (le32 s.sense.status) ++ Mem.ofBytes 0x157000 (recs 64 fun n => (Tab.get {} f.bus n).bytes) ++
    Mem.ofBytes 0x157200 (recs 16 s.canRecord) ++ Mem.ofBytes 0x158000 (s.laneRecord (some epoch))

/-- Everything published of an epoch. -/
def State.snapshot (s : State) : Snapshot :=
  { epoch := some s.now, view := s.renderViews s.now, model := s.modelRecord
    rainflow := Mem.ofBytes 0 ((List.range 4096).flatMap s.rainRecord), sourceEpoch := s.main.model.sourceEpoch }

/-- The tick in progress is settled: every loop output due was released, outside NET and a gap's held ticks (02 R50; 15 R374). -/
def State.settledTick (s : State) : Bool := !s.tick.unsettled && !s.inNet && !s.laneCtl.held && s.anyLane

/-! ## Time (02 R36) -/

/-- How far a tick is lengthened or shortened: at most 100 ns against the phase error. -/
def TickSt.adjust (t : TickSt) : Int := if t.timeValid then max (-100) (min 100 t.phaseErr) else 0

/-- Time at the next T0: the phase error shrinks, the length stays as disciplined last, and all ones stay until time has been seen. -/
def TickSt.nextTime (t : TickSt) : TickSt :=
  let a := t.adjust
  let ns := if t.timeValid then (100000 - a).toNat else t.tickNs
  { t with
    t0Time := if t.timeSeen then t.t0Time + BitVec.ofNat 64 ns else t.t0Time
    tickNs := ns, phaseErr := t.phaseErr - a, slewing := decide (a ≠ 0) }

/-- The phase error lies within 250 ns. -/
def TickSt.near (t : TickSt) : Bool := t.timeValid && decide (-250 ≤ t.phaseErr ∧ t.phaseErr ≤ 250)

/-- LOCKED follows the phase error; entering it is an event. -/
def State.updateLock (s : State) : State :=
  let on := s.tick.near
  let enter := on && !s.tick.locked
  let s := { s with tick := { s.tick with locked := on } }
  if enter then (s.setTickEvent 0x1).logRm Cls.notice 0x0C09 none32 [] else s

/-- GPTP_SYNC_RECEIVED: the port is in the slave state, and 802.1AS time is valid (09 R239). -/
def execGptpSyncReceived (port : Fin 4) (time : U64) (phaseErr : Int) (s : State) : Host.Outcome State Fault Refusal :=
  .next (if !(Tab.get ({} : Port) s.tray.ports port.val).up then s
  else
    let s := s.onPort port.val fun x => { x with ptp := 2, syncMisses := 0 }
    { s with tick := { s.tick with timeValid := true, timeSeen := true, holdover := false, t0Time := time, phaseErr := phaseErr } }.updateLock)

/-- SYNC_TIMEOUT: no Sync within three intervals on a port; without another slave port time is invalid, and the tick enters holdover. -/
def execSyncTimeout (port : Fin 4) (s : State) : Host.Outcome State Fault Refusal :=
  let s := s.onPort port.val fun x => { x with syncMisses := 3, ptp := if x.ptp = 2 then 1 else x.ptp }
  let other := (List.range 4).any fun p => (Tab.get ({} : Port) s.tray.ports p).ptp = 2 && decide ((Tab.get ({} : Port) s.tray.ports p).syncMisses < 3)
  .next (if other || !s.tick.timeValid then s
  else
    let s := { s with tick := { s.tick with timeValid := false, holdover := true, locked := false, slewing := false, phaseErr := 0 } }
    (s.setTickEvent 0x80).logRm Cls.notice 0x0C08 none32 [])

/-! ## T0 (02 R37-R39) -/

/-- The confirmed configuration comes back, each record as its own command would put it in force (20 R495, 16 R396). -/
def State.restoreAll (s : State) (c : Cfg) : State :=
  let old := s.cfg
  let s := (tabDiff {} old.loops c.loops).foldl (fun (s : State) n => s.onLanes fun x =>
    { x with loops := Tab.modify {} x.loops n fun p => p.reconfigure (Tab.get {} old.loops n) (Tab.get {} c.loops n) }) s
  let s := if old.topo = c.topo then s else s.putTopology c.topo
  let s := (tabDiff {} old.motors c.motors).foldl (fun (s : State) n => s.putMotor n (Tab.get {} c.motors n)) s
  let s := (tabDiff none old.analog c.analog).foldl (fun (s : State) n => s.putAnalog n (c.analogRec n)) s
  let s := (tabDiff {} old.pulse c.pulse).foldl (fun (s : State) n => s.putPulse n (Tab.get {} c.pulse n)) s
  let s := (tabDiff {} old.leak c.leak).foldl (fun (s : State) n => s.putLeak n (Tab.get {} c.leak n)) s
  let s := (tabDiff {} old.can c.can).foldl (fun (s : State) n => s.putCan n (Tab.get {} c.can n)) s
  let s := (tabDiff {} old.entries c.entries).foldl (fun (s : State) n => s.putEntry n (Tab.get {} c.entries n)) s
  let s := if old.thermal = c.thermal then s else s.putThermal c.thermal
  (s.apply [.restore c]).restageReference old

/-- One accepted change takes effect at T0. -/
def State.putItem (s : State) (i : CfgItem) : State :=
  match i with
  | .motor n r => s.putMotor n r
  | .analog n r => s.putAnalog n r
  | .pulse n r => s.putPulse n r
  | .leak n r => s.putLeak n r
  | .can c r => s.putCan c r
  | .entry e r => s.putEntry e r
  | .restore c => s.restoreAll c
  | i => s.apply [i]
/-- A mirror slot at the start of a tick: copies gone, a run of shortfalls kept where it goes on. -/
def MirrorSlot.fresh (m : MirrorSlot) (simplex : Bool) : MirrorSlot :=
  { rHeld := m.rHeld, shortRun := if simplex && m.closed then m.shortRun else 0 }

/-- What the Hall of Mirrors and the accounting forget at T0. -/
def State.freshTick (s : State) : State :=
  let c := s.laneCtl
  let simplex := c.redundancy = .simplexA || c.redundancy = .simplexB
  let mirror := c.mirror.foldl (fun (t : Tab MirrorSlot) e => Tab.set {} t e.1 (e.2.fresh simplex)) []
  { s with
    laneCtl := { c with
      gap := c.gap && !s.settledTick
      merge := c.merge && c.mergedNow, mergeRun := if c.mergedNow then c.mergeRun else 0, mergedNow := false
      mirror := mirror, others := [], arbitrated := false, deliveredA := false, deliveredB := false
      statA := { c.statA with frameLost := false, outputsLost := false }, statB := { c.statB with frameLost := false, outputsLost := false } }
    tick := { s.tick with
      unsettled := false, windowOpen := false, capReleased := false
      done := s.tick.done.filter fun r => decide (s.now ≤ r.2.2 + 11)
      loopRelLast := s.tick.loopRelCur, loopRelMax := max s.tick.loopRelMax s.tick.loopRelCur, loopRelCur := 0
      modelRelLast := s.tick.modelRelCur, modelRelCur := 0, discarded := 0, staleLimit := s.cfg.staleLimit } }

/-- Values measured in the window that closes. -/
def State.sample (s : State) (i : TickInputs) : State :=
  let s := i.analog.foldl State.sampleAnalog s
  let s := i.leak.foldl State.sampleLeak s
  let s := i.pulse.foldl State.samplePulse s
  s.sampleValves i.coils i.boost

/-- Counts that go by the tick: the host watchdog (17 R426), run times, ages of mapped entries, availability of PREDICTIVE, a view hold. -/
def State.countTickTimes (s : State) : State :=
  let run := fun (e : Nat × Motor) => (e.1, if e.2.state = .run then { e.2 with runTicks := e.2.runTicks + 1 } else e.2)
  let aged := s.bus.entries.foldl (fun (t : Tab EntryDyn) e =>
    Tab.set {} t e.1 (if (s.entryRec e.1).dir = 1 then { e.2 with age := satTo 16 (e.2.age + 1) } else e.2)) []
  { s with
    hif := { s.hif with wdogTicks := s.hif.wdogTicks - 1 }
    motors := s.motors.map run
    bus := { s.bus with entries := aged }
    mode := { s.mode with predAvailTicks := if s.predAvailable then s.mode.predAvailTicks + 1 else 0 }
    tick := { s.tick with holdTicks := if s.tick.hold then s.tick.holdTicks + 1 else 0 }
    upd := { s.upd with badAtSwap := s.upd.badAtSwap.filter fun n => (s.motor n).state.failedOrLocked } }

/-- A section of the frame: elements by index, those at their default not listed. -/
def section_ {α : Type} [DecidableEq α] (d : α) (n : Nat) (f : Nat → α) : Tab α :=
  (List.range n).filterMap fun i => if f i = d then none else some (i, f i)

/-- The frame that closes at this T0 (Tables 2.1, 2.2); `discarded` counts what was discarded in the tick before. -/
def State.closeFrame (s : State) (discarded : Nat) : Frame :=
  let t := s.tick
  let present := (List.range 16).filter fun k => (s.harness k).present
  let lines := fun (x : Tab Bool) => maskOf ((List.range 16).filter fun k => Tab.get false x k)
  let (ages, chips) := s.traySections
  { epoch := t.epoch, t0Time := t.t0Time, flags := w32 (packFlags [t.locked, t.holdover, t.slewing])
    discretesIn := w32 (lines s.tray.flowLoss + 0x10000 * maskOf present)
    discretesOut := w32 (lines s.tray.coolFault + 0x10000 * flag s.sense.sysShdn + 0x20000 * flag s.rel.netActive)
    lastAppliedDue := t.lastAppliedDue, resultsDiscarded := discarded
    analog := section_ {} 256 fun n => (s.cfg.analogRec n).element (s.analogDyn n)
    leak := section_ {} 64 s.leakEl, pulse := section_ {} 64 s.pulseEl, motor := section_ {} 56 s.motorEl, bus := section_ {} 64 s.busEl
    trayAge := ages, chips := chips }

/-- TICK_START: the tick before ends, what takes effect at T0 does, and the frame of the new epoch is closed. -/
def execTickStart (inp : TickInputs) (s : State) : Host.Outcome State Fault Refusal :=
  let discarded := s.tick.discarded
  let closing := if s.settledTick then some s.snapshot else none
  let s := { s with tick := { s.tick with closing := closing } }.freshTick
  let s := { s with tick := { s.tick.nextTime with epoch := s.now + 1 } }.updateLock
  let s := s.due.foldl State.putItem { s with due := [] }
  let s := ((s.sample inp).latchTrays.disarmGroups).countTickTimes
  let s := { s with tick := { s.tick with frame := s.closeFrame discarded } }
  let s := s.releaseLanes.inStepStart
  .next (if s.stepping then s else s.stepBoundary fun _ => [])

/-! ## Frame ready (02 R40, R41, R47) -/

/-- Each lane that receives frames keeps this one in its Ferris Wheel (19 R473): a running lane, and one being resynchronised. -/
def State.keepFrame (s : State) : State :=
  let f := s.tick.frame
  let keep := fun (x : Lane) =>
    if x.isRunning || x.run = .copy || x.run = .joinWait then { x with ferris := Tab.set {} x.ferris (f.epoch % 960000) f } else x
  { s with laneA := keep s.laneA, laneB := keep s.laneB }

/-- The phase of the step epochs changes with k at a step epoch (07 R196). -/
def State.phaseStep (s : State) : State :=
  match s.img.kNext with
  | some k => if s.stepping && s.stepEpoch then { s with img := { s.img with kMod := k, kNext := none, phaseEpoch := s.now } } else s
  | none => s

/-- A step epoch of an image that an activation is replacing has no grant. -/
def State.swapTick (s : State) : State := { s with img := { s.img with swapTicks := satTo 32 (s.img.swapTicks + 1) } }

/-- The step grant of the tick, or its overrun (02 R47). -/
def State.grantTick (s : State) : State :=
  let busy := fun (x : Lane) => x.isRunning && x.step.running
  let had := fun (x : Lane) => x.isRunning && x.step.epoch = s.now
  match s.image with
  | none => s
  | some i =>
    if !s.anyLane || !s.stepEpoch || had s.laneA || had s.laneB then s
    else if s.img.act = .prepared || s.img.act = .boundary || s.img.act = .loaded || s.img.act = .started then s.swapTick
    else if !s.stepping then s
    else if busy s.laneA || busy s.laneB then
      { s with tick := { s.tick with cntOverrun := satTo 32 (s.tick.cntOverrun + 1) } }.countTick 3 0x10
    else s.grantStep i

/-- FRAME_READY: passes of the Loop Engine, the runtime and the governor on the frame, and the step grant. -/
def execFrameReady (s : State) : Host.Outcome State Fault Refusal :=
  let s := s.settleBoundary.passModes.passStart.phaseStep
  let s := s.keepFrame
  let s := (s.thermalFrame .A).thermalFrame .B
  let s := if s.laneA.isRunning then s.runPass .A else s
  let s := if s.laneB.isRunning then s.runPass .B else s
  .next s.governorPass.grantTick

/-! ## Publication (02 R50, R51) -/

/-- VIEW_PUBLISH: all views change together to the settled epoch; under a hold the VIEW region stays. -/
def execViewPublish (s : State) : Host.Outcome State Fault Refusal :=
  .next (match s.tick.closing with
    | none => s
    | some v => { s with tick := { s.tick with closing := none, settled := v, shown := if s.tick.hold then s.tick.shown else v } })

/-- VIEW_HOLD_EXPIRY: VIEW_HOLD_LIMIT ticks have passed. -/
def execViewHoldExpiry (s : State) : Host.Outcome State Fault Refusal :=
  .next (if s.tick.hold && decide (s.tick.viewHoldLimit ≤ s.tick.holdTicks) then
      let s := s.releaseHold
      { s with tick := { s.tick with holdExpired := true } }
    else s)

end Sys2Proof.Machine
end

