-- ==== Sys2Proof/Machine/Dispatch.lean ====
section
/-! DEFINITION. What each command does: one arm per constructor, one direct call of its meaning. -/

namespace Sys2Proof.Machine

def exec (i : Instr) (s : State) : Host.Outcome State Fault Refusal :=
  match i with
  | .nopEcho p => Sys2Proof.Machine.execNopEcho p s
  | .getIdentity p => Sys2Proof.Machine.execGetIdentity p s
  | .snapshotRead p dmaOk => Sys2Proof.Machine.execSnapshotRead p dmaOk s
  | .resultFetch p => Sys2Proof.Machine.execResultFetch p s
  | .queueBarrier p => Sys2Proof.Machine.execQueueBarrier p s
  | .hostHeartbeat p => Sys2Proof.Machine.execHostHeartbeat p s
  | .loopConfigure p => Sys2Proof.Machine.execLoopConfigure p s
  | .loopSetMode p => Sys2Proof.Machine.execLoopSetMode p s
  | .loopSetPoint p => Sys2Proof.Machine.execLoopSetPoint p s
  | .loopStatus p => Sys2Proof.Machine.execLoopStatus p s
  | .modelStage p => Sys2Proof.Machine.execModelStage p s
  | .modelActivate p => Sys2Proof.Machine.execModelActivate p s
  | .modelStatus p => Sys2Proof.Machine.execModelStatus p s
  | .couplingAccess p => Sys2Proof.Machine.execCouplingAccess p s
  | .forecastRead p => Sys2Proof.Machine.execForecastRead p s
  | .jobDefine p => Sys2Proof.Machine.execJobDefine p s
  | .rowEnvelopeSet p => Sys2Proof.Machine.execRowEnvelopeSet p s
  | .capSet p => Sys2Proof.Machine.execCapSet p s
  | .pacePolicySet p => Sys2Proof.Machine.execPacePolicySet p s
  | .swingPolicySet p => Sys2Proof.Machine.execSwingPolicySet p s
  | .governorStatus p => Sys2Proof.Machine.execGovernorStatus p s
  | .pumpConfigure p => Sys2Proof.Machine.execPumpConfigure p s
  | .fanConfigure p => Sys2Proof.Machine.execFanConfigure p s
  | .motorCommand p => Sys2Proof.Machine.execMotorCommand p s
  | .skipBandsSet p => Sys2Proof.Machine.execSkipBandsSet p s
  | .networkConfigure p => Sys2Proof.Machine.execNetworkConfigure p s
  | .valveConfigure p => Sys2Proof.Machine.execValveConfigure p s
  | .valveCommand p => Sys2Proof.Machine.execValveCommand p s
  | .valveStatus p => Sys2Proof.Machine.execValveStatus p s
  | .inputConfigure p => Sys2Proof.Machine.execInputConfigure p s
  | .leakConfigure p => Sys2Proof.Machine.execLeakConfigure p s
  | .harnessRead p => Sys2Proof.Machine.execHarnessRead p s
  | .busConfigure p => Sys2Proof.Machine.execBusConfigure p s
  | .busAutobaud p => Sys2Proof.Machine.execBusAutobaud p s
  | .modeRequest p => Sys2Proof.Machine.execModeRequest p s
  | .trapezeDrill p => Sys2Proof.Machine.execTrapezeDrill p s
  | .laneStatus p => Sys2Proof.Machine.execLaneStatus p s
  | .eventRead p dmaOk => Sys2Proof.Machine.execEventRead p dmaOk s
  | .captureRequest p => Sys2Proof.Machine.execCaptureRequest p s
  | .captureRead p => Sys2Proof.Machine.execCaptureRead p s
  | .updateStage p norOk => Sys2Proof.Machine.execUpdateStage p norOk s
  | .updateActivate p => Sys2Proof.Machine.execUpdateActivate p s
  | .updateConfirm p => Sys2Proof.Machine.execUpdateConfirm p s
  | .updateStatus p dmaOk => Sys2Proof.Machine.execUpdateStatus p dmaOk s
  | .attest p dmaOk => Sys2Proof.Machine.execAttest p dmaOk s
  | .lifecycleSet p => Sys2Proof.Machine.execLifecycleSet p s
  | .commandDelivery => Sys2Proof.Machine.execCommandDelivery s
  | .deliveryCommit ackA ackB => Sys2Proof.Machine.execDeliveryCommit ackA ackB s
  | .completionWrite sq dmaOk => Sys2Proof.Machine.execCompletionWrite sq dmaOk s
  | .heldResultReady tag => Sys2Proof.Machine.execHeldResultReady tag s
  | .cqCoalesceTimeout us => Sys2Proof.Machine.execCqCoalesceTimeout us s
  | .genReset value => Sys2Proof.Machine.execGenReset value s
  | .viewHoldWrite hold => Sys2Proof.Machine.execViewHoldWrite hold s
  | .loRegisterRead off => Sys2Proof.Machine.execLoRegisterRead off s
  | .hiRegisterRead off => Sys2Proof.Machine.execHiRegisterRead off s
  | .rcRegisterRead off => Sys2Proof.Machine.execRcRegisterRead off s
  | .sqTailDoorbell q value => Sys2Proof.Machine.execSqTailDoorbell q value s
  | .cqHeadDoorbell value => Sys2Proof.Machine.execCqHeadDoorbell value s
  | .sqEnableWrite q value => Sys2Proof.Machine.execSqEnableWrite q value s
  | .cqEnableWrite value => Sys2Proof.Machine.execCqEnableWrite value s
  | .dpDataAccess write wide data => Sys2Proof.Machine.execDpDataAccess write wide data s
  | .dpApertureAccess off write wide data => Sys2Proof.Machine.execDpApertureAccess off write wide data s
  | .bar2Access off write wide data => Sys2Proof.Machine.execBar2Access off write wide data s
  | .laneHoldWrite value => Sys2Proof.Machine.execLaneHoldWrite value s
  | .canBufferLock chan buf => Sys2Proof.Machine.execCanBufferLock chan buf s
  | .canBufferRelease chan buf => Sys2Proof.Machine.execCanBufferRelease chan buf s
  | .registerWrite off value whole => Sys2Proof.Machine.execRegisterWrite off value whole s
  | .latchedWritesApply => Sys2Proof.Machine.execLatchedWritesApply s
  | .doeDiscovery index => Sys2Proof.Machine.execDoeDiscovery index s
  | .doeAbort => Sys2Proof.Machine.execDoeAbort s
  | .getVersion => Sys2Proof.Machine.execGetVersion s
  | .getCapabilities version => Sys2Proof.Machine.execGetCapabilities version s
  | .negotiateAlgorithms ed25519 sha512 measSha512 => Sys2Proof.Machine.execNegotiateAlgorithms ed25519 sha512 measSha512 s
  | .getDigests => Sys2Proof.Machine.execGetDigests s
  | .getCertificate slot offset length => Sys2Proof.Machine.execGetCertificate slot offset length s
  | .challenge slot nonce => Sys2Proof.Machine.execChallenge slot nonce s
  | .getMeasurements ask sign nonce => Sys2Proof.Machine.execGetMeasurements ask sign nonce s
  | .perstN => Sys2Proof.Machine.execPerstN s
  | .hotReset => Sys2Proof.Machine.execHotReset s
  | .functionLevelReset => Sys2Proof.Machine.execFunctionLevelReset s
  | .d3hotEntry => Sys2Proof.Machine.execD3hotEntry s
  | .d0Return => Sys2Proof.Machine.execD0Return s
  | .powerOnReset tcritSel netSpd => Sys2Proof.Machine.execPowerOnReset tcritSel netSpd s
  | .powerFail => Sys2Proof.Machine.execPowerFail s
  | .actuatorSupplyLost => Sys2Proof.Machine.execActuatorSupplyLost s
  | .actuatorSupplyReturn => Sys2Proof.Machine.execActuatorSupplyReturn s
  | .strongmanReady supply => Sys2Proof.Machine.execStrongmanReady supply s
  | .strongmanFault supply => Sys2Proof.Machine.execStrongmanFault supply s
  | .strongmanRetry supply => Sys2Proof.Machine.execStrongmanRetry supply s
  | .rmBootComplete => Sys2Proof.Machine.execRmBootComplete s
  | .tickStart inp => Sys2Proof.Machine.execTickStart inp s
  | .frameReady => Sys2Proof.Machine.execFrameReady s
  | .laneOutputDelivery l ns d => Sys2Proof.Machine.execLaneOutputDelivery l ns d s
  | .loopReleaseDeadline loop => Sys2Proof.Machine.execLoopReleaseDeadline loop s
  | .releaseWindowOpen => Sys2Proof.Machine.execReleaseWindowOpen s
  | .releaseWindowClose => Sys2Proof.Machine.execReleaseWindowClose s
  | .stepComplete l => Sys2Proof.Machine.execStepComplete l s
  | .stepAbort => Sys2Proof.Machine.execStepAbort s
  | .viewPublish => Sys2Proof.Machine.execViewPublish s
  | .viewHoldExpiry => Sys2Proof.Machine.execViewHoldExpiry s
  | .gptpSyncReceived port time phaseErr => Sys2Proof.Machine.execGptpSyncReceived port time phaseErr s
  | .syncTimeout port => Sys2Proof.Machine.execSyncTimeout port s
  | .tileBlockFire l t => Sys2Proof.Machine.execTileBlockFire l t s
  | .messageArrival l t => Sys2Proof.Machine.execMessageArrival l t s
  | .creditArrival l t route => Sys2Proof.Machine.execCreditArrival l t route s
  | .dmaCompletion l t => Sys2Proof.Machine.execDmaCompletion l t s
  | .outputCollect l y => Sys2Proof.Machine.execOutputCollect l y s
  | .alu l t w => Sys2Proof.Machine.execAlu l t w s
  | .addi l t w => Sys2Proof.Machine.execAddi l t w s
  | .andi l t w => Sys2Proof.Machine.execAndi l t w s
  | .ori l t w => Sys2Proof.Machine.execOri l t w s
  | .xori l t w => Sys2Proof.Machine.execXori l t w s
  | .lui l t w => Sys2Proof.Machine.execLui l t w s
  | .shi l t w => Sys2Proof.Machine.execShi l t w s
  | .falu l t w => Sys2Proof.Machine.execFalu l t w s
  | .fcmp l t w => Sys2Proof.Machine.execFcmp l t w s
  | .fcvt l t w => Sys2Proof.Machine.execFcvt l t w s
  | .ld l t w => Sys2Proof.Machine.execLd l t w s
  | .st l t w => Sys2Proof.Machine.execSt l t w s
  | .ldv l t w => Sys2Proof.Machine.execLdv l t w s
  | .stv l t w => Sys2Proof.Machine.execStv l t w s
  | .ldacc l t w => Sys2Proof.Machine.execLdacc l t w s
  | .stacc l t w => Sys2Proof.Machine.execStacc l t w s
  | .br l t w => Sys2Proof.Machine.execBr l t w s
  | .dbnz l t w => Sys2Proof.Machine.execDbnz l t w s
  | .jr l t w => Sys2Proof.Machine.execJr l t w s
  | .endBlock l t w => Sys2Proof.Machine.execEndBlock l t w s
  | .stepend l t w => Sys2Proof.Machine.execStepend l t w s
  | .mma l t w => Sys2Proof.Machine.execMma l t w s
  | .acc l t w => Sys2Proof.Machine.execAcc l t w s
  | .vop l t w => Sys2Proof.Machine.execVop l t w s
  | .vcvt l t w => Sys2Proof.Machine.execVcvt l t w s
  | .vmisc l t w => Sys2Proof.Machine.execVmisc l t w s
  | .ivop l t w => Sys2Proof.Machine.execIvop l t w s
  | .ivcvt l t w => Sys2Proof.Machine.execIvcvt l t w s
  | .send l t w => Sys2Proof.Machine.execSend l t w s
  | .release l t w => Sys2Proof.Machine.execRelease l t w s
  | .chhead l t w => Sys2Proof.Machine.execChhead l t w s
  | .dma l t w => Sys2Proof.Machine.execDma l t w s
  | .srr l t w => Sys2Proof.Machine.execSrr l t w s
  | .flags l t w => Sys2Proof.Machine.execFlags l t w s
  | .flitLost l frame => Sys2Proof.Machine.execFlitLost l frame s
  | .laneSilentLost l => Sys2Proof.Machine.execLaneSilentLost l s
  | .selfCheckFailure l tile => Sys2Proof.Machine.execSelfCheckFailure l tile s
  | .mergeLimitReached => Sys2Proof.Machine.execMergeLimitReached s
  | .authorityGrant => Sys2Proof.Machine.execAuthorityGrant s
  | .authorityAck l => Sys2Proof.Machine.execAuthorityAck l s
  | .authorityAckTimeout => Sys2Proof.Machine.execAuthorityAckTimeout s
  | .drillGrant => Sys2Proof.Machine.execDrillGrant s
  | .refereeCrossCheckFail => Sys2Proof.Machine.execRefereeCrossCheckFail s
  | .laneWipeDone l => Sys2Proof.Machine.execLaneWipeDone l s
  | .laneSelfTestDone l failed linkFault => Sys2Proof.Machine.execLaneSelfTestDone l failed linkFault s
  | .resyncCopyDone l => Sys2Proof.Machine.execResyncCopyDone l s
  | .resyncJoin l => Sys2Proof.Machine.execResyncJoin l s
  | .resyncTimeout l => Sys2Proof.Machine.execResyncTimeout l s
  | .laneLinkFailure => Sys2Proof.Machine.execLaneLinkFailure s
  | .lockstepDisagree => Sys2Proof.Machine.execLockstepDisagree s
  | .rmWatchdogExpiry => Sys2Proof.Machine.execRmWatchdogExpiry s
  | .rmRestartComplete => Sys2Proof.Machine.execRmRestartComplete s
  | .laneQualified l => Sys2Proof.Machine.execLaneQualified l s
  | .laneReady l => Sys2Proof.Machine.execLaneReady l s
  | .startWaitExpiry => Sys2Proof.Machine.execStartWaitExpiry s
  | .autoPredictiveEntry => Sys2Proof.Machine.execAutoPredictiveEntry s
  | .hostWatchdogExpiry => Sys2Proof.Machine.execHostWatchdogExpiry s
  | .deferredWatchdogExpiry => Sys2Proof.Machine.execDeferredWatchdogExpiry s
  | .modelStageDone slot => Sys2Proof.Machine.execModelStageDone slot s
  | .activationPrepareDone => Sys2Proof.Machine.execActivationPrepareDone s
  | .activationBoundary => Sys2Proof.Machine.execActivationBoundary s
  | .activationLoadDone => Sys2Proof.Machine.execActivationLoadDone s
  | .activationStartDone => Sys2Proof.Machine.execActivationStartDone s
  | .activationFirstGrant => Sys2Proof.Machine.execActivationFirstGrant s
  | .hourWindowStart => Sys2Proof.Machine.execHourWindowStart s
  | .sweepDigest => Sys2Proof.Machine.execSweepDigest s
  | .sensorSuspect chip => Sys2Proof.Machine.execSensorSuspect chip s
  | .sensorClear chip => Sys2Proof.Machine.execSensorClear chip s
  | .capacitySample => Sys2Proof.Machine.execCapacitySample s
  | .syncActiveEntry job => Sys2Proof.Machine.execSyncActiveEntry job s
  | .syncActiveEnd job => Sys2Proof.Machine.execSyncActiveEnd job s
  | .shedRepeat scope => Sys2Proof.Machine.execShedRepeat scope s
  | .shedClear scope => Sys2Proof.Machine.execShedClear scope s
  | .overCap chip => Sys2Proof.Machine.execOverCap chip s
  | .telemetry port frame => Sys2Proof.Machine.execTelemetry port frame s
  | .resync port frame => Sys2Proof.Machine.execResync port frame s
  | .trayMissing tray => Sys2Proof.Machine.execTrayMissing tray s
  | .trayLost tray => Sys2Proof.Machine.execTrayLost tray s
  | .trayRecordChange tray => Sys2Proof.Machine.execTrayRecordChange tray s
  | .portDown port => Sys2Proof.Machine.execPortDown port s
  | .portUp port => Sys2Proof.Machine.execPortUp port s
  | .neighbourSolicitation port => Sys2Proof.Machine.execNeighbourSolicitation port s
  | .flowLoss rack us => Sys2Proof.Machine.execFlowLoss rack us s
  | .flowLossRelease rack us => Sys2Proof.Machine.execFlowLossRelease rack us s
  | .coolFaultRelease rack => Sys2Proof.Machine.execCoolFaultRelease rack s
  | .flowSupervisorEval => Sys2Proof.Machine.execFlowSupervisorEval s
  | .lagStageUp group => Sys2Proof.Machine.execLagStageUp group s
  | .lagStageDown group => Sys2Proof.Machine.execLagStageDown group s
  | .leadRotation group steadyS => Sys2Proof.Machine.execLeadRotation group steadyS s
  | .hxApproach => Sys2Proof.Machine.execHxApproach s
  | .hxSupplyHigh => Sys2Proof.Machine.execHxSupplyHigh s
  | .hxClear supply => Sys2Proof.Machine.execHxClear supply s
  | .detectorArmed d inp => Sys2Proof.Machine.execDetectorArmed d inp s
  | .flowStop d inp => Sys2Proof.Machine.execFlowStop d inp s
  | .flowStopClear d inp => Sys2Proof.Machine.execFlowStopClear d inp s
  | .isolationExitBypass rack => Sys2Proof.Machine.execIsolationExitBypass rack s
  | .currentLoopPeriod inp => Sys2Proof.Machine.execCurrentLoopPeriod inp s
  | .startAttempt m => Sys2Proof.Machine.execStartAttempt m s
  | .alignEnd m => Sys2Proof.Machine.execAlignEnd m s
  | .rampEnd m => Sys2Proof.Machine.execRampEnd m s
  | .verifyEnd m emfOk => Sys2Proof.Machine.execVerifyEnd m emfOk s
  | .rotorSpinTimeout m => Sys2Proof.Machine.execRotorSpinTimeout m s
  | .startRetry m => Sys2Proof.Machine.execStartRetry m s
  | .attemptCountClear m => Sys2Proof.Machine.execAttemptCountClear m s
  | .inverterFault m => Sys2Proof.Machine.execInverterFault m s
  | .overcurrentTrip m => Sys2Proof.Machine.execOvercurrentTrip m s
  | .motorTripRestart m => Sys2Proof.Machine.execMotorTripRestart m s
  | .motorOverspeed m => Sys2Proof.Machine.execMotorOverspeed m s
  | .runningStall m => Sys2Proof.Machine.execRunningStall m s
  | .groupOverrideEnd m => Sys2Proof.Machine.execGroupOverrideEnd m s
  | .busUndervoltage m => Sys2Proof.Machine.execBusUndervoltage m s
  | .busOvervoltage m => Sys2Proof.Machine.execBusOvervoltage m s
  | .busVoltageRestored m => Sys2Proof.Machine.execBusVoltageRestored m s
  | .tachFault m => Sys2Proof.Machine.execTachFault m s
  | .tachClear m => Sys2Proof.Machine.execTachClear m s
  | .tachMismatch m => Sys2Proof.Machine.execTachMismatch m s
  | .valveEntryApply => Sys2Proof.Machine.execValveEntryApply s
  | .pullInEnd v => Sys2Proof.Machine.execPullInEnd v s
  | .decayEnd v => Sys2Proof.Machine.execDecayEnd v s
  | .deferredStart v => Sys2Proof.Machine.execDeferredStart v s
  | .valveDeferFault v => Sys2Proof.Machine.execValveDeferFault v s
  | .boostWaitExpiry => Sys2Proof.Machine.execBoostWaitExpiry s
  | .valveDegradedPullin v => Sys2Proof.Machine.execValveDegradedPullin v s
  | .valveOpenCoil v => Sys2Proof.Machine.execValveOpenCoil v s
  | .valveShortedCoil v mA => Sys2Proof.Machine.execValveShortedCoil v mA s
  | .valveStuckOn v => Sys2Proof.Machine.execValveStuckOn v s
  | .highSideSwitchFault v => Sys2Proof.Machine.execHighSideSwitchFault v s
  | .valveHoldLow v => Sys2Proof.Machine.execValveHoldLow v s
  | .decayTooSlow v => Sys2Proof.Machine.execDecayTooSlow v s
  | .pairImbalance v => Sys2Proof.Machine.execPairImbalance v s
  | .inputFault chan which => Sys2Proof.Machine.execInputFault chan which s
  | .inputClear chan which => Sys2Proof.Machine.execInputClear chan which s
  | .settlingEnd chan => Sys2Proof.Machine.execSettlingEnd chan s
  | .inputSuspect chan on lo hi ticks => Sys2Proof.Machine.execInputSuspect chan on lo hi ticks s
  | .sysShdn chan us => Sys2Proof.Machine.execSysShdn chan us s
  | .tcritStrapChanged tcritSel netSpd => Sys2Proof.Machine.execTcritStrapChanged tcritSel netSpd s
  | .leakWet chan mohm => Sys2Proof.Machine.execLeakWet chan mohm s
  | .leakBreak chan => Sys2Proof.Machine.execLeakBreak chan s
  | .leakDry chan => Sys2Proof.Machine.execLeakDry chan s
  | .leakFault chan => Sys2Proof.Machine.execLeakFault chan s
  | .pulseFloating chan => Sys2Proof.Machine.execPulseFloating chan s
  | .pulseZero chan => Sys2Proof.Machine.execPulseZero chan s
  | .harnessPresenceGain rack => Sys2Proof.Machine.execHarnessPresenceGain rack s
  | .harnessRemoved rack => Sys2Proof.Machine.execHarnessRemoved rack s
  | .harnessReadDone rack mem => Sys2Proof.Machine.execHarnessReadDone rack mem s
  | .canFrameReceived chan f => Sys2Proof.Machine.execCanFrameReceived chan f s
  | .canFdIgnored chan => Sys2Proof.Machine.execCanFdIgnored chan s
  | .canOutSend entry => Sys2Proof.Machine.execCanOutSend entry s
  | .canEntryStale entry => Sys2Proof.Machine.execCanEntryStale entry s
  | .busErrorPassive chan tec recc => Sys2Proof.Machine.execBusErrorPassive chan tec recc s
  | .busOff chan => Sys2Proof.Machine.execBusOff chan s
  | .busRecovered chan => Sys2Proof.Machine.execBusRecovered chan s
  | .busHoldOffEnd chan => Sys2Proof.Machine.execBusHoldOffEnd chan s
  | .canLockExpiry chan buf => Sys2Proof.Machine.execCanLockExpiry chan buf s
  | .autobaudCandidateEnd chan error => Sys2Proof.Machine.execAutobaudCandidateEnd chan error s
  | .eventStage l e => Sys2Proof.Machine.execEventStage l e s
  | .eventSeqAssign => Sys2Proof.Machine.execEventSeqAssign s
  | .gap l => Sys2Proof.Machine.execGap l s
  | .eventRingWrite => Sys2Proof.Machine.execEventRingWrite s
  | .emmcWriteFault => Sys2Proof.Machine.execEmmcWriteFault s
  | .countRecord counter => Sys2Proof.Machine.execCountRecord counter s
  | .captureWriteStart => Sys2Proof.Machine.execCaptureWriteStart s
  | .captureDone => Sys2Proof.Machine.execCaptureDone s
  | .handoverStep => Sys2Proof.Machine.execHandoverStep s
  | .rmSwap => Sys2Proof.Machine.execRmSwap s
  | .partConfirmed part => Sys2Proof.Machine.execPartConfirmed part s
  | .partFailed part => Sys2Proof.Machine.execPartFailed part s
  | .trialExpired => Sys2Proof.Machine.execTrialExpired s
  | .updateConfirmed => Sys2Proof.Machine.execUpdateConfirmed s
  | .updateRollback => Sys2Proof.Machine.execUpdateRollback s
  | .lifecycleReset => Sys2Proof.Machine.execLifecycleReset s
  | .laneLinkReturn => Sys2Proof.Machine.execLaneLinkReturn s
  | .leakBreakClear chan => Sys2Proof.Machine.execLeakBreakClear chan s
  | .rowWakeComplete l y => Sys2Proof.Machine.execRowWakeComplete l y s
  | .canFrameSent entry => Sys2Proof.Machine.execCanFrameSent entry s
  | .peakCurrentReached v us boosted => Sys2Proof.Machine.execPeakCurrentReached v us boosted s
  | .faultyPacket q bs dmaOk => Sys2Proof.Machine.execFaultyPacket q bs dmaOk s

end Sys2Proof.Machine
end

