-- ==== Sys2Proof/WellFormed.lean ====
section
/-! DEFINITION. Well-formed commands: operands within what the spec lets the command carry. A command that is not well-formed still
has its effect (exec takes any command); these are the forms a sender that keeps the spec sends. -/

namespace Sys2Proof

open Machine

/-- A parameter block of version 1 whose size field is its length (00 R6; 18 R436): at least `size` bytes, its reserved ranges zero. -/
def Machine.Packet.blockOk (p : Packet) (size : Nat) (reserved : List (Nat × Nat)) : Bool :=
  decide (u16At p.block 0 = 1) && decide (u16At p.block 2 = p.block.length) && decide (4 ≤ size ∧ size ≤ p.block.length) &&
    decide (p.block.length % 4 = 0) && reserved.all fun r => zeroRange p.block r.1 r.2

/-- A packet of one of the eight queues (18 Table 18.1, check 4): its opcode, its two flags, its header, its block. -/
def Machine.Packet.fits (p : Packet) (opcode size : Nat) (reserved : List (Nat × Nat)) : Bool :=
  decide (p.sq < 8) && decide (p.opcode = opcode) && decide (p.flags < 4) && decide (16 ≤ p.hdr ∧ p.hdr % 4 = 0) &&
    decide (p.hdr + p.block.length ≤ 65536) && p.blockOk size reserved

/-- A register offset of BAR0: 4-byte aligned, inside 16 MiB (17). -/
def regOk (off : Nat) : Bool := decide (off % 4 = 0 ∧ off < 0x1000000)

/-- A measurement index of one byte. -/
def measAskOk : MeasAsk → Bool
  | .count => true
  | .one i => decide (i < 256)
  | .all => true

/-- A frame's addresses (09 R238). -/
def frameOk (f : UpFrame) : Bool := decide (f.mac.length = 6 ∧ f.ipv6.length = 16)

/-- A scope of a budget: a group, or 255 the row (08 R215). -/
def scopeOk (n : Nat) : Bool := decide (n < 16 ∨ n = 255)

/-- A delivered output names a slot, a motor channel, a group or a valve channel that exists. -/
def deliveryOk : Delivery → Bool
  | .loop n _ => decide (n < 256)
  | .result _ target _ _ _ => decide (target < 4096)
  | .speedFloor group _ => decide (group < 4)
  | .permit motor _ => decide (motor < 56)
  | .valve _ entry chan action => decide (entry < 64 ∧ chan < 64 ∧ action < 3)
  | .completion _ => true

/-- Inputs of a tick name channels that exist. -/
def inputsOk (inp : TickInputs) : Bool :=
  (inp.analog.all fun x => decide (x.chan < 256)) && (inp.leak.all fun x => decide (x.chan < 64)) &&
    (inp.pulse.all fun x => decide (x.chan < 64)) && (inp.coils.all fun x => decide (x.1 < 64)) && inp.boost.all fun x => decide (x.1 < 2)

/-- A CAN frame's identifier and length code (14). -/
def canOk (f : CanFrame) : Bool := decide (f.ident < if f.ide then 2 ^ 29 else 2 ^ 11) && decide (f.dlc < 16 ∧ f.data.length ≤ 64)

/-- A part type of a firmware set (20 Table 20.2). -/
def partOk (n : Nat) : Bool := decide (1 ≤ n ∧ n ≤ 5)

/-- The check of a command. -/
def Instr.wf : Instr → Bool
  | .nopEcho p => p.fits 0x0101 20 [(4, 4)]
  | .getIdentity p => p.fits 0x0102 8 [(4, 4)]
  | .snapshotRead p _ => p.fits 0x0103 24 [(6, 2)]
  | .resultFetch p => p.fits 0x0104 8 []
  | .queueBarrier p => p.fits 0x0105 8 [(6, 2)]
  | .hostHeartbeat p => p.fits 0x0106 8 [(4, 4)]
  | .loopConfigure p => p.fits 0x0201 632 []
  | .loopSetMode p => p.fits 0x0202 12 []
  | .loopSetPoint p => p.fits 0x0203 16 [(6, 2)]
  | .loopStatus p => p.fits 0x0204 16 [(5, 1)]
  | .modelStage p => p.fits 0x0301 8 [(5, 3)]
  | .modelActivate p => p.fits 0x0302 8 [(6, 2)]
  | .modelStatus p => p.fits 0x0303 16 [(4, 4)]
  | .couplingAccess p => p.fits 0x0304 32 [(5, 3), (28, 4)]
  | .forecastRead p => p.fits 0x0305 24 [(5, 3), (12, 4)]
  | .jobDefine p => p.fits 0x0401 528 [(12, 4)]
  | .rowEnvelopeSet p => p.fits 0x0402 112 []
  | .capSet p => p.fits 0x0403 16 []
  | .pacePolicySet p => p.fits 0x0404 16 []
  | .swingPolicySet p => p.fits 0x0405 16 []
  | .governorStatus p => p.fits 0x0406 24 [(5, 3), (12, 4)]
  | .pumpConfigure p => p.fits 0x0501 8 []
  | .fanConfigure p => p.fits 0x0502 8 []
  | .motorCommand p => p.fits 0x0503 8 [(6, 2)]
  | .skipBandsSet p => p.fits 0x0504 28 [(6, 2)]
  | .networkConfigure p => p.fits 0x0505 17072 [(4, 4)]
  | .valveConfigure p => p.fits 0x0601 40 []
  | .valveCommand p => p.fits 0x0602 12 [(6, 2)]
  | .valveStatus p => p.fits 0x0603 24 [(6, 10)]
  | .inputConfigure p => p.fits 0x0701 8 []
  | .leakConfigure p => p.fits 0x0702 32 []
  | .harnessRead p => p.fits 0x0703 24 [(6, 10)]
  | .busConfigure p => p.fits 0x0801 8 []
  | .busAutobaud p => p.fits 0x0802 32 [(12, 4)]
  | .modeRequest p => p.fits 0x0901 12 [(10, 2)]
  | .trapezeDrill p => p.fits 0x0902 8 [(6, 2)]
  | .laneStatus p => p.fits 0x0903 16 [(4, 4)]
  | .eventRead p _ => p.fits 0x0A01 24 [(7, 1)]
  | .captureRequest p => p.fits 0x0A02 16 [(5, 3), (12, 4)]
  | .captureRead p => p.fits 0x0A03 32 [(5, 3), (20, 4)]
  | .updateStage p _ => p.fits 0x0B01 24 [(5, 3), (20, 4)]
  | .updateActivate p => p.fits 0x0B02 4 []
  | .updateConfirm p => p.fits 0x0B03 8 [(5, 3)]
  | .updateStatus p _ => p.fits 0x0B04 16 [(4, 4)]
  | .attest p _ => p.fits 0x0B05 56 [(5, 3), (48, 8)]
  | .lifecycleSet p => p.fits 0x0B06 8 [(6, 2)]
  | .commandDelivery => true
  | .deliveryCommit _ _ => true
  | .completionWrite _ _ => true
  | .heldResultReady _ => true
  | .cqCoalesceTimeout _ => true
  | .genReset _ => true
  | .viewHoldWrite _ => true
  | .loRegisterRead off => regOk off && decide (off % 8 = 0)
  | .hiRegisterRead off => regOk off && decide (off % 8 = 4)
  | .rcRegisterRead off => regOk off
  | .sqTailDoorbell _ _ => true
  | .cqHeadDoorbell _ => true
  | .sqEnableWrite _ _ => true
  | .cqEnableWrite _ => true
  | .dpDataAccess _ _ _ => true
  | .dpApertureAccess off _ wide _ => decide (off.val % (if wide then 8 else 4) = 0)
  | .bar2Access off _ wide _ => decide (off.val % (if wide then 8 else 4) = 0)
  | .laneHoldWrite _ => true
  | .canBufferLock _ _ => true
  | .canBufferRelease _ _ => true
  | .registerWrite off _ _ => regOk off
  | .latchedWritesApply => true
  | .doeDiscovery _ => true
  | .doeAbort => true
  | .getVersion => true
  | .getCapabilities version => decide (version < 256)
  | .negotiateAlgorithms _ _ _ => true
  | .getDigests => true
  | .getCertificate slot offset length => decide (slot < 16 ∧ offset < 65536 ∧ length < 65536)
  | .challenge slot nonce => decide (slot < 16 ∧ nonce.length = 32)
  | .getMeasurements ask sign nonce => measAskOk ask && (!sign || decide (nonce.length = 32))
  | .perstN => true
  | .hotReset => true
  | .functionLevelReset => true
  | .d3hotEntry => true
  | .d0Return => true
  | .powerOnReset _ _ => true
  | .powerFail => true
  | .actuatorSupplyLost => true
  | .actuatorSupplyReturn => true
  | .strongmanReady _ => true
  | .strongmanFault _ => true
  | .strongmanRetry _ => true
  | .rmBootComplete => true
  | .tickStart inp => inputsOk inp
  | .frameReady => true
  | .laneOutputDelivery _ ns d => decide (ns < 100000) && deliveryOk d
  | .loopReleaseDeadline _ => true
  | .releaseWindowOpen => true
  | .releaseWindowClose => true
  | .stepComplete _ => true
  | .stepAbort => true
  | .viewPublish => true
  | .viewHoldExpiry => true
  | .gptpSyncReceived _ _ _ => true
  | .syncTimeout _ => true
  | .tileBlockFire _ _ => true
  | .messageArrival _ _ => true
  | .creditArrival _ _ _ => true
  | .dmaCompletion _ _ => true
  | .outputCollect _ _ => true
  | .alu _ _ _ => true
  | .addi _ _ _ => true
  | .andi _ _ _ => true
  | .ori _ _ _ => true
  | .xori _ _ _ => true
  | .lui _ _ _ => true
  | .shi _ _ _ => true
  | .falu _ _ _ => true
  | .fcmp _ _ _ => true
  | .fcvt _ _ _ => true
  | .ld _ _ _ => true
  | .st _ _ _ => true
  | .ldv _ _ _ => true
  | .stv _ _ _ => true
  | .ldacc _ _ _ => true
  | .stacc _ _ _ => true
  | .br _ _ _ => true
  | .dbnz _ _ _ => true
  | .jr _ _ _ => true
  | .endBlock _ _ _ => true
  | .stepend _ _ _ => true
  | .mma _ _ _ => true
  | .acc _ _ _ => true
  | .vop _ _ _ => true
  | .vcvt _ _ _ => true
  | .vmisc _ _ _ => true
  | .ivop _ _ _ => true
  | .ivcvt _ _ _ => true
  | .send _ _ _ => true
  | .release _ _ _ => true
  | .chhead _ _ _ => true
  | .dma _ _ _ => true
  | .srr _ _ _ => true
  | .flags _ _ _ => true
  | .flitLost _ _ => true
  | .laneSilentLost _ => true
  | .selfCheckFailure _ tile => tile.all fun n => decide (n < 1024)
  | .mergeLimitReached => true
  | .authorityGrant => true
  | .authorityAck _ => true
  | .authorityAckTimeout => true
  | .drillGrant => true
  | .refereeCrossCheckFail => true
  | .laneWipeDone _ => true
  | .laneSelfTestDone _ failed _ => failed.all fun n => decide (n < 1024)
  | .resyncCopyDone _ => true
  | .resyncJoin _ => true
  | .resyncTimeout _ => true
  | .laneLinkFailure => true
  | .lockstepDisagree => true
  | .rmWatchdogExpiry => true
  | .rmRestartComplete => true
  | .laneQualified _ => true
  | .laneReady _ => true
  | .startWaitExpiry => true
  | .autoPredictiveEntry => true
  | .hostWatchdogExpiry => true
  | .deferredWatchdogExpiry => true
  | .modelStageDone _ => true
  | .activationPrepareDone => true
  | .activationBoundary => true
  | .activationLoadDone => true
  | .activationStartDone => true
  | .activationFirstGrant => true
  | .hourWindowStart => true
  | .sweepDigest => true
  | .sensorSuspect _ => true
  | .sensorClear _ => true
  | .capacitySample => true
  | .syncActiveEntry _ => true
  | .syncActiveEnd _ => true
  | .shedRepeat scope => scopeOk scope
  | .shedClear scope => scopeOk scope
  | .overCap _ => true
  | .telemetry _ f => frameOk f
  | .resync _ f => frameOk f
  | .trayMissing _ => true
  | .trayLost _ => true
  | .trayRecordChange _ => true
  | .portDown _ => true
  | .portUp _ => true
  | .neighbourSolicitation _ => true
  | .flowLoss _ _ => true
  | .flowLossRelease _ _ => true
  | .coolFaultRelease _ => true
  | .flowSupervisorEval => true
  | .lagStageUp _ => true
  | .lagStageDown _ => true
  | .leadRotation _ _ => true
  | .hxApproach => true
  | .hxSupplyHigh => true
  | .hxClear _ => true
  | .detectorArmed _ _ => true
  | .flowStop _ _ => true
  | .flowStopClear _ _ => true
  | .isolationExitBypass _ => true
  | .currentLoopPeriod inp => inp.all fun x => decide (x.chan < 56)
  | .startAttempt _ => true
  | .alignEnd _ => true
  | .rampEnd _ => true
  | .verifyEnd _ _ => true
  | .rotorSpinTimeout _ => true
  | .startRetry _ => true
  | .attemptCountClear _ => true
  | .inverterFault _ => true
  | .overcurrentTrip _ => true
  | .motorTripRestart _ => true
  | .motorOverspeed _ => true
  | .runningStall _ => true
  | .groupOverrideEnd _ => true
  | .busUndervoltage _ => true
  | .busOvervoltage _ => true
  | .busVoltageRestored _ => true
  | .tachFault _ => true
  | .tachClear _ => true
  | .tachMismatch _ => true
  | .valveEntryApply => true
  | .pullInEnd _ => true
  | .decayEnd _ => true
  | .deferredStart _ => true
  | .valveDeferFault _ => true
  | .boostWaitExpiry => true
  | .valveDegradedPullin _ => true
  | .valveOpenCoil _ => true
  | .valveShortedCoil _ _ => true
  | .valveStuckOn _ => true
  | .highSideSwitchFault _ => true
  | .valveHoldLow _ => true
  | .decayTooSlow _ => true
  | .pairImbalance _ => true
  | .inputFault _ _ => true
  | .inputClear _ _ => true
  | .settlingEnd _ => true
  | .inputSuspect _ _ _ _ _ => true
  | .sysShdn _ _ => true
  | .tcritStrapChanged _ _ => true
  | .leakWet _ _ => true
  | .leakBreak _ => true
  | .leakDry _ => true
  | .leakFault _ => true
  | .pulseFloating _ => true
  | .pulseZero _ => true
  | .harnessPresenceGain _ => true
  | .harnessRemoved _ => true
  | .harnessReadDone _ mem => decide (mem.length = 256)
  | .canFrameReceived _ f => canOk f
  | .canFdIgnored _ => true
  | .canOutSend entry => decide (entry < 64)
  | .canEntryStale entry => decide (entry < 64)
  | .busErrorPassive _ tec recc => decide (tec < 65536 ∧ recc < 65536)
  | .busOff _ => true
  | .busRecovered _ => true
  | .busHoldOffEnd _ => true
  | .canLockExpiry _ _ => true
  | .autobaudCandidateEnd _ _ => true
  | .eventStage _ e => decide (e.cls < 6 ∧ e.ty < 65536 ∧ e.data.length ≤ 5)
  | .eventSeqAssign => true
  | .gap _ => true
  | .eventRingWrite => true
  | .emmcWriteFault => true
  | .countRecord _ => true
  | .captureWriteStart => true
  | .captureDone => true
  | .handoverStep => true
  | .rmSwap => true
  | .partConfirmed part => partOk part
  | .partFailed part => partOk part
  | .trialExpired => true
  | .updateConfirmed => true
  | .updateRollback => true
  | .lifecycleReset => true
  | .laneLinkReturn => true
  | .leakBreakClear _ => true
  | .rowWakeComplete _ _ => true
  | .canFrameSent entry => decide (entry < 64)
  | .peakCurrentReached _ _ _ => true
  | .faultyPacket _ bs _ => decide (16 ≤ bs.length ∧ bs.length ≤ 65536)

end Sys2Proof
end

