-- ==== Sys2Proof/Safety.lean ====
section
/-! DEFINITION. What counts as a safe run, and the frames in which claims say what a command leaves as it was. -/

namespace Sys2Proof.Machine

/-- A run of `n` steps is safe: none of them stops. -/
def SafeRun : Nat → State → Prop
  | 0, _ => True
  | n + 1, s => ∃ t, step s = .next t ∧ SafeRun n t

/-! ## Frames: what one command may change -/

/-- Nothing but motor channel `n`. -/
def OnlyMotor (n : Nat) (s t : State) : Prop := (∀ i, i ≠ n → t.motor i = s.motor i) ∧ t = { s with motors := t.motors }

/-- Nothing but motor channel `n` and one Ringmaster record. -/
def OnlyMotorLog (n : Nat) (s : State) (cls ty : Nat) (data : List U32) (t : State) : Prop :=
  (∀ i, i ≠ n → t.motor i = s.motor i) ∧ t = { s with motors := t.motors }.logRm cls ty (w32 n) data

/-- Nothing but the valve drive, completions (with the configuration they carry) and Ringmaster records. -/
def ValveFrame (s t : State) : Prop := t = { s with valve := t.valve, proto := t.proto, nor := t.nor, evt := t.evt }

/-- Lane `a` is active and the other standby, in DUPLEX, with no gap, drill, hold or update in progress. -/
def InDuplex (a : LaneId) (s : State) : Prop :=
  s.laneCtl.redundancy = .duplex ∧ s.laneCtl.active = a ∧ (s.lane a).run = .active ∧ (s.lane a.other).run = .standby ∧
  s.laneCtl.held = false ∧ s.laneCtl.gap = false ∧ s.laneCtl.granting = none ∧ s.laneCtl.drillCmd = none ∧
  s.laneCtl.holdA = false ∧ s.laneCtl.holdB = false ∧ s.mode.update = .idle

/-- Nothing but the lanes and their control, the results held, images' k, completions, the log, interrupts and fence records. -/
def LaneFrame (s t : State) : Prop :=
  t = { s with laneCtl := t.laneCtl, laneA := t.laneA, laneB := t.laneB, tick := t.tick, img := t.img, proto := t.proto,
               evt := t.evt, hif := t.hif, cfg := t.cfg, nor := t.nor }

/-- Lane `l` of a DUPLEX whose active lane is `a` has been lost with a reason of 15 R388: wiped and in reset, its copies of held results
gone; a lost standby leaves SIMPLEX, a lost active lane the switch-over gap with completions delayed. -/
def LaneLost (a l : LaneId) (reason : Nat) (s t : State) : Prop :=
  t.lane l = (s.lane l).wiped .reset ∧ t.lane l.other = s.lane l.other ∧ (t.laneCtl.stat l).lastLoss = reason ∧
  t.laneCtl.redundancy = .simplexOn l.other ∧ t.tick.held = dropCopies l s.tick.held ∧
  t.laneCtl.merge = false ∧ t.laneCtl.counts = [] ∧ t.laneCtl.event.getLsbD 4 = true ∧ t.laneCtl.active = a ∧
  (if l = a then t.laneCtl.gap = true ∧ t.laneCtl.held = true ∧ t.proto = s.proto.delayReady ∧
      t.laneCtl.cntSwitchover = satTo 32 (s.laneCtl.cntSwitchover + 1)
    else t.laneCtl.gap = false ∧ t.laneCtl.held = false ∧ t.proto = s.proto ∧ t.laneCtl.cntSwitchover = s.laneCtl.cntSwitchover)

/-- An instruction of tile `t` in lane `l` has retired: nothing changed but the array, which is `a` with the tile `y`, its next word fetched. -/
def TileRetires (l : LaneId) (t : Nat) (s s' : State) (a : ArraySt) (y : Tile) : Prop :=
  s' = s.setLane l { s.lane l with array := (a.setTile t y).fetch t }

/-- An instruction of the tile has faulted with a code of Table 6.11: the sequencer stops where it stands, and nothing else changed. -/
def TileFaults (l : LaneId) (t : Nat) (s s' : State) (code : Nat) : Prop :=
  s' = s.setLane l { s.lane l with
    array := (s.lane l).array.setTile t { (s.lane l).array.tile t with seq := .fault code } }

/-! ## Host opcodes: the packet taken, and its completion -/

/-- The module holds no packet or result under the tag of `p`, which has no ASYNC flag, and would not drop its completion. -/
def State.accepts (s : State) (p : Packet) : Prop :=
  (∀ i ∈ s.proto.issued, i.tag ≠ p.tag) ∧ (∀ h ∈ s.proto.held, h.tag ≠ p.tag) ∧ s.proto.dropIds.contains s.proto.nextId = false ∧ p.async = false

/-- Packet `p` as it is taken: under the next id, with opcode `op`. -/
def State.taken (s : State) (op : Nat) (p : Packet) : Packet := { p with opcode := op, id := s.proto.nextId }

/-- The protocol tables with packet `p` of opcode `op` outstanding. -/
def State.took (s : State) (op : Nat) (p : Packet) : ProtoSt :=
  { s.proto with
    nextId := s.proto.nextId + 1
    issued := s.proto.issued ++ [{ id := s.proto.nextId, sq := p.sq, tag := p.tag, opcode := op
                                   barrier := if op = 0x0105 then some (u8At p.block 4) else none }] }

/-- The protocol tables after `p` has been taken and completed with reply `r`: its completion is ready, nothing else has changed. -/
def State.answered (s : State) (op : Nat) (p : Packet) (r : Reply) : ProtoSt :=
  { s.took op p with ready := s.proto.ready ++ [mkCompletion (s.taken op p) s.now r false s.holdsBack] }

/-- The protocol tables after `p` has been taken and runs on, its changes to the store with it. -/
def State.begun (s : State) (op : Nat) (p : Packet) (save : List CfgItem) : ProtoSt :=
  { s.took op p with running := s.proto.running ++ [{ packet := s.taken op p, commit := s.now, async := false, save := save }] }

/-- The host opcodes with a packet alone, and their codes (18 Table 18.8). -/
def hostOps : List ((Packet → Instr) × Nat) :=
  [(.nopEcho, 0x0101), (.getIdentity, 0x0102), (fun p => .snapshotRead p true, 0x0103), (.resultFetch, 0x0104), (.queueBarrier, 0x0105),
    (.hostHeartbeat, 0x0106), (.loopConfigure, 0x0201), (.loopSetMode, 0x0202), (.loopSetPoint, 0x0203), (.loopStatus, 0x0204)] ++
  [(.modelStage, 0x0301), (.modelActivate, 0x0302), (.modelStatus, 0x0303), (.couplingAccess, 0x0304), (.forecastRead, 0x0305),
    (.jobDefine, 0x0401), (.rowEnvelopeSet, 0x0402), (.capSet, 0x0403), (.pacePolicySet, 0x0404), (.swingPolicySet, 0x0405),
    (.governorStatus, 0x0406)] ++
  [(.pumpConfigure, 0x0501), (.fanConfigure, 0x0502), (.motorCommand, 0x0503), (.skipBandsSet, 0x0504), (.networkConfigure, 0x0505),
    (.valveConfigure, 0x0601), (.valveCommand, 0x0602), (.valveStatus, 0x0603), (.inputConfigure, 0x0701), (.leakConfigure, 0x0702),
    (.harnessRead, 0x0703), (.busConfigure, 0x0801), (.busAutobaud, 0x0802)] ++
  [(.modeRequest, 0x0901), (.trapezeDrill, 0x0902), (.laneStatus, 0x0903), (fun p => .eventRead p true, 0x0A01), (.captureRequest, 0x0A02),
    (.captureRead, 0x0A03), (fun p => .updateStage p true, 0x0B01), (.updateActivate, 0x0B02), (.updateConfirm, 0x0B03),
    (fun p => .updateStatus p true, 0x0B04), (fun p => .attest p true, 0x0B05), (.lifecycleSet, 0x0B06)]

/-- The CONFIG_CHANGE record of packet `p`, accepted, has been logged by every running lane (19 R472). -/
def State.cfgLogged (s : State) (op : Nat) (p : Packet) : State := s.logConfig (s.taken op p) 0

/-- Every running lane's DRAM has had `bs` written at address `a` of the transfer area, and no lane has changed otherwise. -/
def State.Transferred (s t : State) (a : Nat) (bs : List Byte) : Prop :=
  ∀ l, t.lane l = if (s.lane l).isRunning then { s.lane l with dram := (s.lane l).dram.writeBytes a bs } else s.lane l

/-- A lane runs, and neither HANDOVER, RETURN, BLANK nor the Safety Net refuses a command of the host (16 R408; the axis tables). -/
def State.serves (s : State) : Prop :=
  s.anyLane = true ∧ s.mode.update = .idle ∧ s.mode.lifeCycle = .operational ∧ s.inNet = false ∧ s.activating = false

end Sys2Proof.Machine
end

