-- ==== Sys2Proof/Certificates/Slice0/Obligations.lean ====
section
/-! DEFINITION. The statements about the block, for the provers. -/

open Sys2Proof Sys2Proof.Machine

/-- Upward frames of a tray (09). -/
def Obligations.TrayFrames : Prop :=
  (∀ (port : Fin 4) (f : UpFrame) (s : State) (n : Nat) (seq inc : U32), f.formOk → s.frameFault port.val f = none →
      u8At f.payload 4 = 1 → n = u16At f.payload 6 → inc = BitVec.ofNat 32 (u32At f.payload 8) →
      seq = BitVec.ofNat 32 (u32At f.payload 0x0C) → (s.trayDyn n).state = .live → (s.trayDyn n).incarnation = some inc →
      (∀ x ∈ (s.trayDyn n).seqs, 0 < seqDiff seq x) →
    ∃ t, exec (.telemetry port f) s = .next t ∧ t = { s with tray := t.tray } ∧ (∀ i, i ≠ n → t.trayDyn i = s.trayDyn i) ∧
      (t.trayDyn n).state = .live ∧ seq ∈ (t.trayDyn n).seqs ∧
      (t.trayDyn n).newLatch = some (seq, (List.range (u8At f.payload 0x20)).map fun i => chipRecAt f.payload (40 + 16 * i)) ∧
      (Tab.get {} t.tray.ports port.val).rxFrames = satTo 32 ((Tab.get {} s.tray.ports port.val).rxFrames + 1)) ∧
  (∀ (port : Fin 4) (f : UpFrame) (s : State) (n : Nat) (seq inc : U32), f.formOk → s.frameFault port.val f = none →
      u8At f.payload 4 = 2 → n = u16At f.payload 6 → inc = BitVec.ofNat 32 (u32At f.payload 8) →
      seq = BitVec.ofNat 32 (u32At f.payload 0x0C) → (s.trayDyn n).state = .live →
      ((s.trayDyn n).incarnation = some inc → ∀ x ∈ (s.trayDyn n).seqs, 0 < seqDiff seq x) →
    ∃ t, exec (.resync port f) s = .next t ∧ t = { s with tray := t.tray, evt := t.evt } ∧ (∀ i, i ≠ n → t.trayDyn i = s.trayDyn i) ∧
      (t.trayDyn n).state = .resync ∧ (t.trayDyn n).incarnation = some inc ∧ (t.trayDyn n).newLatch = none ∧
      t.evt = (s.logRm 1 0x0D03 (w32 n) [w32 (s.trayRec n).rack, inc]).evt ∧
      ∃ r, Tab.get none t.tray.sent n = some r ∧ r.ty = 0x11 ∧ bit r.flags 1 = true ∧ r.incarnation = inc)

/-- Tray states (09, Table 9.8) and ports. -/
def Obligations.TrayStatesAndPorts : Prop :=
  (∀ (n : Fin 512) (s : State), (s.trayDyn n.val).state = .live → 3 ≤ (s.trayDyn n.val).age → (s.trayDyn n.val).newLatch = none →
    ∃ t, exec (.trayMissing n) s = .next t ∧
      t = { s with tray := t.tray }.logRm 2 0x0D01 (w32 n.val) [w32 (s.trayRec n.val).rack, ((s.trayDyn n.val).incarnation).getD none32] ∧
      t.trayDyn n.val = { s.trayDyn n.val with state := .missing } ∧ ∀ i, i ≠ n.val → t.trayDyn i = s.trayDyn i) ∧
  (∀ (n : Fin 512) (s : State), (s.trayDyn n.val).state = .missing ∨ (s.trayDyn n.val).state = .resync → 10000 ≤ (s.trayDyn n.val).age →
    ∃ t, exec (.trayLost n) s = .next t ∧
      t = { s with tray := t.tray }.logRm 3 0x0D02 (w32 n.val) [w32 (s.trayRec n.val).rack, ((s.trayDyn n.val).incarnation).getD none32] ∧
      t.trayDyn n.val = { s.trayDyn n.val with state := .lost } ∧ ∀ i, i ≠ n.val → t.trayDyn i = s.trayDyn i) ∧
  (∀ (n : Fin 512) (s : State), (s.trayDyn n.val).changed → (s.trayRec n.val).enable = false →
    ∃ t, exec (.trayRecordChange n) s = .next t ∧ t = { s with tray := t.tray } ∧ (t.trayDyn n.val).state = .disabled ∧
      (t.trayDyn n.val).latched = [] ∧ (t.trayDyn n.val).newLatch = none ∧ (t.trayDyn n.val).halted = false ∧
      (t.trayDyn n.val).changed = false ∧ ∀ i, i ≠ n.val → t.trayDyn i = s.trayDyn i) ∧
  (∀ (n : Fin 512) (s : State), (s.trayDyn n.val).changed → (s.trayRec n.val).enable →
    ∃ t, exec (.trayRecordChange n) s = .next t ∧ t = { s with tray := t.tray, evt := t.evt } ∧ (t.trayDyn n.val).state = .resync ∧
      (t.trayDyn n.val).incarnation = (s.trayDyn n.val).incarnation ∧ (t.trayDyn n.val).changed = false ∧
      ∀ i, i ≠ n.val → t.trayDyn i = s.trayDyn i) ∧
  (∀ (p : Fin 4) (s : State), (Tab.get {} s.tray.ports p.val).up →
    ∃ t, exec (.portDown p) s = .next t ∧ t = { s with tray := t.tray }.logRm 2 0x0D06 (w32 p.val) [] ∧
      (Tab.get {} t.tray.ports p.val).up = false ∧ (Tab.get {} t.tray.ports p.val).ptp = 0 ∧
      (Tab.get {} t.tray.ports p.val).linkDowns = satTo 32 ((Tab.get {} s.tray.ports p.val).linkDowns + 1) ∧
      ∀ i, i ≠ p.val → Tab.get {} t.tray.ports i = Tab.get {} s.tray.ports i) ∧
  (∀ (p : Fin 4) (s : State), (Tab.get {} s.tray.ports p.val).up = false →
    ∃ t, exec (.portUp p) s = .next t ∧ t = { s with tray := t.tray }.logRm 1 0x0D07 (w32 p.val) [] ∧
      (Tab.get {} t.tray.ports p.val).up = true ∧ ∀ i, i ≠ p.val → Tab.get {} t.tray.ports i = Tab.get {} s.tray.ports i) ∧
  (∀ (p : Fin 4) (s : State),
    ∃ t, exec (.neighbourSolicitation p) s = .next t ∧
      t = { s with tray := { s.tray with neighbourAnswers := t.tray.neighbourAnswers } } ∧
      Tab.get 0 t.tray.neighbourAnswers p.val = Tab.get 0 s.tray.neighbourAnswers p.val + 1)

/-- FLOW_LOSS_N and COOL_FAULT_N (09, Hard-wired lines). -/
def Obligations.HardWiredLines : Prop :=
  (∀ (k : Fin 16) (us : Nat) (s : State), Tab.get false s.tray.flowLoss k.val = false → s.rackTrays k.val → 10 ≤ us →
    ∃ t, exec (.flowLoss k us) s = .next t ∧ t = { s with tray := t.tray }.logRm 4 0x0D05 (w32 k.val) [] ∧
      Tab.get false t.tray.flowLoss k.val = true ∧ Tab.get false t.tray.coolFault k.val = true ∧
      Tab.get 0 t.tray.causes k.val = Tab.get 0 s.tray.causes k.val ||| 1 ∧
      ∀ i, i ≠ k.val → Tab.get false t.tray.coolFault i = Tab.get false s.tray.coolFault i ∧
        Tab.get 0 t.tray.causes i = Tab.get 0 s.tray.causes i) ∧
  (∀ (k : Fin 16) (us : Nat) (s : State), Tab.get false s.tray.flowLoss k.val = false → s.rackTrays k.val = false → 10 ≤ us →
    ∃ t, exec (.flowLoss k us) s = .next t ∧
      t = { s with tray := { s.tray with flowLoss := Tab.set false s.tray.flowLoss k.val true } }.logRm 1 0x0D05 (w32 k.val) []) ∧
  (∀ (k : Fin 16) (us : Nat) (s : State), 1000 ≤ us →
    ∃ t, exec (.flowLossRelease k us) s = .next t ∧ t = { s with tray := t.tray } ∧ Tab.get false t.tray.flowLoss k.val = false ∧
      t.tray.coolFault = s.tray.coolFault ∧ bit (Tab.get 0 t.tray.causes k.val) 0 = false ∧
      (∀ j < 8, bit (Tab.get 0 t.tray.causes k.val) (j + 1) = bit (Tab.get 0 s.tray.causes k.val) (j + 1)) ∧
      ∀ i, i ≠ k.val → Tab.get 0 t.tray.causes i = Tab.get 0 s.tray.causes i) ∧
  (∀ (k : Fin 16) (s : State), s.tick.epoch < Tab.get 0 s.tray.causeEnd k.val + 10000 → exec (.coolFaultRelease k) s = .next s) ∧
  (∀ (k : Fin 16) (s : State), Tab.get 0 s.tray.causes k.val = 0 → Tab.get 0 s.tray.causeEnd k.val + 10000 ≤ s.tick.epoch →
    ∃ t, exec (.coolFaultRelease k) s = .next t ∧ t = { s with tray := { s.tray with coolFault := t.tray.coolFault } } ∧
      Tab.get false t.tray.coolFault k.val = false ∧ ∀ i, i ≠ k.val → Tab.get false t.tray.coolFault i = Tab.get false s.tray.coolFault i)

/-- Staging and rotation of a pump group (10, Pump groups). -/
def Obligations.PumpStagingAndRotation : Prop :=
  (∀ (g : Fin 4) (s : State) (lag : Nat), (s.groupDyn g.val).lag = some lag → s.supervises → s.groupOn g.val →
      s.pumpFailed g.val lag = false → 10 * (s.cfg.topo.group g.val).stageUpS ≤ (s.groupDyn g.val).upRun →
    ∃ t, exec (.lagStageUp g) s = .next t ∧ OnlyMotor lag s t ∧ (t.motor lag).permit = true) ∧
  (∀ (g : Fin 4) (s : State) (lag : Nat), (s.groupDyn g.val).lag = some lag → s.supervises → s.groupOn g.val →
      (s.groupDyn g.val).rotating = false → (s.groupDyn g.val).flowStop = false →
      10 * (s.cfg.topo.group g.val).stageDownS ≤ (s.groupDyn g.val).downRun →
    ∃ t, exec (.lagStageDown g) s = .next t ∧ OnlyMotor lag s t ∧ (t.motor lag).permit = false ∧
      ((s.motor lag).state.driven → (t.motor lag).state = .coast ∧ (t.motor lag).iqApplied = 0)) ∧
  (∀ (g : Fin 4) (n : Nat) (s : State) (lag : Nat), (s.groupDyn g.val).lag = some lag → s.supervises → s.groupOn g.val →
      s.groupTrouble g.val = false → (s.groupDyn g.val).rotating = false → (s.cfg.topo.group g.val).rotateH ≠ 0 →
      36000 * (s.cfg.topo.group g.val).rotateH ≤ (s.groupDyn g.val).leadRun → (s.motor lag).permit = false →
    ∃ t, exec (.leadRotation g n) s = .next t ∧ t = { s with motors := t.motors, cool := t.cool } ∧
      t.groupDyn g.val = { s.groupDyn g.val with lead := lag, lag := some (s.groupDyn g.val).lead, rotating := true, leadRun := 0 } ∧
      (t.motor lag).permit = true ∧ ∀ i, i ≠ lag → t.motor i = s.motor i) ∧
  (∀ (g : Fin 4) (n : Nat) (s : State) (lag : Nat), (s.groupDyn g.val).lag = some lag → s.supervises → s.groupOn g.val →
      s.groupTrouble g.val = false → (s.groupDyn g.val).rotating = true → 10 ≤ n →
    ∃ t, exec (.leadRotation g n) s = .next t ∧ t = { s with motors := t.motors, cool := t.cool } ∧
      t.groupDyn g.val = { s.groupDyn g.val with rotating := false } ∧ (t.motor lag).permit = false ∧
      ∀ i, i ≠ lag → t.motor i = s.motor i)

/-- The heat exchanger's two warnings and their end (10, Heat exchanger). -/
def Obligations.HeatExchangerWarnings : Prop :=
  (∀ s : State, s.cfg.topo.accepted → s.anyLane → s.cool.hxApproach = false → 10 * s.cfg.topo.hx.deficitS ≤ s.cool.approachAbove →
    ∃ t, exec .hxApproach s = .next t ∧
      t = { s with cool := { s.cool with hxApproach := true } }.logLanes 2 0x0501 none32 []) ∧
  (∀ s : State, s.cfg.topo.accepted → s.anyLane → s.cool.hxHigh = false → 10 ≤ s.cool.outletAbove →
    ∃ t, exec .hxSupplyHigh s = .next t ∧ t = { s with cool := { s.cool with hxHigh := true } }.logLanes 3 0x0502 none32 []) ∧
  (∀ s : State, s.anyLane → s.cool.hxHigh = true → 10 ≤ s.cool.outletBelow →
    ∃ t, exec (.hxClear true) s = .next t ∧ t = { s with cool := { s.cool with hxHigh := false } }.logLanes 1 0x0503 none32 []) ∧
  (∀ s : State, s.cool.approachAbove < 10 * s.cfg.topo.hx.deficitS → exec .hxApproach s = .next s) ∧
  (∀ s : State, s.cool.outletAbove < 10 → exec .hxSupplyHigh s = .next s) ∧
  (∀ s : State, s.anyLane → s.cool.hxApproach = true → 10 * s.cfg.topo.hx.deficitS ≤ s.cool.approachBelow →
    ∃ t, exec (.hxClear false) s = .next t ∧ t = { s with cool := { s.cool with hxApproach := false } }.logLanes 1 0x0503 none32 [])

/-- Flow-stop detectors and the end of an isolation (10). -/
def Obligations.FlowStopDetectors : Prop :=
  (∀ (g : Fin 4) (i : DetectorIn) (s : State), s.groupOn g.val → (s.groupDyn g.val).armed = false →
      (∃ p ∈ (s.cfg.topo.group g.val).pumps, (s.motor p).permit = true ∧ (s.motor p).state = .run) →
      s.dpBlind (.group g) = false → (s.cfg.topo.group g.val).dpCollapse < i.dp → 1000000 ≤ i.dpUs →
    ∃ t, exec (.detectorArmed (.group g) i) s = .next t ∧ t = { s with cool := t.cool, evt := t.evt } ∧
      t.groupDyn g.val = { s.groupDyn g.val with armed := true }) ∧
  (∀ (k : Fin 16) (i : DetectorIn) (s : State), s.hasDetector (.rack k) → (s.rackDyn k.val).armed = false → s.rackState k.val = .run →
      s.pulseBlind (.rack k) = false → 1000000 ≤ i.pulseUs →
    ∃ t, exec (.detectorArmed (.rack k) i) s = .next t ∧ t = { s with cool := t.cool, evt := t.evt } ∧
      t.rackDyn k.val = { s.rackDyn k.val with armed := true }) ∧
  (∀ (g : Fin 4) (i : DetectorIn) (s : State), s.groupOn g.val → (s.groupDyn g.val).armed → (s.groupDyn g.val).flowStop = false →
      i.dp < (s.cfg.topo.group g.val).dpCollapse → s.cfg.topo.hx.dpConfirmUs ≤ i.dpUs → (s.cfg.topo.group g.val).gapUs ≤ i.gapUs →
      (s.dpBlind (.group g) = false ∨ s.pulseBlind (.group g) = false) →
    ∃ t, exec (.flowStop (.group g) i) s = .next t ∧
      t = { s with cool := t.cool, tray := t.tray, motors := t.motors }.logRm 4 0x0507 (w32 g.val) [0] ∧
      (t.groupDyn g.val).flowStop = true ∧
      (∀ k ∈ s.served g.val, Tab.get false t.tray.coolFault k = true ∧ bit (Tab.get 0 t.tray.causes k) 1 = true) ∧
      ∀ p ∈ (s.cfg.topo.group g.val).pumps, (t.motor p).permit = true ∧ (t.motor p).flowStopDrive = true) ∧
  (∀ (d : Detector) (i : DetectorIn) (s : State), s.pulseBlind d = false → i.gapUs < (s.detectorLimits d).2 →
    exec (.flowStop d i) s = .next s) ∧
  (∀ (k : Fin 16) (i : DetectorIn) (s : State), s.hasDetector (.rack k) → (s.rackDyn k.val).armed → (s.rackDyn k.val).flowStop = false →
      s.dpBlind (.rack k) → s.pulseBlind (.rack k) = false → (s.cfg.topo.rack k.val).gapUs ≤ i.gapUs →
    ∃ t, exec (.flowStop (.rack k) i) s = .next t ∧
      t = { s with cool := t.cool, tray := t.tray, motors := t.motors }.logRm 4 0x0507 (w32 k.val) [1] ∧
      t.rackDyn k.val = { s.rackDyn k.val with flowStop := true } ∧ Tab.get false t.tray.coolFault k.val = true ∧
      bit (Tab.get 0 t.tray.causes k.val) 2 = true ∧
      ∀ p ∈ (s.cfg.topo.group (s.cfg.topo.rack k.val).group).pumps, (t.motor p).permit = true ∧ (t.motor p).flowStopDrive = true) ∧
  (∀ (g : Fin 4) (i : DetectorIn) (s : State), (s.groupDyn g.val).flowStop → (∀ k < 16, (s.rackDyn k).flowStop = false) →
      s.flowSeen (.group g) i →
    ∃ t, exec (.flowStopClear (.group g) i) s = .next t ∧ t = { s with cool := t.cool, tray := t.tray, motors := t.motors } ∧
      (t.groupDyn g.val).flowStop = false ∧
      (∀ k < 16, bit (s.cfg.topo.group g.val).racks k → bit (Tab.get 0 t.tray.causes k) 1 = false) ∧
      ∀ p ∈ (s.cfg.topo.group g.val).pumps, (t.motor p).flowStopDrive = false) ∧
  (∀ (k : Fin 16) (s : State) (v e : Nat), (s.rackDyn k.val).bypassDue = some e → e + 10000 ≤ s.tick.epoch → (s.cfg.topo.rack k.val).vBypass = some v →
      s.rackState k.val ≠ .isolated → (s.valveRec v).on → (s.valveCh v).phase ≠ .fault →
    ∃ t, exec (.isolationExitBypass k) s = .next t ∧
      t = { s with cool := t.cool, valve := t.valve, proto := t.proto, nor := t.nor, evt := t.evt } ∧
      t.rackDyn k.val = { s.rackDyn k.val with bypassDue := none } ∧
      (t.valveCh v).energised = !bit (s.cfg.topo.rack k.val).valveSense 2)

/-- The flow supervisor's deficit condition (10, Flow supervisor). -/
def Obligations.FlowSupervisorCountsDeficit : Prop :=
  ∀ s : State, s.anyLane → s.inNet = false → s.cfg.topo.accepted →
    ∃ t, exec .flowSupervisorEval s = .next t ∧
      t = { s with cool := t.cool, motors := t.motors, laneA := t.laneA, laneB := t.laneB } ∧
      ∀ (k : Fin 16) (q : F32), s.rackOn k.val →
        flowReading s.cfg s.tick.frame (s.cfg.topo.rack k.val).flowSrc (s.cfg.topo.rack k.val).flowIdx = some q →
        (s.rackState k.val = .run → milliLitres q < (s.cfg.topo.rack k.val).flowMin →
          (t.rackDyn k.val).lowRun = (s.rackDyn k.val).lowRun + 1 ∧
          ((t.rackDyn k.val).deficit = true ↔ 10 * s.cfg.topo.hx.deficitS ≤ (s.rackDyn k.val).lowRun + 1)) ∧
        ((s.cfg.topo.rack k.val).flowMin ≤ milliLitres q → (t.rackDyn k.val).lowRun = 0 ∧ (t.rackDyn k.val).deficit = false)

/-- The start sequence of a motor channel (11, Table 11.5), with its frame: no other channel and nothing else changes. -/
def Obligations.MotorStartSequence : Prop :=
  (∀ (m : Fin 56) (s : State), (s.motorRec m.val).on → (s.motor m.val).permit →
      (s.motor m.val).state = .stopped ∨ (s.motor m.val).state = .coast →
      (s.motor m.val).wait = .none ∨ (s.motor m.val).wait = .spin →
    ∃ t, exec (.startAttempt m) s = .next t ∧ OnlyMotor m.val s t ∧
      (((s.motorRec m.val).handoff : Int) ≤ (s.motor m.val).omega → (t.motor m.val).state = .run) ∧
      ((s.motor m.val).omega < ((s.motorRec m.val).handoff : Int) → (s.motor m.val).omega ≠ 0 →
        (t.motor m.val).state = .coast ∧ (t.motor m.val).wait = .spin) ∧
      (0 < (s.motorRec m.val).handoff → (s.motor m.val).omega = 0 →
        (t.motor m.val).state = .align ∧ (t.motor m.val).iqApplied = (s.motorRec m.val).iStart)) ∧
  (∀ (m : Fin 56) (s : State), (s.motor m.val).clk.phase < 20 * (s.motorRec m.val).alignMs → exec (.alignEnd m) s = .next s) ∧
  (∀ (m : Fin 56) (s : State), (s.motor m.val).state = .align → 20 * (s.motorRec m.val).alignMs ≤ (s.motor m.val).clk.phase →
    ∃ t, exec (.alignEnd m) s = .next t ∧ OnlyMotor m.val s t ∧ (t.motor m.val).state = .ramp) ∧
  (∀ (m : Fin 56) (s : State), (s.motor m.val).clk.phase < 20 * (s.motorRec m.val).rampMs → exec (.rampEnd m) s = .next s) ∧
  (∀ (m : Fin 56) (s : State), (s.motor m.val).state = .ramp → 20 * (s.motorRec m.val).rampMs ≤ (s.motor m.val).clk.phase →
    ∃ t, exec (.rampEnd m) s = .next t ∧ OnlyMotor m.val s t ∧ (t.motor m.val).state = .verify) ∧
  (∀ (m : Fin 56) (s : State), (s.motor m.val).state = .verify →
      7 * ((s.motorRec m.val).handoff : Int) ≤ 10 * (s.motor m.val).omega →
      10 * (s.motor m.val).omega ≤ 13 * ((s.motorRec m.val).handoff : Int) →
    ∃ t, exec (.verifyEnd m true) s = .next t ∧ OnlyMotor m.val s t ∧ (t.motor m.val).state = .run) ∧
  (∀ (m : Fin 56) (s : State), (s.motor m.val).state = .run → 1200000 ≤ (s.motor m.val).clk.phase →
    ∃ t, exec (.attemptCountClear m) s = .next t ∧ OnlyMotor m.val s t ∧
      (t.motor m.val).attempts = 0 ∧ (t.motor m.val).stalled = false ∧ (t.motor m.val).state = .run)

/-- A failed attempt (11, Starting): COAST for its retry, LOCKED on the third; codes of Table 11.6. -/
def Obligations.MotorFailedAttempt : Prop :=
  (∀ (m : Fin 56) (s : State), (s.motor m.val).state = .verify → 10000 ≤ (s.motor m.val).clk.phase → (s.motor m.val).attempts < 2 →
    ∃ t, exec (.verifyEnd m false) s = .next t ∧ OnlyMotor m.val s t ∧ (t.motor m.val).state = .coast ∧
      (t.motor m.val).wait = .retry ∧ (t.motor m.val).attempts = (s.motor m.val).attempts + 1 ∧ (t.motor m.val).lastFault = 4) ∧
  (∀ (m : Fin 56) (s : State), (s.motor m.val).state = .coast → (s.motor m.val).wait = .spin → 200000 ≤ (s.motor m.val).clk.phase →
      (s.motor m.val).attempts < 2 →
    ∃ t, exec (.rotorSpinTimeout m) s = .next t ∧ OnlyMotor m.val s t ∧ (t.motor m.val).state = .coast ∧
      (t.motor m.val).wait = .retry ∧ (t.motor m.val).attempts = (s.motor m.val).attempts + 1 ∧ (t.motor m.val).lastFault = 4) ∧
  (∀ (m : Fin 56) (s : State), (s.motor m.val).state = .align ∨ (s.motor m.val).state = .ramp → (s.motor m.val).attempts < 2 →
    ∃ t, exec (.overcurrentTrip m) s = .next t ∧ OnlyMotor m.val s t ∧ (t.motor m.val).state = .coast ∧
      (t.motor m.val).wait = .retry ∧ (t.motor m.val).attempts = (s.motor m.val).attempts + 1 ∧ (t.motor m.val).lastFault = 2) ∧
  (∀ (m : Fin 56) (s : State), (s.motor m.val).state = .verify → 10000 ≤ (s.motor m.val).clk.phase → 2 ≤ (s.motor m.val).attempts →
    ∃ t, exec (.verifyEnd m false) s = .next t ∧ (t.motor m.val).state = .locked ∧ (t.motor m.val).lastFault = 4) ∧
  (∀ (m : Fin 56) (s : State), (s.motor m.val).state = .coast → (s.motor m.val).wait = .spin → 200000 ≤ (s.motor m.val).clk.phase →
      2 ≤ (s.motor m.val).attempts →
    ∃ t, exec (.rotorSpinTimeout m) s = .next t ∧ (t.motor m.val).state = .locked ∧ (t.motor m.val).lastFault = 4) ∧
  (∀ (m : Fin 56) (s : State), (s.motor m.val).state = .align ∨ (s.motor m.val).state = .ramp → 2 ≤ (s.motor m.val).attempts →
    ∃ t, exec (.overcurrentTrip m) s = .next t ∧ (t.motor m.val).state = .locked ∧ (t.motor m.val).lastFault = 2)

/-- Trips, bus voltage and restarts of a motor channel (11), with the one record each logs (19 Table 19.7) and the frame. -/
def Obligations.MotorTripsAndRestarts : Prop :=
  (∀ (m : Fin 56) (s : State), (s.motor m.val).state.driven → (∀ k, (s.motor m.val).tripAt = some k → k + 100000 ≤ s.tick.epoch) →
    ∃ t, exec (.inverterFault m) s = .next t ∧ OnlyMotorLog m.val s 2 0x0509 [] t ∧ (t.motor m.val).state = .coast ∧
      (t.motor m.val).wait = .trip ∧ (t.motor m.val).lastFault = 1 ∧ (t.motor m.val).tripAt = some s.tick.epoch) ∧
  (∀ (m : Fin 56) (s : State), (s.motor m.val).state = .verify ∨ (s.motor m.val).state = .run →
      (∀ k, (s.motor m.val).tripAt = some k → k + 100000 ≤ s.tick.epoch) →
    ∃ t, exec (.overcurrentTrip m) s = .next t ∧ OnlyMotorLog m.val s 2 0x0509 [] t ∧ (t.motor m.val).state = .coast ∧
      (t.motor m.val).wait = .trip ∧ (t.motor m.val).lastFault = 2 ∧ (t.motor m.val).tripAt = some s.tick.epoch) ∧
  (∀ (m : Fin 56) (s : State) (k : Nat), (s.motor m.val).state.driven → (s.motor m.val).tripAt = some k → s.tick.epoch < k + 100000 →
    ∃ t, exec (.inverterFault m) s = .next t ∧ (t.motor m.val).state = .failed ∧ (t.motor m.val).lastFault = 1) ∧
  (∀ (m : Fin 56) (s : State), (s.motorRec m.val).on → (s.motor m.val).state.driven ∨ (s.motor m.val).state = .coast →
    ((s.motor m.val).vbus < (s.motorRec m.val).vbusMin → (s.motor m.val).busBad ≠ 6 → ∃ t, exec (.busUndervoltage m) s = .next t ∧ OnlyMotorLog m.val s 2 0x050D [] t ∧ (t.motor m.val).state = .coast ∧
      (t.motor m.val).wait = .bus ∧ (t.motor m.val).lastFault = 6 ∧ (t.motor m.val).attempts = (s.motor m.val).attempts) ∧
    ((s.motorRec m.val).vbusMax < (s.motor m.val).vbus → (s.motor m.val).busBad ≠ 7 → ∃ t, exec (.busOvervoltage m) s = .next t ∧ OnlyMotorLog m.val s 2 0x050D [] t ∧ (t.motor m.val).state = .coast ∧
      (t.motor m.val).wait = .bus ∧ (t.motor m.val).lastFault = 7 ∧ (t.motor m.val).attempts = (s.motor m.val).attempts)) ∧
  (∀ (m : Fin 56) (s : State) (c : Instr) (w : MotorWait),
      (c, w) ∈ [(Instr.startRetry m, MotorWait.retry), (Instr.motorTripRestart m, MotorWait.trip), (Instr.busVoltageRestored m, MotorWait.bus)] →
      (s.motorRec m.val).on → (s.motor m.val).permit → (s.motor m.val).state = .coast → (s.motor m.val).wait = w →
      (s.motor m.val).omega = 0 → 0 < (s.motorRec m.val).handoff → 40000 ≤ (s.motor m.val).clk.phase →
      2000 ≤ (s.motor m.val).clk.aboveMin → 2000 ≤ (s.motor m.val).clk.belowMax →
    ∃ t, exec c s = .next t ∧ OnlyMotor m.val s t ∧ (t.motor m.val).state = .align ∧ (t.motor m.val).wait = .none ∧
      (t.motor m.val).attempts = (s.motor m.val).attempts)

/-- Overspeed, a running stall and the group override (11, Failure and its group). -/
def Obligations.MotorFailureDrivesTheGroup : Prop :=
  (∀ (m : Fin 56) (s : State), (s.motorRec m.val).on → (s.motor m.val).state.failedOrLocked = false → 2000 ≤ (s.motor m.val).clk.fast →
    ∃ t, exec (.motorOverspeed m) s = .next t ∧ (t.motor m.val).state = .failed ∧ (t.motor m.val).lastFault = 3 ∧
      ∀ i ∈ s.motorGroup m.val, (s.motorRec i).on → (s.motor i).state.failedOrLocked = false → (t.motor i).groupFull = true) ∧
  (∀ (m : Fin 56) (s : State), (s.motor m.val).state = .run → 20 * (s.motorRec m.val).stallMs ≤ (s.motor m.val).clk.stall →
      (s.motor m.val).attempts < 2 →
    ∃ t, exec (.runningStall m) s = .next t ∧ (t.motor m.val).state = .coast ∧ (t.motor m.val).wait = .retry ∧
      (t.motor m.val).attempts = (s.motor m.val).attempts + 1 ∧ (t.motor m.val).lastFault = 5 ∧ (t.motor m.val).stalled = true ∧
      ((s.motor m.val).stalled = false → ∀ i ∈ s.motorGroup m.val, (s.motorRec i).on →
        (s.motor i).state.failedOrLocked = false → (t.motor i).groupFull = true)) ∧
  (∀ (m : Fin 56) (s : State),
      (∀ i ∈ m.val :: s.motorGroup m.val, (s.motor i).state.failedOrLocked = false ∧ (s.motor i).stalled = false) →
    ∃ t, exec (.groupOverrideEnd m) s = .next t ∧ t = { s with motors := t.motors } ∧
      (∀ i ∈ m.val :: s.motorGroup m.val, t.motor i = { s.motor i with groupFull := false }) ∧
      (∀ i, i ∉ m.val :: s.motorGroup m.val → t.motor i = s.motor i))

/-- Tach marks of a motor channel, and what a current-loop period does to channels that do not run (11). -/
def Obligations.MotorTachAndPeriod : Prop :=
  (∀ (m : Fin 56) (s : State), (s.motorRec m.val).on → (s.motorRec m.val).tachPresent → (s.motor m.val).state = .run →
      ((s.motorRec m.val).handoff : Int) ≤ (s.motor m.val).omega → (s.motor m.val).tachFault = false → 20000 ≤ (s.motor m.val).clk.silent →
    ∃ t, exec (.tachFault m) s = .next t ∧ OnlyMotorLog m.val s 2 0x050E [] t ∧
      t.motor m.val = { s.motor m.val with tachFault := true, lastFault := 8 }) ∧
  (∀ (m : Fin 56) (s : State), (s.motor m.val).tachFault = true → 20000 ≤ (s.motor m.val).clk.agree →
    ∃ t, exec (.tachClear m) s = .next t ∧ OnlyMotorLog m.val s 1 0x050F [] t ∧
      t.motor m.val = { s.motor m.val with tachFault := false }) ∧
  (∀ (m : Fin 56) (s : State), (s.motorRec m.val).on → (s.motorRec m.val).tachPresent → (s.motor m.val).tachFault = false →
      20000 ≤ (s.motor m.val).clk.differ →
    ∃ t, exec (.tachMismatch m) s = .next t ∧ OnlyMotorLog m.val s 2 0x0510 [] t ∧
      t.motor m.val = { s.motor m.val with clk := { (s.motor m.val).clk with differ := 0 } }) ∧
  (∀ (inp : List MotorIn) (s : State), ∃ t, exec (.currentLoopPeriod inp) s = .next t ∧ t = { s with motors := t.motors } ∧
    ∀ m : Fin 56,
      ((s.motorRec m.val).accepted = false → t.motor m.val = s.motor m.val) ∧
      ((s.motorRec m.val).accepted → (s.motor m.val).state = .align ∨ (s.motor m.val).state = .ramp ∨ (s.motor m.val).state = .verify →
        (t.motor m.val).iqApplied = (s.motorRec m.val).iStart ∧ (t.motor m.val).state = (s.motor m.val).state ∧
          (t.motor m.val).clk.phase = (s.motor m.val).clk.phase + 1) ∧
      ((s.motorRec m.val).accepted → (s.motor m.val).state = .failed ∨ (s.motor m.val).state = .locked ∨ (s.motor m.val).state = .stopped →
        (t.motor m.val).iqApplied = 0 ∧ (t.motor m.val).state = (s.motor m.val).state) ∧
      ((s.motorRec m.val).accepted → (s.motor m.val).state = .coast → (s.motor m.val).permit = false →
        (t.motor m.val).iqApplied = 0 ∧ ((t.motor m.val).omega = 0 → (t.motor m.val).state = .stopped)))

/-- The profile of a valve channel (12, Table 12.1): PULL_IN, HOLD, DECAY, OFF, deferral and the degraded pull-in. -/
def Obligations.ValveProfile : Prop :=
  (∀ (v : Fin 64) (s : State), (s.valveCh v.val).phase = .pullIn → (s.valveCh v.val).due = none →
      (s.valveCh v.val).pullAt + 10 * (s.valveRec v.val).tPull * (if (s.valveCh v.val).degraded then 2 else 1) ≤ s.now →
    ∃ t, exec (.pullInEnd v) s = .next t ∧ ValveFrame s t ∧ (t.valveCh v.val).phase = .hold) ∧
  (∀ (v : Fin 64) (s : State), (s.valveCh v.val).phase = .decay → (s.valveCh v.val).due = none → s.coilCurrent v.val < 50 →
    ∃ t, exec (.decayEnd v) s = .next t ∧ ValveFrame s t ∧ (t.valveCh v.val).phase = .off) ∧
  (∀ (v : Fin 64) (s : State) (d : ValveDue), (s.valveCh v.val).phase = .deferred → (s.valveCh v.val).due = some d →
      d.behind = none → (∀ p, p ≠ v.val → (s.valveCh p).due = none) →
      (∀ p ∈ s.valvePartners v.val, (s.valveCh p).phase ≠ .pullIn) → s.supplyReady (valveSupply v.val) →
    ∃ t, exec (.deferredStart v) s = .next t ∧ ValveFrame s t ∧ (t.valveCh v.val).phase = .pullIn ∧
      (t.valveCh v.val).due = none ∧ (t.valveCh v.val).protective = d.protective ∧ (t.valveCh v.val).degraded = false ∧
      (t.valveCh v.val).pullIns = satTo 32 ((s.valveCh v.val).pullIns + 1)) ∧
  (∀ (v : Fin 64) (s : State) (d : ValveDue) (e : Nat), (s.valveCh v.val).due = some d → d.protective → d.supplySince = some e →
      e + 50 ≤ s.now → d.behind = none → (∀ p ∈ s.valvePartners v.val, (s.valveCh p).phase ≠ .pullIn) → s.valve.v24 → s.supplyReady (valveSupply v.val) = false →
    ∃ t, exec (.valveDegradedPullin v) s = .next t ∧ ValveFrame s t ∧ (t.valveCh v.val).phase = .pullIn ∧
      (t.valveCh v.val).degraded = true ∧ (t.valveCh v.val).due = none ∧ (∀ p, p ≠ v.val → t.valveCh p = s.valveCh p) ∧
      (t.supply (valveSupply v.val)).fallbacks = satTo 32 ((s.supply (valveSupply v.val)).fallbacks + 1) ∧
      t.evt = (s.logRm 2 0x0604 (w32 v.val) []).evt) ∧
  (∀ (v : Fin 64) (s : State) (us : Nat), (s.valveCh v.val).phase = .pullIn → (s.valveRec v.val).tRiseMin ≤ us →
    ∃ t, exec (.peakCurrentReached v us true) s = .next t ∧ t.valveCh v.val = { s.valveCh v.val with riseUs := some us } ∧
      (∀ p, p ≠ v.val → t.valveCh p = s.valveCh p) ∧ t = { s with valve := t.valve })

/-- The valve faults (12, Table 12.4, codes of Table 12.6). -/
def Obligations.ValveFaults : Prop :=
  (∀ (v : Fin 64) (s : State), (s.valveCh v.val).phase = .pullIn →
      (s.valveCh v.val).pullAt + (s.valveRec v.val).tRiseMax / 100 ≤ s.now → 10 * s.coilCurrent v.val < (s.valveRec v.val).iPeak →
    ∃ t, exec (.valveOpenCoil v) s = .next t ∧ ValveFrame s t ∧ (t.valveCh v.val).phase = .fault ∧ (t.valveCh v.val).due = none ∧
      (t.valveCh v.val).lastFault = 1 ∧ (t.valveCh v.val).openCoil = true) ∧
  (∀ (v : Fin 64) (mA : Nat) (s : State), (s.valveCh v.val).phase = .pullIn ∨ (s.valveCh v.val).phase = .hold →
      3 * (s.valveRec v.val).iPeak < 2 * mA →
    ∃ t, exec (.valveShortedCoil v mA) s = .next t ∧ ValveFrame s t ∧ (t.valveCh v.val).phase = .fault ∧ (t.valveCh v.val).due = none ∧
      (t.valveCh v.val).lastFault = 2 ∧ (t.valveCh v.val).short = true) ∧
  (∀ (v : Fin 64) (s : State), (s.valveRec v.val).on → (s.valveCh v.val).phase = .off ∨ (s.valveCh v.val).phase = .deferred → 10 ≤ (s.valveCh v.val).offRun →
    ∃ t, exec (.valveStuckOn v) s = .next t ∧ ValveFrame s t ∧ (t.valveCh v.val).phase = .fault ∧ (t.valveCh v.val).due = none ∧
      (t.valveCh v.val).lastFault = 3 ∧ (t.valveCh v.val).stuckOn = true) ∧
  (∀ (v : Fin 64) (s : State) (a b : Nat), a = s.valveOwner (v.val % 32) → b = s.valveOwner (v.val % 32 + 32) →
      (s.valveRec a).on → (s.valveRec b).on → (s.valveCh a).phase ≠ .fault → (s.valveCh b).phase ≠ .fault →
    ∃ t, exec (.highSideSwitchFault v) s = .next t ∧ ValveFrame s t ∧ (t.valveCh a).phase = .fault ∧ (t.valveCh b).phase = .fault ∧
      (t.valveCh a).lastFault = 4 ∧ (t.valveCh b).lastFault = 4) ∧
  (∀ (v : Fin 64) (s : State) (c : Nat), c = s.valveOwner v.val → s.valvePaired c →
      (s.valveCh c).phase = .pullIn ∨ (s.valveCh c).phase = .hold → 100 ≤ (s.valveCh c).uneven →
    ∃ t, exec (.pairImbalance v) s = .next t ∧ ValveFrame s t ∧ (t.valveCh c).phase = .fault ∧ (t.valveCh c).lastFault = 7) ∧
  (∀ (v : Fin 64) (s : State), (s.valveCh v.val).phase = .decay →
      (s.valveCh v.val).decayAt + (s.valveRec v.val).tDecayMax / 100 ≤ s.now →
    ∃ t, exec (.decayTooSlow v) s = .next t ∧ ValveFrame s t ∧ (t.valveCh v.val).phase = .fault ∧ (t.valveCh v.val).lastFault = 8) ∧
  (∀ (v : Fin 64) (s : State), (s.valveCh v.val).phase = .hold → (s.valveCh v.val).holdLow = false → 1000 ≤ (s.valveCh v.val).lowRun →
    ∃ t, exec (.valveHoldLow v) s = .next t ∧ t = { s with valve := t.valve }.logRm 2 0x0606 (w32 v.val) [] ∧
      t.valveCh v.val = { s.valveCh v.val with holdLow := true, lastFault := 5 } ∧ ∀ p, p ≠ v.val → t.valveCh p = s.valveCh p)

/-- Supplies, the 24 V input, entries of VALVE_COMMAND and the two limits on waiting (12). -/
def Obligations.ValveSuppliesAndEntries : Prop :=
  (∀ (q : Fin 2) (s : State), s.valve.v24 → (s.supply q.val).state = .softStart ∨ (s.supply q.val).state = .low → 440 ≤ (s.supply q.val).vOut →
    ∃ t, exec (.strongmanReady q) s = .next t ∧ ValveFrame s t ∧ (t.supply q.val).state = .ready) ∧
  (∀ (q : Fin 2) (s : State), (s.supply q.val).state = .softStart → (s.supply q.val).vOut < 440 →
      (s.supply q.val).since + 5000 ≤ s.now →
    ∃ t, exec (.strongmanFault q) s = .next t ∧ t = { s with valve := t.valve }.logRm 3 0x0601 (w32 q.val) [] ∧
      t.supply q.val = { s.supply q.val with state := .fault, since := s.now } ∧ t.valve.chans = s.valve.chans) ∧
  (∀ (q : Fin 2) (s : State), s.valve.v24 → (s.supply q.val).state = .fault → (s.supply q.val).since + 100000 ≤ s.now →
    ∃ t, exec (.strongmanRetry q) s = .next t ∧ t = { s with valve := t.valve } ∧
      t.supply q.val = { s.supply q.val with state := .softStart, since := s.now } ∧ t.valve.chans = s.valve.chans) ∧
  (∀ (s : State), s.valve.v24 →
    ∃ t, exec .actuatorSupplyLost s = .next t ∧ ValveFrame s t ∧ t.valve.v24 = false ∧
      (∀ q : Fin 2, (t.supply q.val).state = .off) ∧
      ∀ v : Fin 64, (t.valveCh v.val).due = none ∧ (t.valveCh v.val).energised = false ∧
        ((s.valveCh v.val).phase = .pullIn ∨ (s.valveCh v.val).phase = .hold → (t.valveCh v.val).phase = .decay)) ∧
  (∀ (s : State), s.valve.v24 = false →
    ∃ t, exec .actuatorSupplyReturn s = .next t ∧ ValveFrame s t ∧ t.valve.v24 = true ∧
      ∀ q : Fin 2, (t.supply q.val).state = .softStart) ∧
  (∀ (s : State) (v : Fin 64) (c : ValveCmd), s.valve.cmds = [c] → c.entries = [(v.val, 1)] → c.released = 1 → c.applied = 0 →
      c.waitSupply = false → (s.valveCh v.val).phase = .hold → (∀ p, p ≠ v.val → (s.valveCh p).due = none) →
    ∃ t, exec .valveEntryApply s = .next t ∧ ValveFrame s t ∧ (t.valveCh v.val).phase = .decay ∧
      (t.valveCh v.val).energised = false ∧ (t.valveCh v.val).due = none ∧ t.valve.cmds = [{ c with applied := 1 }]) ∧
  (∀ (s : State) (c : ValveCmd) (q : Nat) (r : Running), s.valve.cmds = [c] → c.waitSupply → c.waitEnd ≤ s.now →
      c.needs.find? (fun x => !s.supplyReady x) = some q → s.runningCmd c.cmd = some r → r.packet.async = false →
      s.proto.dropIds.contains r.packet.id = false →
    ∃ t, exec .boostWaitExpiry s = .next t ∧ (t.supply q).refusals = satTo 32 ((s.supply q).refusals + 1) ∧
      t.valve.cmds = [] ∧
      t.proto.ready = s.proto.ready ++
        [mkCompletion r.packet r.commit { status := 0x0050, r0 := w32 q } false s.holdsBack]) ∧
  (∀ (v : Fin 64) (s : State) (d : ValveDue) (p e : Nat), (s.valveCh v.val).due = some d → d.since = some e →
      e + 10 * (s.valveRec v.val).deferLimit ≤ s.now → (s.valveCh v.val).phase = .deferred →
      (s.valvePartners v.val).filter (fun x => (s.valveCh x).phase = .pullIn) = [p] → (∀ x, x ≠ v.val → (s.valveCh x).due = none) →
      s.supplyReady (valveSupply v.val) → s.proto.dropIds = [] →
    ∃ t, exec (.valveDeferFault v) s = .next t ∧ ValveFrame s t ∧ (t.valveCh v.val).deferFault = true ∧ (t.valveCh v.val).lastFault = 6 ∧
      (t.valveCh v.val).phase = .pullIn ∧ (t.valveCh p).phase = .hold ∧ t.evt = (s.logRm 3 0x0603 (w32 v.val) [w32 p]).evt)

/-- Marks of an analog channel and the critical shutdown (13). -/
def Obligations.AnalogChannelMarks : Prop :=
  (∀ (n : Fin 256) (w : Fin 4) (s : State), (s.cfg.analogRec n.val).ty ≠ 0 → bit (s.analogDyn n.val).bits (w.val + 1) = false →
      10 ≤ (s.analogDyn n.val).failRun.getD w.val 0 →
    ∃ t, exec (.inputFault n w) s = .next t ∧ t = { s with sense := t.sense, evt := t.evt } ∧
      t.analogDyn n.val = { s.analogDyn n.val with bits := (s.analogDyn n.val).bits + 2 ^ (w.val + 1) } ∧
      (∀ i, i ≠ n.val → t.analogDyn i = s.analogDyn i) ∧
      ((s.cfg.analogRec n.val).compat ∨ (s.analogDyn n.val).bits ≠ 0 → t.evt = s.evt) ∧
      ((s.cfg.analogRec n.val).compat = false → (s.analogDyn n.val).bits = 0 → (∀ d, s.detectorArmed d = false) →
        t.evt = (s.logRm (if n.val < 16 then 3 else 2) (if n.val < 16 then 0x0702 else 0x0701) (w32 n.val) [w32 (w.val + 1)]).evt)) ∧
  (∀ (n : Fin 256) (w : Fin 4) (s : State), bit (s.analogDyn n.val).bits (w.val + 1) = true →
      1000 ≤ (s.analogDyn n.val).passRun.getD w.val 0 →
    ∃ t, exec (.inputClear n w) s = .next t ∧ t = { s with sense := t.sense, evt := t.evt } ∧
      t.analogDyn n.val = { s.analogDyn n.val with bits := (s.analogDyn n.val).bits - 2 ^ (w.val + 1) } ∧
      (∀ i, i ≠ n.val → t.analogDyn i = s.analogDyn i) ∧
      ((s.cfg.analogRec n.val).compat = false → (s.analogDyn n.val).bits = 2 ^ (w.val + 1) →
        t.evt = (s.logRm 1 0x0703 (w32 n.val) [w32 (w.val + 1)]).evt)) ∧
  (∀ (n : Fin 256) (s : State),
    ∃ t, exec (.settlingEnd n) s = .next t ∧ t = { s with sense := t.sense } ∧
      t.analogDyn n.val = { s.analogDyn n.val with settling := (s.analogDyn n.val).settling && decide (s.now < (s.analogDyn n.val).typeAt + 50) } ∧ ∀ i, i ≠ n.val → t.analogDyn i = s.analogDyn i) ∧
  (∀ (n : Fin 256) (on : Bool) (lo hi : Int) (ticks : Nat) (s : State), s.modelChecked n.val → (s.analogDyn n.val).suspect = !on →
      10000 ≤ ticks → s.withinBand n.val lo hi = some (!on) →
    ∃ t, exec (.inputSuspect n on lo hi ticks) s = .next t ∧
      t = { s with sense := t.sense }.logLanes (if on then 2 else 1) 0x0704 (w32 n.val) [] ∧
      t.analogDyn n.val = { s.analogDyn n.val with suspect := on } ∧ ∀ i, i ≠ n.val → t.analogDyn i = s.analogDyn i) ∧
  (∀ (n : Fin 16) (us : Nat) (s : State), 20 ≤ us → (s.cfg.analogRec n.val).ty = 1 →
      bit (s.analogDyn n.val).bits 1 = false → bit (s.analogDyn n.val).bits 2 = false →
    ∃ t, exec (.sysShdn n us) s = .next t ∧ t = { s with sense := t.sense }.logRm 4 0x0705 (w32 n.val) [] ∧
      (t.analogDyn n.val).critAbove = true ∧ t.sense.sysShdn = true ∧
      t.sense.critTripped = (if s.sense.sysShdn then s.sense.critTripped else 2 ^ n.val)) ∧
  (∀ (a : Fin 8) (b : Fin 4) (s : State), s.sense.tcritLogged ≠ a.val → s.sense.netSpdLogged = b.val →
    ∃ t, exec (.tcritStrapChanged a b) s = .next t ∧ t = { s with sense := { s.sense with tcritLogged := a.val } }.logRm 2 0x0706 0 []) ∧
  (∀ (a : Fin 8) (b : Fin 4) (s : State), s.sense.tcritLogged = a.val → s.sense.netSpdLogged ≠ b.val →
    ∃ t, exec (.tcritStrapChanged a b) s = .next t ∧ t = { s with sense := { s.sense with netSpdLogged := b.val } }.logRm 2 0x0706 1 [])

/-- Leak states (13, Table 13.6) and the isolation a leak causes (10). -/
def Obligations.LeakChannelStates : Prop :=
  (∀ (n : Fin 64) (mohm : Option Nat) (s : State), (s.leakRec n.val).ty ≠ 0 → (s.leakDyn n.val).code (s.leakRec n.val) = 1 →
      (s.leakRec n.val).wetMs ≤ (s.leakDyn n.val).wetRun →
    ∃ t, exec (.leakWet n mohm) s = .next t ∧ (t.leakDyn n.val).code (s.leakRec n.val) = 2 ∧ (t.leakDyn n.val).location = mohm.bind (s.leakRec n.val).placeOf ∧
      (∀ i, i ≠ n.val → t.leakDyn i = s.leakDyn i) ∧ (∀ k ∈ s.leakRacks n.val, t.rackState k = .isolated) ∧
      ∀ k, k ∉ s.leakRacks n.val → t.rackState k = s.rackState k) ∧
  (∀ (n : Fin 64) (s : State), (s.leakRec n.val).hasBreak → 100 ≤ (s.leakDyn n.val).brokenRun → (s.leakDyn n.val).code (s.leakRec n.val) = 1 →
    ∃ t, exec (.leakBreak n) s = .next t ∧ (t.leakDyn n.val).code (s.leakRec n.val) = 3 ∧
      t = { s with sense := t.sense }.logRm 3 0x0708 (w32 n.val) [] ∧ ∀ i, i ≠ n.val → t.leakDyn i = s.leakDyn i) ∧
  (∀ (n : Fin 64) (s : State), (s.leakRec n.val).ty ≠ 0 → (s.leakDyn n.val).code (s.leakRec n.val) = 1 →
      (s.leakDyn n.val).unregulated →
    ∃ t, exec (.leakFault n) s = .next t ∧ (t.leakDyn n.val).code (s.leakRec n.val) = 5 ∧
      t = { s with sense := t.sense }.logRm 3 0x0709 (w32 n.val) [] ∧ ∀ i, i ≠ n.val → t.leakDyn i = s.leakDyn i) ∧
  (∀ (n : Fin 64) (s : State), (s.leakRec n.val).ty ≠ 0 → (s.leakDyn n.val).wet = true → (s.leakDyn n.val).broken = false →
      (s.leakDyn n.val).fault = false → 1000 * (s.leakRec n.val).dryS ≤ (s.leakDyn n.val).dryRun →
    ∃ t, exec (.leakDry n) s = .next t ∧ (t.leakDyn n.val).code (s.leakRec n.val) = 1 ∧
      t = { s with sense := t.sense }.logRm 1 0x070A (w32 n.val) [] ∧ ∀ i, i ≠ n.val → t.leakDyn i = s.leakDyn i) ∧
  (∀ (n : Fin 64) (s : State), (s.leakRec n.val).ty ≠ 0 → (s.leakDyn n.val).wet = false →
      (s.leakDyn n.val).broken = true ∨ (s.leakDyn n.val).fault = true →
      (s.leakDyn n.val).brokenRun = 0 → (s.leakDyn n.val).unregulated = false →
    ∃ t, exec (.leakBreakClear n) s = .next t ∧ (t.leakDyn n.val).code (s.leakRec n.val) = 1 ∧
      t = { s with sense := t.sense }.logRm 1 0x070A (w32 n.val) [] ∧ ∀ i, i ≠ n.val → t.leakDyn i = s.leakDyn i)

/-- Pulse inputs and rack harnesses (13). -/
def Obligations.PulseAndHarnessEvents : Prop :=
  (∀ (n : Fin 64) (s : State), (s.pulseRec n.val).on → (s.pulseDyn n.val).fault = false →
      100 ≤ (s.pulseDyn n.val).floatRun →
    ∃ t, exec (.pulseFloating n) s = .next t ∧ t = { s with sense := t.sense, evt := t.evt } ∧
      t.pulseDyn n.val = { s.pulseDyn n.val with fault := true } ∧ ∀ i, i ≠ n.val → t.pulseDyn i = s.pulseDyn i) ∧
  (∀ (n : Fin 64) (s : State), (s.pulseRec n.val).on → 10 * (s.pulseRec n.val).zeroMs ≤ (s.pulseDyn n.val).quietRun →
    ∃ t, exec (.pulseZero n) s = .next t ∧ t = { s with sense := t.sense } ∧
      t.pulseDyn n.val = { s.pulseDyn n.val with zero := true, overrange := false } ∧ ∀ i, i ≠ n.val → t.pulseDyn i = s.pulseDyn i) ∧
  (∀ (k : Fin 16) (s : State), (s.harness k.val).present = false →
    ∃ t, exec (.harnessPresenceGain k) s = .next t ∧ t = { s with sense := t.sense } ∧
      t.harness k.val = { s.harness k.val with present := true, state := .reading } ∧ ∀ i, i ≠ k.val → t.harness i = s.harness i) ∧
  (∀ (k : Fin 16) (m : List Byte) (s : State), (s.harness k.val).present → (s.harness k.val).state = .reading →
      (s.harness k.val).cmd = none → s.harnessVerdict k.val m = .match_ →
    ∃ t, exec (.harnessReadDone k m) s = .next t ∧ t = { s with sense := t.sense } ∧
      t.harness k.val = { s.harness k.val with mem := m, state := .match_ }) ∧
  (∀ (k : Fin 16) (m : List Byte) (s : State), (s.harness k.val).present → (s.harness k.val).state = .reading →
      (s.harness k.val).cmd = none → s.harnessVerdict k.val m ≠ .match_ → s.rackOn k.val → s.rackState k.val = .commission →
    ∃ t, exec (.harnessReadDone k m) s = .next t ∧
      t = { s with sense := t.sense }.logRm 3 0x070B (w32 k.val) [w32 (s.harnessVerdict k.val m).code] ∧
      t.harness k.val = { s.harness k.val with mem := m, state := s.harnessVerdict k.val m }) ∧
  (∀ (k : Fin 16) (m : List Byte) (s : State), (s.harness k.val).present → (s.harness k.val).state = .reading →
      (s.harness k.val).cmd = none → s.harnessVerdict k.val m ≠ .match_ → s.rackOn k.val →
    ∃ t, exec (.harnessReadDone k m) s = .next t ∧ t.rackState k.val = .commission) ∧
  (∀ (k : Fin 16) (s : State), (s.harness k.val).present → (s.harness k.val).cmd = none →
    ∃ t, exec (.harnessRemoved k) s = .next t ∧ t = { s with sense := t.sense }.logRm 3 0x070C (w32 k.val) [] ∧
      t.harness k.val = {} ∧ ∀ i, i ≠ k.val → t.harness i = s.harness i)

/-- Message buffers (14): reception, the lock and its expiry. -/
def Obligations.CanMessageBuffers : Prop :=
  (∀ (c : Fin 16) (f : CanFrame) (s : State) (b : Nat), (s.canChan c.val).state.live → (f.fdf = true → (s.canRec c.val).fd = true) →
      f.rtr = false → (List.range 64).find? (fun i => (Tab.get ({} : CanFilter) (s.canRec c.val).filters i).matchesFrame f) = some b →
      (Tab.get ({} : CanBuf) (s.canChan c.val).bufs b).locked = false →
    ∃ t, exec (.canFrameReceived c f) s = .next t ∧ t = { s with bus := t.bus, evt := t.evt } ∧
      (Tab.get ({} : CanBuf) (t.canChan c.val).bufs b).content = some ((Tab.get ({} : CanBuf) (s.canChan c.val).bufs b).count + 1, f) ∧
      (∀ i, i ≠ b → Tab.get ({} : CanBuf) (t.canChan c.val).bufs i = Tab.get ({} : CanBuf) (s.canChan c.val).bufs i) ∧
      (t.canChan c.val).rxFrames = satTo 32 ((s.canChan c.val).rxFrames + 1) ∧ ∀ i, i ≠ c.val → t.canChan i = s.canChan i) ∧
  (∀ (c : Fin 16) (f : CanFrame) (s : State) (b : Nat), (s.canChan c.val).state.live → (f.fdf = true → (s.canRec c.val).fd = true) →
      f.rtr = false → (List.range 64).find? (fun i => (Tab.get ({} : CanFilter) (s.canRec c.val).filters i).matchesFrame f) = some b →
      (Tab.get ({} : CanBuf) (s.canChan c.val).bufs b).locked = true → (Tab.get ({} : CanBuf) (s.canChan c.val).bufs b).shadow = none →
    ∃ t, exec (.canFrameReceived c f) s = .next t ∧
      (Tab.get ({} : CanBuf) (t.canChan c.val).bufs b).shadow = some ((Tab.get ({} : CanBuf) (s.canChan c.val).bufs b).count + 1, f) ∧
      (Tab.get ({} : CanBuf) (t.canChan c.val).bufs b).content = (Tab.get ({} : CanBuf) (s.canChan c.val).bufs b).content) ∧
  (∀ (c : Fin 16) (b : Fin 64) (s : State),
    ∃ t, exec (.canBufferLock c b) s = .next t ∧ t = { s with bus := t.bus, hif := { s.hif with rdata := t.hif.rdata } } ∧
      Tab.get ({} : CanBuf) (t.canChan c.val).bufs b.val = { Tab.get ({} : CanBuf) (s.canChan c.val).bufs b.val with locked := true, lockAt := s.now } ∧
      t.hif.rdata = ((Tab.get ({} : CanBuf) (s.canChan c.val).bufs b.val).words.getD 0 0).setWidth 64 ∧
      ∀ i, i ≠ c.val → t.canChan i = s.canChan i) ∧
  (∀ (c : Fin 16) (b : Fin 64) (s : State) (x : CanBuf), x = Tab.get ({} : CanBuf) (s.canChan c.val).bufs b.val → x.locked = true →
    ∃ t, exec (.canBufferRelease c b) s = .next t ∧ t = { s with bus := t.bus, hif := { s.hif with rdata := t.hif.rdata } } ∧
      (Tab.get ({} : CanBuf) (t.canChan c.val).bufs b.val).locked = false ∧ (Tab.get ({} : CanBuf) (t.canChan c.val).bufs b.val).expired = false ∧
      (Tab.get ({} : CanBuf) (t.canChan c.val).bufs b.val).content = (if x.shadow.isSome then x.shadow else x.content) ∧
      (Tab.get ({} : CanBuf) (t.canChan c.val).bufs b.val).droppedSeen = x.dropped ∧
      t.hif.rdata = (x.words.getD 20 0).setWidth 64 ∧ ∀ i, i ≠ c.val → t.canChan i = s.canChan i) ∧
  (∀ (c : Fin 16) (b : Fin 64) (s : State) (x : CanBuf), x = Tab.get ({} : CanBuf) (s.canChan c.val).bufs b.val → x.locked = true → x.lockAt + 10 ≤ s.now →
    ∃ t, exec (.canLockExpiry c b) s = .next t ∧ t = { s with bus := t.bus } ∧
      (Tab.get ({} : CanBuf) (t.canChan c.val).bufs b.val).locked = false ∧ (Tab.get ({} : CanBuf) (t.canChan c.val).bufs b.val).expired = true ∧
      (Tab.get ({} : CanBuf) (t.canChan c.val).bufs b.val).content = (if x.shadow.isSome then x.shadow else x.content) ∧
      (t.canChan c.val).lockExpiries = satTo 16 ((s.canChan c.val).lockExpiries + 1) ∧ ∀ i, i ≠ c.val → t.canChan i = s.canChan i)

/-- Mapped entries of the fieldbus (14). -/
def Obligations.CanMappedEntries : Prop :=
  (∀ (e : Nat) (s : State), (s.entryRec e).dir = 1 → (s.entryRec e).timing ≤ (s.entryDyn e).age →
    ∃ t, exec (.canEntryStale e) s = .next t ∧ t = { s with bus := t.bus, evt := t.evt } ∧
      t.entryDyn e = { s.entryDyn e with stale := true } ∧ (∀ i, i ≠ e → t.entryDyn i = s.entryDyn i) ∧
      t.evt = (if (s.entryDyn e).fault then s.evt else (s.logRm 2 0x0805 (w32 e) []).evt)) ∧
  (∀ (e : Nat) (s : State), (s.entryRec e).dir = 2 → (s.entryOut e).isSome →
      (∀ h, (s.entryDyn e).handed = some h → h + (s.entryRec e).timing ≤ s.now) → (s.canChan (s.entryRec e).channel).state.live →
    ∃ t, exec (.canOutSend e) s = .next t ∧ t = { s with bus := t.bus } ∧ (t.entryDyn e).txFail = true ∧
      ((s.entryRec e).channel, (s.entryRec e).ide, (s.entryRec e).ident, s.frameData e) ∈ t.bus.sent ∧ t.bus.chans = s.bus.chans) ∧
  (∀ (e : Nat) (s : State) (x : Nat × Bool × Nat × List Byte), (s.entryRec e).dir = 2 → (s.canChan (s.entryRec e).channel).state.live →
      s.bus.sent.find? (fun x => x.1 = (s.entryRec e).channel && x.2.1 = (s.entryRec e).ide && x.2.2.1 = (s.entryRec e).ident) = some x →
    ∃ t, exec (.canFrameSent e) s = .next t ∧ t = { s with bus := t.bus } ∧ (t.entryDyn e).txFail = false ∧ (t.entryDyn e).age = 0 ∧
      x ∉ t.bus.sent ∧
      (t.canChan (s.entryRec e).channel).txFrames = satTo 32 ((s.canChan (s.entryRec e).channel).txFrames + 1)) ∧
  (∀ (c : Fin 16) (s : State), (s.canChan c.val).state.live → (s.canRec c.val).fd = false →
    ∃ t, exec (.canFdIgnored c) s = .next t ∧ t = { s with bus := t.bus, evt := t.evt } ∧
      (t.canChan c.val).fdIgnored = satTo 16 ((s.canChan c.val).fdIgnored + 1) ∧ ∀ i, i ≠ c.val → t.canChan i = s.canChan i)

/-- Error states of a CAN channel and automatic rate detection (14). -/
def Obligations.CanErrorStates : Prop :=
  (∀ (c : Fin 16) (tec rec_ : Nat) (s : State), (s.canChan c.val).state = .active →
    ∃ t, exec (.busErrorPassive c tec rec_) s = .next t ∧ t = { s with bus := t.bus }.logRm 2 0x0801 (w32 c.val) [] ∧
      t.canChan c.val = { s.canChan c.val with state := .passive, tec := satTo 8 tec, recc := satTo 8 rec_ } ∧
      ∀ i, i ≠ c.val → t.canChan i = s.canChan i) ∧
  (∀ (c : Fin 16) (s : State), (s.canChan c.val).state.live →
      ((s.canChan c.val).recent.filter fun e => s.tick.epoch < e + 100000).length < 8 →
    ∃ t, exec (.busOff c) s = .next t ∧ t = { s with bus := t.bus }.logRm 3 0x0802 (w32 c.val) [] ∧
      (t.canChan c.val).state = .busOff ∧ (t.canChan c.val).busOffs = satTo 32 ((s.canChan c.val).busOffs + 1) ∧
      ∀ i, i ≠ c.val → t.canChan i = s.canChan i) ∧
  (∀ (c : Fin 16) (s : State), (s.canChan c.val).state.live →
      8 ≤ ((s.canChan c.val).recent.filter fun e => s.tick.epoch < e + 100000).length →
    ∃ t, exec (.busOff c) s = .next t ∧
      t = ({ s with bus := t.bus }.logRm 3 0x0802 (w32 c.val) []).logRm 3 0x0804 (w32 c.val) [] ∧
      (t.canChan c.val).state = .heldOff ∧ ∀ i, i ≠ c.val → t.canChan i = s.canChan i) ∧
  (∀ (c : Fin 16) (s : State), (s.canChan c.val).state = .busOff → (s.canRec c.val).autoRecover →
    ∃ t, exec (.busRecovered c) s = .next t ∧ t = { s with bus := t.bus }.logRm 1 0x0803 (w32 c.val) [] ∧
      t.canChan c.val = { s.canChan c.val with state := .active, tec := 0, recc := 0 } ∧ ∀ i, i ≠ c.val → t.canChan i = s.canChan i) ∧
  (∀ (c : Fin 16) (s : State), (s.canChan c.val).state = .heldOff → (s.canChan c.val).recent.headD 0 + 100000 ≤ s.now →
    ∃ t, exec (.busHoldOffEnd c) s = .next t ∧ t = { s with bus := t.bus } ∧
      t.canChan c.val = { s.canChan c.val with state := .busOff } ∧ ∀ i, i ≠ c.val → t.canChan i = s.canChan i) ∧
  (∀ (c : Fin 16) (error : Bool) (s : State) (a : Autobaud), s.bus.autobaud = [a] → a.channel = c.val → a.frames < a.framesNeeded →
      a.present + 1 < a.candidates.length → error ∨ a.since + 10 * a.dwell ≤ s.now →
    ∃ t, exec (.autobaudCandidateEnd c error) s = .next t ∧
      t = { s with bus := { s.bus with autobaud := [{ a with present := a.present + 1, frames := 0, brs := false, since := s.now }] } }) ∧
  (∀ (c : Fin 16) (error : Bool) (s : State) (a : Autobaud) (r : Running), s.bus.autobaud = [a] → a.channel = c.val → a.apply = false →
      a.framesNeeded ≤ a.frames ∨ (a.candidates.length ≤ a.present + 1 ∧ (error ∨ a.since + 10 * a.dwell ≤ s.now)) → s.runningCmd a.cmd = some r → r.packet.async = false →
      s.proto.dropIds.contains r.packet.id = false →
    ∃ t, exec (.autobaudCandidateEnd c error) s = .next t ∧ t.bus.autobaud = [] ∧
      (t.canChan c.val).state = (if a.was = .off then .off else .active) ∧
      t.proto.ready = s.proto.ready ++ [mkCompletion r.packet r.commit
        { status := 0, r0 := w32 (if a.framesNeeded ≤ a.frames then a.present + 256 * flag a.brs + 65536 * satTo 16 a.frames else 0xFF) }
        false s.holdsBack])

/-- A step runs the front command and idles without one (the model's choice, assumption log 3: one sender, first in, first out). -/
def Obligations.StepRunsFrontCommand : Prop :=
  (∀ (c : Instr) (rest : List Instr) (s : State),
    step { s with pending := c :: rest } = exec c { s with pending := rest }) ∧
  (∀ (c d : Instr) (rest : List Instr) (s t : State),
    step { s with pending := c :: d :: rest } = .next t → t.pending = d :: rest → step t = exec d { t with pending := rest }) ∧
  (∀ s : State, s.pending = [] → step s = .next s)

/-- What reset leaves (02 Table 2.7, 15 Table 15.6, 16 Table 16.5, 17 Table 17.5; BLANK and empty memory: logs 1, 9, 11). -/
def Obligations.ResetLeaves : Prop :=
  (State.reset.laneCtl.redundancy = .net ∧ State.reset.laneCtl.netCause = 1 ∧ ∀ l, (State.reset.lane l).run = .reset ∧ (State.reset.lane l).ready = false) ∧
  (State.reset.mode.authority = .manual ∧ State.reset.mode.hostPresent = false ∧ State.reset.mode.startPhase = .rmBoot ∧
    State.reset.mode.lifeCycle = .blank ∧ State.reset.mode.update = .idle) ∧
  (State.reset.tick.epoch = 1 ∧ State.reset.tick.t0Time = 0xFFFFFFFFFFFFFFFF ∧ State.reset.tick.timeValid = false ∧
    State.reset.tick.tickNs = 100000 ∧ State.reset.tick.staleLimit = 3 ∧ State.reset.tick.viewHoldLimit = 100) ∧
  (State.reset.hif.wdogTicks = 10000 ∧ State.reset.hif.cqEnable = false ∧ (∀ q, (Tab.get ({} : Sq) State.reset.hif.sqs q).enable = false) ∧
    (∀ v, v < 64 → (State.reset.hif.msixDword (4 * v + 3)).getLsbD 0 = true)) ∧
  ((∀ m, (State.reset.motor m).state = .stopped) ∧ (∀ v, (State.reset.valveCh v).phase = .off)) ∧
  (State.reset.evt.nextSeq = 0 ∧ State.reset.evt.ring = [] ∧ State.reset.evt.rmQueue = []) ∧
  (State.reset.hostMem = [] ∧ (∀ l, (State.reset.lane l).dram = []) ∧ State.reset.pending = [])

/-- No command touches the queue, and none stops the block (assumption log 3). -/
def Obligations.QueueUntouched : Prop :=
  (∀ (c : Instr) (s : State), ∃ t, exec c s = .next t ∧ t.pending = s.pending) ∧
  (∀ (c : Instr) (rest : List Instr) (s : State), s.pending = c :: rest → ∃ t, step s = .next t ∧ t.pending = rest) ∧
  (∀ s : State, ∃ t, step s = .next t ∧ t.pending = s.pending.tail)

/-- Host memory stays canonical and only completions and written replies change it (17, 18; log 9). -/
def Obligations.HostMemoryCanonical : Prop :=
  (∀ (c : Instr) (s t : State), Mem.wf s.hostMem → exec c s = .next t → Mem.wf t.hostMem) ∧
  (∀ (s t : State), Mem.wf s.hostMem → step s = .next t → Mem.wf t.hostMem) ∧
  (∀ (c : Instr) (s t : State), (∀ q ok, c ≠ .completionWrite q ok) → (∀ p ok, c ≠ .eventRead p ok) → (∀ p ok, c ≠ .snapshotRead p ok) →
      (∀ p ok, c ≠ .updateStatus p ok) → (∀ p ok, c ≠ .attest p ok) →  exec c s = .next t → ∀ a, t.hostMem.read a = s.hostMem.read a)

/-- Fuses and the life cycle over every command (20 R487, Life cycle). -/
def Obligations.FusesAndLifeCycle : Prop :=
  (∀ (c : Instr) (s t : State), exec c s = .next t →
    s.upd.secFloor ≤ t.upd.secFloor ∧ (s.upd.key0Revoked → t.upd.key0Revoked) ∧ t.gen.serial = s.gen.serial ∧
    (∀ l, (t.lane l).fused = (s.lane l).fused) ∧ (c ≠ .lifecycleReset → t.mode.lifeCycle = s.mode.lifeCycle) ∧
    (c ≠ .updateConfirmed → t.upd.secFloor = s.upd.secFloor ∧ t.upd.key0Revoked = s.upd.key0Revoked)) ∧
  (∀ (s : State) (x : LifeCycle), s.upd.lifeTarget = some x →
    ∃ t, exec .lifecycleReset s = .next t ∧ t.mode.lifeCycle = x ∧ t.upd.secFloor = s.upd.secFloor ∧ t.nor.running = {} ∧ t.nor.alternate = {}) ∧
  (∀ (s t : State), step s = .next t → s.upd.secFloor ≤ t.upd.secFloor ∧ (s.upd.key0Revoked → t.upd.key0Revoked))

/-- Losses of a lane (15 R364, R365, R371, R374, R376, R382; 01 R20). -/
def Obligations.LaneLosses : Prop :=
  (∀ (l : LaneId) (frame : Bool) (s : State), (s.lane l).isRunning →
    ∃ t, exec (.flitLost l frame) s = .next t ∧ t = { s with laneCtl := t.laneCtl } ∧
      t.laneCtl.stat l = { s.laneCtl.stat l with outputsLost := true, frameLost := (s.laneCtl.stat l).frameLost || frame } ∧
      t.laneCtl.stat l.other = s.laneCtl.stat l.other ∧
      ∀ n, ((s.mirrorSlot n).closed → t.mirrorSlot n = s.mirrorSlot n) ∧
        ((s.mirrorSlot n).closed = false → (t.mirrorSlot n).copy l = none ∧ (t.mirrorSlot n).copy l.other = (s.mirrorSlot n).copy l.other)) ∧
  (∀ (a l : LaneId) (s : State), InDuplex a s → 3 ≤ (s.laneCtl.stat l).silentRun → (s.laneCtl.stat l.other).silentRun < 3 →
    ∃ t, exec (.laneSilentLost l) s = .next t ∧ LaneFrame s t ∧ LaneLost a l 2 s t) ∧
  (∀ (a l : LaneId) (tile : Option Nat) (s : State), InDuplex a s → (s.laneCtl.stat l.other).selfCheckFail = false →
    ∃ t, exec (.selfCheckFailure l tile) s = .next t ∧ LaneFrame s t ∧ LaneLost a l 1 s t ∧ (t.laneCtl.stat l).selfCheckFail = true) ∧
  (∀ (a : LaneId) (s : State), InDuplex a s → s.laneCtl.merge → s.cfg.mergeLimit ≤ s.laneCtl.mergeRun →
    ∃ t, exec .mergeLimitReached s = .next t ∧ LaneFrame s t ∧ LaneLost a a.other 6 s t) ∧
  (∀ (a l : LaneId) (s : State), InDuplex a s → (∀ x, 3 ≤ (s.laneCtl.stat x).silentRun) →
    ∃ t, exec (.laneSilentLost l) s = .next t ∧ t.laneCtl.redundancy = .net ∧ t.laneCtl.netCause = 2 ∧ ∀ x, (t.lane x).run = .reset) ∧
  (∀ (a l : LaneId) (tile : Option Nat) (s : State), InDuplex a s → (s.laneCtl.stat l.other).selfCheckFail → (s.laneCtl.stat l.other).failedAt = some s.now →
    ∃ t, exec (.selfCheckFailure l tile) s = .next t ∧ t.laneCtl.redundancy = .net ∧ t.laneCtl.netCause = 2 ∧ ∀ x, (t.lane x).run = .reset) ∧
  (∀ (a : LaneId) (s : State) (n : Nat), s.laneCtl.redundancy = .simplexOn a → s.laneCtl.active = a → (s.lane a).run = .active →
      (s.lane a.other).isRunning = false → s.laneCtl.held = false → s.mode.update = .idle → s.laneCtl.hold a.other = false → s.cfg.refTicks ≤ (s.mirrorSlot n).shortRun → 0 < s.cfg.refTicks →
    ∃ t, exec .refereeCrossCheckFail s = .next t ∧ t.laneCtl.redundancy = .net ∧ t.laneCtl.netCause = 3 ∧
      (t.lane a).run = .reset ∧ (t.laneCtl.stat a).lastLoss = 7)

/-- Grants and acknowledgements of authority (15 R373, R374, R380, R381, R385). -/
def Obligations.LaneAuthority : Prop :=
  (∀ s : State, s.laneCtl.gap → s.laneCtl.held → s.laneCtl.granting = none → s.laneCtl.grantNo < 2 → (s.lane s.laneCtl.active.other).isRunning →
    ∃ t, exec .authorityGrant s = .next t ∧ t = { s with laneCtl := { s.laneCtl with
      granting := some s.laneCtl.active.other, grantNo := s.laneCtl.grantNo + 1, grantEpoch := s.now } }) ∧
  (∀ (s : State) (id : Nat), s.laneCtl.drillCmd = some id → s.laneCtl.drillAcked = false → s.laneCtl.drillGranted = false → s.laneCtl.redundancy = .duplex →
    ∃ t, exec .drillGrant s = .next t ∧ t = { s with laneCtl := { s.laneCtl with
      drillGranted := true, granting := some s.laneCtl.active.other, grantNo := 1, grantEpoch := s.now + 1 } }) ∧
  (∀ (l : LaneId) (s : State), s.inNet → s.laneCtl.granting = none → s.qualified l → s.laneCtl.preNetActive = l ∨ s.qualified s.laneCtl.preNetActive = false →
    ∃ t, exec (.laneQualified l) s = .next t ∧ t = { s with laneCtl := { s.laneCtl with
      granting := some l, grantNo := s.laneCtl.grantNo + 1, grantEpoch := s.now + 1 } }) ∧
  (∀ (l : LaneId) (s : State), s.laneCtl.granting = some l → (s.lane l).isRunning → s.laneCtl.drillGranted = false → s.inNet = false → s.laneCtl.others = [] →
    ∃ t, exec (.authorityAck l) s = .next t ∧ t = { s with laneCtl := t.laneCtl, laneA := t.laneA, laneB := t.laneB, hif := t.hif } ∧
      (t.lane l).run = .active ∧ (s.lane l.other).isRunning = (t.lane l.other).isRunning ∧ (t.lane l.other).run ≠ .active ∧
      t.laneCtl.active = l ∧ t.laneCtl.held = false ∧ t.laneCtl.granting = none ∧ t.laneCtl.switchEpoch = some s.laneCtl.grantEpoch ∧
      t.laneCtl.resumeEpoch = some s.laneCtl.grantEpoch ∧ (t.laneCtl.stat l).authExercised = true ∧ (t.laneCtl.stat l).ackEpoch = some s.now ∧
      t.laneCtl.event.getLsbD 2 = true) ∧
  (∀ (a : LaneId) (s : State) (r : Running), s.laneCtl.redundancy = .duplex → s.laneCtl.active = a → (s.lane a).run = .active → (s.lane a.other).run = .standby →
      s.laneCtl.granting = some a.other → s.laneCtl.drillGranted → s.laneCtl.drillCmd = some r.packet.id → s.laneCtl.drillRetest = false →
      s.runningCmd r.packet.id = some r → r.packet.async = false → s.proto.dropIds.contains r.packet.id = false →
    ∃ t, exec (.authorityAck a.other) s = .next t ∧ t.laneCtl.active = a.other ∧ (t.lane a.other).run = .active ∧ (t.lane a).run = .standby ∧
      t.laneCtl.redundancy = .duplex ∧ t.laneCtl.cntSwitchover = satTo 32 (s.laneCtl.cntSwitchover + 1) ∧ t.laneCtl.drillCmd = none ∧
      t.laneCtl.event.getLsbD 9 = true ∧ t.proto.ready = s.proto.ready ++ [mkCompletion r.packet r.commit { status := 0 } false s.holdsBack]) ∧
  (∀ (l : LaneId) (s : State), s.inNet → s.laneCtl.granting = some l → (s.lane l).isRunning → s.laneCtl.drillGranted = false → s.qualified l.other = false →
      s.mode.authority ≠ .predictive →
    ∃ t, exec (.authorityAck l) s = .next t ∧ t.laneCtl.redundancy = .simplexOn l ∧ t.laneCtl.active = l ∧ t.laneCtl.netCause = 0 ∧
      (t.lane l).run = .active ∧ (t.lane l.other).isRunning = false ∧ t.rel.netActive = false ∧ t.laneCtl.event.getLsbD 7 = true) ∧
  (∀ (l : LaneId) (s : State), s.laneCtl.granting = some l → s.laneCtl.drillGranted = false → s.laneCtl.grantNo < 2 →
    ∃ t, exec .authorityAckTimeout s = .next t ∧ t = { s with laneCtl := { s.laneCtl with granting := none } }) ∧
  (∀ (l : LaneId) (s : State), s.laneCtl.granting = some l → s.laneCtl.drillGranted = false → 2 ≤ s.laneCtl.grantNo → s.inNet = false →
    ∃ t, exec .authorityAckTimeout s = .next t ∧ t.laneCtl.redundancy = .net ∧ t.laneCtl.netCause = 3 ∧ ∀ x, (t.lane x).run = .reset)

/-- Start and resynchronisation of a lane (01 R24, 05 R141, 15 R377, R378, 16 R404). -/
def Obligations.LaneStartAndRejoin : Prop :=
  (∀ (l : LaneId) (s : State), (s.lane l).run = .wipe →
    ∃ t, exec (.laneWipeDone l) s = .next t ∧ t = s.setLane l ((s.lane l).wiped .test)) ∧
  (∀ (l : LaneId) (failed : List Nat) (s : State), (s.lane l).run = .test → s.laneCtl.linkFail = false → s.cfg.fenced = [] →
    ∃ t, exec (.laneSelfTestDone l failed false) s = .next t ∧ t.lane l = { s.lane l with fenced := failed, run := .copy } ∧
      t.lane l.other = s.lane l.other ∧ t = { s with laneA := t.laneA, laneB := t.laneB, laneCtl := t.laneCtl, fresh := t.fresh }) ∧
  (∀ (l : LaneId) (failed : List Nat) (s : State), (s.lane l).run = .test → s.laneCtl.hold l.other = false → s.mode.update = .idle →
    ∃ t, exec (.laneSelfTestDone l failed true) s = .next t ∧ t.lane l = (s.lane l).wiped .reset ∧ t.lane l.other = s.lane l.other ∧
      (t.laneCtl.stat l).lastLoss = 1) ∧
  (∀ (l : LaneId) (s : State), (s.lane l).run = .copy → s.anyLane = false → s.inNet →
    ∃ t, exec (.laneReady l) s = .next t ∧ (t.lane l).ready = true ∧ (t.lane l).run = .joinWait ∧ (t.lane l).loops = s.cfg.freshLoops ∧
      t.lane l.other = s.lane l.other ∧ t = { s with laneA := t.laneA, laneB := t.laneB, mode := t.mode }) ∧
  (∀ (s : State) (e : Nat), s.mode.firstReady = some e → e + 10 * s.cfg.startWait ≤ s.now →
    ∃ t, exec .startWaitExpiry s = .next t ∧ t = { s with mode := { s.mode with startAlone := true } }) ∧
  (∀ (l : LaneId) (s : State), (s.lane l).run = .copy → s.mayResync l → s.mode.update = .idle → s.image = none →
    ∃ t, exec (.resyncCopyDone l) s = .next t ∧ t.lane l = { s.lane l with run := .joinWait } ∧ (t.laneCtl.stat l).resyncPct = 100 ∧
      t.lane l.other = s.lane l.other ∧ t = { s with laneA := t.laneA, laneB := t.laneB, laneCtl := t.laneCtl }) ∧
  (∀ (l : LaneId) (s : State), (s.lane l).run = .joinWait → (s.laneCtl.stat l).resyncPct = 100 → s.mayResync l → s.joinBlocked = false → s.image = none →
    ∃ t, exec (.resyncJoin l) s = .next t ∧ t.lane l.other = s.lane l.other ∧
      t.lane l = { s.lane l.other with run := .standby, ready := false, fused := (s.lane l).fused, fenced := (s.lane l).fenced
                                       eccCorrected := 0, ferris := (s.lane l).ferris, staging := { nextIdx := (s.lane l.other).staging.nextIdx } } ∧
      t.laneCtl.redundancy = .duplex ∧ t.laneCtl.event.getLsbD 5 = true ∧ (t.laneCtl.stat l).silentRun = 0) ∧
  (∀ (l : LaneId) (s : State), (s.lane l).run = .joinWait → s.mayResync l → s.mode.update = .idle → s.laneCtl.hold l.other = false →
      (s.laneCtl.stat l).resetEpoch + 5000 ≤ s.now →
    ∃ t, exec (.resyncTimeout l) s = .next t ∧ t.lane l = (s.lane l).wiped .reset ∧ t.lane l.other = s.lane l.other ∧ (t.laneCtl.stat l).lastLoss = 10 ∧
      t.laneCtl.redundancy = s.laneCtl.redundancy)

/-- Link, Ringmaster restart, automatic PREDICTIVE, host watchdog (01 R19, R21; 15 R386; 16 R406; 17 R426, R427). -/
def Obligations.LinkRingmasterAndWatchdogs : Prop :=
  (∀ s : State, s.laneCtl.linkFail = false → s.anyLane →
    ∃ t, exec .laneLinkFailure s = .next t ∧ t = { s with laneCtl := t.laneCtl, laneA := t.laneA, laneB := t.laneB, hif := t.hif } ∧
      t.laneCtl.linkFail = true ∧ t.laneCtl.redundancy = s.laneCtl.redundancy ∧ t.laneCtl.event.getLsbD 11 = true ∧
      ∀ l, t.lane l = if (s.lane l).run = .copy then { s.lane l with run := .joinWait } else s.lane l) ∧
  (∀ s : State, s.laneCtl.linkFail →
    ∃ t, exec .laneLinkReturn s = .next t ∧ t = { s with laneCtl := t.laneCtl, laneA := t.laneA, laneB := t.laneB } ∧ t.laneCtl.linkFail = false ∧
      ∀ l, ((s.lane l).run ≠ .joinWait → t.lane l = s.lane l) ∧
        ((s.lane l).run = .joinWait → (s.lane l).ready = false → (s.laneCtl.stat l).resyncPct ≠ 100 → (t.lane l).run = .copy)) ∧
  (∀ (a : LaneId) (s : State), InDuplex a s →
    ∃ t, exec .lockstepDisagree s = .next t ∧ t.laneCtl.redundancy = .net ∧ t.laneCtl.netCause = 4 ∧ t.gen.rmRestart = true ∧
      t.laneCtl.cntRmRestart = satTo 32 (s.laneCtl.cntRmRestart + 1) ∧ t.laneCtl.cntNet = satTo 32 (s.laneCtl.cntNet + 1) ∧ t.rel.netActive = true ∧
      ∀ l, t.lane l = { s.lane l with run := .running }) ∧
  (∀ (a : LaneId) (s : State), InDuplex a s →
    ∃ t, exec .rmWatchdogExpiry s = .next t ∧ t.laneCtl.redundancy = .net ∧ t.laneCtl.netCause = 5 ∧ t.gen.rmRestart = true ∧
      t.laneCtl.cntRmRestart = satTo 32 (s.laneCtl.cntRmRestart + 1) ∧ ∀ l, t.lane l = { s.lane l with run := .running }) ∧
  (∀ s : State, s.gen.rmRestart → s.mode.update ≠ .handover →
    ∃ t, exec .rmRestartComplete s = .next t ∧ t = { s with gen := { s.gen with rmRestart := false, rmRestartSwap := false, restartEnd := some s.now } }) ∧
  (∀ s : State, bit s.mode.modeCfgActive 1 → s.mode.authSetByHost = false → s.cfg.predSettle ≤ s.mode.predAvailTicks → s.predAvailable →
      s.mode.authority ≠ .predictive → s.mode.pendingModes.contains .autoPredictive = false →
    ∃ t, exec .autoPredictiveEntry s = .next t ∧ t = { s with mode := { s.mode with pendingModes := s.mode.pendingModes ++ [.autoPredictive] } }) ∧
  (∀ s : State, s.hif.wdogTicks = 0 → s.hif.wdogExpired = false → s.wdogWaits = false →
    ∃ t, exec .hostWatchdogExpiry s = .next t ∧ t.mode.hostPresent = false ∧ t.hif.wdogTicks = 0 ∧ t.hif.wdogExpired ∧ t.hif.err.getLsbD 0 = true ∧
      t = { s with hif := t.hif, mode := t.mode, evt := t.evt }) ∧
  (∀ s : State, s.hif.wdogTicks = 0 → s.hif.wdogExpired = false → s.wdogWaits →
    ∃ t, exec .hostWatchdogExpiry s = .next t ∧ t = { s with hif := { s.hif with wdogDeferred := true } }) ∧
  (∀ s : State, s.hif.wdogDeferred → s.wdogWaits = false →
    ∃ t, exec .deferredWatchdogExpiry s = .next t ∧ t.mode.hostPresent = false ∧ t.hif.wdogTicks = 0 ∧ t.hif.wdogExpired ∧ t.hif.wdogDeferred = false ∧
      t.hif.err.getLsbD 0 = true ∧ t = { s with hif := t.hif, mode := t.mode, evt := t.evt })

/-- The flow of a tick outside the Hall of Mirrors (02 R36 to R40, R50, R51; 09 R239; 19 R473). -/
def Obligations.TickFrameViewsAndTime : Prop :=
  (∀ (inp : TickInputs) (s : State),
    ∃ t, exec (.tickStart inp) s = .next t ∧ t.tick.epoch = s.tick.epoch + 1 ∧ t.due = [] ∧ t.tick.windowOpen = false ∧
      t.tick.frame.epoch = s.tick.epoch + 1 ∧ t.tick.frame.t0Time = t.tick.t0Time ∧ t.tick.loopRelLast = s.tick.loopRelCur ∧ t.tick.loopRelCur = 0 ∧
      (∀ n, (t.mirrorSlot n).a = none ∧ (t.mirrorSlot n).b = none ∧ (t.mirrorSlot n).closed = false) ∧
      (s.tick.timeSeen = false → t.tick.t0Time = s.tick.t0Time) ∧
      (s.tick.timeSeen → s.tick.timeValid → s.tick.phaseErr = 0 → t.tick.t0Time = s.tick.t0Time + 100000 ∧ t.tick.slewing = false) ∧
      (t.tick.closing.isSome ↔ s.settledTick) ∧ (s.settledTick → (t.tick.closing.bind (·.epoch)) = some s.tick.epoch)) ∧
  (∀ (l : LaneId) (s : State), (s.lane l).isRunning →
    ∃ t, exec .frameReady s = .next t ∧ Tab.get {} (t.lane l).ferris (s.tick.frame.epoch % 960000) = s.tick.frame ∧ t.tick.epoch = s.tick.epoch) ∧
  (∀ (s : State) (v : Snapshot), s.tick.closing = some v →
    ∃ t, exec .viewPublish s = .next t ∧
      t = { s with tick := { s.tick with closing := none, settled := v, shown := if s.tick.hold then s.tick.shown else v } }) ∧
  (∀ s : State, s.tick.hold → s.tick.viewHoldLimit ≤ s.tick.holdTicks →
    ∃ t, exec .viewHoldExpiry s = .next t ∧
      t = { s with tick := { s.tick with hold := false, holdTicks := 0, shown := s.tick.settled, holdExpired := true } }) ∧
  (∀ (port : Fin 4) (time : U64) (e : Int) (s : State), (Tab.get ({} : Port) s.tray.ports port.val).up →
    ∃ t, exec (.gptpSyncReceived port time e) s = .next t ∧ t.tick.t0Time = time ∧ t.tick.timeValid = true ∧ t.tick.timeSeen = true ∧
      t.tick.holdover = false ∧ t.tick.phaseErr = e ∧ (t.tick.locked = true ↔ -250 ≤ e ∧ e ≤ 250) ∧
      (Tab.get ({} : Port) t.tray.ports port.val).ptp = 2 ∧ t = { s with tick := t.tick, tray := t.tray, evt := t.evt, hif := t.hif }) ∧
  (∀ (port : Fin 4) (s : State), s.tick.timeValid → (∀ p, p ≠ port.val → (Tab.get ({} : Port) s.tray.ports p).ptp ≠ 2) →
    ∃ t, exec (.syncTimeout port) s = .next t ∧ t.tick.timeValid = false ∧ t.tick.holdover = true ∧ t.tick.locked = false ∧ t.tick.slewing = false ∧
      t.tick.event.getLsbD 7 = true ∧ t = { s with tick := t.tick, tray := t.tray, evt := t.evt, hif := t.hif })

/-- Loop outputs in the Hall of Mirrors (02 R42; 15 R364 to R368, R385). -/
def Obligations.LoopOutputsThroughTheMirrors : Prop :=
  (∀ (l : LaneId) (ns n : Nat) (s : State) (x : LoopSlot), s.slotOut l n = some x → (s.mirrorSlot n).closed = false →
      (s.mirrorSlot n).copy l = none → (s.mirrorSlot n).copy l.other = none → (s.laneCtl.stat l).outputsLost = false → ns ≤ loopDeadline n →
      s.laneCtl.redundancy = .duplex → (s.loopDesc n).plausible { out := x.out, tgt := x.tgt, r := x.r } →
    ∃ t, exec (.laneOutputDelivery l ns (.loop n none)) s = .next t ∧ t = { s with laneCtl := t.laneCtl } ∧
      (t.mirrorSlot n).copy l = some { out := x.out, tgt := x.tgt, r := x.r } ∧ (t.mirrorSlot n).closed = false) ∧
  (∀ (l : LaneId) (ns n : Nat) (s : State) (o p : LoopOut) (x : LoopSlot), s.slotOut l n = some x → (s.mirrorSlot n).closed = false →
      (s.mirrorSlot n).copy l = none → (s.mirrorSlot n).copy l.other = some p → (s.laneCtl.stat l).outputsLost = false → ns ≤ loopDeadline n →
      s.laneCtl.redundancy = .duplex → s.laneCtl.held = false → (s.loopDesc n).plausible o → F32.agree (s.loopDesc n).mirrorTol o.out p.out →
      F32.agree (s.loopDesc n).mirrorTol p.out o.out →
    ∃ t, exec (.laneOutputDelivery l ns (.loop n (some o))) s = .next t ∧ (t.mirrorSlot n).closed = true ∧
      Tab.get none t.rel.loopOut n = some (if s.laneCtl.active = l then o.out else p.out) ∧ t.laneCtl.countOf (.loop n) = 0 ∧
      t = { s with laneCtl := t.laneCtl, rel := t.rel, tick := t.tick, motors := t.motors, bus := t.bus }) ∧
  (∀ (l : LaneId) (ns n : Nat) (s : State) (o p : LoopOut) (x : LoopSlot), s.slotOut l n = some x → (s.mirrorSlot n).closed = false →
      (s.mirrorSlot n).copy l = none → (s.mirrorSlot n).copy l.other = some p → (s.laneCtl.stat l).outputsLost = false → ns ≤ loopDeadline n →
      s.laneCtl.redundancy = .duplex → s.laneCtl.held = false → s.laneCtl.mergedNow = false → (s.loopDesc n).plausible o →
      F32.agree (s.loopDesc n).mirrorTol o.out p.out = false → F32.agree (s.loopDesc n).mirrorTol p.out o.out = false →
      s.laneCtl.countOf (.loop n) + 1 < s.cfg.k →
    ∃ t, exec (.laneOutputDelivery l ns (.loop n (some o))) s = .next t ∧ t.laneCtl.countOf (.loop n) = s.laneCtl.countOf (.loop n) + 1 ∧
      t.laneCtl.cntDisagree = satTo 32 (s.laneCtl.cntDisagree + 1) ∧ t.laneCtl.event.getLsbD 0 = true ∧
      Tab.get none t.rel.loopOut n = some (if s.laneCtl.active = l then o.out else p.out)) ∧
  (∀ (l : LaneId) (ns n : Nat) (s : State) (x : LoopSlot), s.slotOut l n = some x → (s.mirrorSlot n).closed = false →
      (s.mirrorSlot n).copy l = none → (s.mirrorSlot n).copy l.other = none → (s.laneCtl.stat l).outputsLost = false → ns ≤ loopDeadline n →
      s.laneCtl.redundancy = .simplexOn l → s.laneCtl.held = false →
    ∃ t, exec (.laneOutputDelivery l ns (.loop n none)) s = .next t ∧ (t.mirrorSlot n).closed = true ∧ Tab.get none t.rel.loopOut n = some x.out ∧
      t.tick.loopRelCur = max s.tick.loopRelCur ns) ∧
  (∀ (n : Fin 256) (s : State) (o : LoopOut), n.val ≠ 255 → s.inNet = false → s.laneCtl.held = false → (s.mirrorSlot n.val).closed = false →
      (s.slotOut .A n.val).isSome ∨ (s.slotOut .B n.val).isSome → (s.mirrorSlot n.val).copy s.laneCtl.active = some o →
    ∃ t, exec (.loopReleaseDeadline n) s = .next t ∧ Tab.get none t.rel.loopOut n.val = some o.out ∧ (t.mirrorSlot n.val).closed = true ∧
      t.tick.unsettled = s.tick.unsettled) ∧
  (∀ (n : Fin 256) (s : State), n.val ≠ 255 → s.inNet = false → s.laneCtl.held = false → (s.mirrorSlot n.val).closed = false →
      (s.slotOut .A n.val).isSome ∨ (s.slotOut .B n.val).isSome → (s.mirrorSlot n.val).copy s.laneCtl.active = none →
    ∃ t, exec (.loopReleaseDeadline n) s = .next t ∧ t.rel = s.rel ∧ t.tick = { s.tick with unsettled := true } ∧
      (t.mirrorSlot n.val).closed = true ∧ t = { s with laneCtl := t.laneCtl, tick := t.tick }) ∧
  (∀ (l : LaneId) (s : State), (s.lane l).isRunning → s.silent l →
    ∃ t, exec (.loopReleaseDeadline 255) s = .next t ∧ (t.laneCtl.stat l).silentRun = (s.laneCtl.stat l).silentRun + 1 ∧
      (t.laneCtl.stat l).silentTicks = satTo 32 ((s.laneCtl.stat l).silentTicks + 1) ∧ (t.laneCtl.stat l).qualRun = 0) ∧
  (∀ (l : LaneId) (s : State), (s.lane l).isRunning → s.silent l = false → s.inNet → (s.laneCtl.stat l).failedAt ≠ some s.now →
    ∃ t, exec (.loopReleaseDeadline 255) s = .next t ∧ (t.laneCtl.stat l).silentRun = 0 ∧
      (t.laneCtl.stat l).qualRun = (s.laneCtl.stat l).qualRun + 1)

/-- Model results and steps (02 R44, R45, R48, R49, R530; 05 R137, R138). -/
def Obligations.ModelResultsAndSteps : Prop :=
  (∀ (a : LaneId) (n src d : Nat) (w : F32) (r : HeldResult) (s : State), s.laneCtl.redundancy = .simplexOn a → s.laneCtl.active = a → s.laneCtl.held = false →
      r.kind = .loopSp → r.target = n → r.source = src → r.due = d → r.copy a = some (.word w) → s.tick.held = [r] →
      s.tick.lastDue .loopSp n = none → d ≤ s.now →
    ∃ t, exec .releaseWindowOpen s = .next t ∧ t.tick.windowOpen = true ∧ t.tick.held = [] ∧
      (s.now ≤ d + s.tick.staleLimit → s.mode.authority = .predictive →
        Tab.get none t.rel.setPoint n = some w ∧ (∀ i, i ≠ n → Tab.get none t.rel.setPoint i = Tab.get none s.rel.setPoint i) ∧
        t.rel.loopOut = s.rel.loopOut ∧ t.tick.lastDue .loopSp n = some d ∧ t = { s with tick := t.tick, rel := t.rel }) ∧
      (s.now ≤ d + s.tick.staleLimit → s.mode.authority ≠ .predictive → t.rel = s.rel ∧ t = { s with tick := t.tick }) ∧
      (d + s.tick.staleLimit < s.now → t.rel = s.rel ∧ t.tick.cntStale = satTo 32 (s.tick.cntStale + 1) ∧ t.tick.discarded = s.tick.discarded + 1 ∧
        t.tick.event.getLsbD 2 = true ∧ t = { s with tick := t.tick, evt := t.evt, hif := t.hif })) ∧
  (∀ s : State, s.tick.windowOpen → s.inNet = false → s.tick.held = [] → s.laneCtl.others = [] → s.tick.capReleased →
    ∃ t, exec .releaseWindowClose s = .next t ∧ t.tick.windowOpen = false ∧
      t.tick.cntLate = (if s.lateNow then satTo 32 (s.tick.cntLate + 1) else s.tick.cntLate) ∧ (s.lateNow → t.tick.event.getLsbD 1 = true) ∧
      t = { s with tick := t.tick, evt := t.evt, hif := t.hif }) ∧
  (∀ (l : LaneId) (img : Image) (s : State), s.image = some img → (s.lane l).isRunning → (s.lane l).step.running → (s.lane l).stepDone img →
      (s.lane l).model.invalidRun < 7 →
    ∃ t, exec (.stepComplete l) s = .next t ∧ (t.lane l).step.running = false ∧ (t.lane l).step.firstStep = false ∧
      (t.lane l).model.sourceEpoch = some (s.lane l).step.epoch ∧ (t.lane l).model.abortRun = 0 ∧ t.tick = s.tick ∧ t.laneCtl = s.laneCtl) ∧
  (∀ (l : LaneId) (s : State), s.stepOverdue (s.lane l) →
    ∃ t, exec .stepAbort s = .next t ∧ t.tick.cntAbort = satTo 32 (s.tick.cntAbort + 1) ∧ t.tick.event.getLsbD 5 = true ∧
      t.img.stepAborts = satTo 32 (s.img.stepAborts + 1) ∧ (t.lane l).step.running = false ∧ (t.lane l).step.abortedLast = true ∧
      (t.lane l).model.abortRun = (s.lane l).model.abortRun + 1 ∧ ((t.lane l.other).isRunning → (t.lane l.other).step.running = false))

/-- Scalar integer instructions (06 R145, R150, Table 6.4). -/
def Obligations.TileScalarIntegers : Prop :=
  (∀ (l : LaneId) (t : Fin 1024) (w : BitVec 26) (s : State) (x : Tile) (a b : U32), s.tileRuns l t.val 0x01 w → x = (s.lane l).array.tile t.val →
      a = x.s (fld w 20 16) → b = x.s (fld w 15 11) → fld w 5 0 = 0 → fld w 10 6 ≤ 0x10 →
    ∃ s' v, exec (.alu l t w) s = .next s' ∧ TileRetires l t.val s s' (s.lane l).array (x.setS (fld w 25 21) v).next ∧
      (fld w 10 6 = 0x00 → v = a + b) ∧ (fld w 10 6 = 0x01 → v = a - b) ∧ (fld w 10 6 = 0x02 → v = a &&& b) ∧
      (fld w 10 6 = 0x03 → v = a ||| b) ∧ (fld w 10 6 = 0x04 → v = a ^^^ b) ∧ (fld w 10 6 = 0x05 → v = a <<< (b.toNat % 32)) ∧
      (fld w 10 6 = 0x06 → v = a >>> (b.toNat % 32)) ∧ (fld w 10 6 = 0x07 → v = a.sshiftRight (b.toNat % 32)) ∧
      (fld w 10 6 = 0x08 → v = BitVec.ofNat 32 (a.toNat * b.toNat)) ∧ (fld w 10 6 = 0x09 → v = BitVec.ofInt 32 (a.toInt * b.toInt / 2 ^ 32)) ∧
      (fld w 10 6 = 0x0A → v.toNat = a.toNat * b.toNat / 2 ^ 32) ∧ (fld w 10 6 = 0x0B → v = if a.toInt < b.toInt then 1 else 0) ∧
      (fld w 10 6 = 0x0C → v = if a.toNat < b.toNat then 1 else 0) ∧ (fld w 10 6 = 0x0D → v.toInt = min a.toInt b.toInt) ∧
      (fld w 10 6 = 0x0E → v.toInt = max a.toInt b.toInt) ∧ (fld w 10 6 = 0x0F → v.toNat = min a.toNat b.toNat) ∧
      (fld w 10 6 = 0x10 → v.toNat = max a.toNat b.toNat)) ∧
  (∀ (l : LaneId) (t : Fin 1024) (w : BitVec 26) (s : State), s.tileRuns l t.val 0x01 w → fld w 5 0 ≠ 0 ∨ 0x10 < fld w 10 6 →
    ∃ s', exec (.alu l t w) s = .next s' ∧ TileFaults l t.val s s' 1) ∧
  (∀ (l : LaneId) (t : Fin 1024) (w : BitVec 26) (s : State) (x : Tile), s.tileRuns l t.val 0x02 w → x = (s.lane l).array.tile t.val →
    ∃ s', exec (.addi l t w) s = .next s' ∧
      TileRetires l t.val s s' (s.lane l).array (x.setS (fld w 25 21) (x.s (fld w 20 16) + (w.setWidth 16).signExtend 32)).next) ∧
  (∀ (l : LaneId) (t : Fin 1024) (w : BitVec 26) (s : State) (x : Tile), s.tileRuns l t.val 0x03 w → x = (s.lane l).array.tile t.val →
    ∃ s', exec (.andi l t w) s = .next s' ∧
      TileRetires l t.val s s' (s.lane l).array (x.setS (fld w 25 21) (x.s (fld w 20 16) &&& w32 (fld w 15 0))).next) ∧
  (∀ (l : LaneId) (t : Fin 1024) (w : BitVec 26) (s : State) (x : Tile), s.tileRuns l t.val 0x04 w → x = (s.lane l).array.tile t.val →
    ∃ s', exec (.ori l t w) s = .next s' ∧
      TileRetires l t.val s s' (s.lane l).array (x.setS (fld w 25 21) (x.s (fld w 20 16) ||| w32 (fld w 15 0))).next) ∧
  (∀ (l : LaneId) (t : Fin 1024) (w : BitVec 26) (s : State) (x : Tile), s.tileRuns l t.val 0x05 w → x = (s.lane l).array.tile t.val →
    ∃ s', exec (.xori l t w) s = .next s' ∧
      TileRetires l t.val s s' (s.lane l).array (x.setS (fld w 25 21) (x.s (fld w 20 16) ^^^ w32 (fld w 15 0))).next) ∧
  (∀ (l : LaneId) (t : Fin 1024) (w : BitVec 26) (s : State) (x : Tile), s.tileRuns l t.val 0x06 w → x = (s.lane l).array.tile t.val → fld w 20 16 = 0 →
    ∃ s', exec (.lui l t w) s = .next s' ∧
      TileRetires l t.val s s' (s.lane l).array (x.setS (fld w 25 21) (w32 (fld w 15 0) <<< 16)).next) ∧
  (∀ (l : LaneId) (t : Fin 1024) (w : BitVec 26) (s : State) (x : Tile), s.tileRuns l t.val 0x07 w → x = (s.lane l).array.tile t.val → fld w 15 7 = 0 → fld w 6 5 ≠ 3 →
    ∃ s' v, exec (.shi l t w) s = .next s' ∧ TileRetires l t.val s s' (s.lane l).array (x.setS (fld w 25 21) v).next ∧
      (fld w 6 5 = 0 → v = x.s (fld w 20 16) <<< fld w 4 0) ∧ (fld w 6 5 = 1 → v = x.s (fld w 20 16) >>> fld w 4 0) ∧
      (fld w 6 5 = 2 → v = (x.s (fld w 20 16)).sshiftRight (fld w 4 0))) ∧
  (∀ (x : Tile) (i j : Nat) (v : U32), x.s 0 = 0 ∧ x.setS 0 v = x ∧ (i ≠ 0 → (x.setS i v).s i = v) ∧ (j ≠ i → (x.setS i v).s j = x.s j))

/-- Scalar floating point (06 R151, R165, R166). -/
def Obligations.TileScalarFloats : Prop :=
  (∀ (l : LaneId) (t : Fin 1024) (w : BitVec 26) (s : State) (x : Tile) (a b : FVal) (r : RMode), s.tileRuns l t.val 0x08 w → x = (s.lane l).array.tile t.val →
      a = F32.val (x.s (fld w 20 16)) → b = F32.val (x.s (fld w 15 11)) → r = rmodeOf (fld w 5 4) → fld w 3 0 = 0 → fld w 10 6 ≤ 8 →
      (fld w 10 6 = 4 ∨ fld w 10 6 = 7 ∨ fld w 10 6 = 8 → fld w 15 11 = 0) →
    ∃ s' v, exec (.falu l t w) s = .next s' ∧ TileRetires l t.val s s' (s.lane l).array (x.putS (fld w 25 21) v).next ∧
      (fld w 10 6 = 0 → v = fAdd fmtF32 r a b) ∧ (fld w 10 6 = 1 → v = fSub fmtF32 r a b) ∧ (fld w 10 6 = 2 → v = fMul fmtF32 r a b) ∧
      (fld w 10 6 = 3 → v = fDiv fmtF32 r a b) ∧ (fld w 10 6 = 4 → v = fSqrt fmtF32 r a) ∧ (fld w 10 6 = 5 → v = fMin fmtF32 a b) ∧
      (fld w 10 6 = 6 → v = fMax fmtF32 a b) ∧
      (fld w 10 6 = 7 → v.2 = 0 ∧ w32 v.1 = x.s (fld w 20 16) &&& 0x7FFFFFFF) ∧
      (fld w 10 6 = 8 → v.2 = 0 ∧ w32 v.1 = x.s (fld w 20 16) ^^^ 0x80000000)) ∧
  (∀ (l : LaneId) (t : Fin 1024) (w : BitVec 26) (s : State), s.tileRuns l t.val 0x08 w → 8 < fld w 10 6 →
    ∃ s', exec (.falu l t w) s = .next s' ∧ TileFaults l t.val s s' 1) ∧
  (∀ (l : LaneId) (t : Fin 1024) (w : BitVec 26) (s : State) (x : Tile) (a b : FVal), s.tileRuns l t.val 0x09 w → x = (s.lane l).array.tile t.val →
      a = F32.val (x.s (fld w 20 16)) → b = F32.val (x.s (fld w 15 11)) → fld w 3 0 = 0 → fld w 10 6 ≤ 3 →
    ∃ s' v, exec (.fcmp l t w) s = .next s' ∧ TileRetires l t.val s s' (s.lane l).array (x.putS (fld w 25 21) v).next ∧
      (fld w 10 6 = 0 → v.1 = if a.cmp b = some .eq then 1 else 0) ∧ (fld w 10 6 = 1 → v.1 = if a.cmp b = some .lt then 1 else 0) ∧
      (fld w 10 6 = 2 → v.1 = if a.le b then 1 else 0) ∧ (fld w 10 6 = 3 → v.1 = if a.cmp b = none then 1 else 0) ∧
      (fld w 10 6 = 0 ∨ fld w 10 6 = 3 → v.2 = 0)) ∧
  (∀ (l : LaneId) (t : Fin 1024) (w : BitVec 26) (s : State) (x : Tile) (a : U32) (r : RMode), s.tileRuns l t.val 0x0A w → x = (s.lane l).array.tile t.val →
      a = x.s (fld w 20 16) → r = rmodeOf (fld w 5 4) → fld w 3 0 = 0 → fld w 15 11 = 0 → fld w 10 6 ≤ 5 →
    ∃ s' v, exec (.fcvt l t w) s = .next s' ∧ TileRetires l t.val s s' (s.lane l).array (x.putS (fld w 25 21) v).next ∧
      (fld w 10 6 = 0 → v.1 = unsext 32 (toFixed r (-2147483648) 2147483647 0 (F32.val a)).1) ∧
      (fld w 10 6 = 1 → v.1 = unsext 32 (toFixed r 0 4294967295 0 (F32.val a)).1) ∧
      (fld w 10 6 = 2 → v = fmtF32.convert r false (fixedVal a.toInt 0)) ∧ (fld w 10 6 = 3 → v = fmtF32.convert r false (fixedVal a.toNat 0)) ∧
      (fld w 10 6 = 4 → v = fmtBf16.convert r false (F32.val a)) ∧ (fld w 10 6 = 5 → v = fmtF32.convert r false (fmtBf16.decode (a.toNat % 65536))))

/-- Loads and stores of a tile (06 R152). -/
def Obligations.TileLoadsAndStores : Prop :=
  (∀ (l : LaneId) (t : Fin 1024) (w : BitVec 26) (s : State) (x : Tile) (n addr : Nat), s.tileRuns l t.val 0x0C w → x = (s.lane l).array.tile t.val →
      n = sizeBytes (fld w 15 14) → addr = tileAddr (x.s (fld w 20 16)) (sfld w 14) → addr % n = 0 → addr + n ≤ 0x2E000 →
    ∃ s' v, exec (.ld l t w) s = .next s' ∧ TileRetires l t.val s s' (s.lane l).array (x.setS (fld w 25 21) v).next ∧
      (fld w 15 14 ≠ 3 → v.toNat = leNat ((s.lane l).array.read t.val addr n)) ∧
      (fld w 15 14 = 3 → v = (BitVec.ofNat 16 (leNat ((s.lane l).array.read t.val addr n))).signExtend 32)) ∧
  (∀ (l : LaneId) (t : Fin 1024) (w : BitVec 26) (s : State) (x : Tile) (n addr : Nat), s.tileRuns l t.val 0x0D w → x = (s.lane l).array.tile t.val → fld w 15 14 ≠ 3 →
      n = sizeBytes (fld w 15 14) → addr = tileAddr (x.s (fld w 20 16)) (sfld w 14) → addr % n = 0 → addr + n ≤ 0x2E000 →
    ∃ s', exec (.st l t w) s = .next s' ∧
      TileRetires l t.val s s' ((s.lane l).array.write t.val addr (leBytes n (x.s (fld w 25 21)).toNat)) x.next ∧
      (s'.lane l).array.read t.val addr n = leBytes n (x.s (fld w 25 21)).toNat ∧
      ∀ a, (a < tileBase t.val + addr ∨ tileBase t.val + addr + n ≤ a) →
        (s'.lane l).array.memory.read a = (s.lane l).array.memory.read a) ∧
  (∀ (l : LaneId) (t : Fin 1024) (w : BitVec 26) (s : State) (x : Tile) (addr : Nat), s.tileRuns l t.val 0x0E w → x = (s.lane l).array.tile t.val → fld w 15 12 = 0 →
      (fld w 16 16 = 1 → fld w 21 17 ≠ 0) → addr = tileAddr (x.s (fld w 21 17)) (sfld w 12 * 64) → addr % 64 = 0 → addr + 64 ≤ 0x2E000 →
    ∃ s', exec (.ldv l t w) s = .next s' ∧ TileRetires l t.val s s' (s.lane l).array
      ((if fld w 16 16 = 1 then x.setS (fld w 21 17) (x.s (fld w 21 17) + 64) else x).setV (fld w 25 22) (vecOf ((s.lane l).array.read t.val addr 64))).next) ∧
  (∀ (l : LaneId) (t : Fin 1024) (w : BitVec 26) (s : State) (x : Tile) (addr : Nat), s.tileRuns l t.val 0x0F w → x = (s.lane l).array.tile t.val → fld w 15 12 = 0 →
      (fld w 16 16 = 1 → fld w 21 17 ≠ 0) → addr = tileAddr (x.s (fld w 21 17)) (sfld w 12 * 64) → addr % 64 = 0 → addr + 64 ≤ 0x2E000 →
    ∃ s', exec (.stv l t w) s = .next s' ∧ TileRetires l t.val s s' ((s.lane l).array.write t.val addr (vecBytes (x.v (fld w 25 22))))
      (if fld w 16 16 = 1 then x.setS (fld w 21 17) (x.s (fld w 21 17) + 64) else x).next ∧
      ∀ a, (a < tileBase t.val + addr ∨ tileBase t.val + addr + 64 ≤ a) → (s'.lane l).array.memory.read a = (s.lane l).array.memory.read a) ∧
  (∀ (l : LaneId) (t : Fin 1024) (w : BitVec 26) (s : State) (x : Tile) (addr : Nat), s.tileRuns l t.val 0x10 w → x = (s.lane l).array.tile t.val → fld w 22 22 = 0 → fld w 15 12 = 0 →
      (fld w 16 16 = 1 → fld w 21 17 ≠ 0) → addr = tileAddr (x.s (fld w 21 17)) (sfld w 12 * 64) → addr % 64 = 0 → addr + 64 ≤ 0x2E000 →
    ∃ s', exec (.ldacc l t w) s = .next s' ∧ TileRetires l t.val s s' (s.lane l).array
      ((if fld w 16 16 = 1 then x.setS (fld w 21 17) (x.s (fld w 21 17) + 64) else x).setAcc (fld w 25 23) (vecOf ((s.lane l).array.read t.val addr 64))).next) ∧
  (∀ (l : LaneId) (t : Fin 1024) (w : BitVec 26) (s : State) (x : Tile) (addr : Nat), s.tileRuns l t.val 0x11 w → x = (s.lane l).array.tile t.val → fld w 22 22 = 0 → fld w 15 12 = 0 →
      (fld w 16 16 = 1 → fld w 21 17 ≠ 0) → addr = tileAddr (x.s (fld w 21 17)) (sfld w 12 * 64) → addr % 64 = 0 → addr + 64 ≤ 0x2E000 →
    ∃ s', exec (.stacc l t w) s = .next s' ∧ TileRetires l t.val s s' ((s.lane l).array.write t.val addr (vecBytes (x.acc (fld w 25 23))))
      (if fld w 16 16 = 1 then x.setS (fld w 21 17) (x.s (fld w 21 17) + 64) else x).next ∧
      ∀ a, (a < tileBase t.val + addr ∨ tileBase t.val + addr + 64 ≤ a) → (s'.lane l).array.memory.read a = (s.lane l).array.memory.read a) ∧
  (∀ (l : LaneId) (t : Fin 1024) (w : BitVec 26) (s : State) (x : Tile) (n addr : Nat), s.tileRuns l t.val 0x0C w → x = (s.lane l).array.tile t.val →
      n = sizeBytes (fld w 15 14) → addr = tileAddr (x.s (fld w 20 16)) (sfld w 14) → addr % n ≠ 0 ∨ 0x2E000 < addr + n →
    ∃ s', exec (.ld l t w) s = .next s' ∧ TileFaults l t.val s s' (if addr % n ≠ 0 then 4 else 3)) ∧
  (∀ (l : LaneId) (t : Fin 1024) (w : BitVec 26) (s : State) (x : Tile) (n addr : Nat), s.tileRuns l t.val 0x0D w → x = (s.lane l).array.tile t.val → fld w 15 14 ≠ 3 →
      n = sizeBytes (fld w 15 14) → addr = tileAddr (x.s (fld w 20 16)) (sfld w 14) → addr % n ≠ 0 ∨ 0x2E000 < addr + n →
    ∃ s', exec (.st l t w) s = .next s' ∧ TileFaults l t.val s s' (if addr % n ≠ 0 then 4 else 3))

/-- Control, special registers and flags of a tile (06 R153, R154, R166; 05 Table 5.3). -/
def Obligations.TileControlAndSpecials : Prop :=
  (∀ (l : LaneId) (t : Fin 1024) (w : BitVec 26) (s : State) (x : Tile) (a b : U32) (c : Nat), s.tileRuns l t.val 0x14 w → x = (s.lane l).array.tile t.val →
      a = x.s (fld w 25 21) → b = x.s (fld w 20 16) → c = fld w 15 12 → c ≤ 6 → 0x100 ≤ fld w 11 0 →
    ∃ s' y, exec (.br l t w) s = .next s' ∧ TileRetires l t.val s s' (s.lane l).array y ∧
      ((c = 0 ∧ a = b) ∨ (c = 1 ∧ a ≠ b) ∨ (c = 2 ∧ a.toInt < b.toInt) ∨ (c = 3 ∧ b.toInt ≤ a.toInt) ∨ (c = 4 ∧ a.toNat < b.toNat) ∨
        (c = 5 ∧ b.toNat ≤ a.toNat) ∨ c = 6 → y = { x with pc := fld w 11 0 }) ∧
      (¬ ((c = 0 ∧ a = b) ∨ (c = 1 ∧ a ≠ b) ∨ (c = 2 ∧ a.toInt < b.toInt) ∨ (c = 3 ∧ b.toInt ≤ a.toInt) ∨ (c = 4 ∧ a.toNat < b.toNat) ∨
        (c = 5 ∧ b.toNat ≤ a.toNat) ∨ c = 6) → y = x.next)) ∧
  (∀ (l : LaneId) (t : Fin 1024) (w : BitVec 26) (s : State) (x : Tile), s.tileRuns l t.val 0x14 w → x = (s.lane l).array.tile t.val → fld w 15 12 = 7 → fld w 20 16 = 0 →
    (0x100 ≤ fld w 11 0 → ∃ s', exec (.br l t w) s = .next s' ∧
      TileRetires l t.val s s' (s.lane l).array { x.setS (fld w 25 21) (w32 (x.pc + 1)) with pc := fld w 11 0 }) ∧
    (fld w 11 0 < 0x100 → ∃ s', exec (.br l t w) s = .next s' ∧ TileFaults l t.val s s' 2)) ∧
  (∀ (l : LaneId) (t : Fin 1024) (w : BitVec 26) (s : State) (x : Tile) (v : U32), s.tileRuns l t.val 0x15 w → x = (s.lane l).array.tile t.val → fld w 20 12 = 0 → fld w 25 21 ≠ 0 →
      v = x.s (fld w 25 21) - 1 → 0x100 ≤ fld w 11 0 →
    ∃ s', exec (.dbnz l t w) s = .next s' ∧ TileRetires l t.val s s' (s.lane l).array
      (if v = 0 then (x.setS (fld w 25 21) v).next else { x.setS (fld w 25 21) v with pc := fld w 11 0 })) ∧
  (∀ (l : LaneId) (t : Fin 1024) (w : BitVec 26) (s : State) (x : Tile), s.tileRuns l t.val 0x16 w → x = (s.lane l).array.tile t.val → 0x100 ≤ (x.s (fld w 25 21)).toNat % 0x1000 →
    ∃ s', exec (.jr l t w) s = .next s' ∧ TileRetires l t.val s s' (s.lane l).array { x with pc := (x.s (fld w 25 21)).toNat % 0x1000 }) ∧
  (∀ (l : LaneId) (t : Fin 1024) (s : State) (x : Tile), s.tileRuns l t.val 0x17 0 → x = (s.lane l).array.tile t.val →
    ∃ s', exec (.endBlock l t 0) s = .next s' ∧ TileRetires l t.val s s' (s.lane l).array { x with seq := .idle, pc := x.pc + 1 }) ∧
  (∀ (l : LaneId) (t : Fin 1024) (s : State) (x : Tile), s.tileRuns l t.val 0x18 0 → x = (s.lane l).array.tile t.val → x.dmaq = [] →
    ∃ s' y, exec (.stepend l t 0) s = .next s' ∧ y = { x with seq := .stepEnd, pc := x.pc + 1 } ∧
      TileRetires l t.val s s' (((s.lane l).array.setTile t.val y).sleepRow (t.val / 32)) y) ∧
  (∀ (l : LaneId) (t : Fin 1024) (s : State), s.tileRuns l t.val 0x18 0 → ((s.lane l).array.tile t.val).dmaq ≠ [] →
    exec (.stepend l t 0) s = .next s) ∧
  (∀ (l : LaneId) (t : Fin 1024) (w : BitVec 26) (s : State) (x : Tile), s.tileRuns l t.val 0x34 w → x = (s.lane l).array.tile t.val → fld w 20 16 = 0 → fld w 15 0 ≠ 4 → fld w 15 0 ≠ 5 →
    ∃ s' v, exec (.srr l t w) s = .next s' ∧ TileRetires l t.val s s' (s.lane l).array (x.setS (fld w 25 21) v).next ∧
      (fld w 15 0 = 0 → v = w32 t.val) ∧ (fld w 15 0 = 2 → v = x.stepEpoch.setWidth 32) ∧ (fld w 15 0 = 3 → v = (x.stepEpoch >>> 32).setWidth 32) ∧
      (fld w 15 0 = 1 → v.getLsbD 7 = (s.lane l).step.firstStep ∧ v.getLsbD 6 = (s.lane l).step.abortedLast ∧ v.getLsbD 5 = !x.dmaq.isEmpty ∧
        v.toNat % 16 = s.img.kMod % 16) ∧
      (5 < fld w 15 0 → v = 0)) ∧
  (∀ (l : LaneId) (t : Fin 1024) (w : BitVec 26) (s : State) (x : Tile), s.tileRuns l t.val 0x34 w → x = (s.lane l).array.tile t.val → fld w 20 16 = 0 → fld w 15 0 = 4 ∨ fld w 15 0 = 5 →
    ∃ s', exec (.srr l t w) s = .next s' ∧ TileRetires l t.val { s with fresh := s.fresh + 1 } s' (s.lane l).array
      (x.setS (fld w 25 21) (Config.freeWord s.fresh)).next) ∧
  (∀ (l : LaneId) (t : Fin 1024) (w : BitVec 26) (s : State) (x : Tile), s.tileRuns l t.val 0x35 w → x = (s.lane l).array.tile t.val → fld w 15 8 = 0 →
    ∃ s' y, exec (.flags l t w) s = .next s' ∧ TileRetires l t.val s s' (s.lane l).array y ∧
      y = { (x.setS (fld w 25 21) x.flagWord).next with flagWord := x.flagWord &&& ~~~w32 (fld w 7 0) })

/-- Vector, MAC and interval instructions (06 R155 to R170). -/
def Obligations.TileVectorsAndMac : Prop :=
  (∀ (l : LaneId) (t : Fin 1024) (w : BitVec 26) (s : State) (x : Tile) (acc fmt : Nat), s.tileRuns l t.val 0x20 w → x = (s.lane l).array.tile t.val → acc = fld w 25 23 → fmt = fld w 14 12 →
      fld w 10 0 = 0 →
    (fmt ≠ 5 → ∃ s' r, exec (.mma l t w) s = .next s' ∧ r = mma fmt (fld w 11 11 = 1) (x.acc acc) (x.v (fld w 22 19)) (x.v (fld w 18 15)) ∧
      TileRetires l t.val s s' (s.lane l).array ((x.setAcc acc r.1).raise r.2).next) ∧
    (fmt = 5 → acc % 2 = 0 → ∃ s' r, exec (.mma l t w) s = .next s' ∧
      r = mmaInterval (fld w 11 11 = 1) (x.acc acc) (x.acc (acc + 1)) (x.v (fld w 22 19)) (x.v (fld w 18 15)) ∧
      TileRetires l t.val s s' (s.lane l).array (((x.setAcc acc r.1).setAcc (acc + 1) r.2.1).raise r.2.2).next) ∧
    (fmt = 5 → acc % 2 = 1 → ∃ s', exec (.mma l t w) s = .next s' ∧ TileFaults l t.val s s' 5)) ∧
  (∀ (l : LaneId) (t : Fin 1024) (w : BitVec 26) (s : State) (x : Tile) (o : Option (BitVec 512 × Nat)), s.tileRuns l t.val 0x22 w → x = (s.lane l).array.tile t.val → fld w 3 0 = 0 →
      (vopUnary (fld w 10 6) → fld w 17 14 = 0) →
      o = vop (fld w 13 11) (fld w 10 6) (fld w 5 4) (x.v (fld w 25 22)) (x.v (fld w 21 18)) (x.v (fld w 17 14)) →
    (∀ r, o = some r → ∃ s', exec (.vop l t w) s = .next s' ∧ TileRetires l t.val s s' (s.lane l).array ((x.setV (fld w 25 22) r.1).raise r.2).next) ∧
    (o = none → ∃ s', exec (.vop l t w) s = .next s' ∧ TileFaults l t.val s s' 1)) ∧
  (∀ (l : LaneId) (t : Fin 1024) (w : BitVec 26) (s : State) (x : Tile) (o : Option (BitVec 512 × Nat)), s.tileRuns l t.val 0x23 w → x = (s.lane l).array.tile t.val → fld w 5 0 = 0 →
      o = vcvt (fld w 17 15) (fld w 14 12) (fld w 11 9) (fld w 7 6) (fld w 8 8 = 1) (x.v (fld w 25 22)) (x.v (fld w 21 18)) →
    (∀ r, o = some r → ∃ s', exec (.vcvt l t w) s = .next s' ∧ TileRetires l t.val s s' (s.lane l).array ((x.setV (fld w 25 22) r.1).raise r.2).next) ∧
    (o = none → ∃ s', exec (.vcvt l t w) s = .next s' ∧ TileFaults l t.val s s' 1)) ∧
  (∀ (l : LaneId) (t : Fin 1024) (w : BitVec 26) (s : State) (x : Tile) (y k : Nat), s.tileRuns l t.val 0x24 w → x = (s.lane l).array.tile t.val → fld w 8 0 = 0 → y = (x.s (fld w 21 17)).toNat →
      k = fld w 16 12 → fld w 11 9 ≤ 4 → (fld w 11 9 ≤ 2 → k = 0) → k ≤ 15 →
    ∃ s' z, exec (.vmisc l t w) s = .next s' ∧ TileRetires l t.val s s' (s.lane l).array z.next ∧
      (fld w 11 9 = 0 → z = x.setV (fld w 25 22) (packElems 32 (List.replicate 16 y))) ∧
      (fld w 11 9 = 1 → z = x.setV (fld w 25 22) (packElems 16 (List.replicate 32 y))) ∧
      (fld w 11 9 = 2 → z = x.setV (fld w 25 22) (packElems 8 (List.replicate 64 y))) ∧
      (fld w 11 9 = 3 → z = x.setS (fld w 21 17) (BitVec.ofNat 32 ((x.v (fld w 25 22)).toNat >>> (32 * k)))) ∧
      (fld w 11 9 = 4 → z = x.setV (fld w 25 22) (packElems 32 ((elems 32 16 (x.v (fld w 25 22))).set k y)))) ∧
  (∀ (l : LaneId) (t : Fin 1024) (w : BitVec 26) (s : State) (x : Tile) (pa pb : Nat), s.tileRuns l t.val 0x26 w → x = (s.lane l).array.tile t.val → fld w 11 0 = 0 → pa = fld w 22 20 → pb = fld w 19 17 →
      fld w 16 12 ≤ 6 → (fld w 16 12 = 6 → pb = 0) →
    ∃ s' r, exec (.ivop l t w) s = .next s' ∧ r = ivop (fld w 16 12) (x.v (2 * pa)) (x.v (2 * pa + 1)) (x.v (2 * pb)) (x.v (2 * pb + 1)) ∧
      TileRetires l t.val s s' (s.lane l).array (((x.setV (2 * fld w 25 23) r.1).setV (2 * fld w 25 23 + 1) r.2.1).raise r.2.2).next) ∧
  (∀ (l : LaneId) (t : Fin 1024) (w : BitVec 26) (s : State) (x : Tile) (v p : Nat), s.tileRuns l t.val 0x27 w → x = (s.lane l).array.tile t.val → fld w 15 0 = 0 → v = fld w 25 22 → p = fld w 21 19 →
      fld w 18 16 ≤ 2 →
    ∃ s' z, exec (.ivcvt l t w) s = .next s' ∧ TileRetires l t.val s s' (s.lane l).array z.next ∧
      (fld w 18 16 = 0 → z = (x.setV v (ivPack (x.v (2 * p)) (x.v (2 * p + 1))).1).raise (ivPack (x.v (2 * p)) (x.v (2 * p + 1))).2) ∧
      (fld w 18 16 = 1 → z = ((x.setV (2 * p) (ivUnpack (x.v v)).1).setV (2 * p + 1) (ivUnpack (x.v v)).2.1).raise (ivUnpack (x.v v)).2.2) ∧
      (fld w 18 16 = 2 → z = ((x.setV (2 * p) (x.v v)).setV (2 * p + 1) (x.v v)).raise 0))

/-- R158: ACCMV, ACCSET, ACCCLR; other func values are undefined. -/
def Obligations.AccumulatorMoves : Prop :=
  (∀ (l : LaneId) (t : Fin 1024) (w : BitVec 26) (s : State) (x : Tile), s.tileRuns l t.val 0x21 w → x = (s.lane l).array.tile t.val → fld w 15 0 = 0 →
    (fld w 18 16 = 0 → ∃ s', exec (.acc l t w) s = .next s' ∧
      TileRetires l t.val s s' (s.lane l).array (x.setV (fld w 22 19) (x.acc (fld w 25 23))).next) ∧
    (fld w 18 16 = 1 → ∃ s', exec (.acc l t w) s = .next s' ∧
      TileRetires l t.val s s' (s.lane l).array (x.setAcc (fld w 25 23) (x.v (fld w 22 19))).next) ∧
    (fld w 18 16 = 2 → fld w 22 19 = 0 → ∃ s', exec (.acc l t w) s = .next s' ∧
      TileRetires l t.val s s' (s.lane l).array (x.setAcc (fld w 25 23) 0).next) ∧
    (fld w 18 16 = 2 → fld w 22 19 ≠ 0 → ∃ s', exec (.acc l t w) s = .next s' ∧ TileFaults l t.val s s' 1) ∧
    (2 < fld w 18 16 → ∃ s', exec (.acc l t w) s = .next s' ∧ TileFaults l t.val s s' 1)) ∧
  (∀ (x : Tile) (i j : Nat) (v : BitVec 512), (x.setV i v).v i = v ∧ (x.setAcc i v).acc i = v ∧ (j ≠ i → (x.setV i v).v j = x.v j ∧ (x.setAcc i v).acc j = x.acc j))

/-- R163: the place of an INT4 element. -/
def Obligations.Int4Elements : Prop :=
  (∀ (v : BitVec 512) (e : Nat), e < 128 →
    (elems (elWidth 1) (elCount 1) v)[e]? = (vecBytes v)[e / 2]?.map fun b => if e % 2 = 0 then (b.extractLsb' 0 4).toNat else (b.extractLsb' 4 4).toNat) ∧
  (elCount 1 = 128 ∧ ∀ v : BitVec 512, (elems (elWidth 1) (elCount 1) v).length = 128 ∧ (vecBytes v).length = 64)

/-- SEND, RELEASE, CHHEAD and DMA (06 R174 to R177). -/
def Obligations.TileNetworkAndDma : Prop :=
  (∀ (l : LaneId) (t : Fin 1024) (w : BitVec 26) (s : State) (x : Tile) (rt : Route) (addr n : Nat), s.tileRuns l t.val 0x30 w → x = (s.lane l).array.tile t.val →
      rt = Tab.get {} x.routes (fld w 25 22) → addr = (x.s (fld w 21 17)).toNat → n = 32 * (fld w 16 12 + 1) → fld w 11 0 = 0 →
    (rt.dest ≠ .undeclared → fld w 16 12 < rt.maxFlits → addr + n ≤ 0x2E000 → addr % 32 = 0 →
      (∀ d, rt.dest = .tile d → 0 < rt.credits → ∃ s', exec (.send l t w) s = .next s' ∧
        TileRetires l t.val s s'
          { (s.lane l).array with flight := (s.lane l).array.flight ++
              [{ dest := rt.dest, channel := rt.channel, payload := (s.lane l).array.read t.val addr n }] }
          ({ x with routes := Tab.set {} x.routes (fld w 25 22) { rt with credits := rt.credits - 1 } } : Tile).next) ∧
      (∀ d, rt.dest = .tile d → rt.credits = 0 → exec (.send l t w) s = .next s) ∧
      (∀ y, rt.dest = .edge y → ∃ s', exec (.send l t w) s = .next s' ∧
        TileRetires l t.val s s'
          { (s.lane l).array with flight := (s.lane l).array.flight ++
              [{ dest := rt.dest, channel := rt.channel, payload := (s.lane l).array.read t.val addr n }] } x.next)) ∧
    (rt.dest = .undeclared ∨ rt.maxFlits ≤ fld w 16 12 ∨ 0x2E000 < addr + n ∨ addr % 32 ≠ 0 →
      ∃ s', exec (.send l t w) s = .next s' ∧ TileFaults l t.val s s' 6)) ∧
  (∀ (l : LaneId) (t : Fin 1024) (w : BitVec 26) (s : State) (x : Tile) (ch : Nat) (c : Channel), s.tileRuns l t.val 0x31 w → x = (s.lane l).array.tile t.val →
      ch = fld w 25 22 → c = Tab.get {} x.channels ch → fld w 21 0 = 0 →
    (c.kind ≠ .undeclared → 0 < c.tokens → ∃ s', exec (.release l t w) s = .next s' ∧
      TileRetires l t.val s s'
        { (s.lane l).array with creditsDue := (s.lane l).array.creditsDue ++
            (if c.kind = .message then ((s.lane l).array.feeder t.val ch).toList else []) }
        ({ x with channels := Tab.set {} x.channels ch { c with head := (c.head + 1) % c.slotCount, tokens := c.tokens - 1 } } : Tile).next) ∧
    (c.kind = .undeclared ∨ c.tokens = 0 → ∃ s', exec (.release l t w) s = .next s' ∧ TileFaults l t.val s s' 7)) ∧
  (∀ (l : LaneId) (t : Fin 1024) (w : BitVec 26) (s : State) (x : Tile) (c : Channel), s.tileRuns l t.val 0x32 w → x = (s.lane l).array.tile t.val →
      c = Tab.get {} x.channels (fld w 25 22) → fld w 11 0 = 0 →
    (c.kind ≠ .undeclared → 0 < c.tokens → ∃ s', exec (.chhead l t w) s = .next s' ∧
      TileRetires l t.val s s' (s.lane l).array (x.setS (fld w 21 17) (w32 (c.base + c.head * c.slotSize))).next) ∧
    (c.kind ≠ .undeclared → c.tokens = 0 → exec (.chhead l t w) s = .next s) ∧
    (c.kind = .undeclared → ∃ s', exec (.chhead l t w) s = .next s' ∧ TileFaults l t.val s s' 7)) ∧
  (∀ (l : LaneId) (t : Fin 1024) (w : BitVec 26) (s : State) (x : Tile) (ch sram off len : Nat) (c : Channel), s.tileRuns l t.val 0x33 w → x = (s.lane l).array.tile t.val →
      ch = fld w 24 21 → c = Tab.get {} x.channels ch → sram = (x.s (fld w 20 16)).toNat → off = (x.s (fld w 15 11)).toNat →
      len = (x.s (fld w 10 6)).toNat → fld w 5 0 = 0 →
    (c.kind = .dma → 0 < len → len ≤ 65536 → len % 64 = 0 → sram % 64 = 0 → off % 64 = 0 → sram + len ≤ 0x2E000 → off + len ≤ (s.lane l).array.segmentSize →
      (x.dmaq.length < 8 → c.tokens + (x.dmaq.filter fun d => d.channel = ch).length < c.slotCount → ∃ s', exec (.dma l t w) s = .next s' ∧
        TileRetires l t.val s s' (s.lane l).array
          ({ x with dmaq := x.dmaq ++ [{ toSegment := fld w 25 25 = 1, channel := ch, sram := sram, offset := off, length := len }] } : Tile).next) ∧
      (8 ≤ x.dmaq.length → exec (.dma l t w) s = .next s)) ∧
    (c.kind ≠ .dma ∨ len = 0 ∨ len % 64 ≠ 0 ∨ sram % 64 ≠ 0 ∨ off % 64 ≠ 0 → ∃ s', exec (.dma l t w) s = .next s' ∧ TileFaults l t.val s s' 8))

/-- The tile array outside its instructions (05 R126, R129, R132, R136, R139, R140; 01 R23). -/
def Obligations.TileArrayEvents : Prop :=
  (∀ (l : LaneId) (t : Fin 1024) (s : State) (x : Tile) (b : Block), x = (s.lane l).array.tile t.val → (s.lane l).isRunning →
      (s.lane l).array.row (t.val / 32) = .running → x.active → x.seq = .idle → x.blocks.find? x.blockReady = some b →
    (0x100 ≤ b.entry → ∃ s', exec (.tileBlockFire l t) s = .next s' ∧ TileRetires l t.val s s' (s.lane l).array { x with seq := .run, pc := b.entry }) ∧
    (b.entry < 0x100 → ∃ s', exec (.tileBlockFire l t) s = .next s' ∧ TileFaults l t.val s s' 9)) ∧
  (∀ (l : LaneId) (t : Fin 1024) (s : State) (m : Message) (rest : List Message) (c : Channel), (s.lane l).isRunning → m.dest = .tile t.val →
      (s.lane l).array.flight = m :: rest → c = Tab.get {} ((s.lane l).array.tile t.val).channels m.channel →
    ((s.lane l).array.row (t.val / 32) = .running → 0 < c.slotCount →
      ∃ s', exec (.messageArrival l t) s = .next s' ∧ s' = s.setLane l { s.lane l with array := (s'.lane l).array } ∧ (s'.lane l).array.flight = rest ∧
        Tab.get {} ((s'.lane l).array.tile t.val).channels m.channel = { c with tokens := c.tokens + 1 } ∧
        (s'.lane l).array.read t.val (c.base + (c.head + c.tokens) % c.slotCount * c.slotSize) m.payload.length = m.payload) ∧
    ((s.lane l).array.row (t.val / 32) = .gated → (s.lane l).array.policy (t.val / 32) = 1 →
      ∃ s', exec (.messageArrival l t) s = .next s' ∧ s' = s.setLane l { s.lane l with array := (s.lane l).array.setRow (t.val / 32) .waking })) ∧
  (∀ (l : LaneId) (t : Fin 1024) (r : Fin 16) (s : State) (rest : List (Nat × Nat)), (s.lane l).array.creditsDue = (t.val, r.val) :: rest →
    ∃ s', exec (.creditArrival l t r) s = .next s' ∧ s' = s.setLane l { s.lane l with array := (s'.lane l).array } ∧ (s'.lane l).array.creditsDue = rest ∧
      (Tab.get ({} : Route) ((s'.lane l).array.tile t.val).routes r.val).credits =
        (Tab.get ({} : Route) ((s.lane l).array.tile t.val).routes r.val).credits + 1) ∧
  (∀ (l : LaneId) (t : Fin 1024) (s : State) (d : DmaDesc) (rest : List DmaDesc), ((s.lane l).array.tile t.val).dmaq = d :: rest →
    ∃ s', exec (.dmaCompletion l t) s = .next s' ∧ s' = s.setLane l { s.lane l with array := (s'.lane l).array } ∧
      ((s'.lane l).array.tile t.val).dmaq = rest ∧
      (Tab.get ({} : Channel) ((s'.lane l).array.tile t.val).channels d.channel).tokens =
        (Tab.get ({} : Channel) ((s.lane l).array.tile t.val).channels d.channel).tokens + 1 ∧
      (d.toSegment = false → (s'.lane l).array.read t.val d.sram d.length = (s.lane l).array.segment.readBytes d.offset d.length ∧
        (s'.lane l).array.segment = (s.lane l).array.segment) ∧
      (d.toSegment → (s'.lane l).array.segment.readBytes d.offset d.length = (s.lane l).array.read t.val d.sram d.length ∧
        (s'.lane l).array.memory = (s.lane l).array.memory)) ∧
  (∀ (l : LaneId) (y : Fin 32) (s : State), (s.lane l).array.row y.val = .waking →
    ∃ s', exec (.rowWakeComplete l y) s = .next s' ∧ s' = s.setLane l { s.lane l with array := (s.lane l).array.setRow y.val .running }) ∧
  (∀ (l : LaneId) (y : Fin 32) (s : State) (m : Message) (rest : List Message) (n off : Nat), (s.lane l).isRunning → m.dest = .edge y.val →
      (s.lane l).array.flight = m :: rest → n = u16At m.payload 0 → off = u32At m.payload 4 →
    (s.image = none → ∃ s', exec (.outputCollect l y) s = .next s' ∧
      s' = s.setLane l { s.lane l with
        array := { (s.lane l).array with flight := rest }
        model := { (s.lane l).model with invalidOut := satTo 32 ((s.lane l).model.invalidOut + 1) } }) ∧
    (∀ (img : Image) (b : OutBinding), s.image = some img → img.outputs = [b] → b.index = n → off + (m.payload.length - 8) ≤ b.size →
      ∃ s', exec (.outputCollect l y) s = .next s' ∧ s' = s.setLane l { s.lane l with array := (s'.lane l).array, step := (s'.lane l).step } ∧
        (s'.lane l).array.flight = rest ∧
        ∀ i, i < m.payload.length - 8 → Tab.get none (Tab.get ({} : Tensor) (s'.lane l).step.tensors n).bytes (off + i) = (m.payload.drop 8)[i]?))

/-- Staging and the order of an activation (07 R190, Table 7.11, R199 to R201). -/
def Obligations.ImageActivationInOrder : Prop :=
  (∀ (n : Fin 8) (s u : State) (r : Running) (e : Nat) (rep : Reply), Tab.get none s.img.staging n.val = some (r.packet.id, e) → s.anyLane →
      u = { s with img := { s.img with staging := Tab.set none s.img.staging n.val none } } → u.checkSlot n.val = .error rep →
      s.runningCmd r.packet.id = some r → r.packet.async = false → s.proto.dropIds.contains r.packet.id = false →
    ∃ t, exec (.modelStageDone n) s = .next t ∧ t.slotCode n.val = 0 ∧ t.isStaging n.val = false ∧
      t.proto.ready = s.proto.ready ++ [mkCompletion r.packet r.commit rep false s.holdsBack] ∧ t.img.act = s.img.act ∧ t.img.activeSlot = s.img.activeSlot ∧
      t = { s with img := t.img, proto := t.proto }) ∧
  (∀ (n : Fin 8) (s u : State) (r : Running) (e : Nat) (i : Image) (rep : Reply), Tab.get none s.img.staging n.val = some (r.packet.id, e) → s.anyLane →
      u = { s with img := { s.img with staging := Tab.set none s.img.staging n.val none } } → u.checkSlot n.val = .ok i → u.fitReply i = .ok rep →
      s.runningCmd r.packet.id = some r → r.packet.async = false → s.proto.dropIds.contains r.packet.id = false →
    ∃ t, exec (.modelStageDone n) s = .next t ∧ t.slotCode n.val = 1 ∧ t.isStaging n.val = false ∧ t.img.images = i :: s.img.images.filter (·.slot ≠ n.val) ∧
      t.proto.ready = s.proto.ready ++ [mkCompletion r.packet r.commit rep false s.holdsBack] ∧ t = { s with img := t.img, proto := t.proto, fresh := t.fresh }) ∧
  (∀ s : State, s.img.act = .preparing →
    ∃ t, exec .activationPrepareDone s = .next t ∧ t = { s with img := { s.img with act := .prepared, swapTicks := 0 } }) ∧
  (∀ s : State, s.img.act = .prepared → s.stepping = false ∨ s.stepEpoch → s.mode.authority ≠ .predictive →
    ∃ t, exec .activationBoundary s = .next t ∧ t.img.act = .boundary ∧ t.img.activeSlot = s.img.activeSlot ∧ t.img.actSlot = s.img.actSlot ∧
      (∀ l, (t.lane l).isRunning → (t.lane l).model.headroomZero = true) ∧ t.mode = s.mode ∧ t.tick = s.tick) ∧
  (∀ (s : State) (i : Image), s.img.act = .boundary → s.actImage = some i → (∀ l, (s.lane l).isRunning → (s.lane l).step.running = false) →
    ∃ t, exec .activationLoadDone s = .next t ∧ t.img.act = .loaded ∧ (∀ l, (s.lane l).isRunning = false → t.lane l = s.lane l) ∧
      (s.img.actInherit = false → ∀ l, (s.lane l).isRunning →
        ∃ f, f = (match l with | .A => t.img.fitA | .B => t.img.fitB) ∧
          (t.lane l).array = loadArray ((s.lane l).dram.readBytes (i.slot * 0x80000000) i.length) (i.variantOf f) ∧ (t.lane l).dram = (s.lane l).dram) ∧
      t = { s with laneA := t.laneA, laneB := t.laneB, img := t.img }) ∧
  (∀ s : State, s.img.act = .loaded →
    ∃ t, exec .activationStartDone s = .next t ∧ t.img = { s.img with act := .started } ∧
      (∀ l, (s.lane l).isRunning → (t.lane l).step.firstStep = true ∧ (t.lane l).step.abortedLast = false ∧ (t.lane l).array = (s.lane l).array.refill) ∧
      t = { s with laneA := t.laneA, laneB := t.laneB, img := t.img }) ∧
  (∀ (s : State) (i : Image), s.img.act = .started → s.actImage = some i →
    ∃ t, exec .activationFirstGrant s = .next t ∧ t.img.act = .idle ∧ t.img.activeSlot = some i.slot ∧ t.slotCode i.slot = 2 ∧
      t.img.firstEpoch = some s.now ∧ t.img.phaseEpoch = s.now ∧ t.img.kMod = s.kFor i ∧ t.rel.sinceGrant = [] ∧
      (∀ l, (t.lane l).isRunning → (t.lane l).model.fault = false ∧ (t.lane l).step.running = true ∧ (t.lane l).step.epoch = s.now)) ∧
  (∀ s : State, (s.img.act ≠ .preparing → exec .activationPrepareDone s = .next s) ∧ (s.img.act ≠ .prepared → exec .activationBoundary s = .next s) ∧
    (s.img.act ≠ .boundary → exec .activationLoadDone s = .next s) ∧ (s.img.act ≠ .loaded → exec .activationStartDone s = .next s) ∧
    (s.img.act ≠ .started → exec .activationFirstGrant s = .next s))

/-- The model runtime's own rows (04 R94, R97, R103, R111, R112). -/
def Obligations.ModelRuntimeEvents : Prop :=
  (∀ (l : LaneId) (s : State), (s.lane l).isRunning → s.img.activeSlot.isSome →
      s.main.model.windowStart + 36000000 ≤ s.now →
    ∃ t, exec .hourWindowStart s = .next t ∧ (t.lane l).model = { (s.lane l).model with anchors := [], windowStart := s.now } ∧
      t.cfg.rainTime = some s.tick.t0Time ∧ t.nor.alternate.rainTime = some s.tick.t0Time ∧ t.cfg.rain = t.nor.alternate.rain ∧
      t = { s with laneA := t.laneA, laneB := t.laneB, cfg := t.cfg, nor := t.nor }) ∧
  (∀ s : State, s.bothLanes → Config.tableDigest s.laneA.entry ≠ Config.tableDigest s.laneB.entry →
    ∃ t, exec .sweepDigest s = .next t ∧ (∀ l, (t.lane l).model =
      { (s.lane l).model with diverge := satTo 32 ((s.lane l).model.diverge + 1), diverged := true }) ∧ t = { s with laneA := t.laneA, laneB := t.laneB }) ∧
  (∀ s : State, Config.tableDigest s.laneA.entry = Config.tableDigest s.laneB.entry → exec .sweepDigest s = .next s) ∧
  (∀ (chip : Fin 4096) (l : LaneId) (s : State) (p : ChipTh) (b : Bool), (s.lane l).isRunning → p = Tab.get {} (s.lane l).model.chips chip.val →
      p.present → s.cfg.thermal.disagreeTicks ≤ p.disagreeRun → p.suspectA = false → p.suspectB = false →
      p.farther s.now (chipIn s.image s.tick.frame.bytes s.tick.frame chip.val) = some b →
    ∃ t, exec (.sensorSuspect chip) s = .next t ∧ Tab.get {} (t.lane l).model.chips chip.val = { p with suspectA := b, suspectB := !b } ∧
      (∀ c, c ≠ chip.val → Tab.get {} (t.lane l).model.chips c = Tab.get {} (s.lane l).model.chips c) ∧ t = { s with laneA := t.laneA, laneB := t.laneB }) ∧
  (∀ (chip : Fin 4096) (l : LaneId) (s : State) (p : ChipTh), (s.lane l).isRunning → p = Tab.get {} (s.lane l).model.chips chip.val →
      p.suspectA ∨ p.suspectB → s.cfg.thermal.disagreeTicks ≤ p.agreeRun →
    ∃ t, exec (.sensorClear chip) s = .next t ∧ Tab.get {} (t.lane l).model.chips chip.val = { p with suspectA := false, suspectB := false } ∧
      (∀ c, c ≠ chip.val → Tab.get {} (t.lane l).model.chips c = Tab.get {} (s.lane l).model.chips c) ∧ t = { s with laneA := t.laneA, laneB := t.laneB }) ∧
  (∀ (l : LaneId) (s : State), (s.lane l).isRunning → s.img.activeSlot.isSome →
      s.main.model.sampledWindow ≠ some s.main.model.windowStart →
    ∃ t, exec .capacitySample s = .next t ∧ (t.lane l).model.capacityHours = (s.lane l).model.capacityHours + 1 ∧
      t = { s with laneA := t.laneA, laneB := t.laneB, cfg := t.cfg, nor := t.nor, fresh := t.fresh })

/-- The governor's own rows (08 R215, R221, R222, R233). -/
def Obligations.GovernorRows : Prop :=
  (∀ (j : Fin 256) (l : LaneId) (s : State) (d : Job), (s.lane l).isRunning → Tab.get none s.cfg.jobs j.val = some d → d.paceEnable →
      ((s.lane l).govJob j.val).syncActive = false → (s.cfg.paceOf j.val).confirm ≤ ((s.lane l).govJob j.val).ceilRun →
    ∃ t, exec (.syncActiveEntry j) s = .next t ∧ (t.lane l).govJob j.val = { (s.lane l).govJob j.val with syncActive := true, noCeilRun := 0 } ∧
      (∀ i, i ≠ j.val → (t.lane l).govJob i = (s.lane l).govJob i) ∧ t = { s with laneA := t.laneA, laneB := t.laneB }) ∧
  (∀ (j : Fin 256) (l : LaneId) (s : State), (s.lane l).isRunning → ((s.lane l).govJob j.val).syncActive →
    ((s.cfg.paceOf j.val).confirm ≤ ((s.lane l).govJob j.val).noCeilRun →
      ∃ t, exec (.syncActiveEnd j) s = .next t ∧ (t.lane l).govJob j.val = { (s.lane l).govJob j.val with syncActive := false } ∧
        (∀ i, i ≠ j.val → (t.lane l).govJob i = (s.lane l).govJob i) ∧ t = { s with laneA := t.laneA, laneB := t.laneB }) ∧
    (((s.lane l).govJob j.val).noCeilRun < (s.cfg.paceOf j.val).confirm → ∃ t, exec (.syncActiveEnd j) s = .next t ∧ t.lane l = s.lane l)) ∧
  (∀ (k : Nat) (l : LaneId) (s : State) (d : Shed), (s.lane l).isRunning → d = Tab.get {} (s.lane l).gov.sheds k → d.active →
    (0 < d.leftW → d.lastPass + 10000 ≤ s.now → ∃ t, exec (.shedRepeat k) s = .next t ∧
      Tab.get {} (t.lane l).gov.sheds k = { d with lastW := d.leftW, lastPass := s.now } ∧ t = { s with laneA := t.laneA, laneB := t.laneB }) ∧
    (100 ≤ d.clearRun → ∃ t, exec (.shedClear k) s = .next t ∧
      Tab.get {} (t.lane l).gov.sheds k = { d with active := false, lastW := 0 } ∧ t = { s with laneA := t.laneA, laneB := t.laneB }) ∧
    (d.clearRun < 100 → ∃ t, exec (.shedClear k) s = .next t ∧ t.lane l = s.lane l)) ∧
  (∀ (c : Fin 4096) (l : LaneId) (s : State), (s.lane l).isRunning → ((s.lane l).govChip c.val).overCap = false →
    (10 ≤ ((s.lane l).govChip c.val).overRun → ∃ t, exec (.overCap c) s = .next t ∧
      (t.lane l).govChip c.val = { (s.lane l).govChip c.val with overCap := true } ∧
      (∀ i, i ≠ c.val → (t.lane l).govChip i = (s.lane l).govChip i) ∧ t = { s with laneA := t.laneA, laneB := t.laneB }) ∧
    (((s.lane l).govChip c.val).overRun < 10 → ∃ t, exec (.overCap c) s = .next t ∧ t.lane l = s.lane l))

/-- The event recorder (19 R466 to R476). -/
def Obligations.EventRecorder : Prop :=
  (∀ (e : Event) (s : State), s.evt.rmLost = 0 →
    (s.evt.rmQueue.length < 512 → ∃ t, exec (.eventStage none e) s = .next t ∧
      t = { s with evt := { s.evt with rmQueue := s.evt.rmQueue ++ [{ e with epoch := s.now, time := s.tick.t0Time }] } }) ∧
    (512 ≤ s.evt.rmQueue.length → ∃ t, exec (.eventStage none e) s = .next t ∧ t.evt.rmQueue = s.evt.rmQueue ∧ t.evt.rmLost = 1 ∧
      t.evt.rmLostEpoch = s.now ∧ t = { s with evt := t.evt })) ∧
  (∀ (l : LaneId) (e : Event) (s : State), (s.lane l).isRunning → (s.lane l).staging.lost = 0 → (s.lane l).staging.queue.length < 4096 →
    ∃ t, exec (.eventStage (some l) e) s = .next t ∧
      t = s.setLane l { s.lane l with staging := { (s.lane l).staging with
        queue := (s.lane l).staging.queue ++ [((s.lane l).staging.nextIdx, { e with epoch := s.now, time := s.tick.t0Time })]
        nextIdx := (s.lane l).staging.nextIdx + 1 } }) ∧
  (∀ s : State, s.gen.rmRestart ∨ s.gen.rmReady = false → exec .eventSeqAssign s = .next s) ∧
  (∀ s : State, s.gen.rmRestart = false → s.gen.rmReady → ∃ t, exec .eventSeqAssign s = .next t ∧ t.evt.rmQueue = [] ∧ t = { s with evt := t.evt, laneA := t.laneA, laneB := t.laneB } ∧
    ∃ l : List LogRecord, t.evt.buffer = s.evt.buffer ++ l ∧ l.length = s.evt.rmQueue.length + s.laneRecords.length ∧
      (l.map (·.seq)).Pairwise (· < ·) ∧ (∀ r ∈ l, s.evt.nextSeq ≤ r.seq ∧ r.seq < t.evt.nextSeq) ∧ s.evt.nextSeq ≤ t.evt.nextSeq) ∧
  (∀ s : State, 0 < s.evt.rmLost → s.evt.rmQueue.length < 512 →
    ∃ t, exec (.gap none) s = .next t ∧ t = { s with evt := { s.evt with
      rmQueue := s.evt.rmQueue ++ [gapEvent 1 s.evt.rmLostOrigin s.evt.rmLost s.evt.rmLostEpoch s.now s.tick.t0Time]
      cntLost := satTo 32 (s.evt.cntLost + s.evt.rmLost), rmLost := 0 } }) ∧
  (∀ s : State, s.gen.rmRestart = false → s.power.failing = false →
    ∃ t, exec .eventRingWrite s = .next t ∧ t.evt.buffer = [] ∧ t.evt.nextSeq = s.evt.nextSeq ∧
      t.evt.ring = (s.evt.ring ++ s.evt.buffer).drop (s.evt.ring.length + s.evt.buffer.length - ringSize) ∧
      (t.evt.event.getLsbD 0 = (s.evt.event.getLsbD 0 || s.evt.buffer.any fun r => s.cfg.irqClass ≤ r.event.cls)) ∧
      t = { s with evt := t.evt, upd := t.upd, hif := t.hif }) ∧
  (∀ s : State, s.gen.rmRestart ∨ s.power.failing → exec .eventRingWrite s = .next s) ∧
  (∀ s : State, s.gen.rmRestart = false → s.power.failing = false → s.evt.buffer ≠ [] → s.evt.ring.length < ringSize →
    ∃ t x, exec .emmcWriteFault s = .next t ∧ t.evt.ring = s.evt.ring ++ [x] ∧ x.torn = true ∧ t.evt.buffer = s.evt.buffer ∧ t = { s with evt := t.evt }) ∧
  (∀ (i : Fin 7) (s : State) (n : Nat), Tab.get 0 s.evt.countPend i.val = n → 0 < n → (∀ e ∈ s.evt.countRecs, e.1 ≠ i.val) →
      s.evt.rmLost = 0 → s.evt.rmQueue.length < 512 →
    ∃ t, exec (.countRecord i) s = .next t ∧ Tab.get 0 t.evt.countPend i.val = 0 ∧
      t.evt.rmQueue = s.evt.rmQueue ++ [{ cls := if i.val = 4 then 2 else 1, ty := 0x0C01 + i.val, epoch := s.now, time := s.tick.t0Time, data := [w32 n] }] ∧
      t = { s with evt := t.evt }) ∧
  (∀ (s : State) (c : Capture) (rest : List Capture), s.evt.captures = c :: rest → c.state = .waiting → (∀ d ∈ rest, d.id ≠ c.id ∧ d.state ≠ .writing) →
    ∃ t, exec .captureWriteStart s = .next t ∧ t = { s with evt := { s.evt with captures := { c with state := .writing } :: rest } }) ∧
  (∀ (s : State) (c : Capture), s.evt.captures = [c] → c.state = .writing → c.trigger + 20000 ≤ s.now →
    ∃ t d, exec .captureDone s = .next t ∧ t.evt.captures = [d] ∧ d.id = c.id ∧ d.frames = 40000 ∧ d.locked = c.locked ∧ d.missing + d.content.length = 40000 ∧
      (d.missing = 0 → d.state = .complete) ∧ (d.missing ≠ 0 → d.state = .partial_) ∧ t = { s with evt := t.evt, hif := t.hif })

/-- Handover, trial, confirmation and rollback (20 Tables 20.4 to 20.6, R490 to R496). -/
def Obligations.UpdateStepsAndTrial : Prop :=
  (∀ (s : State) (k : Nat), s.mode.update = .handover → s.upd.rollingBack = false → s.upd.failed = none → s.upd.step = k →
      (k = 1 ∧ (s.lane (s.upd.onNew.headD s.laneCtl.active.other)).run = .copy) ∨ (k = 3 ∧ s.laneCtl.redundancy = .duplex) ∨
        (k = 4 ∧ s.laneCtl.redundancy = .duplex ∧ s.upd.stepEpoch + 10000 ≤ s.now) ∨ (k = 6 ∧ s.laneCtl.redundancy = .duplex) →
    ∃ t, exec .handoverStep s = .next t ∧ t.upd = { s.upd with step := k + 1, stepEpoch := s.now, event := t.upd.event } ∧
      t.upd.event.getLsbD 2 = true ∧ t.mode = s.mode ∧ t.laneCtl = s.laneCtl ∧ t = { s with upd := t.upd, evt := t.evt, hif := t.hif }) ∧
  (∀ s : State, s.mode.update = .handover → s.upd.step = 7 → s.gen.rmRestart = false → s.laneCtl.redundancy = .duplex → s.upd.swapped = s.upd.rollingBack →
      s.upd.failed = none →
    ∃ t, exec .rmSwap s = .next t ∧ t.gen.rmRestart = true ∧ t.gen.rmRestartSwap = true ∧ t.upd.swapped = (!s.upd.rollingBack) ∧
      t.proto = s.proto.delayReady ∧ t.upd.runAtSwap = s.motorsIn (· = .run) ∧ t = { s with gen := t.gen, proto := t.proto, upd := t.upd }) ∧
  (∀ (part : Nat) (s : State), s.inTrial → s.partHealthy part → s.partSick part = false → s.upd.partsConfirmed.contains part = false →
    ∃ t, exec (.partConfirmed part) s = .next t ∧ t.upd.partsConfirmed = s.upd.partsConfirmed ++ [part] ∧ t.upd.event.getLsbD 3 = true ∧
      t.mode = s.mode ∧ t = { s with upd := t.upd, evt := t.evt, hif := t.hif }) ∧
  (∀ (part : Nat) (s : State), s.inTrial → s.partSick part → s.upd.cmd = none →
    ∃ t, exec (.partFailed part) s = .next t ∧ t.upd.lastReason = s.upd.failed.getD 6 ∧
      (s.hitless → t.upd.rollbackAtReset = s.upd.rollbackAtReset) ∧ (s.hitless = false → t.upd.rollbackAtReset = true ∧ t.mode.update = .trial ∧ t.nor = s.nor)) ∧
  (∀ s : State, s.inTrial → s.trialRemain = 0 → s.confirmable = false → s.upd.cmd = none →
    ∃ t, exec .trialExpired s = .next t ∧ t.upd.lastReason = 2) ∧
  (∀ (s : State) (r : Nat), s.gen.rmRestart = false → s.laneCtl.gap = false → s.upd.rollbackAtReset = false → s.upd.rollingBack = false →
      s.mode.update = .handover ∨ s.mode.update = .trial → s.upd.failed = some r → s.upd.cmd = none →
    ∃ t, exec .updateRollback s = .next t ∧ t.upd.lastReason = r ∧ t.upd.failed = none ∧
      (s.hitless = false → t.upd.rollbackAtReset = true ∧ t.mode.update = .trial)) ∧
  (∀ s : State, s.confirmable →
    ∃ t, exec .updateConfirmed s = .next t ∧ t.mode.update = .idle ∧ t.upd.runningBank = 1 - s.upd.runningBank ∧ t.upd.generation = s.upd.generation + 1 ∧
      t.upd.runningSet = s.upd.altSet ∧ t.upd.altSet = s.upd.runningSet ∧ t.gen.fwVersion = s.upd.altSet.version ∧
      t.upd.secFloor = (if s.mode.lifeCycle = .operational ∧ bit s.upd.altSet.flags 1 then max s.upd.secFloor s.upd.altSet.security else s.upd.secFloor) ∧
      t.nor.running = s.nor.alternate ∧ t.nor.alternate = s.nor.alternate ∧ t.cfg = s.cfg ∧ t.laneCtl = s.laneCtl ∧ t.motors = s.motors)

/-- Fetch, checks, delivery and commit (17 R420, R421; 18 Table 18.2, R437 to R441). -/
def Obligations.PacketsFromFetchToCommit : Prop :=
  (∀ (q : Fin 8) (bs : List Byte) (s : State) (x : Sq), s.mayFetch q.val → x = Tab.get {} s.hif.sqs q.val →
    (fetchCheck s.proto ((x.tail + x.ring - x.head) % x.ring) bs = none →
      ∃ t p, exec (.faultyPacket q bs true) s = .next t ∧ p = { packetOf q.val bs with id := s.proto.nextId } ∧
        t.proto.fetched = s.proto.fetched ++ [p] ∧ t.proto.tagInUse p.tag = true ∧ t.proto.nextId = s.proto.nextId + 1 ∧ t.proto.ready = s.proto.ready ∧
        Tab.get {} t.hif.sqs q.val = { x with head := (x.head + 4 * u16At bs 4) % x.ring } ∧ t = { s with proto := t.proto, hif := t.hif }) ∧
    (∀ r, fetchCheck s.proto ((x.tail + x.ring - x.head) % x.ring) bs = some r → s.proto.dropIds.contains s.proto.nextId = false →
      ∃ t p, exec (.faultyPacket q bs true) s = .next t ∧ p = { packetOf q.val bs with id := s.proto.nextId, flags := if r.check ≤ 5 then 0 else u16At bs 12 } ∧
        t.proto.fetched = s.proto.fetched ∧ t.proto.ready = s.proto.ready ++ [mkCompletion p s.now r.reply r.dup s.holdsBack] ∧
        (r.stop → (Tab.get {} t.hif.sqs q.val).err = true ∧ (Tab.get {} t.hif.sqs q.val).head = x.head) ∧
        (r.stop = false → Tab.get {} t.hif.sqs q.val = { x with head := (x.head + r.skip) % x.ring }) ∧ t = { s with proto := t.proto, hif := t.hif, evt := t.evt }) ∧
    (∃ t, exec (.faultyPacket q bs false) s = .next t ∧ (Tab.get {} t.hif.sqs q.val).err = true ∧ t.hif.err.getLsbD 3 = true ∧ t.proto = s.proto ∧
      t = { s with hif := t.hif })) ∧
  (∀ (pr : ProtoSt) (avail : Nat) (bs : List Byte), u16At bs 0 = 1 → u16At bs 2 = 16 → 4 ≤ u16At bs 4 → u16At bs 4 ≤ 16384 → 4 * u16At bs 4 ≤ avail →
      u16At bs 12 = 0 → u16At bs 14 = 0 → u16At bs 6 ∉ opcodes →
    (fetchCheck pr avail bs).map (fun r => (r.check, r.reply.status, r.reply.r0, r.stop)) = some (9, 0x0010, w32 (u16At bs 6), false)) ∧
  (∀ s : State, s.anyLane → s.laneCtl.held = false → s.proto.fetched.length ≤ 64 →
      (s.proto.fetched.foldl (fun n p => n + p.hdr + p.block.length) 0) ≤ 0x100000 → (∀ p ∈ s.proto.fetched, s.proto.barred p = false) →
    ∃ t, exec .commandDelivery s = .next t ∧ t = { s with proto := { s.proto with delivered := s.proto.delivered ++ s.proto.fetched, fetched := [] } }) ∧
  (∀ s : State, s.anyLane → s.laneCtl.held = false →
    ∃ t n, exec .commandDelivery s = .next t ∧ n ≤ 64 ∧
      t = { s with proto := { s.proto with delivered := s.proto.delivered ++ s.proto.fetched.take n, fetched := s.proto.fetched.drop n } }) ∧
  (∀ (a b : Bool) (s : State), a = s.laneA.isRunning → b = s.laneB.isRunning → s.anyLane → s.proto.delivered ≠ [] →
      (s.laneCtl.redundancy = .duplex → a = b) →
    (∃ t, exec (.deliveryCommit a b) s = .next t ∧ t = { s with proto := { s.proto with
      committed := s.proto.committed ++ s.proto.delivered.map (fun p => { packet := p, epoch := s.now }), delivered := [] } }) ∧
    (∃ t, exec (.deliveryCommit false false) s = .next t ∧
      t = { s with proto := { s.proto with fetched := s.proto.delivered ++ s.proto.fetched, delivered := [] } }))

/-- Completions, held results and coalescing (18 R442 to R449, 17 R425, 16 R409). -/
def Obligations.CompletionsAndHeldResults : Prop :=
  (∀ (q : Fin 8) (s : State) (c : Completion), s.hif.cqEnable → s.hif.d3hot = false → s.gen.rmRestart = false → s.laneCtl.held = false →
      s.proto.nextCompletion q.val = some c → s.proto.barriers = [] →
    (∃ t, exec (.completionWrite q true) s = .next t ∧
      t.hostMem.readBytes (s.hif.cqBase.toNat + 32 * s.hif.cqTail) 32 = c.bytes s.hif.cqPhase ∧
      (∀ a, a < s.hif.cqBase.toNat + 32 * s.hif.cqTail ∨ s.hif.cqBase.toNat + 32 * s.hif.cqTail + 32 ≤ a → t.hostMem.read a = s.hostMem.read a) ∧
      (s.hif.cqTail + 1 ≠ 2 ^ s.hif.cqM → t.hif.cqTail = s.hif.cqTail + 1 ∧ t.hif.cqPhase = s.hif.cqPhase) ∧
      (s.hif.cqTail + 1 = 2 ^ s.hif.cqM → t.hif.cqTail = 0 ∧ t.hif.cqPhase = !s.hif.cqPhase) ∧ t.hif.cqFill = s.hif.cqFill + 1 ∧
      t.proto.ready = s.proto.ready.filter (·.id ≠ c.id) ∧ t.proto.issued = s.proto.issued.filter (·.id ≠ c.id) ∧
      t.nor.alternate = s.nor.alternate.putAll c.save ∧ (s.mode.update = .idle → t.nor.running = s.nor.running.putAll c.save) ∧
      t = { s with hostMem := t.hostMem, hif := t.hif, proto := t.proto, nor := t.nor, upd := t.upd }) ∧
    (∃ t, exec (.completionWrite q false) s = .next t ∧ t.hostMem = s.hostMem ∧ t.proto = s.proto ∧ t.nor = s.nor ∧ t.hif.err.getLsbD 3 = true ∧
      (Tab.get {} t.hif.sqs q.val).err = true)) ∧
  (∀ (q : Fin 8) (ok : Bool) (s : State), s.proto.nextCompletion q.val = none → exec (.completionWrite q ok) s = .next s) ∧
  (∀ (pr : ProtoSt) (q : Nat) (i : Issued) (c : Completion), pr.issued.find? (·.sq = q) = some i → pr.nextCompletion q = some c → c.id = i.id) ∧
  (∀ (s : State) (h : HeldCmd) (c : Completion), s.proto.held = [h] → h.ready = false → h.outcome = some c → s.proto.barriers = [] →
    ∃ t, exec (.heldResultReady h.tag) s = .next t ∧ t.proto = { s.proto with held := [{ h with ready := true }] } ∧
      t.nor.alternate = s.nor.alternate.putAll c.save ∧ t = { s with proto := t.proto, nor := t.nor }) ∧
  (∀ (us : Nat) (s : State), 0 < s.hif.coalCount → bits s.hif.cqCoal.toNat 31 16 ≠ 0 → bits s.hif.cqCoal.toNat 31 16 ≤ us → s.hif.d3hot = false →
      (s.hif.msixDword 3).getLsbD 0 = false →
    ∃ t, exec (.cqCoalesceTimeout us) s = .next t ∧ t.hif.coalCount = 0 ∧ Tab.get 0 t.hif.irqs 0 = Tab.get 0 s.hif.irqs 0 + 1 ∧ t = { s with hif := t.hif })

/-- Registers and doorbells (00 R12, R13; 02 R51; 15 Table 15.7; 17 R416 to R423, R432). -/
def Obligations.RegistersAndDoorbells : Prop :=
  (∀ (off : Nat) (s : State), off ∈ loRegs →
    (∃ t, exec (.loRegisterRead off) s = .next t ∧ t.hif.rdata = BitVec.ofNat 64 (s.readReg off).toNat ∧
      t.hif.hiLatch.find? (·.1 = off + 4) = some (off + 4, s.readReg (off + 4)) ∧ t = { s with hif := t.hif }) ∧
    (∀ w, s.hif.hiLatch.find? (·.1 = off + 4) = some (off + 4, w) →
      ∃ t, exec (.hiRegisterRead (off + 4)) s = .next t ∧ t.hif.rdata = BitVec.ofNat 64 w.toNat ∧ t.hif.hiLatch.find? (·.1 = off + 4) = none ∧ t = { s with hif := t.hif })) ∧
  (∀ (off : Nat) (s u : State), s.clearRc off = some u →
    ∃ t, exec (.rcRegisterRead off) s = .next t ∧ t.hif.rdata = BitVec.ofNat 64 (s.readReg off).toNat ∧ t.readReg off = 0 ∧
      t = { s with hif := { s.hif with rdata := t.hif.rdata }, tick := u.tick, laneCtl := u.laneCtl, mode := u.mode, evt := u.evt }) ∧
  (∀ s : State, s.gen.rmRestart = false →
    (s.tick.hold = false → ∃ t, exec (.viewHoldWrite true) s = .next t ∧ t = { s with tick := { s.tick with hold := true, holdTicks := 0 } }) ∧
    (s.tick.hold → ∃ t, exec (.viewHoldWrite false) s = .next t ∧ t = { s with tick := { s.tick with hold := false, holdTicks := 0, shown := s.tick.settled } })) ∧
  (∀ (q : Fin 8) (v : U32) (s : State) (x : Sq), s.gen.rmRestart = false → x = Tab.get {} s.hif.sqs q.val →
    (v.toNat < x.ring → v.toNat % 4 = 0 → ∃ t, exec (.sqTailDoorbell q v) s = .next t ∧
      t = { s with hif := { s.hif with sqs := Tab.set {} s.hif.sqs q.val { x with tail := v.toNat } } }) ∧
    (x.ring ≤ v.toNat ∨ v.toNat % 4 ≠ 0 → ∃ t, exec (.sqTailDoorbell q v) s = .next t ∧ Tab.get {} t.hif.sqs q.val = { x with err := true } ∧
      t.hif.err.getLsbD 2 = true ∧ t = { s with hif := t.hif }) ∧
    (x.enable = false → 12 ≤ bits v.toNat 4 0 → bits v.toNat 4 0 ≤ 24 → v.getLsbD 31 → ∃ t, exec (.sqEnableWrite q v) s = .next t ∧
      t = { s with hif := { s.hif with sqs := Tab.set {} s.hif.sqs q.val { x with enable := true, n := bits v.toNat 4 0, head := 0, err := false } } }) ∧
    (x.enable → v.getLsbD 31 = false → ∃ t, exec (.sqEnableWrite q v) s = .next t ∧
      t = { s with hif := { s.hif with sqs := Tab.set {} s.hif.sqs q.val { x with enable := false } } })) ∧
  (∀ (v : U32) (s : State), s.gen.rmRestart = false →
    (v.toNat < 2 ^ s.hif.cqM → (v.toNat + 2 ^ s.hif.cqM - s.hif.cqHead) % 2 ^ s.hif.cqM ≤ s.hif.cqFill → ∃ t, exec (.cqHeadDoorbell v) s = .next t ∧
      t = { s with hif := { s.hif with cqHead := v.toNat, cqFill := s.hif.cqFill - (v.toNat + 2 ^ s.hif.cqM - s.hif.cqHead) % 2 ^ s.hif.cqM } }) ∧
    (2 ^ s.hif.cqM ≤ v.toNat → ∃ t, exec (.cqHeadDoorbell v) s = .next t ∧ t.hif.err.getLsbD 2 = true ∧ t.hif.cqHead = s.hif.cqHead) ∧
    (s.hif.cqEnable = false → 6 ≤ bits v.toNat 4 0 → bits v.toNat 4 0 ≤ 16 → v.getLsbD 31 → ∃ t, exec (.cqEnableWrite v) s = .next t ∧
      t = { s with hif := { s.hif with cqEnable := true, cqM := bits v.toNat 4 0, cqTail := 0, cqPhase := true, cqHead := 0, cqFill := 0, coalCount := 0 } })) ∧
  (∀ s : State, s.gen.rmRestart = false → s.mode.lifeCycle ≠ .returning → s.laneCtl.holdA = false → s.laneCtl.holdB = false →
    (s.laneA.run = .active → ∃ t, exec (.laneHoldWrite 1) s = .next t ∧ t = s.logRegWrite 0x40018 1 0 true) ∧
    (s.laneA.run = .reset → ∃ t, exec (.laneHoldWrite 1) s = .next t ∧ t.laneCtl.holdA = true ∧ t.laneCtl.holdB = false ∧ t.laneA.run = .reset ∧ t.laneB = s.laneB)) ∧
  (∀ (v : U32) (s : State) (off : Nat),
    (∃ t, exec (.registerWrite 0x24 v true) s = .next t ∧ t = { s with gen := { s.gen with scratch := v } }) ∧
    (0x28 ≤ off → off < 0x10000 → exec (.registerWrite off v true) s = .next s ∧ s.readReg off = 0) ∧
    (∃ t, exec (.registerWrite off v false) s = .next t ∧ t.hif.err.getLsbD 1 = true ∧ t = { s with hif := t.hif }) ∧
    (s.gen.rmRestart → off % 4 = 0 → 0x30000 ≤ off → off < 0x60000 → ∃ t, exec (.registerWrite off v true) s = .next t ∧
      t = { s with hif := { s.hif with latched := s.hif.latched ++ [(off, v)] } }) ∧
    (s.gen.rmRestart = false → s.hif.latched = [(0x30020, 1)] → s.tick.hold = false → ∃ t, exec .latchedWritesApply s = .next t ∧ t.hif.latched = [] ∧ t.tick.hold = true ∧
      t = { s with hif := { s.hif with latched := [] }, tick := t.tick })) ∧
  (∀ (v : U32) (s : State), (v ≠ 0xA5C30001 → ∃ t, exec (.genReset v) s = .next t ∧ t = s.logRegWrite 0x20 v 0 true) ∧
    (∃ t, exec (.genReset 0xA5C30001) s = .next t ∧ t.mode.startPhase = .rmBoot ∧ t.tick.epoch = 1 ∧ t.laneA.run = .reset ∧ t.laneB.run = .reset ∧
      t.mode.lifeCycle = s.mode.lifeCycle ∧ t.hostMem = s.hostMem ∧ t.gen.serial = s.gen.serial ∧ t.upd.secFloor = s.upd.secFloor))

/-- The device address space (01 R27 to R30, 04 R93, 07 R191, 17 R428 to R430). -/
def Obligations.DeviceAddressSpace : Prop :=
  (∀ (d : U64) (s : State) (a : Nat), s.dport.addr = a → a + 4 < 2 ^ 48 → a % 4 = 0 → s.refusal a true = none →
    ∃ t, exec (.dpDataAccess true false d) s = .next t ∧ t.dport = { s.dport with addr := a + 4 } ∧
      (∀ l, (s.lane l).isRunning → t.lane l = { s.lane l with dram := (s.lane l).dram.writeBytes a (leW (u64lo d)) } ∧
        (t.lane l).dram.readBytes a 4 = leW (u64lo d) ∧ ∀ b, b < a ∨ a + 4 ≤ b → (t.lane l).dram.read b = (s.lane l).dram.read b) ∧
      (∀ l, (s.lane l).isRunning = false → t.lane l = s.lane l) ∧
      (a < 0x0400000000 → Tab.get 0 s.img.slotState (a / 0x80000000) = 1 → Tab.get 0 t.img.slotState (a / 0x80000000) = 0) ∧
      t = { s with dport := t.dport, laneA := t.laneA, laneB := t.laneB, img := t.img }) ∧
  (∀ (d : U64) (s : State) (a : Nat) (l : LaneId), s.dport.addr = a → a + 4 < 2 ^ 48 → s.refusal a false = none → s.mainLane = some l →
    ∃ t, exec (.dpDataAccess false false d) s = .next t ∧ t.dport = { s.dport with addr := a + 4 } ∧
      t.hif.rdata = BitVec.ofNat 64 ((s.lane l).readDevice a).toNat ∧ t = { s with dport := t.dport, hif := { s.hif with rdata := t.hif.rdata } }) ∧
  (∀ (w : Bool) (d : U64) (s : State) (a code : Nat), s.dport.addr = a → a + 4 < 2 ^ 48 → s.refusal a w = some code → s.dport.err = false →
    ∃ t, exec (.dpDataAccess w false d) s = .next t ∧ t.dport = { s.dport with addr := a + 4, err := true, errCode := code, errAddr := a } ∧
      (w = false → t.hif.rdata = 0xFFFFFFFF) ∧ t = { s with dport := t.dport, hif := t.hif }) ∧
  (∀ (off : Fin 4096) (d : U64) (s : State) (o : Nat), o = off.val / 4 * 4 → s.refusal (s.dport.addr + o) true = none →
    ∃ t, exec (.dpApertureAccess off true false d) s = .next t ∧
      t.dport = { s.dport with addr := if o = 0xFFC then (s.dport.addr + 0x1000) % 2 ^ 48 else s.dport.addr } ∧
      ∀ l, (s.lane l).isRunning → t.lane l = { s.lane l with dram := (s.lane l).dram.writeBytes (s.dport.addr + o) (leW (u64lo d)) }) ∧
  (∀ (off : Fin 0x40000000) (d : U64) (s : State) (a : Nat), a = (s.hif.bar2Base.toNat + off.val / 4 * 4) % 2 ^ 48 →
    (∀ l, s.refusal a false = none → s.mainLane = some l → ∃ t, exec (.bar2Access off false false d) s = .next t ∧
      t.hif.rdata = BitVec.ofNat 64 ((s.lane l).readDevice a).toNat ∧ t = { s with hif := { s.hif with rdata := t.hif.rdata } }) ∧
    (∀ (w : Bool) (code : Nat), s.refusal a w = some code → ∃ t, exec (.bar2Access off w false d) s = .next t ∧ t.hif.err.getLsbD 4 = true ∧
      (w = false → t.hif.rdata = 0xFFFFFFFF) ∧ t = { s with hif := t.hif })) ∧
  (∀ (s : State) (a : Nat) (w : Bool), (s.gen.rmRestart → s.refusal a w = some 4) ∧
    (s.gen.rmRestart = false → 0x0600000000 ≤ a → a < 0x1000000000 → s.refusal a w = some 2) ∧
    (s.gen.rmRestart = false → 0x5004000000 ≤ a → s.refusal a w = some 1) ∧
    (s.gen.rmRestart = false → a < 0x0600000000 → s.inNet → s.refusal a w = some 5) ∧
    (s.gen.rmRestart = false → a < 0x0600000000 → s.inNet = false → s.pinned a → s.refusal a true = some 3 ∧ s.refusal a false = none)) ∧
  (∀ (x : Lane) (i j : Nat), i < 4096 → j < 4096 → x.readDevice (0x5000000000 + (4096 * i + j) * 4) = x.entry (4096 * i + j))

/-- The mailbox (17 R432, R433) and the SPDM responder (20 R500); the order of a connection is assumption log 10. -/
def Obligations.AttestationMailbox : Prop :=
  (∀ s : State, s.gen.rmRestart = false → s.gen.rmReady →
    (∀ index : Byte, ∃ t, exec (.doeDiscovery index) s = .next t ∧ t = { s with spdm := t.spdm } ∧
      (index = 0 → t.spdm.response = some (.doe (some 0) 1)) ∧ (index = 1 → t.spdm.response = some (.doe (some 1) 0)) ∧
      (1 < index.toNat → t.spdm.response = some (.doe none 0))) ∧
    (∃ t, exec .getVersion s = .next t ∧ t = { s with spdm := { phase := .version, response := some (.version [0x12, 0x13]) } }) ∧
    (∀ v, s.spdm.phase ≠ .start → v = 0x12 ∨ v = 0x13 →
      ∃ t, exec (.getCapabilities v) s = .next t ∧
        t = { s with spdm := { phase := .capabilities, version := v, response := some (.capabilities true true true false false) } }) ∧
    (s.spdm.phase = .start → ∃ t, exec (.getCapabilities 0x12) s = .next t ∧ t = { s with spdm := { s.spdm with response := some .unexpected } }) ∧
    (∀ m : Bool, s.spdm.phase = .capabilities →
      (∃ t, exec (.negotiateAlgorithms true true m) s = .next t ∧
        t = { s with spdm := { s.spdm with phase := .algorithms, response := some (.algorithms true true m) } }) ∧
      (∀ a b : Bool, (a && b) = false → ∃ t, exec (.negotiateAlgorithms a b m) s = .next t ∧
        t = { s with spdm := { s.spdm with response := some .invalid } }))) ∧
  (∀ s : State, s.gen.rmRestart = false → s.gen.rmReady → s.spdm.phase = .algorithms →
    (∃ t, exec .getDigests s = .next t ∧ t = { s with spdm := { s.spdm with response := some (.digests [(0, sha512 slotChain)]) } }) ∧
    (∀ off len, off ≤ slotChain.length → ∃ t, exec (.getCertificate 0 off len) s = .next t ∧
      t = { s with spdm := { s.spdm with response := some (.certificate ((slotChain.drop off).take len) (slotChain.length - off - len)) } }) ∧
    (∀ slot off len, slot ≠ 0 → ∃ t, exec (.getCertificate slot off len) s = .next t ∧
      t = { s with spdm := { s.spdm with response := some .invalid } }) ∧
    (∀ nonce, ∃ t sig, exec (.challenge 0 nonce) s = .next t ∧ sig.length = 64 ∧
      t = { s with fresh := s.fresh + 1, spdm := { s.spdm with response := some (.challengeAuth (sha512 slotChain) nonce sig) } }) ∧
    (∀ nonce, ∃ t sig, exec (.getMeasurements .all true nonce) s = .next t ∧ sig.length = 64 ∧
      t = { s with fresh := s.fresh + 1, spdm := { s.spdm with response := some (.measurements 8 ([1, 2, 3, 4, 5, 6, 7, 8].map fun i => (i, s.rawMeasurement i)) nonce (some sig)) } }) ∧
    (∀ i nonce, 1 ≤ i → i ≤ 8 → ∃ t, exec (.getMeasurements (.one i) false nonce) s = .next t ∧
      t = { s with fresh := s.fresh + 1, spdm := { s.spdm with response := some (.measurements 1 [(i, s.rawMeasurement i)] nonce none) } }) ∧
    (∀ i sign nonce, i = 0 ∨ 8 < i → ∃ t, exec (.getMeasurements (.one i) sign nonce) s = .next t ∧
      t = { s with fresh := s.fresh + 1, spdm := { s.spdm with response := some .invalid } })) ∧
  (∀ s : State, s.gen.rmRestart = false → s.gen.rmReady → s.spdm.phase ≠ .algorithms →
    ∃ t, exec .getDigests s = .next t ∧ t = { s with spdm := { s.spdm with response := some .unexpected } }) ∧
  (∀ s : State, ∃ t, exec .doeAbort s = .next t ∧ t = { s with spdm := { s.spdm with response := none } }) ∧
  (∀ s : State, s.gen.rmRestart → exec .getVersion s = .next s ∧ exec .getDigests s = .next s)

/-- Host-side resets and power states (17 R415, R418, Table 17.2; 02 R51, R52; 16 R402). -/
def Obligations.HostSideResets : Prop :=
  (∀ (c : Instr) (s : State), (c = .perstN ∨ c = .hotReset ∨ c = .functionLevelReset) →
    ∃ t, exec c s = .next t ∧
      (t.hif.cqEnable = false ∧ (∀ q, (Tab.get ({} : Sq) t.hif.sqs q).enable = false) ∧ (∀ v, v < 64 → (t.hif.msixDword (4 * v + 3)).getLsbD 0 = true) ∧
        t.hif.bar2Base = 0 ∧ t.hif.hiLatch = [] ∧ t.hif.d3hot = false) ∧
      t.dport = {} ∧ t.proto.fetched = [] ∧ t.proto.ready = [] ∧ t.proto.delivered = s.proto.delivered ∧ t.proto.committed = s.proto.committed ∧
      t.proto.held = s.proto.held ∧ (∀ p ∈ s.proto.delivered, p.id ∈ t.proto.dropIds) ∧ (∀ c ∈ s.proto.committed, c.packet.id ∈ t.proto.dropIds) ∧
      t.tick.hold = false ∧ t.hif.wdogTicks = s.hif.wdogTicks ∧ t.hif.wdogExpired = s.hif.wdogExpired ∧ t.hif.heartbeatSeen = s.hif.heartbeatSeen ∧ t.tick.epoch = s.tick.epoch ∧
      t.laneCtl = s.laneCtl ∧ t.laneA = s.laneA ∧ t.laneB = s.laneB ∧ t.motors = s.motors ∧ t.valve = s.valve ∧ t.cool = s.cool ∧ t.tray = s.tray ∧
      t.mode = s.mode ∧ t.hostMem = s.hostMem ∧ t.upd.secFloor = s.upd.secFloor ∧ t.upd.runningSet = s.upd.runningSet ∧
      (c = .perstN → t.gen.scratch = 0) ∧ (c ≠ .perstN → t.gen = s.gen) ∧
      (s.proto.ready = [] → t = { s with hif := t.hif, dport := t.dport, proto := t.proto, tick := t.tick, gen := t.gen }) ∧
      (s.proto.ready = [] → s.tick.hold → t.tick = { s.tick with hold := false, holdTicks := 0, shown := s.tick.settled })) ∧
  (∀ (s : State) (c : Completion) (t : State), s.proto.ready = [c] → c.save = [] → exec .functionLevelReset s = .next t →
    t.evt.rmQueue = (s.logRm Cls.notice 0x0102 c.tag [w32 c.opcode, w32 c.status] 1).evt.rmQueue) ∧
  (∀ s : State, ∃ t u, exec .d3hotEntry s = .next t ∧ t = { s with hif := { s.hif with d3hot := true } } ∧
    exec .d0Return t = .next u ∧ u = { s with hif := { s.hif with d3hot := false } }) ∧
  (∀ (s : State) (q : Fin 8) (ok : Bool), s.hif.d3hot → s.mayFetch q.val = false ∧ exec (.completionWrite q ok) s = .next s)

/-- Module resets, power-fail and the end of RM_BOOT (16 R403, Table 16.5; 17 after Table 17.2; 21 R512 to R517). -/
def Obligations.ModuleResets : Prop :=
  (∀ (a : Fin 8) (b : Fin 4) (s : State), ∃ t, exec (.powerOnReset a b) s = .next t ∧
    (t.sense.tcrit = a.val ∧ t.sense.netSpd = b.val) ∧ (t.mode.startPhase = .rmBoot ∧ t.mode.authority = .manual ∧ t.mode.hostPresent = false ∧ t.mode.update = .idle) ∧
    (t.tick.epoch = 1 ∧ t.laneCtl.redundancy = .net ∧ t.laneCtl.netCause = 1 ∧ t.laneA.run = .reset ∧ t.laneB.run = .reset) ∧
    (t.hif.cqEnable = false ∧ (∀ q, (Tab.get ({} : Sq) t.hif.sqs q).enable = false) ∧ t.proto = {} ∧ t.dport = {}) ∧
    (t.mode.lifeCycle = s.mode.lifeCycle ∧ t.gen.serial = s.gen.serial ∧ t.upd.secFloor = s.upd.secFloor ∧ t.upd.key0Revoked = s.upd.key0Revoked ∧
      t.upd.runningSet = s.upd.runningSet ∧ t.evt.ring = s.evt.ring ∧ t.hostMem = s.hostMem ∧ t.valve.v24 = s.valve.v24) ∧
    (s.mode.update = .idle → t.nor = s.nor ∧ t.evt.rmQueue = []) ∧ (∀ m, (t.motor m).state = .stopped) ∧ (∀ v, (t.valveCh v).phase = .off)) ∧
  (∀ s : State, ∃ t, exec .powerFail s = .next t ∧ t.power.failing ∧ (∀ e ∈ t.motors, e.2.state.driven = false) ∧
    (∀ v, v < 64 → (t.valveCh v).energised = false) ∧ (∀ k, k < 16 → Tab.get false t.tray.coolFault k = true ∧ bit (Tab.get 0 t.tray.causes k) Cause.powerFail = true) ∧
    t = { s with power := t.power, motors := t.motors, valve := t.valve, tray := { s.tray with causes := t.tray.causes, coolFault := t.tray.coolFault } }) ∧
  (∀ s : State, s.mode.startPhase = .rmBoot → ∃ t, exec .rmBootComplete s = .next t ∧ t.gen.rmReady ∧ t.mode.startPhase = .laneStart ∧
    t.mode.authority = s.mode.startAuthority s.nor.running ∧ t.mode.laneStartEpoch = s.now ∧ t.laneCtl = s.laneCtl ∧ t.hostMem = s.hostMem ∧ t.nor = s.nor ∧
    (∀ l, (s.lane l).run = .reset → s.laneCtl.hold l = false → (t.lane l).run = .wipe) ∧ (∀ l, s.laneCtl.hold l → t.lane l = s.lane l)) ∧
  (∀ s : State, s.mode.startPhase ≠ .rmBoot → exec .rmBootComplete s = .next s) ∧
  (∀ (m : ModeSt) (c : Cfg), (m.lifeCycle = .blank ∨ m.lifeCycle = .returning → m.startAuthority c = .manual) ∧
    (m.lifeCycle ≠ .blank → m.lifeCycle ≠ .returning → m.startAuthority c = if bit c.modeCfg 0 then .manual else .inner))

/-- The checks every host opcode makes (18 Table 18.2, R437, R446; 16 R408; 00 R6). -/
def Obligations.CommandChecks : Prop :=
  ((hostOps.map Prod.snd).Pairwise (· < ·) ∧ hostOps.length = 46) ∧
  (∀ e ∈ hostOps, ∀ (p : Packet) (s : State), s.accepts p → s.proto.barriers = [] →
    (4 ≤ p.block.length → u16At p.block 2 ≠ p.block.length → ∃ t, exec (e.1 p) s = .next t ∧
      t = { s with proto := s.answered e.2 p { status := 0x0011, r0 := w32 ((p.hdr + p.block.length) / 4), r1 := w32 (u16At p.block 2) } }) ∧
    (4 ≤ p.block.length → p.block.length ≠ 0xFFFF → u16At p.block 2 = p.block.length → u16At p.block 0 ≠ 1 → ∃ t, exec (e.1 p) s = .next t ∧
      t = { s with proto := s.answered e.2 p { status := 0x0014, r0 := w32 p.hdr } })) ∧
  (∀ (p : Packet) (s : State), s.accepts p → s.anyLane = false → p.blockOk 8 [] →
    (s.laneCtl.holdA → s.laneCtl.holdB → ∃ t, exec (.resultFetch p) s = .next t ∧ t.proto = s.answered 0x0104 p { status := 0x0021 } ∧
      t = { s with fresh := t.fresh, proto := t.proto }) ∧
    (s.laneCtl.holdA = false → ∃ t n, exec (.resultFetch p) s = .next t ∧ 1 ≤ n ∧ n < 65536 ∧
      t.proto = s.answered 0x0104 p { status := 0x0020, aux := n } ∧
      t = { s with fresh := t.fresh, proto := t.proto, mode := { s.mode with cntRefusedBusy := satTo 32 (s.mode.cntRefusedBusy + 1) } })) ∧
  (∀ (p : Packet) (s : State), s.serves → (∀ i ∈ s.proto.issued, i.tag ≠ p.tag) → s.proto.held = [] → s.proto.dropIds = [] → p.async →
      p.blockOk 8 [(5, 3)] → u8At p.block 4 < 8 → s.img.activeSlot ≠ some (u8At p.block 4) → s.img.staging = [] →
    ∃ t, exec (.modelStage p) s = .next t ∧
      t.proto.ready = s.proto.ready ++ [mkCompletion (s.taken 0x0301 p) s.now { status := 0x0001, r0 := lo32 s.now, r1 := hi32 s.now } false s.holdsBack] ∧
      t.proto.held = [{ tag := p.tag, sq := p.sq, id := s.proto.nextId, commit := s.now }] ∧
      t.proto.running = s.proto.running ++ [{ packet := s.taken 0x0301 p, commit := s.now, async := true, save := [] }] ∧
      Tab.get 0 t.img.slotState (u8At p.block 4) = 4)

/-- General opcodes (18 R448, R450, R454 to R457; 17 R426; 16 R402). -/
def Obligations.GeneralCommands : Prop :=
  (∀ (p : Packet) (s : State), s.accepts p →
    (p.blockOk 20 [(4, 4)] → ∃ t, exec (.nopEcho p) s = .next t ∧ t = { s with proto := s.answered 0x0101 p { status := 0, r0 := w32 (u32At p.block 8), r1 := w32 (u32At p.block 12), r2 := w32 (u32At p.block 16) } }) ∧
    (p.blockOk 8 [(4, 4)] → ∃ t, exec (.getIdentity p) s = .next t ∧ t = { s with proto := s.answered 0x0102 p { status := 0, r0 := 0x7720, r1 := 0xB0, r2 := s.gen.fwVersion } }) ∧
    (p.blockOk 8 [(4, 4)] → ∃ t, exec (.hostHeartbeat p) s = .next t ∧ t.proto = s.answered 0x0106 p { status := 0, r0 := w32 s.cfg.wdogPeriod } ∧
      t.mode.hostPresent = true ∧ t.hif.wdogTicks = 10 * s.cfg.wdogPeriod ∧ t.hif.wdogExpired = false ∧ t.hif.wdogDeferred = false ∧ t.hif.heartbeatSeen = true ∧
      (s.mode.hostPresent → t = { s with proto := t.proto, hif := { s.hif with wdogTicks := 10 * s.cfg.wdogPeriod, wdogExpired := false, wdogDeferred := false, heartbeatSeen := true } }) ∧
      t = { s with proto := t.proto, hif := t.hif, mode := { s.mode with hostPresent := true, event := t.mode.event }, evt := t.evt })) ∧
  (∀ (p : Packet) (s : State) (o l a : Nat), s.accepts p → p.blockOk 16 [(6, 2)] → 24 ≤ p.block.length → u16At p.block 4 = 1 → a = u64At p.block 8 → a % 4 = 0 →
      o = u32At p.block 16 → l = u32At p.block 20 → 0x100000 ≤ o → o % 4 = 0 → 4 ≤ l → l % 4 = 0 → o + l ≤ 0x1000000 → l ≤ 0x100000 →
    (∃ t e, exec (.snapshotRead p true) s = .next t ∧ e = epochField s.tick.settled.epoch ∧
      t = { s with hostMem := s.hostMem.writeBytes a (le16 1 ++ le16 16 ++ le32 l ++ le64 e ++ s.tick.settled.view.readBytes o l), proto := t.proto } ∧
      t.proto = s.answered 0x0103 p { status := 0, r0 := lo32 e, r1 := hi32 e, r2 := w32 l }) ∧
    (∃ t, exec (.snapshotRead p false) s = .next t ∧ t.proto = s.answered 0x0103 p { status := 0x00FF } ∧ t.hif.err.getLsbD 3 = true ∧
      (Tab.get {} t.hif.sqs p.sq).err = true ∧ t = { s with proto := t.proto, hif := t.hif })) ∧
  (∀ (p : Packet) (s : State) (w : U32), s.accepts p → s.anyLane → p.blockOk 8 [] → w = w32 (u32At p.block 4) →
    (∀ h c, s.proto.held.find? (·.tag = w) = some h → h.ready → h.outcome = some c → ∃ t, exec (.resultFetch p) s = .next t ∧
      t = { s with proto := { s.answered 0x0104 p { status := if h.fetched then 0x0002 else c.status, aux := c.status, r0 := c.r0, r1 := c.r1, r2 := c.r2, epoch := some h.commit } with
        held := s.proto.held.map fun (x : HeldCmd) => if x.id = h.id then { x with fetched := true } else x } }) ∧
    (∀ h, s.proto.held.find? (·.tag = w) = some h → h.ready = false → ∃ t, exec (.resultFetch p) s = .next t ∧
      t = { s with proto := s.answered 0x0104 p { status := 0x0001, r0 := lo32 s.now, r1 := hi32 s.now } }) ∧
    (s.proto.held.find? (·.tag = w) = none → ∃ t, exec (.resultFetch p) s = .next t ∧ t = { s with proto := s.answered 0x0104 p { status := 0x0013, r0 := w } })) ∧
  (∀ (p : Packet) (s : State), s.accepts p → s.anyLane → p.blockOk 8 [(6, 2)] → u8At p.block 5 = 0 → s.proto.barriers = [] → s.proto.running = [] →
    (s.proto.issued = [] → ∃ t, exec (.queueBarrier p) s = .next t ∧ t = { s with proto := s.answered 0x0105 p { status := 0 } }) ∧
    (∀ i, s.proto.issued = [i] → i.id < s.proto.nextId → namesQueue (u8At p.block 4) i.sq → ∃ t, exec (.queueBarrier p) s = .next t ∧
      t = { s with proto := { s.begun 0x0105 p [] with barriers := [{ id := s.proto.nextId, waits := [i.id], results := [], count := 1 }] } }))

/-- Loop opcodes (03 R81 to R86) and model opcodes (04 R112, R115 to R117; 07 R190, R198, R200). -/
def Obligations.LoopAndModelCommands : Prop :=
  (∀ (p : Packet) (s : State) (descs : List (Nat × LoopDesc)), s.accepts p → s.serves → loopShape p = .ok () →
      descs = ((List.range (u16At p.block 4)).map fun i => (descSlot p.block (8 + 624 * i), descAt p.block (8 + 624 * i))) →
      1 ≤ descs.length → descs.length ≤ 64 → firstTwice (descs.map Prod.fst) = none → (∀ i, i < descs.length → u8At p.block (8 + 624 * i + 15) ≤ 32) →
      checkLoops (s.cfg.putAll (descs.map fun e => CfgItem.loop e.1 e.2)).loops (descs.map Prod.fst) s.cfg.busOut = none →
    (bit (u16At p.block 6) 0 → ∃ t, exec (.loopConfigure p) s = .next t ∧ t = { s with proto := s.answered 0x0201 p { status := 0 } }) ∧
    (bit (u16At p.block 6) 0 = false → ∃ t save, exec (.loopConfigure p) s = .next t ∧ t.proto = s.answered 0x0201 p { status := 0, save := save } ∧
      (∀ e ∈ descs, Tab.get {} t.cfg.loops e.1 = e.2 ∧ CfgItem.loop e.1 e.2 ∈ save) ∧
      (∀ n, n ∉ descs.map Prod.fst → Tab.get {} t.cfg.loops n = Tab.get {} s.cfg.loops n ∧
        ∀ l, Tab.get {} (t.lane l).loops n = Tab.get {} (s.lane l).loops n) ∧
      t = { s with proto := t.proto, cfg := t.cfg, laneA := t.laneA, laneB := t.laneB, rel := t.rel, img := t.img, fresh := t.fresh })) ∧
  (∀ (p : Packet) (s : State) (n : Nat) (kept : LoopKept), s.accepts p → s.serves → p.blockOk 12 [] → n = u8At p.block 4 → u8At p.block 5 ≤ 2 → u16At p.block 6 = 0 →
      (Tab.get {} s.cfg.loops n).accepted → (u8At p.block 5 = 2 → (Tab.get {} s.cfg.loops n).rackIn s.cfg .commission = false) →
      kept = { Tab.get {} s.cfg.loopKept n with req := reqModeOf (u8At p.block 5) } →
    ∃ t, exec (.loopSetMode p) s = .next t ∧ t.proto = s.answered 0x0202 p { status := 0, save := [.loopKept n kept] } ∧
      t.cfg = { s.cfg with loopKept := Tab.set {} s.cfg.loopKept n kept } ∧ t = { s with proto := t.proto, cfg := t.cfg, laneA := t.laneA, laneB := t.laneB } ∧
      ∀ l, (s.lane l).isRunning → t.lane l = { s.lane l with loops := (t.lane l).loops } ∧
        (Tab.get {} (t.lane l).loops n).req = reqModeOf (u8At p.block 5) ∧ (Tab.get {} (t.lane l).loops n).latch = .none ∧
        (Tab.get {} (t.lane l).loops n).manOut = (Tab.get {} (s.lane l).loops n).manOut ∧
        ∀ m, m ≠ n → Tab.get {} (t.lane l).loops m = Tab.get {} (s.lane l).loops m) ∧
  (∀ (p : Packet) (s : State) (n : Nat) (w : F32), s.accepts p → s.serves → p.blockOk 16 [(6, 2), (9, 3)] → u16At p.block 4 = 1 → n = u8At p.block 8 → w = f32At p.block 12 →
      (Tab.get {} s.cfg.loops n).accepted → ((Tab.get {} s.cfg.loops n).spSrc = 2 ∨ (Tab.get {} s.cfg.loops n).spSrc = 3) → F32.finite w →
      F32.le (Tab.get {} s.cfg.loops n).spMin w → F32.le w (Tab.get {} s.cfg.loops n).spMax →
    ∃ t, exec (.loopSetPoint p) s = .next t ∧
      t.proto = s.answered 0x0203 p { status := 0, save := [.loopKept n { Tab.get {} s.cfg.loopKept n with hostSp := some w }] } ∧
      t = { s with proto := t.proto, cfg := t.cfg, laneA := t.laneA, laneB := t.laneB } ∧
      ∀ l, (s.lane l).isRunning → t.lane l = { s.lane l with loops := Tab.modify {} (s.lane l).loops n fun x => { x with hostSp := w, hostSet := true } }) ∧
  (∀ (p : Packet) (s : State) (first count a : Nat), s.accepts p → s.serves → p.blockOk 16 [(5, 1)] → first = u8At p.block 4 → count = u16At p.block 6 →
      a = u64At p.block 8 → 1 ≤ count → first + count ≤ 256 → addrOk a (24 + 64 * count) →
    ∃ t, exec (.loopStatus p) s = .next t ∧ t = { s with proto := s.answered 0x0204 p { status := 0 }, laneA := t.laneA, laneB := t.laneB } ∧
      s.Transferred t a (replyHeader 0 64 first count s.tick.settled.epoch ++ s.tick.settled.view.readBytes (0x100000 + 64 * first) (64 * count))) ∧
  (∀ (p : Packet) (s : State) (n : Nat), s.accepts p → s.serves → p.blockOk 8 [(5, 3)] → n = u8At p.block 4 → n < 8 → s.img.activeSlot ≠ some n → Tab.get none s.img.staging n = none →
    ∃ t, exec (.modelStage p) s = .next t ∧ t.proto = s.begun 0x0301 p [] ∧ t = { s with proto := t.proto, img := t.img } ∧ Tab.get 0 t.img.slotState n = 4 ∧
      Tab.get none t.img.staging n = some (s.proto.nextId, s.now) ∧ (∀ m, m ≠ n → Tab.get 0 t.img.slotState m = Tab.get 0 s.img.slotState m) ∧ t.img.activeSlot = s.img.activeSlot) ∧
  (∀ (p : Packet) (s : State) (n : Nat) (i : Image), s.accepts p → s.serves → p.blockOk 8 [(6, 2)] → p.block.length = 8 → n = u8At p.block 4 → n < 8 → u8At p.block 5 ≤ 1 →
      Tab.get 0 s.img.slotState n ≠ 0 → Tab.get none s.img.staging n = none →
    (s.img.activeSlot = some n → s.main.model.fault = false → s.img.images.find? (·.slot = n) = some i → ∃ t, exec (.modelActivate p) s = .next t ∧
      t.proto = s.answered 0x0302 p { status := 0, save := [.thermal (i.block none)] } ∧
      t = { s.cfgLogged 0x0302 p with proto := t.proto, img := { s.img with blockDue := some (i.block none) } }) ∧
    (∀ r, s.img.activeSlot ≠ some n → s.checkSlot n = .ok i → i.slot = n → s.fitReply i = .ok r → ∃ t, exec (.modelActivate p) s = .next t ∧
      t.proto = s.begun 0x0302 p [.thermal (i.block none)] ∧ t.img.act = .preparing ∧ t.img.actSlot = n ∧ t.img.actInherit = bit (u8At p.block 5) 0 ∧
      t.img.actBlock = some (i.block none) ∧ t.img.actCmd = some s.proto.nextId ∧ Tab.get 0 t.img.slotState n = 3 ∧ t.img.activeSlot = s.img.activeSlot)) ∧
  (∀ (p : Packet) (s : State) (a : Nat), s.accepts p → s.serves → p.blockOk 16 [(4, 4)] → a = u64At p.block 8 → addrOk a 96 →
    ∃ t, exec (.modelStatus p) s = .next t ∧ t = { s with proto := s.answered 0x0303 p { status := 0 }, laneA := t.laneA, laneB := t.laneB } ∧
      s.Transferred t a (fitBytes 96 s.tick.settled.model)) ∧
  (∀ (p : Packet) (s : State) (i : Image) (r : Rect), s.accepts p → s.serves → p.blockOk 32 [(5, 3), (28, 4)] → s.image = some i → i.hasTable → r = rectAt p.block 8 →
    (u8At p.block 4 = 6 → ∃ t save, exec (.couplingAccess p) s = .next t ∧ t.proto = s.answered 0x0304 p { status := 0, save := save } ∧
      (∀ u, u < 17 → Tab.get none t.cfg.gBase u = if bit (u32At p.block 24) u then none else Tab.get none s.cfg.gBase u) ∧
      t = { s with proto := t.proto, cfg := { s.cfg with gBase := t.cfg.gBase }, laneA := t.laneA, laneB := t.laneB }) ∧
    (u8At p.block 4 = 0 → r.ok → addrOk (u64At p.block 16) (24 + 4 * r.rowCount * r.colCount) → ∃ t, exec (.couplingAccess p) s = .next t ∧
      t = { s with proto := s.begun 0x0304 p [], img := { s.img with
        couplingOps := s.img.couplingOps ++ [{ cmd := s.proto.nextId, op := 0, rect := r, addr := u64At p.block 16 }] } }) ∧
    (u8At p.block 4 = 4 → s.laneCtl.redundancy = .duplex → ∃ t, exec (.couplingAccess p) s = .next t ∧
      t = { s with proto := s.begun 0x0304 p [], img := { s.img with
        couplingOps := s.img.couplingOps ++ [{ cmd := s.proto.nextId, op := 4, rect := r, addr := u64At p.block 16 }] } })) ∧
  (∀ (p : Packet) (s : State) (first count a : Nat), s.accepts p → s.serves → p.blockOk 24 [(5, 3), (12, 4)] → first = u16At p.block 8 → count = u16At p.block 10 →
      a = u64At p.block 16 → 1 ≤ count → first + count ≤ 4096 →
    (u8At p.block 4 = 0 → addrOk a (32 + 32 * count) → ∃ t, exec (.forecastRead p) s = .next t ∧
      t = { s with proto := s.answered 0x0305 p { status := 0 }, laneA := t.laneA, laneB := t.laneB } ∧
      s.Transferred t a (forecastHeader 0 32 first count s.tick.settled ++ s.tick.settled.view.readBytes (0x120000 + 32 * first) (32 * count))) ∧
    (u8At p.block 4 = 2 → addrOk a (32 + 136 * count) → ∃ t, exec (.forecastRead p) s = .next t ∧
      t = { s with proto := s.answered 0x0305 p { status := 0 }, laneA := t.laneA, laneB := t.laneB } ∧
      ∀ l, (s.lane l).isRunning → ∀ e ∈ (t.lane l).model.chips, first ≤ e.1 → e.1 < first + count → e.2.bins = [] ∧ e.2.residue = []))

/-- Governor opcodes (08 R208, R227 to R232, Table 8.15). -/
def Obligations.GovernorCommands : Prop :=
  (∀ (p : Packet) (s : State) (j : Nat), s.accepts p → s.serves → p.blockOk 528 [(12, 4)] → j = u8At p.block 4 →
    (u8At p.block 5 = 1 → u8At p.block 6 ≤ 3 → u8At p.block 7 ≤ 3 → memberList p.block 16 = [] → ∃ t, exec (.jobDefine p) s = .next t ∧
      t = { s.cfgLogged 0x0401 p with proto := s.begun 0x0401 p [.job j none], passDue := s.passDue ++ [.job j none], govWait := s.govWait ++ [{ cmd := s.proto.nextId, slots := [] }] }) ∧
    (∀ d : Job, u8At p.block 5 = 0 → u8At p.block 6 ≤ 3 → u8At p.block 7 ≤ 3 → u16At p.block 10 ≤ u16At p.block 8 →
        (∀ e ∈ s.planned.jobs, e.1 ≠ j → ∀ x, e.2 = some x → ∀ c ∈ memberList p.block 16, c ∉ x.members) →
        d = { priority := u8At p.block 6, paceEnable := bit (u8At p.block 7) 0, swingEnable := bit (u8At p.block 7) 1, capMax := u16At p.block 8,
              capDefault := u16At p.block 10, members := memberList p.block 16 } →
      ∃ t, exec (.jobDefine p) s = .next t ∧
        t = { s.cfgLogged 0x0401 p with proto := s.begun 0x0401 p [.job j (some d)], passDue := s.passDue ++ [.job j (some d)], govWait := s.govWait ++ [{ cmd := s.proto.nextId, slots := [] }] }) ∧
    (∀ (c k : Nat) (x : Job), u8At p.block 5 = 0 → u8At p.block 6 ≤ 3 → u8At p.block 7 ≤ 3 → s.planned.jobs = [(k, some x)] → k ≠ j → memberList p.block 16 = [c] → c ∈ x.members →
      ∃ t, exec (.jobDefine p) s = .next t ∧ t = { s with proto := s.answered 0x0401 p { status := 0x0013, r0 := w32 c } })) ∧
  (∀ (p : Packet) (s : State), s.accepts p → s.serves → p.blockOk 112 [] → u16At p.block 0x1E ≤ 200 → (∀ k, k < 16 → u8At p.block (0x20 + k) ≤ 15) →
    ∃ t e, exec (.rowEnvelopeSet p) s = .next t ∧ e.accepted = true ∧ e.l1ms = limitAt p.block 4 ∧ e.l10ms = limitAt p.block 8 ∧ e.l100ms = limitAt p.block 12 ∧
      e.l1s = limitAt p.block 16 ∧ e.rampUp = u32At p.block 20 ∧ e.rampDown = u32At p.block 24 ∧ e.defaultCap = u16At p.block 28 ∧ e.capTol = u16At p.block 30 ∧
      (∀ k, k < 16 → Tab.get 0 e.rackGroup k = u8At p.block (0x20 + k) ∧ Tab.get none e.group1ms k = limitAt p.block (0x30 + 4 * k)) ∧
      t = { s.cfgLogged 0x0402 p with proto := s.begun 0x0402 p [.envelope e], passDue := s.passDue ++ [.envelope e], govWait := s.govWait ++ [{ cmd := s.proto.nextId, slots := [] }] }) ∧
  (∀ (p : Packet) (s : State) (c fl : Nat) (items : List CfgItem), s.accepts p → s.serves → p.blockOk 16 [(11, 1), (14, 2)] → p.block.length = 16 → u16At p.block 4 = 1 → u16At p.block 6 ≤ 3 →
      c = u16At p.block 8 → fl = u8At p.block 10 → c < 4096 → fl < 6 →
      items = (if bit (u16At p.block 6) 0 then [CfgItem.clearHostCaps] else []) ++
        ((if fl = 0 then [.hostCap c (some (u16At p.block 12))] else []) ++ (if bit fl 0 then [.hostCap c none, .uncarry c] else []) ++
          (if bit fl 1 then [.mark c .absent] else []) ++ if bit fl 2 then [.mark c .present] else []) ++ (if bit (u16At p.block 6) 1 then [.releaseHalt c] else []) →
    ∃ t, exec (.capSet p) s = .next t ∧
      t = { s.cfgLogged 0x0403 p with proto := s.begun 0x0403 p items, passDue := s.passDue ++ items, govWait := s.govWait ++ [{ cmd := s.proto.nextId, slots := [c] }] }) ∧
  (∀ (p : Packet) (s : State) (j : Option Nat), s.accepts p → s.serves → p.blockOk 16 [] → (u8At p.block 5 = 1 → u8At p.block 4 = 0) →
      j = (if u8At p.block 5 = 1 then none else some (u8At p.block 4)) →
    (∀ k : PacePolicy, u8At p.block 5 ≤ 1 → k = { quorum := u16At p.block 6, window := u16At p.block 8, confirm := u16At p.block 10, guard := u16At p.block 12, step := u16At p.block 14 } →
        1 ≤ k.quorum → 10 ≤ k.window → k.window ≤ 10000 → 1 ≤ k.confirm → k.confirm ≤ 1000 → k.guard ≤ 32768 → 1 ≤ k.step → k.step ≤ 2000 →
      ∃ t, exec (.pacePolicySet p) s = .next t ∧
        t = { s.cfgLogged 0x0404 p with proto := s.begun 0x0404 p [.pace j k], passDue := s.passDue ++ [.pace j k], govWait := s.govWait ++ [{ cmd := s.proto.nextId, slots := [] }] }) ∧
    (u8At p.block 5 ≤ 1 → u16At p.block 6 = 0 → ∃ t, exec (.pacePolicySet p) s = .next t ∧
      t = { s with proto := s.answered 0x0404 p { status := 0x0013, r0 := w32 (p.hdr + 6) } }) ∧
    (u8At p.block 5 = 2 → ∃ t, exec (.pacePolicySet p) s = .next t ∧
        t = { s.cfgLogged 0x0404 p with proto := s.begun 0x0404 p [.paceRemove j], passDue := s.passDue ++ [.paceRemove j], govWait := s.govWait ++ [{ cmd := s.proto.nextId, slots := [] }] }) ∧
    (∀ k : SwingPolicy, u8At p.block 5 ≤ 1 → k = { frac := u16At p.block 6, detect := u16At p.block 8, level := u16At p.block 10, decay := u32At p.block 12 } →
        1 ≤ k.frac → 1 ≤ k.detect → k.detect ≤ 100 →
      ∃ t, exec (.swingPolicySet p) s = .next t ∧
        t = { s.cfgLogged 0x0405 p with proto := s.begun 0x0405 p [.swing j k], passDue := s.passDue ++ [.swing j k], govWait := s.govWait ++ [{ cmd := s.proto.nextId, slots := [] }] })) ∧
  (∀ (p : Packet) (s : State) (kind size base top first count a : Nat), s.accepts p → s.serves → p.blockOk 24 [(5, 3), (12, 4)] → kind = u8At p.block 4 → first = u16At p.block 8 →
      count = u16At p.block 10 → a = u64At p.block 16 → (kind, size, base, top) ∈ [(0, 64, 0x109000, 1), (1, 64, 0x10A000, 256), (2, 16, 0x140000, 4096)] →
      1 ≤ count → first + count ≤ top → addrOk a (24 + size * count) →
    ∃ t, exec (.governorStatus p) s = .next t ∧ t = { s with proto := s.answered 0x0406 p { status := 0 }, laneA := t.laneA, laneB := t.laneB } ∧
      s.Transferred t a (replyHeader kind size first count s.tick.settled.epoch ++ s.tick.settled.view.readBytes (base + size * first) (size * count)))

/-- Field opcodes (10 R260; 11 R280, R293, R295; 12 R303, R306, R307, R314; 13 R335, R336; 14 R357, R359). -/
def Obligations.FieldConfigurationCommands : Prop :=
  (∀ (c : Packet → Instr) (op lo hi : Nat) (p : Packet) (s : State) (recs : List (Nat × MotorRec)) (items : List CfgItem),
      ((c, op, lo, hi) = (.pumpConfigure, 0x0501, 0, 7) ∨ (c, op, lo, hi) = (.fanConfigure, 0x0502, 8, 55)) → s.accepts p → s.serves → motorShape p = .ok () →
      recs = ((List.range (u16At p.block 4)).map fun i => (u8At p.block (8 + 80 * i + 4), motorRecAt p.block (8 + 80 * i))) →
      (∀ e ∈ recs, lo ≤ e.1 ∧ e.1 ≤ hi ∧ e.2.badField (Tab.get [] s.planned.skipBands e.1) = none ∧
        ((s.motor e.1).state = .stopped ∨ (s.motor e.1).state.failedOrLocked ∨ e.2.on = false)) → items = recs.map (fun e => CfgItem.motor e.1 e.2) →
    (bit (u16At p.block 6) 0 → ∃ t, exec (c p) s = .next t ∧ t = { s with proto := s.answered op p { status := 0 } }) ∧
    (bit (u16At p.block 6) 0 = false → ∃ t, exec (c p) s = .next t ∧
      t = { s.cfgLogged op p with proto := s.answered op p { status := 0, save := items }, due := s.due ++ items })) ∧
  (∀ (p : Packet) (s : State) (n : Nat), s.accepts p → s.serves → p.blockOk 8 [(6, 2)] → n = u8At p.block 4 → n ≤ 55 → ∃ t, exec (.motorCommand p) s = .next t ∧
    (u8At p.block 5 = 2 → t.proto = s.answered 0x0503 p { status := 0 } ∧ (t.motor n).attempts = 0 ∧ (t.motor n).state.failedOrLocked = false ∧
      t = { s with proto := t.proto, motors := t.motors, cool := t.cool }) ∧
    (u8At p.block 5 = 0 → s.mode.authority = .manual → t.proto = s.answered 0x0503 p { status := 0 } ∧ (t.motor n).permit = true ∧ t = { s with proto := t.proto, motors := t.motors }) ∧
    (u8At p.block 5 = 1 → s.mode.authority = .manual → s.overrideTarget n = none → t.proto = s.answered 0x0503 p { status := 0 } ∧ (t.motor n).permit = false ∧
      t = { s with proto := t.proto, motors := t.motors }) ∧
    ∀ m, m ≠ n → t.motor m = s.motor m) ∧
  (∀ (p : Packet) (s : State) (n : Nat) (bands : List (Nat × Nat)), s.accepts p → s.serves → p.blockOk 28 [(6, 2), (10, 2)] → u16At p.block 4 = 1 → n = u8At p.block 8 → n ≤ 55 →
      u8At p.block 9 ≤ 4 → zeroRange p.block (12 + 4 * u8At p.block 9) (16 - 4 * u8At p.block 9) → bands = bandsAt p.block 8 → bandsOk bands →
      (∀ b ∈ bands, (Tab.get {} s.planned.motors n).handoff < b.1 ∧ b.2 < (Tab.get {} s.planned.motors n).maxSpeed) →
    ∃ t, exec (.skipBandsSet p) s = .next t ∧
      t = { s.cfgLogged 0x0504 p with proto := s.answered 0x0504 p { status := 0, save := [.skipBands n bands] }, due := s.due ++ [.skipBands n bands] }) ∧
  (∀ (p : Packet) (s : State) (x : Topology), s.accepts p → s.serves → networkShape p = .ok () → x = topologyAt p.block → (x.checks p.block).all (!·.1) → (x.trayChecks p.block).all (!·.1) →
      (s.planned.topo.accepted → (s.planned.topo.concerned x).all fun k => s.rackState k ≠ .run) →
    ∃ t, exec (.networkConfigure p) s = .next t ∧
      t = { s.cfgLogged 0x0505 p with proto := s.answered 0x0505 p { status := 0, save := [.topology x] }, passDue := s.passDue ++ [.topology x] }) ∧
  (∀ (p : Packet) (s : State) (c : Nat) (r : ValveRec), s.accepts p → s.serves → p.blockOk 40 [(14, 2), (32, 8)] → u16At p.block 4 = 1 → u16At p.block 6 = 0 → u16At p.block 8 = 1 →
      u16At p.block 10 = 32 → c = u8At p.block 12 → u8At p.block 13 ≤ 3 → r = valveRecAt p.block 8 → (r.checks c).all (!·.1) → (valveCross (s.planned.putAll [.valve c r]).valves).all (!·.1) →
      ((s.valveCh c).phase = .off ∨ (s.valveCh c).phase = .fault) →
    ∃ t, exec (.valveConfigure p) s = .next t ∧
      t = { s.cfgLogged 0x0601 p with proto := s.answered 0x0601 p { status := 0, save := [.valve c r] }, due := s.due ++ [.valve c r] }) ∧
  (∀ (p : Packet) (s : State) (v op : Nat), s.accepts p → s.serves → p.blockOk 12 [(6, 2), (10, 2)] → u16At p.block 4 = 1 → v = u8At p.block 8 → op = u8At p.block 9 → v ≤ 63 → op ≤ 2 →
      s.valveOwner v = v → (s.valveRec v).on → s.valveBarred v op = false →
    (op ≠ 0 ∨ s.supplyReady (valveSupply v) → ∃ t, exec (.valveCommand p) s = .next t ∧
      t = { s with proto := s.begun 0x0602 p [], valve := { s.valve with cmds := s.valve.cmds ++ [{ cmd := s.proto.nextId, entries := [(v, op)] }] } }) ∧
    (op = 0 → s.supplyReady (valveSupply v) = false → (s.valveRec v).boostWait = 0 → ∃ t, exec (.valveCommand p) s = .next t ∧
      t.proto = s.answered 0x0602 p { status := 0x0050, r0 := w32 (valveSupply v) } ∧ t.valve.cmds = s.valve.cmds ∧ t.valve.chans = s.valve.chans ∧
      (t.supply (valveSupply v)).refusals = satTo 32 ((s.supply (valveSupply v)).refusals + 1) ∧ t = { s with proto := t.proto, valve := t.valve })) ∧
  (∀ (p : Packet) (s : State) (first count a : Nat), s.accepts p → s.serves → p.blockOk 24 [(6, 10)] → first = u8At p.block 4 → count = u8At p.block 5 → a = u64At p.block 16 →
      1 ≤ count → first + count ≤ 64 → addrOk a (24 + 16 * count + 32) →
    ∃ t, exec (.valveStatus p) s = .next t ∧ t = { s with proto := s.answered 0x0603 p { status := 0 }, laneA := t.laneA, laneB := t.laneB } ∧
      s.Transferred t a (replyHeader 0 16 first count s.tick.settled.epoch ++ s.tick.settled.view.readBytes (0x155000 + 16 * first) (16 * count) ++
        s.tick.settled.view.readBytes 0x155400 32)) ∧
  (∀ (p : Packet) (s : State) (n : Nat) (items : List CfgItem), s.accepts p → s.serves → inputShape p = .ok () → u16At p.block 4 = 1 → u16At p.block 6 = 0 → n = u8At p.block 9 →
      (u8At p.block 8 = 0 ∧ (analogRecAt p.block 8).badField n = none ∧ s.namedInRun (fun r => r.dpAi = n || r.tSupAi = n || r.tRetAi = n) = false ∧
          items = [.analog n (analogRecAt p.block 8)] ∨
        u8At p.block 8 = 1 ∧ n ≤ 63 ∧ u8At p.block 10 ≤ 1 ∧ (pulseRecAt p.block 8).badField = none ∧ s.namedInRun (fun r => r.flowSrc = 1 && r.flowIdx = n) = false ∧
          items = [.pulse n (pulseRecAt p.block 8)]) →
    ∃ t, exec (.inputConfigure p) s = .next t ∧
      t = { s.cfgLogged 0x0701 p with proto := s.answered 0x0701 p { status := 0, save := items }, due := s.due ++ items }) ∧
  (∀ (p : Packet) (s : State) (n : Nat) (r : LeakRec), s.accepts p → s.serves → p.blockOk 32 [(11, 1), (28, 4)] → u16At p.block 4 = 1 → u16At p.block 6 = 0 → u8At p.block 10 ≤ 1 →
      n = u8At p.block 8 → n ≤ 63 → r = leakRecAt p.block 8 → r.badField = none → s.namedInRun (fun k => k.leakMask.getLsbD n) = false →
    ∃ t, exec (.leakConfigure p) s = .next t ∧
      t = { s.cfgLogged 0x0702 p with proto := s.answered 0x0702 p { status := 0, save := [.leak n r] }, due := s.due ++ [.leak n r] }) ∧
  (∀ (p : Packet) (s : State) (k op a : Nat), s.accepts p → s.serves → p.blockOk 24 [(6, 10)] → k = u8At p.block 4 → k ≤ 15 → op = u8At p.block 5 → a = u64At p.block 16 →
      (s.harness k).present → (s.harness k).state ≠ .reading → (s.harness k).cmd = none →
    (op = 1 ∨ op = 0 ∧ addrOk a 256 → ∃ t, exec (.harnessRead p) s = .next t ∧ t.proto = s.begun 0x0703 p [] ∧
      t.harness k = { s.harness k with cmd := some (s.proto.nextId, op, a) } ∧ t = { s with proto := t.proto, sense := { s.sense with harness := t.sense.harness } }) ∧
    (op = 2 → ∃ t, exec (.harnessRead p) s = .next t ∧ t.proto = s.answered 0x0703 p { status := 0, save := [.harness k none] } ∧
      (Tab.get {} t.cfg.racks k).harness = none ∧ (Tab.get {} t.cfg.racks k).state = (Tab.get {} s.cfg.racks k).state)) ∧
  (∀ (p : Packet) (s : State) (c : Nat) (r : CanRec), s.accepts p → s.serves → busShape p = .ok () → u8At p.block 4 = 1 → u8At p.block 5 = 0 → u16At p.block 6 = 0 → c = u8At p.block 8 →
      c ≤ 15 → r = canRecAt p.block 8 → r.timing.badField = none → r.enable → s.canInRun c = false →
    ∃ t, exec (.busConfigure p) s = .next t ∧
      t = { s.cfgLogged 0x0801 p with proto := s.answered 0x0801 p { status := 0, save := [.can c r] }, due := s.due ++ [.can c r] }) ∧
  (∀ (p : Packet) (s : State) (c : Nat) (cand : CanTiming), s.accepts p → s.serves → p.blockOk 32 [(12, 4), (29, 3)] → u8At p.block 5 = 1 → u16At p.block 6 ≤ 1 → c = u8At p.block 4 →
      c ≤ 15 → 100 ≤ u16At p.block 8 → u16At p.block 8 ≤ 10000 → 1 ≤ u16At p.block 10 → u16At p.block 10 ≤ 100 → cand = canTimingAt p.block 16 → cand.badField = none →
      s.canInRun c = false → s.bus.autobaud = [] →
    ∃ t, exec (.busAutobaud p) s = .next t ∧ t.proto = s.begun 0x0802 p [] ∧ (t.canChan c).state = .detecting ∧ (∀ d, d ≠ c → t.canChan d = s.canChan d) ∧
      t.bus.autobaud = [{ cmd := s.proto.nextId, channel := c, apply := bit (u16At p.block 6) 0, framesNeeded := u16At p.block 10, candidates := [cand], was := (s.canChan c).state }] ∧
      t = { s with proto := t.proto, bus := t.bus })

/-- Opcodes of groups 0x09 to 0x0B (15 R384, R386; 16 R399 to R401; 19 R477 to R480; 20 R488 to R492, R501 to R506). -/
def Obligations.ModeRecordAndUpdateCommands : Prop :=
  (∀ (p : Packet) (s : State) (v : Nat), s.accepts p → s.serves → p.blockOk 12 [(10, 2)] → u16At p.block 6 = 0 → v = u8At p.block 5 →
    (∀ a, u8At p.block 4 = 0 → v ≤ 2 → u16At p.block 8 = 0 → a = authorityOf v → s.mode.authority ≠ a → (a = .predictive → s.predAvailable) →
      ∃ t, exec (.modeRequest p) s = .next t ∧
        t = { s with proto := s.begun 0x0901 p [], mode := { s.mode with pendingModes := s.mode.pendingModes ++ [.authority a s.proto.nextId] } }) ∧
    (∀ racks st, u8At p.block 4 = 1 → v ≤ 2 → racks = u16At p.block 8 → racks ≠ 0 → st = rackStateOf v → (∀ k, k < 16 → bit racks k → s.rackOn k ∧ s.rackForbidden k st = false) →
        (∃ k, k < 16 ∧ bit racks k = true ∧ s.rackState k ≠ st) →
      ∃ t, exec (.modeRequest p) s = .next t ∧
        t = { s with proto := s.begun 0x0901 p [], mode := { s.mode with pendingModes := s.mode.pendingModes ++ [.rack racks v s.proto.nextId] } }) ∧
    (∀ k, u8At p.block 4 = 1 → v = 3 → k < 16 → u16At p.block 8 = 2 ^ k → s.rackOn k → s.rackState k ≠ .commission →
      ∃ t, exec (.modeRequest p) s = .next t ∧ t = { s with proto := s.answered 0x0901 p { status := 0x0021, r0 := w32 k } })) ∧
  (∀ (p : Packet) (s : State) (k : Nat), s.accepts p → s.inNet → s.mode.lifeCycle = .operational → p.blockOk 12 [(10, 2)] → u8At p.block 4 = 1 → u8At p.block 5 = 2 → u16At p.block 6 = 0 →
      k < 16 → u16At p.block 8 = 2 ^ k → s.rackOn k → s.rackState k ≠ .isolated →
    ∃ t, exec (.modeRequest p) s = .next t ∧ t.rackState k = .isolated ∧ (∀ j, j ≠ k → t.rackState j = s.rackState j) ∧ t.proto = s.answered 0x0901 p { status := 0 }) ∧
  (∀ (p : Packet) (s : State), s.accepts p → s.serves → s.laneCtl.redundancy = .duplex → s.laneCtl.gap = false → s.laneCtl.merge = false → s.laneCtl.drillCmd = none →
      p.blockOk 8 [(6, 2)] → u16At p.block 4 ≤ 1 →
    ∃ t, exec (.trapezeDrill p) s = .next t ∧ t = { s with proto := s.begun 0x0902 p [], mode := { s.mode with test := true }, laneCtl := { s.laneCtl with
      drillCmd := some s.proto.nextId, drillRetest := bit (u16At p.block 4) 0, drillGranted := false, drillAcked := false } }) ∧
  (∀ (p : Packet) (s : State) (a e : Nat), s.accepts p → p.blockOk 16 [(4, 4)] → a = u64At p.block 8 → addrOk a 64 → s.tick.settled.epoch = some e →
    ∃ t, exec (.laneStatus p) s = .next t ∧ t = { s with proto := s.answered 0x0903 p { status := 0 }, laneA := t.laneA, laneB := t.laneB } ∧
      s.Transferred t a (s.tick.settled.view.readBytes 0x158000 64)) ∧
  (∀ (p : Packet) (s : State) (a from_ : Nat), s.accepts p → s.mode.lifeCycle = .operational → p.blockOk 24 [(7, 1)] → a = u64At p.block 16 → a % 4 = 0 → from_ = u64At p.block 8 →
      u8At p.block 6 = 0 → u16At p.block 4 ≤ 16384 →
    (∀ last, s.evt.ring.getLast? = some last → s.evt.ring.all (!·.torn) → s.evt.ring.length ≤ u16At p.block 4 → from_ ≤ s.evt.oldest →
      ∃ t, exec (.eventRead p true) s = .next t ∧
        t = { s with hostMem := s.hostMem.writeBytes a (le16 1 ++ le16 24 ++ le32 s.evt.ring.length ++ le64 (last.seq + 1) ++
                le32 (flag (decide (from_ ≠ 0 ∧ from_ < s.evt.oldest))) ++ zeros 4 ++ s.evt.ring.flatMap (·.bytes)), proto := t.proto } ∧
        t.proto = s.answered 0x0A01 p { status := 0, r0 := w32 s.evt.ring.length, r1 := lo32 (last.seq + 1), r2 := hi32 (last.seq + 1) }) ∧
    (1 ≤ u16At p.block 4 → ∃ t, exec (.eventRead p false) s = .next t ∧ t.proto = s.answered 0x0A01 p { status := 0x00FF } ∧ t.hif.err.getLsbD 3 = true ∧
      t = { s with proto := t.proto, hif := t.hif })) ∧
  (∀ (p : Packet) (s : State) (id : Nat), s.accepts p → s.serves → p.blockOk 16 [(5, 3), (12, 4)] → id = u32At p.block 8 →
    (u8At p.block 4 = 0 → s.evt.captures = [] → ∃ t, exec (.captureRequest p) s = .next t ∧ t.proto = s.answered 0x0A02 p { status := 0, r0 := w32 s.evt.nextCapture } ∧
      t.evt.captures = [{ slot := 0, id := s.evt.nextCapture, host := true, source := s.mainLane.getD .A, trigger := s.now, state := .writing }] ∧
      t.evt.nextCapture = s.evt.nextCapture + 1) ∧
    (∀ c, u8At p.block 4 = 1 → s.evt.captures = [c] → c.id = id → ∃ t, exec (.captureRequest p) s = .next t ∧
      t = { s with proto := s.answered 0x0A02 p { status := 0 }, evt := { s.evt with captures := [{ c with locked := true }] } }) ∧
    (∀ c, u8At p.block 4 = 2 → s.evt.captures = [c] → c.id = id → ∃ t, exec (.captureRequest p) s = .next t ∧
      t = { s with proto := s.answered 0x0A02 p { status := 0 }, evt := { s.evt with captures := [{ c with locked := false }] } })) ∧
  (∀ (p : Packet) (s : State) (a : Nat), s.accepts p → s.serves → p.blockOk 32 [(5, 3), (20, 4)] → a = u64At p.block 24 →
    (u8At p.block 4 = 0 → addrOk a 1024 → ∃ t, exec (.captureRead p) s = .next t ∧ t = { s with proto := s.answered 0x0A03 p { status := 0 }, laneA := t.laneA, laneB := t.laneB } ∧
      s.Transferred t a ((List.range 16).flatMap fun n => (s.evt.captures.find? (·.slot = n)).elim emptySlot Capture.bytes)) ∧
    (∀ c, u8At p.block 4 = 1 → s.evt.captures = [c] → c.id = u32At p.block 8 → (c.state = .complete ∨ c.state = .partial_) → 1 ≤ u32At p.block 16 → u32At p.block 16 ≤ 1000 →
        u32At p.block 12 + u32At p.block 16 ≤ c.frames → addrOk a (u32At p.block 16 * 0x11000) →
      ∃ t, exec (.captureRead p) s = .next t ∧ s.Transferred t a (c.entries (u32At p.block 12) (u32At p.block 16)) ∧ t.proto = s.answered 0x0A03 p { status := 0 })) ∧
  (∀ (p : Packet) (s : State), s.accepts p → s.anyLane → s.mode.lifeCycle = .operational → s.inNet = false → p.blockOk 24 [(5, 3), (20, 4)] →
    (u8At p.block 4 = 1 → s.mode.update = .staged → ∃ t, exec (.updateStage p true) s = .next t ∧ t.proto = s.answered 0x0B01 p { status := 0 } ∧ t.mode.update = .idle ∧
      t.nor = { s.nor with running := s.nor.alternate } ∧ t.cfg = s.cfg) ∧
    (∀ b, u8At p.block 4 = 0 → (s.mode.update = .idle ∨ s.mode.update = .staged) → u64At p.block 8 % 64 = 0 → transferBase ≤ u64At p.block 8 →
        u64At p.block 8 + u32At p.block 16 ≤ transferEnd → u32At p.block 16 ≤ 0x07000000 → b = s.main.dram.readBytes (u64At p.block 8) (u32At p.block 16) → checkManifest b = .ok () →
        u32At b 0x18 = u32At p.block 16 →
      ∃ t, exec (.updateStage p true) s = .next t ∧
        (∀ set, checkPackage b s.upd = .ok set → t.proto = s.answered 0x0B01 p { status := 0 } ∧ t.mode.update = .staged ∧ t.upd.altSet = set ∧ t.upd.altValid = true ∧
          t.upd.event.getLsbD 0 = true) ∧
        (∀ r, checkPackage b s.upd = .error r → t.proto = s.answered 0x0B01 p r ∧ t.mode.update = s.mode.update ∧ t.upd.altSet = s.upd.altSet ∧ t.upd.event.getLsbD 1 = true))) ∧
  (∀ (a : LaneId) (p : Packet) (s : State), s.accepts p → s.mode.update = .staged → s.laneCtl.redundancy = .duplex → s.laneCtl.active = a → (s.lane a).run = .active →
      (s.lane a.other).run = .standby → s.laneCtl.holdA = false → s.laneCtl.holdB = false → p.blockOk 4 [] →
    (s.upd.altSet.stateFrom.toNat ≤ s.upd.runningSet.version.toNat → ∃ t, exec (.updateActivate p) s = .next t ∧ t.proto = s.begun 0x0B02 p [] ∧ t.mode.update = .handover ∧
      t.upd.step = 1 ∧ t.upd.onNew = [a.other] ∧ t.laneCtl.redundancy = .simplexOn a ∧ (t.lane a.other).run = .reset ∧ (t.lane a).run = .active) ∧
    (s.upd.runningSet.version.toNat < s.upd.altSet.stateFrom.toNat → ∃ t, exec (.updateActivate p) s = .next t ∧
      t = { s with proto := s.answered 0x0B02 p { status := 0x0013, r0 := none32, r1 := 3 } })) ∧
  (∀ (p : Packet) (s : State), s.accepts p → s.anyLane → s.mode.update = .trial → p.blockOk 8 [(5, 3)] →
    (u8At p.block 4 = 0 → ∃ t, exec (.updateConfirm p) s = .next t ∧
      t = { s with proto := s.answered 0x0B03 p { status := 0, r0 := w32 (maskOf s.upd.partsConfirmed) }, upd := { s.upd with hostConfirmed := true } }) ∧
    (u8At p.block 4 = 1 → ∃ t, exec (.updateConfirm p) s = .next t ∧ t.upd.lastReason = 1 ∧ (t.upd.rollingBack ∨ t.upd.rollbackAtReset ∨ t.mode.update = .idle))) ∧
  (∀ (p : Packet) (s : State), s.accepts p →
    (p.blockOk 16 [(4, 4)] → ∃ t, exec (.updateStatus p true) s = .next t ∧
      t = { s with hostMem := s.hostMem.writeBytes (u64At p.block 8) s.updateRecord, proto := s.answered 0x0B04 p { status := 0 } }) ∧
    (∀ bs, p.blockOk 56 [(5, 3), (48, 8)] → u64At p.block 8 % 4 = 0 → u8At p.block 4 ≤ 2 →
        bs = (if u8At p.block 4 = 0 then s.attestation (bytesAt p.block 16 32) else (Config.certChain (u8At p.block 4 - 1)).take 32768) →
      ∃ t, exec (.attest p true) s = .next t ∧
        t = { s with hostMem := s.hostMem.writeBytes (u64At p.block 8) bs, proto := s.answered 0x0B05 p { status := 0, r0 := w32 bs.length } })) ∧
  (∀ (p : Packet) (s : State) (x : LifeCycle), s.accepts p → s.serves → s.mode.authority = .manual → (∀ k, k < 16 → s.rackOn k → s.rackState k ≠ .run) → p.blockOk 8 [(6, 2)] →
      u8At p.block 5 = 0 → u8At p.block 4 ≤ 3 → x = lifeOf (u8At p.block 4) →
    (x = .operational → ∃ t, exec (.lifecycleSet p) s = .next t ∧ t = { s with proto := s.answered 0x0B06 p { status := 0 } }) ∧
    (x = .provisioned ∨ x = .returning → ∃ t, exec (.lifecycleSet p) s = .next t ∧ t.proto = s.answered 0x0B06 p { status := 0 } ∧ t.upd.lifeTarget = some x ∧
      t.mode.lifeCycle = s.mode.lifeCycle ∧ t = { s with proto := t.proto, upd := { s.upd with lifeTarget := some x }, evt := t.evt }) ∧
    (x = .blank → ∃ t, exec (.lifecycleSet p) s = .next t ∧ t = { s with proto := s.answered 0x0B06 p { status := 0x0013, r0 := w32 (p.hdr + 4) } }))
end

