-- ==== Sys2Proof/Laws/Commands.lean ====
section
/-! SUPPORT. What every host opcode does with an accepted packet: its checks, its completion, and what stays. -/

namespace Sys2Proof.Machine

@[simp] theorem State.took_ready (s : State) (op : Nat) (p : Packet) : (s.took op p).ready = s.proto.ready := rfl
@[simp] theorem State.took_running (s : State) (op : Nat) (p : Packet) : (s.took op p).running = s.proto.running := rfl
@[simp] theorem State.took_dropIds (s : State) (op : Nat) (p : Packet) : (s.took op p).dropIds = s.proto.dropIds := rfl
@[simp] theorem State.taken_id (s : State) (op : Nat) (p : Packet) : (s.taken op p).id = s.proto.nextId := rfl
@[simp] theorem State.taken_block (s : State) (op : Nat) (p : Packet) : (s.taken op p).block = p.block := rfl
@[simp] theorem State.taken_hdr (s : State) (op : Nat) (p : Packet) : (s.taken op p).hdr = p.hdr := rfl
@[simp] theorem State.taken_sq (s : State) (op : Nat) (p : Packet) : (s.taken op p).sq = p.sq := rfl
@[simp] theorem State.taken_async (s : State) (op : Nat) (p : Packet) : (s.taken op p).async = p.async := rfl

/-- An accepted packet is taken under the next id, and its epoch is the present one. -/
theorem State.claim_accepts (s : State) (op : Nat) (p : Packet) (free : Bool) (h : s.accepts p) :
    s.claim { p with opcode := op } free = some ({ s with proto := s.took op p }, s.taken op p, s.now) := by
  obtain ⟨h1, h2, -, -⟩ := h
  have e : s.proto.issued.find? (fun i => i.tag = p.tag && i.sq = p.sq) = none := by
    rw [List.find?_eq_none]; intro i hi; simp [h1 i hi]
  have f : s.proto.held.filter (fun h => !(h.tag = p.tag && h.ready)) = s.proto.held := by
    rw [List.filter_eq_self]; intro x hx; simp [h2 x hx]
  simp only [State.claim, e, ProtoSt.issue, State.took, State.taken, f]

/-- A completion not to be dropped joins the ready ones. -/
theorem State.ready_kept (s : State) (p : Packet) (e : Nat) (r : Reply) (h : s.proto.dropIds.contains p.id = false) :
    s.ready p e r = { s with proto := { s.proto with ready := s.proto.ready ++ [mkCompletion p e r false s.holdsBack] } } := by
  simp only [State.ready, h, Bool.false_eq_true, if_false]

@[simp] theorem State.holdsBack_proto (s : State) (q : ProtoSt) : ({ s with proto := q } : State).holdsBack = s.holdsBack := rfl
@[simp] theorem State.now_proto (s : State) (q : ProtoSt) : ({ s with proto := q } : State).now = s.now := rfl

/-- A block that fits its opcode passes checks 11 and 12. -/
theorem Packet.checkBlock_ok (p : Packet) (size : Nat) (res : List (Nat × Nat)) (h : p.blockOk size res = true) :
    p.checkBlock size res = .ok () := by
  simp only [Packet.blockOk, Bool.and_eq_true, decide_eq_true_eq, List.all_eq_true] at h
  obtain ⟨⟨⟨⟨h1, h2⟩, h3⟩, h4⟩, h5⟩ := h
  have hf : res.find? (fun r => !zeroRange p.block (0 + r.1) r.2) = none := by
    rw [List.find?_eq_none]; intro r hr; simp [h5 r hr]
  have hl : p.checkLength = .ok () := by
    unfold Packet.checkLength; rw [if_neg]; omega
  have hs : p.checkShape { size := size, reserved := res } = .ok () := by
    unfold Packet.checkShape
    rw [if_neg (by simpa using h1), if_neg (by simp only [Nat.zero_add]; omega)]
    simp only [hf]
  unfold Packet.checkBlock; rw [hl, hs]; rfl

/-- A command that passes its checks runs its body on the state with its packet taken. -/
theorem State.runCmd_body (s : State) (op : Nat) (free : Bool) (p : Packet) (shape : Packet → Except Reply Unit)
    (axis : Packet → State → Except Reply Unit) (body : Nat → Packet → State → Except Reply (State × CmdEnd)) (h : s.accepts p)
    (hs : shape (s.taken op p) = .ok ()) (hl : free = true ∨ s.anyLane = true)
    (ha : axis (s.taken op p) { s with proto := s.took op p } = .ok ()) :
    s.runCmd op free p shape axis body = ({ s with proto := s.took op p } : State).execBody (s.taken op p) s.now body := by
  have hn : ({ s with proto := s.took op p } : State).noLane = (if s.anyLane then .ok () else ({ s with proto := s.took op p } : State).noLane) := by
    split
    · rename_i g; unfold State.noLane; rw [if_pos]; exact g
    · rfl
  unfold State.runCmd
  rw [State.claim_accepts s op p free h]
  simp only [hs]
  have hd : (do (if free = true then pure () else ({ s with proto := s.took op p } : State).noLane); axis (s.taken op p) { s with proto := s.took op p }) = .ok () := by
    rcases hl with rfl | hl
    · simpa using ha
    · rw [hn, hl]; cases free <;> exact ha
  rw [hd]
  simp only [State.taken_async, h.2.2.2, Bool.false_eq_true, if_false]

/-- A body that answers at once: its reply is the packet's completion. -/
theorem State.execBody_reply (s t : State) (p : Packet) (e : Nat) (r : Reply)
    (body : Nat → Packet → State → Except Reply (State × CmdEnd)) (ha : p.async = false) (hd : t.proto.dropIds.contains p.id = false)
    (hb : body e p s = .ok (t, .reply r)) :
    s.execBody p e body = { t with proto := { t.proto with ready := t.proto.ready ++ [mkCompletion p e r false t.holdsBack] } } := by
  unfold State.execBody
  rw [hb]
  simp only [State.conclude, ha, Bool.false_eq_true, if_false, State.ready_kept t p e r hd]

/-- A body that ends later: the command joins the running ones. -/
theorem State.execBody_later (s t : State) (p : Packet) (e : Nat) (save : List CfgItem)
    (body : Nat → Packet → State → Except Reply (State × CmdEnd)) (hb : body e p s = .ok (t, .later save)) :
    s.execBody p e body = { t with proto := { t.proto with running := t.proto.running ++ [{ packet := p, commit := e, async := p.async, save := save }] } } := by
  unfold State.execBody; rw [hb]

/-- A body that refuses: its reply is the packet's completion, and nothing else has changed. -/
theorem State.execBody_error (s : State) (p : Packet) (e : Nat) (r : Reply)
    (body : Nat → Packet → State → Except Reply (State × CmdEnd)) (ha : p.async = false) (hd : s.proto.dropIds.contains p.id = false)
    (hb : body e p s = .error r) :
    s.execBody p e body = { s with proto := { s.proto with ready := s.proto.ready ++ [mkCompletion p e r false s.holdsBack] } } := by
  unfold State.execBody
  rw [hb]
  simp only [State.conclude, ha, Bool.false_eq_true, if_false, State.ready_kept s p e r hd]

/-- A block that fits passes the block check of the packet as taken. -/
theorem State.taken_block_ok (s : State) (op : Nat) (p : Packet) (size : Nat) (res : List (Nat × Nat)) (h : p.blockOk size res = true) :
    (s.taken op p).checkBlock size res = .ok () := Packet.checkBlock_ok _ _ _ h

/-- A command that passes its checks and is answered at once. -/
theorem State.runCmd_reply (s t : State) (op : Nat) (free : Bool) (p : Packet) (r : Reply) (shape : Packet → Except Reply Unit)
    (axis : Packet → State → Except Reply Unit) (body : Nat → Packet → State → Except Reply (State × CmdEnd)) (h : s.accepts p)
    (hs : shape (s.taken op p) = .ok ()) (hl : free = true ∨ s.anyLane = true)
    (ha : axis (s.taken op p) { s with proto := s.took op p } = .ok ())
    (hb : body s.now (s.taken op p) { s with proto := s.took op p } = .ok (t, .reply r))
    (ht : t.proto = s.took op p) (hh : t.holdsBack = s.holdsBack) :
    s.runCmd op free p shape axis body = { t with proto := s.answered op p r } := by
  rw [State.runCmd_body s op free p shape axis body h hs hl ha,
    State.execBody_reply _ t (s.taken op p) _ r _ h.2.2.2 (by rw [ht]; exact h.2.2.1) hb, hh, ht]
  rfl

/-- A command that passes its checks and runs on. -/
theorem State.runCmd_later (s t : State) (op : Nat) (free : Bool) (p : Packet) (save : List CfgItem) (shape : Packet → Except Reply Unit)
    (axis : Packet → State → Except Reply Unit) (body : Nat → Packet → State → Except Reply (State × CmdEnd)) (h : s.accepts p)
    (hs : shape (s.taken op p) = .ok ()) (hl : free = true ∨ s.anyLane = true)
    (ha : axis (s.taken op p) { s with proto := s.took op p } = .ok ())
    (hb : body s.now (s.taken op p) { s with proto := s.took op p } = .ok (t, .later save))
    (ht : t.proto = s.took op p) :
    s.runCmd op free p shape axis body = { t with proto := s.begun op p save } := by
  rw [State.runCmd_body s op free p shape axis body h hs hl ha, State.execBody_later _ t _ _ save _ hb, ht]
  simp only [State.taken_async, h.2.2.2, State.took_running]
  rfl

/-- A command refused by its own checks: its completion, and no other effect. -/
theorem State.runCmd_error (s : State) (op : Nat) (free : Bool) (p : Packet) (r : Reply) (shape : Packet → Except Reply Unit)
    (axis : Packet → State → Except Reply Unit) (body : Nat → Packet → State → Except Reply (State × CmdEnd)) (h : s.accepts p)
    (hs : shape (s.taken op p) = .ok ()) (hl : free = true ∨ s.anyLane = true)
    (ha : axis (s.taken op p) { s with proto := s.took op p } = .ok ())
    (hb : body s.now (s.taken op p) { s with proto := s.took op p } = .error r) :
    s.runCmd op free p shape axis body = { s with proto := s.answered op p r } := by
  rw [State.runCmd_body s op free p shape axis body h hs hl ha,
    State.execBody_error { s with proto := s.took op p } (s.taken op p) _ r _ h.2.2.2 h.2.2.1 hb]
  rfl

/-- A packet whose block or structure is refused: its completion, and no other effect. -/
theorem State.runCmd_shape (s : State) (op : Nat) (free : Bool) (p : Packet) (r : Reply) (shape : Packet → Except Reply Unit)
    (axis : Packet → State → Except Reply Unit) (body : Nat → Packet → State → Except Reply (State × CmdEnd)) (h : s.accepts p)
    (hs : shape (s.taken op p) = .error r) :
    s.runCmd op free p shape axis body = { s with proto := s.answered op p r } := by
  unfold State.runCmd
  rw [State.claim_accepts s op p free h]
  simp only [hs]
  exact State.ready_kept _ _ _ _ h.2.2.1

/-! ## Checks that pass -/

/-- A condition that does not hold refuses nothing. -/
theorem refuseIf_pass {c : Bool} {r : Reply} (h : c = false) : refuseIf c r = .ok () := by
  subst h; rfl

/-- A condition that holds refuses. -/
theorem refuseIf_stop {c : Bool} {r : Reply} (h : c = true) : refuseIf c r = .error r := by
  subst h; rfl

/-- A list of conditions none of which holds refuses nothing. -/
theorem deny_pass {l : List (Bool × Reply)} (h : ∀ e ∈ l, e.1 = false) : deny l = .ok () := by
  have : l.find? (·.1) = none := by rw [List.find?_eq_none]; intro e he; simp [h e he]
  simp only [deny, this]

/-- A list of conditions whose first holds refuses with its reply. -/
theorem deny_stop (r : Reply) (l : List (Bool × Reply)) : deny ((true, r) :: l) = .error r := rfl

/-- Axes none of which refuses. -/
theorem axes_pass {l : List (Bool × Reply)} (h : ∀ e ∈ l, e.1 = false) : axes l = .ok () := by
  have : l.filter (·.1) = [] := by rw [List.filter_eq_nil_iff]; intro e he; simp [h e he]
  simp only [axes, this, List.map_nil, List.find?_nil]

/-- A first element that none of a list meets. -/
theorem refuseFirst_pass {α : Type} {l : List α} {c : α → Bool} {r : α → Reply} (h : ∀ x ∈ l, c x = false) : refuseFirst l c r = .ok () := by
  have : l.find? c = none := by rw [List.find?_eq_none]; intro x hx; simp [h x hx]
  simp only [refuseFirst, this]

/-! ## Records of the running lanes -/

/-- The event of a lane record. -/
def State.laneEvent (s : State) (cls ty : Nat) (sub : U32) (data : List U32) (origin : Nat) : Event :=
  { cls := cls, origin := origin, ty := ty, epoch := s.now, time := s.tick.t0Time, subject := sub, data := data }

/-- What a lane record does: the staging of each running lane takes it, and nothing else changes. -/
theorem State.logLanes_eq (s : State) (cls ty : Nat) (sub : U32) (data : List U32) (o : Option Nat) :
    s.logLanes cls ty sub data o =
      { s with
        laneA := if s.laneA.isRunning then { s.laneA with staging := s.laneA.staging.stage 2 (s.laneEvent cls ty sub data (o.getD 2)) } else s.laneA
        laneB := if s.laneB.isRunning then { s.laneB with staging := s.laneB.staging.stage 3 (s.laneEvent cls ty sub data (o.getD 3)) } else s.laneB } := by
  unfold State.logLanes
  by_cases ha : s.laneA.isRunning = true <;> by_cases hb : s.laneB.isRunning = true <;>
    simp [ha, hb, State.logIn, State.onLane, State.setLane, State.lane, State.laneEvent, State.now]

@[simp] theorem State.laneEvent_proto (s : State) (q : ProtoSt) (cls ty : Nat) (sub : U32) (data : List U32) (o : Nat) :
    ({ s with proto := q } : State).laneEvent cls ty sub data o = s.laneEvent cls ty sub data o := rfl

/-- What a lane's fields other than its staging are after a lane record. -/
theorem State.cfgLogged_frame (s : State) (op : Nat) (p : Packet) :
    s.cfgLogged op p = { s with laneA := (s.cfgLogged op p).laneA, laneB := (s.cfgLogged op p).laneB } := by
  simp only [State.cfgLogged, State.logConfig, State.logLanes_eq]

end Sys2Proof.Machine
end

