-- ==== Sys2Proof/Laws/State.lean ====
section
/-! SUPPORT. What each named update of the state leaves as it was: one lemma per field and update. -/

namespace Sys2Proof.Machine

/-! ### State.setLane -/

@[simp] theorem State.setLane_pending (s : State) (l : LaneId) (x : Lane) : (s.setLane l x).pending = s.pending := by cases l <;> rfl
@[simp] theorem State.setLane_fresh (s : State) (l : LaneId) (x : Lane) : (s.setLane l x).fresh = s.fresh := by cases l <;> rfl
@[simp] theorem State.setLane_power (s : State) (l : LaneId) (x : Lane) : (s.setLane l x).power = s.power := by cases l <;> rfl
@[simp] theorem State.setLane_gen (s : State) (l : LaneId) (x : Lane) : (s.setLane l x).gen = s.gen := by cases l <;> rfl
@[simp] theorem State.setLane_hif (s : State) (l : LaneId) (x : Lane) : (s.setLane l x).hif = s.hif := by cases l <;> rfl
@[simp] theorem State.setLane_dport (s : State) (l : LaneId) (x : Lane) : (s.setLane l x).dport = s.dport := by cases l <;> rfl
@[simp] theorem State.setLane_spdm (s : State) (l : LaneId) (x : Lane) : (s.setLane l x).spdm = s.spdm := by cases l <;> rfl
@[simp] theorem State.setLane_proto (s : State) (l : LaneId) (x : Lane) : (s.setLane l x).proto = s.proto := by cases l <;> rfl
@[simp] theorem State.setLane_tick (s : State) (l : LaneId) (x : Lane) : (s.setLane l x).tick = s.tick := by cases l <;> rfl
@[simp] theorem State.setLane_mode (s : State) (l : LaneId) (x : Lane) : (s.setLane l x).mode = s.mode := by cases l <;> rfl
@[simp] theorem State.setLane_laneCtl (s : State) (l : LaneId) (x : Lane) : (s.setLane l x).laneCtl = s.laneCtl := by cases l <;> rfl
@[simp] theorem State.setLane_cfg (s : State) (l : LaneId) (x : Lane) : (s.setLane l x).cfg = s.cfg := by cases l <;> rfl
@[simp] theorem State.setLane_due (s : State) (l : LaneId) (x : Lane) : (s.setLane l x).due = s.due := by cases l <;> rfl
@[simp] theorem State.setLane_passDue (s : State) (l : LaneId) (x : Lane) : (s.setLane l x).passDue = s.passDue := by cases l <;> rfl
@[simp] theorem State.setLane_govWait (s : State) (l : LaneId) (x : Lane) : (s.setLane l x).govWait = s.govWait := by cases l <;> rfl
@[simp] theorem State.setLane_nor (s : State) (l : LaneId) (x : Lane) : (s.setLane l x).nor = s.nor := by cases l <;> rfl
@[simp] theorem State.setLane_rel (s : State) (l : LaneId) (x : Lane) : (s.setLane l x).rel = s.rel := by cases l <;> rfl
@[simp] theorem State.setLane_img (s : State) (l : LaneId) (x : Lane) : (s.setLane l x).img = s.img := by cases l <;> rfl
@[simp] theorem State.setLane_tray (s : State) (l : LaneId) (x : Lane) : (s.setLane l x).tray = s.tray := by cases l <;> rfl
@[simp] theorem State.setLane_cool (s : State) (l : LaneId) (x : Lane) : (s.setLane l x).cool = s.cool := by cases l <;> rfl
@[simp] theorem State.setLane_motors (s : State) (l : LaneId) (x : Lane) : (s.setLane l x).motors = s.motors := by cases l <;> rfl
@[simp] theorem State.setLane_valve (s : State) (l : LaneId) (x : Lane) : (s.setLane l x).valve = s.valve := by cases l <;> rfl
@[simp] theorem State.setLane_sense (s : State) (l : LaneId) (x : Lane) : (s.setLane l x).sense = s.sense := by cases l <;> rfl
@[simp] theorem State.setLane_bus (s : State) (l : LaneId) (x : Lane) : (s.setLane l x).bus = s.bus := by cases l <;> rfl
@[simp] theorem State.setLane_evt (s : State) (l : LaneId) (x : Lane) : (s.setLane l x).evt = s.evt := by cases l <;> rfl
@[simp] theorem State.setLane_upd (s : State) (l : LaneId) (x : Lane) : (s.setLane l x).upd = s.upd := by cases l <;> rfl
@[simp] theorem State.setLane_hostMem (s : State) (l : LaneId) (x : Lane) : (s.setLane l x).hostMem = s.hostMem := by cases l <;> rfl

/-! ### State.onLane -/

@[simp] theorem State.onLane_pending (s : State) (l : LaneId) (f : Lane → Lane) : (s.onLane l f).pending = s.pending := by cases l <;> rfl
@[simp] theorem State.onLane_fresh (s : State) (l : LaneId) (f : Lane → Lane) : (s.onLane l f).fresh = s.fresh := by cases l <;> rfl
@[simp] theorem State.onLane_power (s : State) (l : LaneId) (f : Lane → Lane) : (s.onLane l f).power = s.power := by cases l <;> rfl
@[simp] theorem State.onLane_gen (s : State) (l : LaneId) (f : Lane → Lane) : (s.onLane l f).gen = s.gen := by cases l <;> rfl
@[simp] theorem State.onLane_hif (s : State) (l : LaneId) (f : Lane → Lane) : (s.onLane l f).hif = s.hif := by cases l <;> rfl
@[simp] theorem State.onLane_dport (s : State) (l : LaneId) (f : Lane → Lane) : (s.onLane l f).dport = s.dport := by cases l <;> rfl
@[simp] theorem State.onLane_spdm (s : State) (l : LaneId) (f : Lane → Lane) : (s.onLane l f).spdm = s.spdm := by cases l <;> rfl
@[simp] theorem State.onLane_proto (s : State) (l : LaneId) (f : Lane → Lane) : (s.onLane l f).proto = s.proto := by cases l <;> rfl
@[simp] theorem State.onLane_tick (s : State) (l : LaneId) (f : Lane → Lane) : (s.onLane l f).tick = s.tick := by cases l <;> rfl
@[simp] theorem State.onLane_mode (s : State) (l : LaneId) (f : Lane → Lane) : (s.onLane l f).mode = s.mode := by cases l <;> rfl
@[simp] theorem State.onLane_laneCtl (s : State) (l : LaneId) (f : Lane → Lane) : (s.onLane l f).laneCtl = s.laneCtl := by cases l <;> rfl
@[simp] theorem State.onLane_cfg (s : State) (l : LaneId) (f : Lane → Lane) : (s.onLane l f).cfg = s.cfg := by cases l <;> rfl
@[simp] theorem State.onLane_due (s : State) (l : LaneId) (f : Lane → Lane) : (s.onLane l f).due = s.due := by cases l <;> rfl
@[simp] theorem State.onLane_passDue (s : State) (l : LaneId) (f : Lane → Lane) : (s.onLane l f).passDue = s.passDue := by cases l <;> rfl
@[simp] theorem State.onLane_govWait (s : State) (l : LaneId) (f : Lane → Lane) : (s.onLane l f).govWait = s.govWait := by cases l <;> rfl
@[simp] theorem State.onLane_nor (s : State) (l : LaneId) (f : Lane → Lane) : (s.onLane l f).nor = s.nor := by cases l <;> rfl
@[simp] theorem State.onLane_rel (s : State) (l : LaneId) (f : Lane → Lane) : (s.onLane l f).rel = s.rel := by cases l <;> rfl
@[simp] theorem State.onLane_img (s : State) (l : LaneId) (f : Lane → Lane) : (s.onLane l f).img = s.img := by cases l <;> rfl
@[simp] theorem State.onLane_tray (s : State) (l : LaneId) (f : Lane → Lane) : (s.onLane l f).tray = s.tray := by cases l <;> rfl
@[simp] theorem State.onLane_cool (s : State) (l : LaneId) (f : Lane → Lane) : (s.onLane l f).cool = s.cool := by cases l <;> rfl
@[simp] theorem State.onLane_motors (s : State) (l : LaneId) (f : Lane → Lane) : (s.onLane l f).motors = s.motors := by cases l <;> rfl
@[simp] theorem State.onLane_valve (s : State) (l : LaneId) (f : Lane → Lane) : (s.onLane l f).valve = s.valve := by cases l <;> rfl
@[simp] theorem State.onLane_sense (s : State) (l : LaneId) (f : Lane → Lane) : (s.onLane l f).sense = s.sense := by cases l <;> rfl
@[simp] theorem State.onLane_bus (s : State) (l : LaneId) (f : Lane → Lane) : (s.onLane l f).bus = s.bus := by cases l <;> rfl
@[simp] theorem State.onLane_evt (s : State) (l : LaneId) (f : Lane → Lane) : (s.onLane l f).evt = s.evt := by cases l <;> rfl
@[simp] theorem State.onLane_upd (s : State) (l : LaneId) (f : Lane → Lane) : (s.onLane l f).upd = s.upd := by cases l <;> rfl
@[simp] theorem State.onLane_hostMem (s : State) (l : LaneId) (f : Lane → Lane) : (s.onLane l f).hostMem = s.hostMem := by cases l <;> rfl

/-! ### State.onLanes -/

@[simp] theorem State.onLanes_pending (s : State) (f : Lane → Lane) : (s.onLanes f).pending = s.pending := rfl
@[simp] theorem State.onLanes_fresh (s : State) (f : Lane → Lane) : (s.onLanes f).fresh = s.fresh := rfl
@[simp] theorem State.onLanes_power (s : State) (f : Lane → Lane) : (s.onLanes f).power = s.power := rfl
@[simp] theorem State.onLanes_gen (s : State) (f : Lane → Lane) : (s.onLanes f).gen = s.gen := rfl
@[simp] theorem State.onLanes_hif (s : State) (f : Lane → Lane) : (s.onLanes f).hif = s.hif := rfl
@[simp] theorem State.onLanes_dport (s : State) (f : Lane → Lane) : (s.onLanes f).dport = s.dport := rfl
@[simp] theorem State.onLanes_spdm (s : State) (f : Lane → Lane) : (s.onLanes f).spdm = s.spdm := rfl
@[simp] theorem State.onLanes_proto (s : State) (f : Lane → Lane) : (s.onLanes f).proto = s.proto := rfl
@[simp] theorem State.onLanes_tick (s : State) (f : Lane → Lane) : (s.onLanes f).tick = s.tick := rfl
@[simp] theorem State.onLanes_mode (s : State) (f : Lane → Lane) : (s.onLanes f).mode = s.mode := rfl
@[simp] theorem State.onLanes_laneCtl (s : State) (f : Lane → Lane) : (s.onLanes f).laneCtl = s.laneCtl := rfl
@[simp] theorem State.onLanes_cfg (s : State) (f : Lane → Lane) : (s.onLanes f).cfg = s.cfg := rfl
@[simp] theorem State.onLanes_due (s : State) (f : Lane → Lane) : (s.onLanes f).due = s.due := rfl
@[simp] theorem State.onLanes_passDue (s : State) (f : Lane → Lane) : (s.onLanes f).passDue = s.passDue := rfl
@[simp] theorem State.onLanes_govWait (s : State) (f : Lane → Lane) : (s.onLanes f).govWait = s.govWait := rfl
@[simp] theorem State.onLanes_nor (s : State) (f : Lane → Lane) : (s.onLanes f).nor = s.nor := rfl
@[simp] theorem State.onLanes_rel (s : State) (f : Lane → Lane) : (s.onLanes f).rel = s.rel := rfl
@[simp] theorem State.onLanes_img (s : State) (f : Lane → Lane) : (s.onLanes f).img = s.img := rfl
@[simp] theorem State.onLanes_tray (s : State) (f : Lane → Lane) : (s.onLanes f).tray = s.tray := rfl
@[simp] theorem State.onLanes_cool (s : State) (f : Lane → Lane) : (s.onLanes f).cool = s.cool := rfl
@[simp] theorem State.onLanes_motors (s : State) (f : Lane → Lane) : (s.onLanes f).motors = s.motors := rfl
@[simp] theorem State.onLanes_valve (s : State) (f : Lane → Lane) : (s.onLanes f).valve = s.valve := rfl
@[simp] theorem State.onLanes_sense (s : State) (f : Lane → Lane) : (s.onLanes f).sense = s.sense := rfl
@[simp] theorem State.onLanes_bus (s : State) (f : Lane → Lane) : (s.onLanes f).bus = s.bus := rfl
@[simp] theorem State.onLanes_evt (s : State) (f : Lane → Lane) : (s.onLanes f).evt = s.evt := rfl
@[simp] theorem State.onLanes_upd (s : State) (f : Lane → Lane) : (s.onLanes f).upd = s.upd := rfl
@[simp] theorem State.onLanes_hostMem (s : State) (f : Lane → Lane) : (s.onLanes f).hostMem = s.hostMem := rfl

/-! ### State.logRm -/

@[simp] theorem State.logRm_pending (s : State) (c y : Nat) (u : U32) (d : List U32) (o : Nat) : (s.logRm c y u d o).pending = s.pending := rfl
@[simp] theorem State.logRm_fresh (s : State) (c y : Nat) (u : U32) (d : List U32) (o : Nat) : (s.logRm c y u d o).fresh = s.fresh := rfl
@[simp] theorem State.logRm_power (s : State) (c y : Nat) (u : U32) (d : List U32) (o : Nat) : (s.logRm c y u d o).power = s.power := rfl
@[simp] theorem State.logRm_gen (s : State) (c y : Nat) (u : U32) (d : List U32) (o : Nat) : (s.logRm c y u d o).gen = s.gen := rfl
@[simp] theorem State.logRm_hif (s : State) (c y : Nat) (u : U32) (d : List U32) (o : Nat) : (s.logRm c y u d o).hif = s.hif := rfl
@[simp] theorem State.logRm_dport (s : State) (c y : Nat) (u : U32) (d : List U32) (o : Nat) : (s.logRm c y u d o).dport = s.dport := rfl
@[simp] theorem State.logRm_spdm (s : State) (c y : Nat) (u : U32) (d : List U32) (o : Nat) : (s.logRm c y u d o).spdm = s.spdm := rfl
@[simp] theorem State.logRm_proto (s : State) (c y : Nat) (u : U32) (d : List U32) (o : Nat) : (s.logRm c y u d o).proto = s.proto := rfl
@[simp] theorem State.logRm_tick (s : State) (c y : Nat) (u : U32) (d : List U32) (o : Nat) : (s.logRm c y u d o).tick = s.tick := rfl
@[simp] theorem State.logRm_mode (s : State) (c y : Nat) (u : U32) (d : List U32) (o : Nat) : (s.logRm c y u d o).mode = s.mode := rfl
@[simp] theorem State.logRm_laneCtl (s : State) (c y : Nat) (u : U32) (d : List U32) (o : Nat) : (s.logRm c y u d o).laneCtl = s.laneCtl := rfl
@[simp] theorem State.logRm_laneA (s : State) (c y : Nat) (u : U32) (d : List U32) (o : Nat) : (s.logRm c y u d o).laneA = s.laneA := rfl
@[simp] theorem State.logRm_laneB (s : State) (c y : Nat) (u : U32) (d : List U32) (o : Nat) : (s.logRm c y u d o).laneB = s.laneB := rfl
@[simp] theorem State.logRm_cfg (s : State) (c y : Nat) (u : U32) (d : List U32) (o : Nat) : (s.logRm c y u d o).cfg = s.cfg := rfl
@[simp] theorem State.logRm_due (s : State) (c y : Nat) (u : U32) (d : List U32) (o : Nat) : (s.logRm c y u d o).due = s.due := rfl
@[simp] theorem State.logRm_passDue (s : State) (c y : Nat) (u : U32) (d : List U32) (o : Nat) : (s.logRm c y u d o).passDue = s.passDue := rfl
@[simp] theorem State.logRm_govWait (s : State) (c y : Nat) (u : U32) (d : List U32) (o : Nat) : (s.logRm c y u d o).govWait = s.govWait := rfl
@[simp] theorem State.logRm_nor (s : State) (c y : Nat) (u : U32) (d : List U32) (o : Nat) : (s.logRm c y u d o).nor = s.nor := rfl
@[simp] theorem State.logRm_rel (s : State) (c y : Nat) (u : U32) (d : List U32) (o : Nat) : (s.logRm c y u d o).rel = s.rel := rfl
@[simp] theorem State.logRm_img (s : State) (c y : Nat) (u : U32) (d : List U32) (o : Nat) : (s.logRm c y u d o).img = s.img := rfl
@[simp] theorem State.logRm_tray (s : State) (c y : Nat) (u : U32) (d : List U32) (o : Nat) : (s.logRm c y u d o).tray = s.tray := rfl
@[simp] theorem State.logRm_cool (s : State) (c y : Nat) (u : U32) (d : List U32) (o : Nat) : (s.logRm c y u d o).cool = s.cool := rfl
@[simp] theorem State.logRm_motors (s : State) (c y : Nat) (u : U32) (d : List U32) (o : Nat) : (s.logRm c y u d o).motors = s.motors := rfl
@[simp] theorem State.logRm_valve (s : State) (c y : Nat) (u : U32) (d : List U32) (o : Nat) : (s.logRm c y u d o).valve = s.valve := rfl
@[simp] theorem State.logRm_sense (s : State) (c y : Nat) (u : U32) (d : List U32) (o : Nat) : (s.logRm c y u d o).sense = s.sense := rfl
@[simp] theorem State.logRm_bus (s : State) (c y : Nat) (u : U32) (d : List U32) (o : Nat) : (s.logRm c y u d o).bus = s.bus := rfl
@[simp] theorem State.logRm_upd (s : State) (c y : Nat) (u : U32) (d : List U32) (o : Nat) : (s.logRm c y u d o).upd = s.upd := rfl
@[simp] theorem State.logRm_hostMem (s : State) (c y : Nat) (u : U32) (d : List U32) (o : Nat) : (s.logRm c y u d o).hostMem = s.hostMem := rfl

/-! ### State.logIn -/

@[simp] theorem State.logIn_pending (s : State) (l : LaneId) (c y : Nat) (u : U32) (d : List U32) (o : Option Nat) : (s.logIn l c y u d o).pending = s.pending := by cases l <;> rfl
@[simp] theorem State.logIn_fresh (s : State) (l : LaneId) (c y : Nat) (u : U32) (d : List U32) (o : Option Nat) : (s.logIn l c y u d o).fresh = s.fresh := by cases l <;> rfl
@[simp] theorem State.logIn_power (s : State) (l : LaneId) (c y : Nat) (u : U32) (d : List U32) (o : Option Nat) : (s.logIn l c y u d o).power = s.power := by cases l <;> rfl
@[simp] theorem State.logIn_gen (s : State) (l : LaneId) (c y : Nat) (u : U32) (d : List U32) (o : Option Nat) : (s.logIn l c y u d o).gen = s.gen := by cases l <;> rfl
@[simp] theorem State.logIn_hif (s : State) (l : LaneId) (c y : Nat) (u : U32) (d : List U32) (o : Option Nat) : (s.logIn l c y u d o).hif = s.hif := by cases l <;> rfl
@[simp] theorem State.logIn_dport (s : State) (l : LaneId) (c y : Nat) (u : U32) (d : List U32) (o : Option Nat) : (s.logIn l c y u d o).dport = s.dport := by cases l <;> rfl
@[simp] theorem State.logIn_spdm (s : State) (l : LaneId) (c y : Nat) (u : U32) (d : List U32) (o : Option Nat) : (s.logIn l c y u d o).spdm = s.spdm := by cases l <;> rfl
@[simp] theorem State.logIn_proto (s : State) (l : LaneId) (c y : Nat) (u : U32) (d : List U32) (o : Option Nat) : (s.logIn l c y u d o).proto = s.proto := by cases l <;> rfl
@[simp] theorem State.logIn_tick (s : State) (l : LaneId) (c y : Nat) (u : U32) (d : List U32) (o : Option Nat) : (s.logIn l c y u d o).tick = s.tick := by cases l <;> rfl
@[simp] theorem State.logIn_mode (s : State) (l : LaneId) (c y : Nat) (u : U32) (d : List U32) (o : Option Nat) : (s.logIn l c y u d o).mode = s.mode := by cases l <;> rfl
@[simp] theorem State.logIn_laneCtl (s : State) (l : LaneId) (c y : Nat) (u : U32) (d : List U32) (o : Option Nat) : (s.logIn l c y u d o).laneCtl = s.laneCtl := by cases l <;> rfl
@[simp] theorem State.logIn_cfg (s : State) (l : LaneId) (c y : Nat) (u : U32) (d : List U32) (o : Option Nat) : (s.logIn l c y u d o).cfg = s.cfg := by cases l <;> rfl
@[simp] theorem State.logIn_due (s : State) (l : LaneId) (c y : Nat) (u : U32) (d : List U32) (o : Option Nat) : (s.logIn l c y u d o).due = s.due := by cases l <;> rfl
@[simp] theorem State.logIn_passDue (s : State) (l : LaneId) (c y : Nat) (u : U32) (d : List U32) (o : Option Nat) : (s.logIn l c y u d o).passDue = s.passDue := by cases l <;> rfl
@[simp] theorem State.logIn_govWait (s : State) (l : LaneId) (c y : Nat) (u : U32) (d : List U32) (o : Option Nat) : (s.logIn l c y u d o).govWait = s.govWait := by cases l <;> rfl
@[simp] theorem State.logIn_nor (s : State) (l : LaneId) (c y : Nat) (u : U32) (d : List U32) (o : Option Nat) : (s.logIn l c y u d o).nor = s.nor := by cases l <;> rfl
@[simp] theorem State.logIn_rel (s : State) (l : LaneId) (c y : Nat) (u : U32) (d : List U32) (o : Option Nat) : (s.logIn l c y u d o).rel = s.rel := by cases l <;> rfl
@[simp] theorem State.logIn_img (s : State) (l : LaneId) (c y : Nat) (u : U32) (d : List U32) (o : Option Nat) : (s.logIn l c y u d o).img = s.img := by cases l <;> rfl
@[simp] theorem State.logIn_tray (s : State) (l : LaneId) (c y : Nat) (u : U32) (d : List U32) (o : Option Nat) : (s.logIn l c y u d o).tray = s.tray := by cases l <;> rfl
@[simp] theorem State.logIn_cool (s : State) (l : LaneId) (c y : Nat) (u : U32) (d : List U32) (o : Option Nat) : (s.logIn l c y u d o).cool = s.cool := by cases l <;> rfl
@[simp] theorem State.logIn_motors (s : State) (l : LaneId) (c y : Nat) (u : U32) (d : List U32) (o : Option Nat) : (s.logIn l c y u d o).motors = s.motors := by cases l <;> rfl
@[simp] theorem State.logIn_valve (s : State) (l : LaneId) (c y : Nat) (u : U32) (d : List U32) (o : Option Nat) : (s.logIn l c y u d o).valve = s.valve := by cases l <;> rfl
@[simp] theorem State.logIn_sense (s : State) (l : LaneId) (c y : Nat) (u : U32) (d : List U32) (o : Option Nat) : (s.logIn l c y u d o).sense = s.sense := by cases l <;> rfl
@[simp] theorem State.logIn_bus (s : State) (l : LaneId) (c y : Nat) (u : U32) (d : List U32) (o : Option Nat) : (s.logIn l c y u d o).bus = s.bus := by cases l <;> rfl
@[simp] theorem State.logIn_evt (s : State) (l : LaneId) (c y : Nat) (u : U32) (d : List U32) (o : Option Nat) : (s.logIn l c y u d o).evt = s.evt := by cases l <;> rfl
@[simp] theorem State.logIn_upd (s : State) (l : LaneId) (c y : Nat) (u : U32) (d : List U32) (o : Option Nat) : (s.logIn l c y u d o).upd = s.upd := by cases l <;> rfl
@[simp] theorem State.logIn_hostMem (s : State) (l : LaneId) (c y : Nat) (u : U32) (d : List U32) (o : Option Nat) : (s.logIn l c y u d o).hostMem = s.hostMem := by cases l <;> rfl

/-! ### State.logLanes -/

@[simp] theorem State.logLanes_pending (s : State) (c y : Nat) (u : U32) (d : List U32) (o : Option Nat) : (s.logLanes c y u d o).pending = s.pending := by unfold State.logLanes; dsimp only; split <;> split <;> rfl
@[simp] theorem State.logLanes_fresh (s : State) (c y : Nat) (u : U32) (d : List U32) (o : Option Nat) : (s.logLanes c y u d o).fresh = s.fresh := by unfold State.logLanes; dsimp only; split <;> split <;> rfl
@[simp] theorem State.logLanes_power (s : State) (c y : Nat) (u : U32) (d : List U32) (o : Option Nat) : (s.logLanes c y u d o).power = s.power := by unfold State.logLanes; dsimp only; split <;> split <;> rfl
@[simp] theorem State.logLanes_gen (s : State) (c y : Nat) (u : U32) (d : List U32) (o : Option Nat) : (s.logLanes c y u d o).gen = s.gen := by unfold State.logLanes; dsimp only; split <;> split <;> rfl
@[simp] theorem State.logLanes_hif (s : State) (c y : Nat) (u : U32) (d : List U32) (o : Option Nat) : (s.logLanes c y u d o).hif = s.hif := by unfold State.logLanes; dsimp only; split <;> split <;> rfl
@[simp] theorem State.logLanes_dport (s : State) (c y : Nat) (u : U32) (d : List U32) (o : Option Nat) : (s.logLanes c y u d o).dport = s.dport := by unfold State.logLanes; dsimp only; split <;> split <;> rfl
@[simp] theorem State.logLanes_spdm (s : State) (c y : Nat) (u : U32) (d : List U32) (o : Option Nat) : (s.logLanes c y u d o).spdm = s.spdm := by unfold State.logLanes; dsimp only; split <;> split <;> rfl
@[simp] theorem State.logLanes_proto (s : State) (c y : Nat) (u : U32) (d : List U32) (o : Option Nat) : (s.logLanes c y u d o).proto = s.proto := by unfold State.logLanes; dsimp only; split <;> split <;> rfl
@[simp] theorem State.logLanes_tick (s : State) (c y : Nat) (u : U32) (d : List U32) (o : Option Nat) : (s.logLanes c y u d o).tick = s.tick := by unfold State.logLanes; dsimp only; split <;> split <;> rfl
@[simp] theorem State.logLanes_mode (s : State) (c y : Nat) (u : U32) (d : List U32) (o : Option Nat) : (s.logLanes c y u d o).mode = s.mode := by unfold State.logLanes; dsimp only; split <;> split <;> rfl
@[simp] theorem State.logLanes_laneCtl (s : State) (c y : Nat) (u : U32) (d : List U32) (o : Option Nat) : (s.logLanes c y u d o).laneCtl = s.laneCtl := by unfold State.logLanes; dsimp only; split <;> split <;> rfl
@[simp] theorem State.logLanes_cfg (s : State) (c y : Nat) (u : U32) (d : List U32) (o : Option Nat) : (s.logLanes c y u d o).cfg = s.cfg := by unfold State.logLanes; dsimp only; split <;> split <;> rfl
@[simp] theorem State.logLanes_due (s : State) (c y : Nat) (u : U32) (d : List U32) (o : Option Nat) : (s.logLanes c y u d o).due = s.due := by unfold State.logLanes; dsimp only; split <;> split <;> rfl
@[simp] theorem State.logLanes_passDue (s : State) (c y : Nat) (u : U32) (d : List U32) (o : Option Nat) : (s.logLanes c y u d o).passDue = s.passDue := by unfold State.logLanes; dsimp only; split <;> split <;> rfl
@[simp] theorem State.logLanes_govWait (s : State) (c y : Nat) (u : U32) (d : List U32) (o : Option Nat) : (s.logLanes c y u d o).govWait = s.govWait := by unfold State.logLanes; dsimp only; split <;> split <;> rfl
@[simp] theorem State.logLanes_nor (s : State) (c y : Nat) (u : U32) (d : List U32) (o : Option Nat) : (s.logLanes c y u d o).nor = s.nor := by unfold State.logLanes; dsimp only; split <;> split <;> rfl
@[simp] theorem State.logLanes_rel (s : State) (c y : Nat) (u : U32) (d : List U32) (o : Option Nat) : (s.logLanes c y u d o).rel = s.rel := by unfold State.logLanes; dsimp only; split <;> split <;> rfl
@[simp] theorem State.logLanes_img (s : State) (c y : Nat) (u : U32) (d : List U32) (o : Option Nat) : (s.logLanes c y u d o).img = s.img := by unfold State.logLanes; dsimp only; split <;> split <;> rfl
@[simp] theorem State.logLanes_tray (s : State) (c y : Nat) (u : U32) (d : List U32) (o : Option Nat) : (s.logLanes c y u d o).tray = s.tray := by unfold State.logLanes; dsimp only; split <;> split <;> rfl
@[simp] theorem State.logLanes_cool (s : State) (c y : Nat) (u : U32) (d : List U32) (o : Option Nat) : (s.logLanes c y u d o).cool = s.cool := by unfold State.logLanes; dsimp only; split <;> split <;> rfl
@[simp] theorem State.logLanes_motors (s : State) (c y : Nat) (u : U32) (d : List U32) (o : Option Nat) : (s.logLanes c y u d o).motors = s.motors := by unfold State.logLanes; dsimp only; split <;> split <;> rfl
@[simp] theorem State.logLanes_valve (s : State) (c y : Nat) (u : U32) (d : List U32) (o : Option Nat) : (s.logLanes c y u d o).valve = s.valve := by unfold State.logLanes; dsimp only; split <;> split <;> rfl
@[simp] theorem State.logLanes_sense (s : State) (c y : Nat) (u : U32) (d : List U32) (o : Option Nat) : (s.logLanes c y u d o).sense = s.sense := by unfold State.logLanes; dsimp only; split <;> split <;> rfl
@[simp] theorem State.logLanes_bus (s : State) (c y : Nat) (u : U32) (d : List U32) (o : Option Nat) : (s.logLanes c y u d o).bus = s.bus := by unfold State.logLanes; dsimp only; split <;> split <;> rfl
@[simp] theorem State.logLanes_evt (s : State) (c y : Nat) (u : U32) (d : List U32) (o : Option Nat) : (s.logLanes c y u d o).evt = s.evt := by unfold State.logLanes; dsimp only; split <;> split <;> rfl
@[simp] theorem State.logLanes_upd (s : State) (c y : Nat) (u : U32) (d : List U32) (o : Option Nat) : (s.logLanes c y u d o).upd = s.upd := by unfold State.logLanes; dsimp only; split <;> split <;> rfl
@[simp] theorem State.logLanes_hostMem (s : State) (c y : Nat) (u : U32) (d : List U32) (o : Option Nat) : (s.logLanes c y u d o).hostMem = s.hostMem := by unfold State.logLanes; dsimp only; split <;> split <;> rfl

/-! ### State.fire -/

@[simp] theorem State.fire_pending (s : State) (v : Nat) : (s.fire v).pending = s.pending := by unfold State.fire; repeat (first | rfl | split)
@[simp] theorem State.fire_fresh (s : State) (v : Nat) : (s.fire v).fresh = s.fresh := by unfold State.fire; repeat (first | rfl | split)
@[simp] theorem State.fire_power (s : State) (v : Nat) : (s.fire v).power = s.power := by unfold State.fire; repeat (first | rfl | split)
@[simp] theorem State.fire_gen (s : State) (v : Nat) : (s.fire v).gen = s.gen := by unfold State.fire; repeat (first | rfl | split)
@[simp] theorem State.fire_dport (s : State) (v : Nat) : (s.fire v).dport = s.dport := by unfold State.fire; repeat (first | rfl | split)
@[simp] theorem State.fire_spdm (s : State) (v : Nat) : (s.fire v).spdm = s.spdm := by unfold State.fire; repeat (first | rfl | split)
@[simp] theorem State.fire_proto (s : State) (v : Nat) : (s.fire v).proto = s.proto := by unfold State.fire; repeat (first | rfl | split)
@[simp] theorem State.fire_tick (s : State) (v : Nat) : (s.fire v).tick = s.tick := by unfold State.fire; repeat (first | rfl | split)
@[simp] theorem State.fire_mode (s : State) (v : Nat) : (s.fire v).mode = s.mode := by unfold State.fire; repeat (first | rfl | split)
@[simp] theorem State.fire_laneCtl (s : State) (v : Nat) : (s.fire v).laneCtl = s.laneCtl := by unfold State.fire; repeat (first | rfl | split)
@[simp] theorem State.fire_laneA (s : State) (v : Nat) : (s.fire v).laneA = s.laneA := by unfold State.fire; repeat (first | rfl | split)
@[simp] theorem State.fire_laneB (s : State) (v : Nat) : (s.fire v).laneB = s.laneB := by unfold State.fire; repeat (first | rfl | split)
@[simp] theorem State.fire_cfg (s : State) (v : Nat) : (s.fire v).cfg = s.cfg := by unfold State.fire; repeat (first | rfl | split)
@[simp] theorem State.fire_due (s : State) (v : Nat) : (s.fire v).due = s.due := by unfold State.fire; repeat (first | rfl | split)
@[simp] theorem State.fire_passDue (s : State) (v : Nat) : (s.fire v).passDue = s.passDue := by unfold State.fire; repeat (first | rfl | split)
@[simp] theorem State.fire_govWait (s : State) (v : Nat) : (s.fire v).govWait = s.govWait := by unfold State.fire; repeat (first | rfl | split)
@[simp] theorem State.fire_nor (s : State) (v : Nat) : (s.fire v).nor = s.nor := by unfold State.fire; repeat (first | rfl | split)
@[simp] theorem State.fire_rel (s : State) (v : Nat) : (s.fire v).rel = s.rel := by unfold State.fire; repeat (first | rfl | split)
@[simp] theorem State.fire_img (s : State) (v : Nat) : (s.fire v).img = s.img := by unfold State.fire; repeat (first | rfl | split)
@[simp] theorem State.fire_tray (s : State) (v : Nat) : (s.fire v).tray = s.tray := by unfold State.fire; repeat (first | rfl | split)
@[simp] theorem State.fire_cool (s : State) (v : Nat) : (s.fire v).cool = s.cool := by unfold State.fire; repeat (first | rfl | split)
@[simp] theorem State.fire_motors (s : State) (v : Nat) : (s.fire v).motors = s.motors := by unfold State.fire; repeat (first | rfl | split)
@[simp] theorem State.fire_valve (s : State) (v : Nat) : (s.fire v).valve = s.valve := by unfold State.fire; repeat (first | rfl | split)
@[simp] theorem State.fire_sense (s : State) (v : Nat) : (s.fire v).sense = s.sense := by unfold State.fire; repeat (first | rfl | split)
@[simp] theorem State.fire_bus (s : State) (v : Nat) : (s.fire v).bus = s.bus := by unfold State.fire; repeat (first | rfl | split)
@[simp] theorem State.fire_evt (s : State) (v : Nat) : (s.fire v).evt = s.evt := by unfold State.fire; repeat (first | rfl | split)
@[simp] theorem State.fire_upd (s : State) (v : Nat) : (s.fire v).upd = s.upd := by unfold State.fire; repeat (first | rfl | split)
@[simp] theorem State.fire_hostMem (s : State) (v : Nat) : (s.fire v).hostMem = s.hostMem := by unfold State.fire; repeat (first | rfl | split)

/-! ### State.setTickEvent -/

@[simp] theorem State.setTickEvent_pending (s : State) (m : U32) : (s.setTickEvent m).pending = s.pending := by unfold State.setTickEvent State.fireIfSet State.fire; repeat (first | rfl | split)
@[simp] theorem State.setTickEvent_fresh (s : State) (m : U32) : (s.setTickEvent m).fresh = s.fresh := by unfold State.setTickEvent State.fireIfSet State.fire; repeat (first | rfl | split)
@[simp] theorem State.setTickEvent_power (s : State) (m : U32) : (s.setTickEvent m).power = s.power := by unfold State.setTickEvent State.fireIfSet State.fire; repeat (first | rfl | split)
@[simp] theorem State.setTickEvent_gen (s : State) (m : U32) : (s.setTickEvent m).gen = s.gen := by unfold State.setTickEvent State.fireIfSet State.fire; repeat (first | rfl | split)
@[simp] theorem State.setTickEvent_dport (s : State) (m : U32) : (s.setTickEvent m).dport = s.dport := by unfold State.setTickEvent State.fireIfSet State.fire; repeat (first | rfl | split)
@[simp] theorem State.setTickEvent_spdm (s : State) (m : U32) : (s.setTickEvent m).spdm = s.spdm := by unfold State.setTickEvent State.fireIfSet State.fire; repeat (first | rfl | split)
@[simp] theorem State.setTickEvent_proto (s : State) (m : U32) : (s.setTickEvent m).proto = s.proto := by unfold State.setTickEvent State.fireIfSet State.fire; repeat (first | rfl | split)
@[simp] theorem State.setTickEvent_mode (s : State) (m : U32) : (s.setTickEvent m).mode = s.mode := by unfold State.setTickEvent State.fireIfSet State.fire; repeat (first | rfl | split)
@[simp] theorem State.setTickEvent_laneCtl (s : State) (m : U32) : (s.setTickEvent m).laneCtl = s.laneCtl := by unfold State.setTickEvent State.fireIfSet State.fire; repeat (first | rfl | split)
@[simp] theorem State.setTickEvent_laneA (s : State) (m : U32) : (s.setTickEvent m).laneA = s.laneA := by unfold State.setTickEvent State.fireIfSet State.fire; repeat (first | rfl | split)
@[simp] theorem State.setTickEvent_laneB (s : State) (m : U32) : (s.setTickEvent m).laneB = s.laneB := by unfold State.setTickEvent State.fireIfSet State.fire; repeat (first | rfl | split)
@[simp] theorem State.setTickEvent_cfg (s : State) (m : U32) : (s.setTickEvent m).cfg = s.cfg := by unfold State.setTickEvent State.fireIfSet State.fire; repeat (first | rfl | split)
@[simp] theorem State.setTickEvent_due (s : State) (m : U32) : (s.setTickEvent m).due = s.due := by unfold State.setTickEvent State.fireIfSet State.fire; repeat (first | rfl | split)
@[simp] theorem State.setTickEvent_passDue (s : State) (m : U32) : (s.setTickEvent m).passDue = s.passDue := by unfold State.setTickEvent State.fireIfSet State.fire; repeat (first | rfl | split)
@[simp] theorem State.setTickEvent_govWait (s : State) (m : U32) : (s.setTickEvent m).govWait = s.govWait := by unfold State.setTickEvent State.fireIfSet State.fire; repeat (first | rfl | split)
@[simp] theorem State.setTickEvent_nor (s : State) (m : U32) : (s.setTickEvent m).nor = s.nor := by unfold State.setTickEvent State.fireIfSet State.fire; repeat (first | rfl | split)
@[simp] theorem State.setTickEvent_rel (s : State) (m : U32) : (s.setTickEvent m).rel = s.rel := by unfold State.setTickEvent State.fireIfSet State.fire; repeat (first | rfl | split)
@[simp] theorem State.setTickEvent_img (s : State) (m : U32) : (s.setTickEvent m).img = s.img := by unfold State.setTickEvent State.fireIfSet State.fire; repeat (first | rfl | split)
@[simp] theorem State.setTickEvent_tray (s : State) (m : U32) : (s.setTickEvent m).tray = s.tray := by unfold State.setTickEvent State.fireIfSet State.fire; repeat (first | rfl | split)
@[simp] theorem State.setTickEvent_cool (s : State) (m : U32) : (s.setTickEvent m).cool = s.cool := by unfold State.setTickEvent State.fireIfSet State.fire; repeat (first | rfl | split)
@[simp] theorem State.setTickEvent_motors (s : State) (m : U32) : (s.setTickEvent m).motors = s.motors := by unfold State.setTickEvent State.fireIfSet State.fire; repeat (first | rfl | split)
@[simp] theorem State.setTickEvent_valve (s : State) (m : U32) : (s.setTickEvent m).valve = s.valve := by unfold State.setTickEvent State.fireIfSet State.fire; repeat (first | rfl | split)
@[simp] theorem State.setTickEvent_sense (s : State) (m : U32) : (s.setTickEvent m).sense = s.sense := by unfold State.setTickEvent State.fireIfSet State.fire; repeat (first | rfl | split)
@[simp] theorem State.setTickEvent_bus (s : State) (m : U32) : (s.setTickEvent m).bus = s.bus := by unfold State.setTickEvent State.fireIfSet State.fire; repeat (first | rfl | split)
@[simp] theorem State.setTickEvent_evt (s : State) (m : U32) : (s.setTickEvent m).evt = s.evt := by unfold State.setTickEvent State.fireIfSet State.fire; repeat (first | rfl | split)
@[simp] theorem State.setTickEvent_upd (s : State) (m : U32) : (s.setTickEvent m).upd = s.upd := by unfold State.setTickEvent State.fireIfSet State.fire; repeat (first | rfl | split)
@[simp] theorem State.setTickEvent_hostMem (s : State) (m : U32) : (s.setTickEvent m).hostMem = s.hostMem := by unfold State.setTickEvent State.fireIfSet State.fire; repeat (first | rfl | split)

/-! ### State.setLaneEvent -/

@[simp] theorem State.setLaneEvent_pending (s : State) (m : U32) : (s.setLaneEvent m).pending = s.pending := by unfold State.setLaneEvent State.fireIfSet State.fire; repeat (first | rfl | split)
@[simp] theorem State.setLaneEvent_fresh (s : State) (m : U32) : (s.setLaneEvent m).fresh = s.fresh := by unfold State.setLaneEvent State.fireIfSet State.fire; repeat (first | rfl | split)
@[simp] theorem State.setLaneEvent_power (s : State) (m : U32) : (s.setLaneEvent m).power = s.power := by unfold State.setLaneEvent State.fireIfSet State.fire; repeat (first | rfl | split)
@[simp] theorem State.setLaneEvent_gen (s : State) (m : U32) : (s.setLaneEvent m).gen = s.gen := by unfold State.setLaneEvent State.fireIfSet State.fire; repeat (first | rfl | split)
@[simp] theorem State.setLaneEvent_dport (s : State) (m : U32) : (s.setLaneEvent m).dport = s.dport := by unfold State.setLaneEvent State.fireIfSet State.fire; repeat (first | rfl | split)
@[simp] theorem State.setLaneEvent_spdm (s : State) (m : U32) : (s.setLaneEvent m).spdm = s.spdm := by unfold State.setLaneEvent State.fireIfSet State.fire; repeat (first | rfl | split)
@[simp] theorem State.setLaneEvent_proto (s : State) (m : U32) : (s.setLaneEvent m).proto = s.proto := by unfold State.setLaneEvent State.fireIfSet State.fire; repeat (first | rfl | split)
@[simp] theorem State.setLaneEvent_tick (s : State) (m : U32) : (s.setLaneEvent m).tick = s.tick := by unfold State.setLaneEvent State.fireIfSet State.fire; repeat (first | rfl | split)
@[simp] theorem State.setLaneEvent_mode (s : State) (m : U32) : (s.setLaneEvent m).mode = s.mode := by unfold State.setLaneEvent State.fireIfSet State.fire; repeat (first | rfl | split)
@[simp] theorem State.setLaneEvent_laneA (s : State) (m : U32) : (s.setLaneEvent m).laneA = s.laneA := by unfold State.setLaneEvent State.fireIfSet State.fire; repeat (first | rfl | split)
@[simp] theorem State.setLaneEvent_laneB (s : State) (m : U32) : (s.setLaneEvent m).laneB = s.laneB := by unfold State.setLaneEvent State.fireIfSet State.fire; repeat (first | rfl | split)
@[simp] theorem State.setLaneEvent_cfg (s : State) (m : U32) : (s.setLaneEvent m).cfg = s.cfg := by unfold State.setLaneEvent State.fireIfSet State.fire; repeat (first | rfl | split)
@[simp] theorem State.setLaneEvent_due (s : State) (m : U32) : (s.setLaneEvent m).due = s.due := by unfold State.setLaneEvent State.fireIfSet State.fire; repeat (first | rfl | split)
@[simp] theorem State.setLaneEvent_passDue (s : State) (m : U32) : (s.setLaneEvent m).passDue = s.passDue := by unfold State.setLaneEvent State.fireIfSet State.fire; repeat (first | rfl | split)
@[simp] theorem State.setLaneEvent_govWait (s : State) (m : U32) : (s.setLaneEvent m).govWait = s.govWait := by unfold State.setLaneEvent State.fireIfSet State.fire; repeat (first | rfl | split)
@[simp] theorem State.setLaneEvent_nor (s : State) (m : U32) : (s.setLaneEvent m).nor = s.nor := by unfold State.setLaneEvent State.fireIfSet State.fire; repeat (first | rfl | split)
@[simp] theorem State.setLaneEvent_rel (s : State) (m : U32) : (s.setLaneEvent m).rel = s.rel := by unfold State.setLaneEvent State.fireIfSet State.fire; repeat (first | rfl | split)
@[simp] theorem State.setLaneEvent_img (s : State) (m : U32) : (s.setLaneEvent m).img = s.img := by unfold State.setLaneEvent State.fireIfSet State.fire; repeat (first | rfl | split)
@[simp] theorem State.setLaneEvent_tray (s : State) (m : U32) : (s.setLaneEvent m).tray = s.tray := by unfold State.setLaneEvent State.fireIfSet State.fire; repeat (first | rfl | split)
@[simp] theorem State.setLaneEvent_cool (s : State) (m : U32) : (s.setLaneEvent m).cool = s.cool := by unfold State.setLaneEvent State.fireIfSet State.fire; repeat (first | rfl | split)
@[simp] theorem State.setLaneEvent_motors (s : State) (m : U32) : (s.setLaneEvent m).motors = s.motors := by unfold State.setLaneEvent State.fireIfSet State.fire; repeat (first | rfl | split)
@[simp] theorem State.setLaneEvent_valve (s : State) (m : U32) : (s.setLaneEvent m).valve = s.valve := by unfold State.setLaneEvent State.fireIfSet State.fire; repeat (first | rfl | split)
@[simp] theorem State.setLaneEvent_sense (s : State) (m : U32) : (s.setLaneEvent m).sense = s.sense := by unfold State.setLaneEvent State.fireIfSet State.fire; repeat (first | rfl | split)
@[simp] theorem State.setLaneEvent_bus (s : State) (m : U32) : (s.setLaneEvent m).bus = s.bus := by unfold State.setLaneEvent State.fireIfSet State.fire; repeat (first | rfl | split)
@[simp] theorem State.setLaneEvent_evt (s : State) (m : U32) : (s.setLaneEvent m).evt = s.evt := by unfold State.setLaneEvent State.fireIfSet State.fire; repeat (first | rfl | split)
@[simp] theorem State.setLaneEvent_upd (s : State) (m : U32) : (s.setLaneEvent m).upd = s.upd := by unfold State.setLaneEvent State.fireIfSet State.fire; repeat (first | rfl | split)
@[simp] theorem State.setLaneEvent_hostMem (s : State) (m : U32) : (s.setLaneEvent m).hostMem = s.hostMem := by unfold State.setLaneEvent State.fireIfSet State.fire; repeat (first | rfl | split)

/-! ### State.setModeEvent -/

@[simp] theorem State.setModeEvent_pending (s : State) (m : U32) : (s.setModeEvent m).pending = s.pending := by unfold State.setModeEvent State.fireIfSet State.fire; repeat (first | rfl | split)
@[simp] theorem State.setModeEvent_fresh (s : State) (m : U32) : (s.setModeEvent m).fresh = s.fresh := by unfold State.setModeEvent State.fireIfSet State.fire; repeat (first | rfl | split)
@[simp] theorem State.setModeEvent_power (s : State) (m : U32) : (s.setModeEvent m).power = s.power := by unfold State.setModeEvent State.fireIfSet State.fire; repeat (first | rfl | split)
@[simp] theorem State.setModeEvent_gen (s : State) (m : U32) : (s.setModeEvent m).gen = s.gen := by unfold State.setModeEvent State.fireIfSet State.fire; repeat (first | rfl | split)
@[simp] theorem State.setModeEvent_dport (s : State) (m : U32) : (s.setModeEvent m).dport = s.dport := by unfold State.setModeEvent State.fireIfSet State.fire; repeat (first | rfl | split)
@[simp] theorem State.setModeEvent_spdm (s : State) (m : U32) : (s.setModeEvent m).spdm = s.spdm := by unfold State.setModeEvent State.fireIfSet State.fire; repeat (first | rfl | split)
@[simp] theorem State.setModeEvent_proto (s : State) (m : U32) : (s.setModeEvent m).proto = s.proto := by unfold State.setModeEvent State.fireIfSet State.fire; repeat (first | rfl | split)
@[simp] theorem State.setModeEvent_tick (s : State) (m : U32) : (s.setModeEvent m).tick = s.tick := by unfold State.setModeEvent State.fireIfSet State.fire; repeat (first | rfl | split)
@[simp] theorem State.setModeEvent_laneCtl (s : State) (m : U32) : (s.setModeEvent m).laneCtl = s.laneCtl := by unfold State.setModeEvent State.fireIfSet State.fire; repeat (first | rfl | split)
@[simp] theorem State.setModeEvent_laneA (s : State) (m : U32) : (s.setModeEvent m).laneA = s.laneA := by unfold State.setModeEvent State.fireIfSet State.fire; repeat (first | rfl | split)
@[simp] theorem State.setModeEvent_laneB (s : State) (m : U32) : (s.setModeEvent m).laneB = s.laneB := by unfold State.setModeEvent State.fireIfSet State.fire; repeat (first | rfl | split)
@[simp] theorem State.setModeEvent_cfg (s : State) (m : U32) : (s.setModeEvent m).cfg = s.cfg := by unfold State.setModeEvent State.fireIfSet State.fire; repeat (first | rfl | split)
@[simp] theorem State.setModeEvent_due (s : State) (m : U32) : (s.setModeEvent m).due = s.due := by unfold State.setModeEvent State.fireIfSet State.fire; repeat (first | rfl | split)
@[simp] theorem State.setModeEvent_passDue (s : State) (m : U32) : (s.setModeEvent m).passDue = s.passDue := by unfold State.setModeEvent State.fireIfSet State.fire; repeat (first | rfl | split)
@[simp] theorem State.setModeEvent_govWait (s : State) (m : U32) : (s.setModeEvent m).govWait = s.govWait := by unfold State.setModeEvent State.fireIfSet State.fire; repeat (first | rfl | split)
@[simp] theorem State.setModeEvent_nor (s : State) (m : U32) : (s.setModeEvent m).nor = s.nor := by unfold State.setModeEvent State.fireIfSet State.fire; repeat (first | rfl | split)
@[simp] theorem State.setModeEvent_rel (s : State) (m : U32) : (s.setModeEvent m).rel = s.rel := by unfold State.setModeEvent State.fireIfSet State.fire; repeat (first | rfl | split)
@[simp] theorem State.setModeEvent_img (s : State) (m : U32) : (s.setModeEvent m).img = s.img := by unfold State.setModeEvent State.fireIfSet State.fire; repeat (first | rfl | split)
@[simp] theorem State.setModeEvent_tray (s : State) (m : U32) : (s.setModeEvent m).tray = s.tray := by unfold State.setModeEvent State.fireIfSet State.fire; repeat (first | rfl | split)
@[simp] theorem State.setModeEvent_cool (s : State) (m : U32) : (s.setModeEvent m).cool = s.cool := by unfold State.setModeEvent State.fireIfSet State.fire; repeat (first | rfl | split)
@[simp] theorem State.setModeEvent_motors (s : State) (m : U32) : (s.setModeEvent m).motors = s.motors := by unfold State.setModeEvent State.fireIfSet State.fire; repeat (first | rfl | split)
@[simp] theorem State.setModeEvent_valve (s : State) (m : U32) : (s.setModeEvent m).valve = s.valve := by unfold State.setModeEvent State.fireIfSet State.fire; repeat (first | rfl | split)
@[simp] theorem State.setModeEvent_sense (s : State) (m : U32) : (s.setModeEvent m).sense = s.sense := by unfold State.setModeEvent State.fireIfSet State.fire; repeat (first | rfl | split)
@[simp] theorem State.setModeEvent_bus (s : State) (m : U32) : (s.setModeEvent m).bus = s.bus := by unfold State.setModeEvent State.fireIfSet State.fire; repeat (first | rfl | split)
@[simp] theorem State.setModeEvent_evt (s : State) (m : U32) : (s.setModeEvent m).evt = s.evt := by unfold State.setModeEvent State.fireIfSet State.fire; repeat (first | rfl | split)
@[simp] theorem State.setModeEvent_upd (s : State) (m : U32) : (s.setModeEvent m).upd = s.upd := by unfold State.setModeEvent State.fireIfSet State.fire; repeat (first | rfl | split)
@[simp] theorem State.setModeEvent_hostMem (s : State) (m : U32) : (s.setModeEvent m).hostMem = s.hostMem := by unfold State.setModeEvent State.fireIfSet State.fire; repeat (first | rfl | split)

/-! ### State.setEvtEvent -/

@[simp] theorem State.setEvtEvent_pending (s : State) (m : U32) : (s.setEvtEvent m).pending = s.pending := by unfold State.setEvtEvent State.fireIfSet State.fire; repeat (first | rfl | split)
@[simp] theorem State.setEvtEvent_fresh (s : State) (m : U32) : (s.setEvtEvent m).fresh = s.fresh := by unfold State.setEvtEvent State.fireIfSet State.fire; repeat (first | rfl | split)
@[simp] theorem State.setEvtEvent_power (s : State) (m : U32) : (s.setEvtEvent m).power = s.power := by unfold State.setEvtEvent State.fireIfSet State.fire; repeat (first | rfl | split)
@[simp] theorem State.setEvtEvent_gen (s : State) (m : U32) : (s.setEvtEvent m).gen = s.gen := by unfold State.setEvtEvent State.fireIfSet State.fire; repeat (first | rfl | split)
@[simp] theorem State.setEvtEvent_dport (s : State) (m : U32) : (s.setEvtEvent m).dport = s.dport := by unfold State.setEvtEvent State.fireIfSet State.fire; repeat (first | rfl | split)
@[simp] theorem State.setEvtEvent_spdm (s : State) (m : U32) : (s.setEvtEvent m).spdm = s.spdm := by unfold State.setEvtEvent State.fireIfSet State.fire; repeat (first | rfl | split)
@[simp] theorem State.setEvtEvent_proto (s : State) (m : U32) : (s.setEvtEvent m).proto = s.proto := by unfold State.setEvtEvent State.fireIfSet State.fire; repeat (first | rfl | split)
@[simp] theorem State.setEvtEvent_tick (s : State) (m : U32) : (s.setEvtEvent m).tick = s.tick := by unfold State.setEvtEvent State.fireIfSet State.fire; repeat (first | rfl | split)
@[simp] theorem State.setEvtEvent_mode (s : State) (m : U32) : (s.setEvtEvent m).mode = s.mode := by unfold State.setEvtEvent State.fireIfSet State.fire; repeat (first | rfl | split)
@[simp] theorem State.setEvtEvent_laneCtl (s : State) (m : U32) : (s.setEvtEvent m).laneCtl = s.laneCtl := by unfold State.setEvtEvent State.fireIfSet State.fire; repeat (first | rfl | split)
@[simp] theorem State.setEvtEvent_laneA (s : State) (m : U32) : (s.setEvtEvent m).laneA = s.laneA := by unfold State.setEvtEvent State.fireIfSet State.fire; repeat (first | rfl | split)
@[simp] theorem State.setEvtEvent_laneB (s : State) (m : U32) : (s.setEvtEvent m).laneB = s.laneB := by unfold State.setEvtEvent State.fireIfSet State.fire; repeat (first | rfl | split)
@[simp] theorem State.setEvtEvent_cfg (s : State) (m : U32) : (s.setEvtEvent m).cfg = s.cfg := by unfold State.setEvtEvent State.fireIfSet State.fire; repeat (first | rfl | split)
@[simp] theorem State.setEvtEvent_due (s : State) (m : U32) : (s.setEvtEvent m).due = s.due := by unfold State.setEvtEvent State.fireIfSet State.fire; repeat (first | rfl | split)
@[simp] theorem State.setEvtEvent_passDue (s : State) (m : U32) : (s.setEvtEvent m).passDue = s.passDue := by unfold State.setEvtEvent State.fireIfSet State.fire; repeat (first | rfl | split)
@[simp] theorem State.setEvtEvent_govWait (s : State) (m : U32) : (s.setEvtEvent m).govWait = s.govWait := by unfold State.setEvtEvent State.fireIfSet State.fire; repeat (first | rfl | split)
@[simp] theorem State.setEvtEvent_nor (s : State) (m : U32) : (s.setEvtEvent m).nor = s.nor := by unfold State.setEvtEvent State.fireIfSet State.fire; repeat (first | rfl | split)
@[simp] theorem State.setEvtEvent_rel (s : State) (m : U32) : (s.setEvtEvent m).rel = s.rel := by unfold State.setEvtEvent State.fireIfSet State.fire; repeat (first | rfl | split)
@[simp] theorem State.setEvtEvent_img (s : State) (m : U32) : (s.setEvtEvent m).img = s.img := by unfold State.setEvtEvent State.fireIfSet State.fire; repeat (first | rfl | split)
@[simp] theorem State.setEvtEvent_tray (s : State) (m : U32) : (s.setEvtEvent m).tray = s.tray := by unfold State.setEvtEvent State.fireIfSet State.fire; repeat (first | rfl | split)
@[simp] theorem State.setEvtEvent_cool (s : State) (m : U32) : (s.setEvtEvent m).cool = s.cool := by unfold State.setEvtEvent State.fireIfSet State.fire; repeat (first | rfl | split)
@[simp] theorem State.setEvtEvent_motors (s : State) (m : U32) : (s.setEvtEvent m).motors = s.motors := by unfold State.setEvtEvent State.fireIfSet State.fire; repeat (first | rfl | split)
@[simp] theorem State.setEvtEvent_valve (s : State) (m : U32) : (s.setEvtEvent m).valve = s.valve := by unfold State.setEvtEvent State.fireIfSet State.fire; repeat (first | rfl | split)
@[simp] theorem State.setEvtEvent_sense (s : State) (m : U32) : (s.setEvtEvent m).sense = s.sense := by unfold State.setEvtEvent State.fireIfSet State.fire; repeat (first | rfl | split)
@[simp] theorem State.setEvtEvent_bus (s : State) (m : U32) : (s.setEvtEvent m).bus = s.bus := by unfold State.setEvtEvent State.fireIfSet State.fire; repeat (first | rfl | split)
@[simp] theorem State.setEvtEvent_upd (s : State) (m : U32) : (s.setEvtEvent m).upd = s.upd := by unfold State.setEvtEvent State.fireIfSet State.fire; repeat (first | rfl | split)
@[simp] theorem State.setEvtEvent_hostMem (s : State) (m : U32) : (s.setEvtEvent m).hostMem = s.hostMem := by unfold State.setEvtEvent State.fireIfSet State.fire; repeat (first | rfl | split)

/-! ### State.setUpdEvent -/

@[simp] theorem State.setUpdEvent_pending (s : State) (m : U32) : (s.setUpdEvent m).pending = s.pending := by unfold State.setUpdEvent State.fireIfSet State.fire; repeat (first | rfl | split)
@[simp] theorem State.setUpdEvent_fresh (s : State) (m : U32) : (s.setUpdEvent m).fresh = s.fresh := by unfold State.setUpdEvent State.fireIfSet State.fire; repeat (first | rfl | split)
@[simp] theorem State.setUpdEvent_power (s : State) (m : U32) : (s.setUpdEvent m).power = s.power := by unfold State.setUpdEvent State.fireIfSet State.fire; repeat (first | rfl | split)
@[simp] theorem State.setUpdEvent_gen (s : State) (m : U32) : (s.setUpdEvent m).gen = s.gen := by unfold State.setUpdEvent State.fireIfSet State.fire; repeat (first | rfl | split)
@[simp] theorem State.setUpdEvent_dport (s : State) (m : U32) : (s.setUpdEvent m).dport = s.dport := by unfold State.setUpdEvent State.fireIfSet State.fire; repeat (first | rfl | split)
@[simp] theorem State.setUpdEvent_spdm (s : State) (m : U32) : (s.setUpdEvent m).spdm = s.spdm := by unfold State.setUpdEvent State.fireIfSet State.fire; repeat (first | rfl | split)
@[simp] theorem State.setUpdEvent_proto (s : State) (m : U32) : (s.setUpdEvent m).proto = s.proto := by unfold State.setUpdEvent State.fireIfSet State.fire; repeat (first | rfl | split)
@[simp] theorem State.setUpdEvent_tick (s : State) (m : U32) : (s.setUpdEvent m).tick = s.tick := by unfold State.setUpdEvent State.fireIfSet State.fire; repeat (first | rfl | split)
@[simp] theorem State.setUpdEvent_mode (s : State) (m : U32) : (s.setUpdEvent m).mode = s.mode := by unfold State.setUpdEvent State.fireIfSet State.fire; repeat (first | rfl | split)
@[simp] theorem State.setUpdEvent_laneCtl (s : State) (m : U32) : (s.setUpdEvent m).laneCtl = s.laneCtl := by unfold State.setUpdEvent State.fireIfSet State.fire; repeat (first | rfl | split)
@[simp] theorem State.setUpdEvent_laneA (s : State) (m : U32) : (s.setUpdEvent m).laneA = s.laneA := by unfold State.setUpdEvent State.fireIfSet State.fire; repeat (first | rfl | split)
@[simp] theorem State.setUpdEvent_laneB (s : State) (m : U32) : (s.setUpdEvent m).laneB = s.laneB := by unfold State.setUpdEvent State.fireIfSet State.fire; repeat (first | rfl | split)
@[simp] theorem State.setUpdEvent_cfg (s : State) (m : U32) : (s.setUpdEvent m).cfg = s.cfg := by unfold State.setUpdEvent State.fireIfSet State.fire; repeat (first | rfl | split)
@[simp] theorem State.setUpdEvent_due (s : State) (m : U32) : (s.setUpdEvent m).due = s.due := by unfold State.setUpdEvent State.fireIfSet State.fire; repeat (first | rfl | split)
@[simp] theorem State.setUpdEvent_passDue (s : State) (m : U32) : (s.setUpdEvent m).passDue = s.passDue := by unfold State.setUpdEvent State.fireIfSet State.fire; repeat (first | rfl | split)
@[simp] theorem State.setUpdEvent_govWait (s : State) (m : U32) : (s.setUpdEvent m).govWait = s.govWait := by unfold State.setUpdEvent State.fireIfSet State.fire; repeat (first | rfl | split)
@[simp] theorem State.setUpdEvent_nor (s : State) (m : U32) : (s.setUpdEvent m).nor = s.nor := by unfold State.setUpdEvent State.fireIfSet State.fire; repeat (first | rfl | split)
@[simp] theorem State.setUpdEvent_rel (s : State) (m : U32) : (s.setUpdEvent m).rel = s.rel := by unfold State.setUpdEvent State.fireIfSet State.fire; repeat (first | rfl | split)
@[simp] theorem State.setUpdEvent_img (s : State) (m : U32) : (s.setUpdEvent m).img = s.img := by unfold State.setUpdEvent State.fireIfSet State.fire; repeat (first | rfl | split)
@[simp] theorem State.setUpdEvent_tray (s : State) (m : U32) : (s.setUpdEvent m).tray = s.tray := by unfold State.setUpdEvent State.fireIfSet State.fire; repeat (first | rfl | split)
@[simp] theorem State.setUpdEvent_cool (s : State) (m : U32) : (s.setUpdEvent m).cool = s.cool := by unfold State.setUpdEvent State.fireIfSet State.fire; repeat (first | rfl | split)
@[simp] theorem State.setUpdEvent_motors (s : State) (m : U32) : (s.setUpdEvent m).motors = s.motors := by unfold State.setUpdEvent State.fireIfSet State.fire; repeat (first | rfl | split)
@[simp] theorem State.setUpdEvent_valve (s : State) (m : U32) : (s.setUpdEvent m).valve = s.valve := by unfold State.setUpdEvent State.fireIfSet State.fire; repeat (first | rfl | split)
@[simp] theorem State.setUpdEvent_sense (s : State) (m : U32) : (s.setUpdEvent m).sense = s.sense := by unfold State.setUpdEvent State.fireIfSet State.fire; repeat (first | rfl | split)
@[simp] theorem State.setUpdEvent_bus (s : State) (m : U32) : (s.setUpdEvent m).bus = s.bus := by unfold State.setUpdEvent State.fireIfSet State.fire; repeat (first | rfl | split)
@[simp] theorem State.setUpdEvent_evt (s : State) (m : U32) : (s.setUpdEvent m).evt = s.evt := by unfold State.setUpdEvent State.fireIfSet State.fire; repeat (first | rfl | split)
@[simp] theorem State.setUpdEvent_hostMem (s : State) (m : U32) : (s.setUpdEvent m).hostMem = s.hostMem := by unfold State.setUpdEvent State.fireIfSet State.fire; repeat (first | rfl | split)

/-! ### State.setHifErr -/

@[simp] theorem State.setHifErr_pending (s : State) (m : U32) : (s.setHifErr m).pending = s.pending := by unfold State.setHifErr State.fireIfSet State.fire; repeat (first | rfl | split)
@[simp] theorem State.setHifErr_fresh (s : State) (m : U32) : (s.setHifErr m).fresh = s.fresh := by unfold State.setHifErr State.fireIfSet State.fire; repeat (first | rfl | split)
@[simp] theorem State.setHifErr_power (s : State) (m : U32) : (s.setHifErr m).power = s.power := by unfold State.setHifErr State.fireIfSet State.fire; repeat (first | rfl | split)
@[simp] theorem State.setHifErr_gen (s : State) (m : U32) : (s.setHifErr m).gen = s.gen := by unfold State.setHifErr State.fireIfSet State.fire; repeat (first | rfl | split)
@[simp] theorem State.setHifErr_dport (s : State) (m : U32) : (s.setHifErr m).dport = s.dport := by unfold State.setHifErr State.fireIfSet State.fire; repeat (first | rfl | split)
@[simp] theorem State.setHifErr_spdm (s : State) (m : U32) : (s.setHifErr m).spdm = s.spdm := by unfold State.setHifErr State.fireIfSet State.fire; repeat (first | rfl | split)
@[simp] theorem State.setHifErr_proto (s : State) (m : U32) : (s.setHifErr m).proto = s.proto := by unfold State.setHifErr State.fireIfSet State.fire; repeat (first | rfl | split)
@[simp] theorem State.setHifErr_tick (s : State) (m : U32) : (s.setHifErr m).tick = s.tick := by unfold State.setHifErr State.fireIfSet State.fire; repeat (first | rfl | split)
@[simp] theorem State.setHifErr_mode (s : State) (m : U32) : (s.setHifErr m).mode = s.mode := by unfold State.setHifErr State.fireIfSet State.fire; repeat (first | rfl | split)
@[simp] theorem State.setHifErr_laneCtl (s : State) (m : U32) : (s.setHifErr m).laneCtl = s.laneCtl := by unfold State.setHifErr State.fireIfSet State.fire; repeat (first | rfl | split)
@[simp] theorem State.setHifErr_laneA (s : State) (m : U32) : (s.setHifErr m).laneA = s.laneA := by unfold State.setHifErr State.fireIfSet State.fire; repeat (first | rfl | split)
@[simp] theorem State.setHifErr_laneB (s : State) (m : U32) : (s.setHifErr m).laneB = s.laneB := by unfold State.setHifErr State.fireIfSet State.fire; repeat (first | rfl | split)
@[simp] theorem State.setHifErr_cfg (s : State) (m : U32) : (s.setHifErr m).cfg = s.cfg := by unfold State.setHifErr State.fireIfSet State.fire; repeat (first | rfl | split)
@[simp] theorem State.setHifErr_due (s : State) (m : U32) : (s.setHifErr m).due = s.due := by unfold State.setHifErr State.fireIfSet State.fire; repeat (first | rfl | split)
@[simp] theorem State.setHifErr_passDue (s : State) (m : U32) : (s.setHifErr m).passDue = s.passDue := by unfold State.setHifErr State.fireIfSet State.fire; repeat (first | rfl | split)
@[simp] theorem State.setHifErr_govWait (s : State) (m : U32) : (s.setHifErr m).govWait = s.govWait := by unfold State.setHifErr State.fireIfSet State.fire; repeat (first | rfl | split)
@[simp] theorem State.setHifErr_nor (s : State) (m : U32) : (s.setHifErr m).nor = s.nor := by unfold State.setHifErr State.fireIfSet State.fire; repeat (first | rfl | split)
@[simp] theorem State.setHifErr_rel (s : State) (m : U32) : (s.setHifErr m).rel = s.rel := by unfold State.setHifErr State.fireIfSet State.fire; repeat (first | rfl | split)
@[simp] theorem State.setHifErr_img (s : State) (m : U32) : (s.setHifErr m).img = s.img := by unfold State.setHifErr State.fireIfSet State.fire; repeat (first | rfl | split)
@[simp] theorem State.setHifErr_tray (s : State) (m : U32) : (s.setHifErr m).tray = s.tray := by unfold State.setHifErr State.fireIfSet State.fire; repeat (first | rfl | split)
@[simp] theorem State.setHifErr_cool (s : State) (m : U32) : (s.setHifErr m).cool = s.cool := by unfold State.setHifErr State.fireIfSet State.fire; repeat (first | rfl | split)
@[simp] theorem State.setHifErr_motors (s : State) (m : U32) : (s.setHifErr m).motors = s.motors := by unfold State.setHifErr State.fireIfSet State.fire; repeat (first | rfl | split)
@[simp] theorem State.setHifErr_valve (s : State) (m : U32) : (s.setHifErr m).valve = s.valve := by unfold State.setHifErr State.fireIfSet State.fire; repeat (first | rfl | split)
@[simp] theorem State.setHifErr_sense (s : State) (m : U32) : (s.setHifErr m).sense = s.sense := by unfold State.setHifErr State.fireIfSet State.fire; repeat (first | rfl | split)
@[simp] theorem State.setHifErr_bus (s : State) (m : U32) : (s.setHifErr m).bus = s.bus := by unfold State.setHifErr State.fireIfSet State.fire; repeat (first | rfl | split)
@[simp] theorem State.setHifErr_evt (s : State) (m : U32) : (s.setHifErr m).evt = s.evt := by unfold State.setHifErr State.fireIfSet State.fire; repeat (first | rfl | split)
@[simp] theorem State.setHifErr_upd (s : State) (m : U32) : (s.setHifErr m).upd = s.upd := by unfold State.setHifErr State.fireIfSet State.fire; repeat (first | rfl | split)
@[simp] theorem State.setHifErr_hostMem (s : State) (m : U32) : (s.setHifErr m).hostMem = s.hostMem := by unfold State.setHifErr State.fireIfSet State.fire; repeat (first | rfl | split)

/-! ### State.apply -/

@[simp] theorem State.apply_pending (s : State) (l : List CfgItem) : (s.apply l).pending = s.pending := rfl
@[simp] theorem State.apply_fresh (s : State) (l : List CfgItem) : (s.apply l).fresh = s.fresh := rfl
@[simp] theorem State.apply_power (s : State) (l : List CfgItem) : (s.apply l).power = s.power := rfl
@[simp] theorem State.apply_gen (s : State) (l : List CfgItem) : (s.apply l).gen = s.gen := rfl
@[simp] theorem State.apply_hif (s : State) (l : List CfgItem) : (s.apply l).hif = s.hif := rfl
@[simp] theorem State.apply_dport (s : State) (l : List CfgItem) : (s.apply l).dport = s.dport := rfl
@[simp] theorem State.apply_spdm (s : State) (l : List CfgItem) : (s.apply l).spdm = s.spdm := rfl
@[simp] theorem State.apply_proto (s : State) (l : List CfgItem) : (s.apply l).proto = s.proto := rfl
@[simp] theorem State.apply_tick (s : State) (l : List CfgItem) : (s.apply l).tick = s.tick := rfl
@[simp] theorem State.apply_mode (s : State) (l : List CfgItem) : (s.apply l).mode = s.mode := rfl
@[simp] theorem State.apply_laneCtl (s : State) (l : List CfgItem) : (s.apply l).laneCtl = s.laneCtl := rfl
@[simp] theorem State.apply_laneA (s : State) (l : List CfgItem) : (s.apply l).laneA = s.laneA := rfl
@[simp] theorem State.apply_laneB (s : State) (l : List CfgItem) : (s.apply l).laneB = s.laneB := rfl
@[simp] theorem State.apply_due (s : State) (l : List CfgItem) : (s.apply l).due = s.due := rfl
@[simp] theorem State.apply_passDue (s : State) (l : List CfgItem) : (s.apply l).passDue = s.passDue := rfl
@[simp] theorem State.apply_govWait (s : State) (l : List CfgItem) : (s.apply l).govWait = s.govWait := rfl
@[simp] theorem State.apply_nor (s : State) (l : List CfgItem) : (s.apply l).nor = s.nor := rfl
@[simp] theorem State.apply_rel (s : State) (l : List CfgItem) : (s.apply l).rel = s.rel := rfl
@[simp] theorem State.apply_img (s : State) (l : List CfgItem) : (s.apply l).img = s.img := rfl
@[simp] theorem State.apply_tray (s : State) (l : List CfgItem) : (s.apply l).tray = s.tray := rfl
@[simp] theorem State.apply_cool (s : State) (l : List CfgItem) : (s.apply l).cool = s.cool := rfl
@[simp] theorem State.apply_motors (s : State) (l : List CfgItem) : (s.apply l).motors = s.motors := rfl
@[simp] theorem State.apply_valve (s : State) (l : List CfgItem) : (s.apply l).valve = s.valve := rfl
@[simp] theorem State.apply_sense (s : State) (l : List CfgItem) : (s.apply l).sense = s.sense := rfl
@[simp] theorem State.apply_bus (s : State) (l : List CfgItem) : (s.apply l).bus = s.bus := rfl
@[simp] theorem State.apply_evt (s : State) (l : List CfgItem) : (s.apply l).evt = s.evt := rfl
@[simp] theorem State.apply_upd (s : State) (l : List CfgItem) : (s.apply l).upd = s.upd := rfl
@[simp] theorem State.apply_hostMem (s : State) (l : List CfgItem) : (s.apply l).hostMem = s.hostMem := rfl

/-! ### State.toCopies -/

@[simp] theorem State.toCopies_pending (s : State) (f : Cfg → Cfg) : (s.toCopies f).pending = s.pending := rfl
@[simp] theorem State.toCopies_fresh (s : State) (f : Cfg → Cfg) : (s.toCopies f).fresh = s.fresh := rfl
@[simp] theorem State.toCopies_power (s : State) (f : Cfg → Cfg) : (s.toCopies f).power = s.power := rfl
@[simp] theorem State.toCopies_gen (s : State) (f : Cfg → Cfg) : (s.toCopies f).gen = s.gen := rfl
@[simp] theorem State.toCopies_hif (s : State) (f : Cfg → Cfg) : (s.toCopies f).hif = s.hif := rfl
@[simp] theorem State.toCopies_dport (s : State) (f : Cfg → Cfg) : (s.toCopies f).dport = s.dport := rfl
@[simp] theorem State.toCopies_spdm (s : State) (f : Cfg → Cfg) : (s.toCopies f).spdm = s.spdm := rfl
@[simp] theorem State.toCopies_proto (s : State) (f : Cfg → Cfg) : (s.toCopies f).proto = s.proto := rfl
@[simp] theorem State.toCopies_tick (s : State) (f : Cfg → Cfg) : (s.toCopies f).tick = s.tick := rfl
@[simp] theorem State.toCopies_mode (s : State) (f : Cfg → Cfg) : (s.toCopies f).mode = s.mode := rfl
@[simp] theorem State.toCopies_laneCtl (s : State) (f : Cfg → Cfg) : (s.toCopies f).laneCtl = s.laneCtl := rfl
@[simp] theorem State.toCopies_laneA (s : State) (f : Cfg → Cfg) : (s.toCopies f).laneA = s.laneA := rfl
@[simp] theorem State.toCopies_laneB (s : State) (f : Cfg → Cfg) : (s.toCopies f).laneB = s.laneB := rfl
@[simp] theorem State.toCopies_cfg (s : State) (f : Cfg → Cfg) : (s.toCopies f).cfg = s.cfg := rfl
@[simp] theorem State.toCopies_due (s : State) (f : Cfg → Cfg) : (s.toCopies f).due = s.due := rfl
@[simp] theorem State.toCopies_passDue (s : State) (f : Cfg → Cfg) : (s.toCopies f).passDue = s.passDue := rfl
@[simp] theorem State.toCopies_govWait (s : State) (f : Cfg → Cfg) : (s.toCopies f).govWait = s.govWait := rfl
@[simp] theorem State.toCopies_rel (s : State) (f : Cfg → Cfg) : (s.toCopies f).rel = s.rel := rfl
@[simp] theorem State.toCopies_img (s : State) (f : Cfg → Cfg) : (s.toCopies f).img = s.img := rfl
@[simp] theorem State.toCopies_tray (s : State) (f : Cfg → Cfg) : (s.toCopies f).tray = s.tray := rfl
@[simp] theorem State.toCopies_cool (s : State) (f : Cfg → Cfg) : (s.toCopies f).cool = s.cool := rfl
@[simp] theorem State.toCopies_motors (s : State) (f : Cfg → Cfg) : (s.toCopies f).motors = s.motors := rfl
@[simp] theorem State.toCopies_valve (s : State) (f : Cfg → Cfg) : (s.toCopies f).valve = s.valve := rfl
@[simp] theorem State.toCopies_sense (s : State) (f : Cfg → Cfg) : (s.toCopies f).sense = s.sense := rfl
@[simp] theorem State.toCopies_bus (s : State) (f : Cfg → Cfg) : (s.toCopies f).bus = s.bus := rfl
@[simp] theorem State.toCopies_evt (s : State) (f : Cfg → Cfg) : (s.toCopies f).evt = s.evt := rfl
@[simp] theorem State.toCopies_upd (s : State) (f : Cfg → Cfg) : (s.toCopies f).upd = s.upd := rfl
@[simp] theorem State.toCopies_hostMem (s : State) (f : Cfg → Cfg) : (s.toCopies f).hostMem = s.hostMem := rfl

/-! ### State.store -/

@[simp] theorem State.store_pending (s : State) (l : List CfgItem) : (s.store l).pending = s.pending := rfl
@[simp] theorem State.store_fresh (s : State) (l : List CfgItem) : (s.store l).fresh = s.fresh := rfl
@[simp] theorem State.store_power (s : State) (l : List CfgItem) : (s.store l).power = s.power := rfl
@[simp] theorem State.store_gen (s : State) (l : List CfgItem) : (s.store l).gen = s.gen := rfl
@[simp] theorem State.store_hif (s : State) (l : List CfgItem) : (s.store l).hif = s.hif := rfl
@[simp] theorem State.store_dport (s : State) (l : List CfgItem) : (s.store l).dport = s.dport := rfl
@[simp] theorem State.store_spdm (s : State) (l : List CfgItem) : (s.store l).spdm = s.spdm := rfl
@[simp] theorem State.store_proto (s : State) (l : List CfgItem) : (s.store l).proto = s.proto := rfl
@[simp] theorem State.store_tick (s : State) (l : List CfgItem) : (s.store l).tick = s.tick := rfl
@[simp] theorem State.store_mode (s : State) (l : List CfgItem) : (s.store l).mode = s.mode := rfl
@[simp] theorem State.store_laneCtl (s : State) (l : List CfgItem) : (s.store l).laneCtl = s.laneCtl := rfl
@[simp] theorem State.store_laneA (s : State) (l : List CfgItem) : (s.store l).laneA = s.laneA := rfl
@[simp] theorem State.store_laneB (s : State) (l : List CfgItem) : (s.store l).laneB = s.laneB := rfl
@[simp] theorem State.store_cfg (s : State) (l : List CfgItem) : (s.store l).cfg = s.cfg := rfl
@[simp] theorem State.store_due (s : State) (l : List CfgItem) : (s.store l).due = s.due := rfl
@[simp] theorem State.store_passDue (s : State) (l : List CfgItem) : (s.store l).passDue = s.passDue := rfl
@[simp] theorem State.store_govWait (s : State) (l : List CfgItem) : (s.store l).govWait = s.govWait := rfl
@[simp] theorem State.store_rel (s : State) (l : List CfgItem) : (s.store l).rel = s.rel := rfl
@[simp] theorem State.store_img (s : State) (l : List CfgItem) : (s.store l).img = s.img := rfl
@[simp] theorem State.store_tray (s : State) (l : List CfgItem) : (s.store l).tray = s.tray := rfl
@[simp] theorem State.store_cool (s : State) (l : List CfgItem) : (s.store l).cool = s.cool := rfl
@[simp] theorem State.store_motors (s : State) (l : List CfgItem) : (s.store l).motors = s.motors := rfl
@[simp] theorem State.store_valve (s : State) (l : List CfgItem) : (s.store l).valve = s.valve := rfl
@[simp] theorem State.store_sense (s : State) (l : List CfgItem) : (s.store l).sense = s.sense := rfl
@[simp] theorem State.store_bus (s : State) (l : List CfgItem) : (s.store l).bus = s.bus := rfl
@[simp] theorem State.store_evt (s : State) (l : List CfgItem) : (s.store l).evt = s.evt := rfl
@[simp] theorem State.store_upd (s : State) (l : List CfgItem) : (s.store l).upd = s.upd := rfl
@[simp] theorem State.store_hostMem (s : State) (l : List CfgItem) : (s.store l).hostMem = s.hostMem := rfl

/-! ### State.applyStore -/

@[simp] theorem State.applyStore_pending (s : State) (l : List CfgItem) : (s.applyStore l).pending = s.pending := rfl
@[simp] theorem State.applyStore_fresh (s : State) (l : List CfgItem) : (s.applyStore l).fresh = s.fresh := rfl
@[simp] theorem State.applyStore_power (s : State) (l : List CfgItem) : (s.applyStore l).power = s.power := rfl
@[simp] theorem State.applyStore_gen (s : State) (l : List CfgItem) : (s.applyStore l).gen = s.gen := rfl
@[simp] theorem State.applyStore_hif (s : State) (l : List CfgItem) : (s.applyStore l).hif = s.hif := rfl
@[simp] theorem State.applyStore_dport (s : State) (l : List CfgItem) : (s.applyStore l).dport = s.dport := rfl
@[simp] theorem State.applyStore_spdm (s : State) (l : List CfgItem) : (s.applyStore l).spdm = s.spdm := rfl
@[simp] theorem State.applyStore_proto (s : State) (l : List CfgItem) : (s.applyStore l).proto = s.proto := rfl
@[simp] theorem State.applyStore_tick (s : State) (l : List CfgItem) : (s.applyStore l).tick = s.tick := rfl
@[simp] theorem State.applyStore_mode (s : State) (l : List CfgItem) : (s.applyStore l).mode = s.mode := rfl
@[simp] theorem State.applyStore_laneCtl (s : State) (l : List CfgItem) : (s.applyStore l).laneCtl = s.laneCtl := rfl
@[simp] theorem State.applyStore_laneA (s : State) (l : List CfgItem) : (s.applyStore l).laneA = s.laneA := rfl
@[simp] theorem State.applyStore_laneB (s : State) (l : List CfgItem) : (s.applyStore l).laneB = s.laneB := rfl
@[simp] theorem State.applyStore_due (s : State) (l : List CfgItem) : (s.applyStore l).due = s.due := rfl
@[simp] theorem State.applyStore_passDue (s : State) (l : List CfgItem) : (s.applyStore l).passDue = s.passDue := rfl
@[simp] theorem State.applyStore_govWait (s : State) (l : List CfgItem) : (s.applyStore l).govWait = s.govWait := rfl
@[simp] theorem State.applyStore_rel (s : State) (l : List CfgItem) : (s.applyStore l).rel = s.rel := rfl
@[simp] theorem State.applyStore_img (s : State) (l : List CfgItem) : (s.applyStore l).img = s.img := rfl
@[simp] theorem State.applyStore_tray (s : State) (l : List CfgItem) : (s.applyStore l).tray = s.tray := rfl
@[simp] theorem State.applyStore_cool (s : State) (l : List CfgItem) : (s.applyStore l).cool = s.cool := rfl
@[simp] theorem State.applyStore_motors (s : State) (l : List CfgItem) : (s.applyStore l).motors = s.motors := rfl
@[simp] theorem State.applyStore_valve (s : State) (l : List CfgItem) : (s.applyStore l).valve = s.valve := rfl
@[simp] theorem State.applyStore_sense (s : State) (l : List CfgItem) : (s.applyStore l).sense = s.sense := rfl
@[simp] theorem State.applyStore_bus (s : State) (l : List CfgItem) : (s.applyStore l).bus = s.bus := rfl
@[simp] theorem State.applyStore_evt (s : State) (l : List CfgItem) : (s.applyStore l).evt = s.evt := rfl
@[simp] theorem State.applyStore_upd (s : State) (l : List CfgItem) : (s.applyStore l).upd = s.upd := rfl
@[simp] theorem State.applyStore_hostMem (s : State) (l : List CfgItem) : (s.applyStore l).hostMem = s.hostMem := rfl

/-! ### State.cfgReg -/

@[simp] theorem State.cfgReg_pending (s : State) (f : Cfg → Cfg) : (s.cfgReg f).pending = s.pending := rfl
@[simp] theorem State.cfgReg_fresh (s : State) (f : Cfg → Cfg) : (s.cfgReg f).fresh = s.fresh := rfl
@[simp] theorem State.cfgReg_power (s : State) (f : Cfg → Cfg) : (s.cfgReg f).power = s.power := rfl
@[simp] theorem State.cfgReg_gen (s : State) (f : Cfg → Cfg) : (s.cfgReg f).gen = s.gen := rfl
@[simp] theorem State.cfgReg_hif (s : State) (f : Cfg → Cfg) : (s.cfgReg f).hif = s.hif := rfl
@[simp] theorem State.cfgReg_dport (s : State) (f : Cfg → Cfg) : (s.cfgReg f).dport = s.dport := rfl
@[simp] theorem State.cfgReg_spdm (s : State) (f : Cfg → Cfg) : (s.cfgReg f).spdm = s.spdm := rfl
@[simp] theorem State.cfgReg_proto (s : State) (f : Cfg → Cfg) : (s.cfgReg f).proto = s.proto := rfl
@[simp] theorem State.cfgReg_tick (s : State) (f : Cfg → Cfg) : (s.cfgReg f).tick = s.tick := rfl
@[simp] theorem State.cfgReg_mode (s : State) (f : Cfg → Cfg) : (s.cfgReg f).mode = s.mode := rfl
@[simp] theorem State.cfgReg_laneCtl (s : State) (f : Cfg → Cfg) : (s.cfgReg f).laneCtl = s.laneCtl := rfl
@[simp] theorem State.cfgReg_laneA (s : State) (f : Cfg → Cfg) : (s.cfgReg f).laneA = s.laneA := rfl
@[simp] theorem State.cfgReg_laneB (s : State) (f : Cfg → Cfg) : (s.cfgReg f).laneB = s.laneB := rfl
@[simp] theorem State.cfgReg_due (s : State) (f : Cfg → Cfg) : (s.cfgReg f).due = s.due := rfl
@[simp] theorem State.cfgReg_passDue (s : State) (f : Cfg → Cfg) : (s.cfgReg f).passDue = s.passDue := rfl
@[simp] theorem State.cfgReg_govWait (s : State) (f : Cfg → Cfg) : (s.cfgReg f).govWait = s.govWait := rfl
@[simp] theorem State.cfgReg_rel (s : State) (f : Cfg → Cfg) : (s.cfgReg f).rel = s.rel := rfl
@[simp] theorem State.cfgReg_img (s : State) (f : Cfg → Cfg) : (s.cfgReg f).img = s.img := rfl
@[simp] theorem State.cfgReg_tray (s : State) (f : Cfg → Cfg) : (s.cfgReg f).tray = s.tray := rfl
@[simp] theorem State.cfgReg_cool (s : State) (f : Cfg → Cfg) : (s.cfgReg f).cool = s.cool := rfl
@[simp] theorem State.cfgReg_motors (s : State) (f : Cfg → Cfg) : (s.cfgReg f).motors = s.motors := rfl
@[simp] theorem State.cfgReg_valve (s : State) (f : Cfg → Cfg) : (s.cfgReg f).valve = s.valve := rfl
@[simp] theorem State.cfgReg_sense (s : State) (f : Cfg → Cfg) : (s.cfgReg f).sense = s.sense := rfl
@[simp] theorem State.cfgReg_bus (s : State) (f : Cfg → Cfg) : (s.cfgReg f).bus = s.bus := rfl
@[simp] theorem State.cfgReg_evt (s : State) (f : Cfg → Cfg) : (s.cfgReg f).evt = s.evt := rfl
@[simp] theorem State.cfgReg_upd (s : State) (f : Cfg → Cfg) : (s.cfgReg f).upd = s.upd := rfl
@[simp] theorem State.cfgReg_hostMem (s : State) (f : Cfg → Cfg) : (s.cfgReg f).hostMem = s.hostMem := rfl

/-! ### State.defer -/

@[simp] theorem State.defer_pending (s : State) (l : List CfgItem) : (s.defer l).pending = s.pending := rfl
@[simp] theorem State.defer_fresh (s : State) (l : List CfgItem) : (s.defer l).fresh = s.fresh := rfl
@[simp] theorem State.defer_power (s : State) (l : List CfgItem) : (s.defer l).power = s.power := rfl
@[simp] theorem State.defer_gen (s : State) (l : List CfgItem) : (s.defer l).gen = s.gen := rfl
@[simp] theorem State.defer_hif (s : State) (l : List CfgItem) : (s.defer l).hif = s.hif := rfl
@[simp] theorem State.defer_dport (s : State) (l : List CfgItem) : (s.defer l).dport = s.dport := rfl
@[simp] theorem State.defer_spdm (s : State) (l : List CfgItem) : (s.defer l).spdm = s.spdm := rfl
@[simp] theorem State.defer_proto (s : State) (l : List CfgItem) : (s.defer l).proto = s.proto := rfl
@[simp] theorem State.defer_tick (s : State) (l : List CfgItem) : (s.defer l).tick = s.tick := rfl
@[simp] theorem State.defer_mode (s : State) (l : List CfgItem) : (s.defer l).mode = s.mode := rfl
@[simp] theorem State.defer_laneCtl (s : State) (l : List CfgItem) : (s.defer l).laneCtl = s.laneCtl := rfl
@[simp] theorem State.defer_laneA (s : State) (l : List CfgItem) : (s.defer l).laneA = s.laneA := rfl
@[simp] theorem State.defer_laneB (s : State) (l : List CfgItem) : (s.defer l).laneB = s.laneB := rfl
@[simp] theorem State.defer_cfg (s : State) (l : List CfgItem) : (s.defer l).cfg = s.cfg := rfl
@[simp] theorem State.defer_passDue (s : State) (l : List CfgItem) : (s.defer l).passDue = s.passDue := rfl
@[simp] theorem State.defer_govWait (s : State) (l : List CfgItem) : (s.defer l).govWait = s.govWait := rfl
@[simp] theorem State.defer_nor (s : State) (l : List CfgItem) : (s.defer l).nor = s.nor := rfl
@[simp] theorem State.defer_rel (s : State) (l : List CfgItem) : (s.defer l).rel = s.rel := rfl
@[simp] theorem State.defer_img (s : State) (l : List CfgItem) : (s.defer l).img = s.img := rfl
@[simp] theorem State.defer_tray (s : State) (l : List CfgItem) : (s.defer l).tray = s.tray := rfl
@[simp] theorem State.defer_cool (s : State) (l : List CfgItem) : (s.defer l).cool = s.cool := rfl
@[simp] theorem State.defer_motors (s : State) (l : List CfgItem) : (s.defer l).motors = s.motors := rfl
@[simp] theorem State.defer_valve (s : State) (l : List CfgItem) : (s.defer l).valve = s.valve := rfl
@[simp] theorem State.defer_sense (s : State) (l : List CfgItem) : (s.defer l).sense = s.sense := rfl
@[simp] theorem State.defer_bus (s : State) (l : List CfgItem) : (s.defer l).bus = s.bus := rfl
@[simp] theorem State.defer_evt (s : State) (l : List CfgItem) : (s.defer l).evt = s.evt := rfl
@[simp] theorem State.defer_upd (s : State) (l : List CfgItem) : (s.defer l).upd = s.upd := rfl
@[simp] theorem State.defer_hostMem (s : State) (l : List CfgItem) : (s.defer l).hostMem = s.hostMem := rfl

/-! ### State.deferPass -/

@[simp] theorem State.deferPass_pending (s : State) (l : List CfgItem) : (s.deferPass l).pending = s.pending := rfl
@[simp] theorem State.deferPass_fresh (s : State) (l : List CfgItem) : (s.deferPass l).fresh = s.fresh := rfl
@[simp] theorem State.deferPass_power (s : State) (l : List CfgItem) : (s.deferPass l).power = s.power := rfl
@[simp] theorem State.deferPass_gen (s : State) (l : List CfgItem) : (s.deferPass l).gen = s.gen := rfl
@[simp] theorem State.deferPass_hif (s : State) (l : List CfgItem) : (s.deferPass l).hif = s.hif := rfl
@[simp] theorem State.deferPass_dport (s : State) (l : List CfgItem) : (s.deferPass l).dport = s.dport := rfl
@[simp] theorem State.deferPass_spdm (s : State) (l : List CfgItem) : (s.deferPass l).spdm = s.spdm := rfl
@[simp] theorem State.deferPass_proto (s : State) (l : List CfgItem) : (s.deferPass l).proto = s.proto := rfl
@[simp] theorem State.deferPass_tick (s : State) (l : List CfgItem) : (s.deferPass l).tick = s.tick := rfl
@[simp] theorem State.deferPass_mode (s : State) (l : List CfgItem) : (s.deferPass l).mode = s.mode := rfl
@[simp] theorem State.deferPass_laneCtl (s : State) (l : List CfgItem) : (s.deferPass l).laneCtl = s.laneCtl := rfl
@[simp] theorem State.deferPass_laneA (s : State) (l : List CfgItem) : (s.deferPass l).laneA = s.laneA := rfl
@[simp] theorem State.deferPass_laneB (s : State) (l : List CfgItem) : (s.deferPass l).laneB = s.laneB := rfl
@[simp] theorem State.deferPass_cfg (s : State) (l : List CfgItem) : (s.deferPass l).cfg = s.cfg := rfl
@[simp] theorem State.deferPass_due (s : State) (l : List CfgItem) : (s.deferPass l).due = s.due := rfl
@[simp] theorem State.deferPass_govWait (s : State) (l : List CfgItem) : (s.deferPass l).govWait = s.govWait := rfl
@[simp] theorem State.deferPass_nor (s : State) (l : List CfgItem) : (s.deferPass l).nor = s.nor := rfl
@[simp] theorem State.deferPass_rel (s : State) (l : List CfgItem) : (s.deferPass l).rel = s.rel := rfl
@[simp] theorem State.deferPass_img (s : State) (l : List CfgItem) : (s.deferPass l).img = s.img := rfl
@[simp] theorem State.deferPass_tray (s : State) (l : List CfgItem) : (s.deferPass l).tray = s.tray := rfl
@[simp] theorem State.deferPass_cool (s : State) (l : List CfgItem) : (s.deferPass l).cool = s.cool := rfl
@[simp] theorem State.deferPass_motors (s : State) (l : List CfgItem) : (s.deferPass l).motors = s.motors := rfl
@[simp] theorem State.deferPass_valve (s : State) (l : List CfgItem) : (s.deferPass l).valve = s.valve := rfl
@[simp] theorem State.deferPass_sense (s : State) (l : List CfgItem) : (s.deferPass l).sense = s.sense := rfl
@[simp] theorem State.deferPass_bus (s : State) (l : List CfgItem) : (s.deferPass l).bus = s.bus := rfl
@[simp] theorem State.deferPass_evt (s : State) (l : List CfgItem) : (s.deferPass l).evt = s.evt := rfl
@[simp] theorem State.deferPass_upd (s : State) (l : List CfgItem) : (s.deferPass l).upd = s.upd := rfl
@[simp] theorem State.deferPass_hostMem (s : State) (l : List CfgItem) : (s.deferPass l).hostMem = s.hostMem := rfl

/-! ### State.ready -/

@[simp] theorem State.ready_pending (s : State) (p : Packet) (e : Nat) (r : Reply) (b : Bool) : (s.ready p e r b).pending = s.pending := by unfold State.ready; split <;> rfl
@[simp] theorem State.ready_fresh (s : State) (p : Packet) (e : Nat) (r : Reply) (b : Bool) : (s.ready p e r b).fresh = s.fresh := by unfold State.ready; split <;> rfl
@[simp] theorem State.ready_power (s : State) (p : Packet) (e : Nat) (r : Reply) (b : Bool) : (s.ready p e r b).power = s.power := by unfold State.ready; split <;> rfl
@[simp] theorem State.ready_gen (s : State) (p : Packet) (e : Nat) (r : Reply) (b : Bool) : (s.ready p e r b).gen = s.gen := by unfold State.ready; split <;> rfl
@[simp] theorem State.ready_hif (s : State) (p : Packet) (e : Nat) (r : Reply) (b : Bool) : (s.ready p e r b).hif = s.hif := by unfold State.ready; split <;> rfl
@[simp] theorem State.ready_dport (s : State) (p : Packet) (e : Nat) (r : Reply) (b : Bool) : (s.ready p e r b).dport = s.dport := by unfold State.ready; split <;> rfl
@[simp] theorem State.ready_spdm (s : State) (p : Packet) (e : Nat) (r : Reply) (b : Bool) : (s.ready p e r b).spdm = s.spdm := by unfold State.ready; split <;> rfl
@[simp] theorem State.ready_tick (s : State) (p : Packet) (e : Nat) (r : Reply) (b : Bool) : (s.ready p e r b).tick = s.tick := by unfold State.ready; split <;> rfl
@[simp] theorem State.ready_mode (s : State) (p : Packet) (e : Nat) (r : Reply) (b : Bool) : (s.ready p e r b).mode = s.mode := by unfold State.ready; split <;> rfl
@[simp] theorem State.ready_laneCtl (s : State) (p : Packet) (e : Nat) (r : Reply) (b : Bool) : (s.ready p e r b).laneCtl = s.laneCtl := by unfold State.ready; split <;> rfl
@[simp] theorem State.ready_laneA (s : State) (p : Packet) (e : Nat) (r : Reply) (b : Bool) : (s.ready p e r b).laneA = s.laneA := by unfold State.ready; split <;> rfl
@[simp] theorem State.ready_laneB (s : State) (p : Packet) (e : Nat) (r : Reply) (b : Bool) : (s.ready p e r b).laneB = s.laneB := by unfold State.ready; split <;> rfl
@[simp] theorem State.ready_cfg (s : State) (p : Packet) (e : Nat) (r : Reply) (b : Bool) : (s.ready p e r b).cfg = s.cfg := by unfold State.ready; split <;> rfl
@[simp] theorem State.ready_due (s : State) (p : Packet) (e : Nat) (r : Reply) (b : Bool) : (s.ready p e r b).due = s.due := by unfold State.ready; split <;> rfl
@[simp] theorem State.ready_passDue (s : State) (p : Packet) (e : Nat) (r : Reply) (b : Bool) : (s.ready p e r b).passDue = s.passDue := by unfold State.ready; split <;> rfl
@[simp] theorem State.ready_govWait (s : State) (p : Packet) (e : Nat) (r : Reply) (b : Bool) : (s.ready p e r b).govWait = s.govWait := by unfold State.ready; split <;> rfl
@[simp] theorem State.ready_rel (s : State) (p : Packet) (e : Nat) (r : Reply) (b : Bool) : (s.ready p e r b).rel = s.rel := by unfold State.ready; split <;> rfl
@[simp] theorem State.ready_img (s : State) (p : Packet) (e : Nat) (r : Reply) (b : Bool) : (s.ready p e r b).img = s.img := by unfold State.ready; split <;> rfl
@[simp] theorem State.ready_tray (s : State) (p : Packet) (e : Nat) (r : Reply) (b : Bool) : (s.ready p e r b).tray = s.tray := by unfold State.ready; split <;> rfl
@[simp] theorem State.ready_cool (s : State) (p : Packet) (e : Nat) (r : Reply) (b : Bool) : (s.ready p e r b).cool = s.cool := by unfold State.ready; split <;> rfl
@[simp] theorem State.ready_motors (s : State) (p : Packet) (e : Nat) (r : Reply) (b : Bool) : (s.ready p e r b).motors = s.motors := by unfold State.ready; split <;> rfl
@[simp] theorem State.ready_valve (s : State) (p : Packet) (e : Nat) (r : Reply) (b : Bool) : (s.ready p e r b).valve = s.valve := by unfold State.ready; split <;> rfl
@[simp] theorem State.ready_sense (s : State) (p : Packet) (e : Nat) (r : Reply) (b : Bool) : (s.ready p e r b).sense = s.sense := by unfold State.ready; split <;> rfl
@[simp] theorem State.ready_bus (s : State) (p : Packet) (e : Nat) (r : Reply) (b : Bool) : (s.ready p e r b).bus = s.bus := by unfold State.ready; split <;> rfl
@[simp] theorem State.ready_upd (s : State) (p : Packet) (e : Nat) (r : Reply) (b : Bool) : (s.ready p e r b).upd = s.upd := by unfold State.ready; split <;> rfl
@[simp] theorem State.ready_hostMem (s : State) (p : Packet) (e : Nat) (r : Reply) (b : Bool) : (s.ready p e r b).hostMem = s.hostMem := by unfold State.ready; split <;> rfl

/-! ### State.hold -/

@[simp] theorem State.hold_pending (s : State) (p : Packet) (e : Nat) (r : Reply) : (s.hold p e r).pending = s.pending := rfl
@[simp] theorem State.hold_fresh (s : State) (p : Packet) (e : Nat) (r : Reply) : (s.hold p e r).fresh = s.fresh := rfl
@[simp] theorem State.hold_power (s : State) (p : Packet) (e : Nat) (r : Reply) : (s.hold p e r).power = s.power := rfl
@[simp] theorem State.hold_gen (s : State) (p : Packet) (e : Nat) (r : Reply) : (s.hold p e r).gen = s.gen := rfl
@[simp] theorem State.hold_hif (s : State) (p : Packet) (e : Nat) (r : Reply) : (s.hold p e r).hif = s.hif := rfl
@[simp] theorem State.hold_dport (s : State) (p : Packet) (e : Nat) (r : Reply) : (s.hold p e r).dport = s.dport := rfl
@[simp] theorem State.hold_spdm (s : State) (p : Packet) (e : Nat) (r : Reply) : (s.hold p e r).spdm = s.spdm := rfl
@[simp] theorem State.hold_tick (s : State) (p : Packet) (e : Nat) (r : Reply) : (s.hold p e r).tick = s.tick := rfl
@[simp] theorem State.hold_mode (s : State) (p : Packet) (e : Nat) (r : Reply) : (s.hold p e r).mode = s.mode := rfl
@[simp] theorem State.hold_laneCtl (s : State) (p : Packet) (e : Nat) (r : Reply) : (s.hold p e r).laneCtl = s.laneCtl := rfl
@[simp] theorem State.hold_laneA (s : State) (p : Packet) (e : Nat) (r : Reply) : (s.hold p e r).laneA = s.laneA := rfl
@[simp] theorem State.hold_laneB (s : State) (p : Packet) (e : Nat) (r : Reply) : (s.hold p e r).laneB = s.laneB := rfl
@[simp] theorem State.hold_cfg (s : State) (p : Packet) (e : Nat) (r : Reply) : (s.hold p e r).cfg = s.cfg := rfl
@[simp] theorem State.hold_due (s : State) (p : Packet) (e : Nat) (r : Reply) : (s.hold p e r).due = s.due := rfl
@[simp] theorem State.hold_passDue (s : State) (p : Packet) (e : Nat) (r : Reply) : (s.hold p e r).passDue = s.passDue := rfl
@[simp] theorem State.hold_govWait (s : State) (p : Packet) (e : Nat) (r : Reply) : (s.hold p e r).govWait = s.govWait := rfl
@[simp] theorem State.hold_nor (s : State) (p : Packet) (e : Nat) (r : Reply) : (s.hold p e r).nor = s.nor := rfl
@[simp] theorem State.hold_rel (s : State) (p : Packet) (e : Nat) (r : Reply) : (s.hold p e r).rel = s.rel := rfl
@[simp] theorem State.hold_img (s : State) (p : Packet) (e : Nat) (r : Reply) : (s.hold p e r).img = s.img := rfl
@[simp] theorem State.hold_tray (s : State) (p : Packet) (e : Nat) (r : Reply) : (s.hold p e r).tray = s.tray := rfl
@[simp] theorem State.hold_cool (s : State) (p : Packet) (e : Nat) (r : Reply) : (s.hold p e r).cool = s.cool := rfl
@[simp] theorem State.hold_motors (s : State) (p : Packet) (e : Nat) (r : Reply) : (s.hold p e r).motors = s.motors := rfl
@[simp] theorem State.hold_valve (s : State) (p : Packet) (e : Nat) (r : Reply) : (s.hold p e r).valve = s.valve := rfl
@[simp] theorem State.hold_sense (s : State) (p : Packet) (e : Nat) (r : Reply) : (s.hold p e r).sense = s.sense := rfl
@[simp] theorem State.hold_bus (s : State) (p : Packet) (e : Nat) (r : Reply) : (s.hold p e r).bus = s.bus := rfl
@[simp] theorem State.hold_evt (s : State) (p : Packet) (e : Nat) (r : Reply) : (s.hold p e r).evt = s.evt := rfl
@[simp] theorem State.hold_upd (s : State) (p : Packet) (e : Nat) (r : Reply) : (s.hold p e r).upd = s.upd := rfl
@[simp] theorem State.hold_hostMem (s : State) (p : Packet) (e : Nat) (r : Reply) : (s.hold p e r).hostMem = s.hostMem := rfl

/-! ### State.conclude -/

@[simp] theorem State.conclude_pending (s : State) (p : Packet) (e : Nat) (r : Reply) : (s.conclude p e r).pending = s.pending := by unfold State.conclude State.ready; repeat (first | rfl | split)
@[simp] theorem State.conclude_fresh (s : State) (p : Packet) (e : Nat) (r : Reply) : (s.conclude p e r).fresh = s.fresh := by unfold State.conclude State.ready; repeat (first | rfl | split)
@[simp] theorem State.conclude_power (s : State) (p : Packet) (e : Nat) (r : Reply) : (s.conclude p e r).power = s.power := by unfold State.conclude State.ready; repeat (first | rfl | split)
@[simp] theorem State.conclude_gen (s : State) (p : Packet) (e : Nat) (r : Reply) : (s.conclude p e r).gen = s.gen := by unfold State.conclude State.ready; repeat (first | rfl | split)
@[simp] theorem State.conclude_hif (s : State) (p : Packet) (e : Nat) (r : Reply) : (s.conclude p e r).hif = s.hif := by unfold State.conclude State.ready; repeat (first | rfl | split)
@[simp] theorem State.conclude_dport (s : State) (p : Packet) (e : Nat) (r : Reply) : (s.conclude p e r).dport = s.dport := by unfold State.conclude State.ready; repeat (first | rfl | split)
@[simp] theorem State.conclude_spdm (s : State) (p : Packet) (e : Nat) (r : Reply) : (s.conclude p e r).spdm = s.spdm := by unfold State.conclude State.ready; repeat (first | rfl | split)
@[simp] theorem State.conclude_tick (s : State) (p : Packet) (e : Nat) (r : Reply) : (s.conclude p e r).tick = s.tick := by unfold State.conclude State.ready; repeat (first | rfl | split)
@[simp] theorem State.conclude_mode (s : State) (p : Packet) (e : Nat) (r : Reply) : (s.conclude p e r).mode = s.mode := by unfold State.conclude State.ready; repeat (first | rfl | split)
@[simp] theorem State.conclude_laneCtl (s : State) (p : Packet) (e : Nat) (r : Reply) : (s.conclude p e r).laneCtl = s.laneCtl := by unfold State.conclude State.ready; repeat (first | rfl | split)
@[simp] theorem State.conclude_laneA (s : State) (p : Packet) (e : Nat) (r : Reply) : (s.conclude p e r).laneA = s.laneA := by unfold State.conclude State.ready; repeat (first | rfl | split)
@[simp] theorem State.conclude_laneB (s : State) (p : Packet) (e : Nat) (r : Reply) : (s.conclude p e r).laneB = s.laneB := by unfold State.conclude State.ready; repeat (first | rfl | split)
@[simp] theorem State.conclude_cfg (s : State) (p : Packet) (e : Nat) (r : Reply) : (s.conclude p e r).cfg = s.cfg := by unfold State.conclude State.ready; repeat (first | rfl | split)
@[simp] theorem State.conclude_due (s : State) (p : Packet) (e : Nat) (r : Reply) : (s.conclude p e r).due = s.due := by unfold State.conclude State.ready; repeat (first | rfl | split)
@[simp] theorem State.conclude_passDue (s : State) (p : Packet) (e : Nat) (r : Reply) : (s.conclude p e r).passDue = s.passDue := by unfold State.conclude State.ready; repeat (first | rfl | split)
@[simp] theorem State.conclude_govWait (s : State) (p : Packet) (e : Nat) (r : Reply) : (s.conclude p e r).govWait = s.govWait := by unfold State.conclude State.ready; repeat (first | rfl | split)
@[simp] theorem State.conclude_rel (s : State) (p : Packet) (e : Nat) (r : Reply) : (s.conclude p e r).rel = s.rel := by unfold State.conclude State.ready; repeat (first | rfl | split)
@[simp] theorem State.conclude_img (s : State) (p : Packet) (e : Nat) (r : Reply) : (s.conclude p e r).img = s.img := by unfold State.conclude State.ready; repeat (first | rfl | split)
@[simp] theorem State.conclude_tray (s : State) (p : Packet) (e : Nat) (r : Reply) : (s.conclude p e r).tray = s.tray := by unfold State.conclude State.ready; repeat (first | rfl | split)
@[simp] theorem State.conclude_cool (s : State) (p : Packet) (e : Nat) (r : Reply) : (s.conclude p e r).cool = s.cool := by unfold State.conclude State.ready; repeat (first | rfl | split)
@[simp] theorem State.conclude_motors (s : State) (p : Packet) (e : Nat) (r : Reply) : (s.conclude p e r).motors = s.motors := by unfold State.conclude State.ready; repeat (first | rfl | split)
@[simp] theorem State.conclude_valve (s : State) (p : Packet) (e : Nat) (r : Reply) : (s.conclude p e r).valve = s.valve := by unfold State.conclude State.ready; repeat (first | rfl | split)
@[simp] theorem State.conclude_sense (s : State) (p : Packet) (e : Nat) (r : Reply) : (s.conclude p e r).sense = s.sense := by unfold State.conclude State.ready; repeat (first | rfl | split)
@[simp] theorem State.conclude_bus (s : State) (p : Packet) (e : Nat) (r : Reply) : (s.conclude p e r).bus = s.bus := by unfold State.conclude State.ready; repeat (first | rfl | split)
@[simp] theorem State.conclude_upd (s : State) (p : Packet) (e : Nat) (r : Reply) : (s.conclude p e r).upd = s.upd := by unfold State.conclude State.ready; repeat (first | rfl | split)
@[simp] theorem State.conclude_hostMem (s : State) (p : Packet) (e : Nat) (r : Reply) : (s.conclude p e r).hostMem = s.hostMem := by unfold State.conclude State.ready; repeat (first | rfl | split)

/-! ### State.finish -/

@[simp] theorem State.finish_pending (s : State) (i : Nat) (r : Reply) : (s.finish i r).pending = s.pending := by unfold State.finish State.conclude State.ready; dsimp only; repeat (first | rfl | split)
@[simp] theorem State.finish_fresh (s : State) (i : Nat) (r : Reply) : (s.finish i r).fresh = s.fresh := by unfold State.finish State.conclude State.ready; dsimp only; repeat (first | rfl | split)
@[simp] theorem State.finish_power (s : State) (i : Nat) (r : Reply) : (s.finish i r).power = s.power := by unfold State.finish State.conclude State.ready; dsimp only; repeat (first | rfl | split)
@[simp] theorem State.finish_gen (s : State) (i : Nat) (r : Reply) : (s.finish i r).gen = s.gen := by unfold State.finish State.conclude State.ready; dsimp only; repeat (first | rfl | split)
@[simp] theorem State.finish_hif (s : State) (i : Nat) (r : Reply) : (s.finish i r).hif = s.hif := by unfold State.finish State.conclude State.ready; dsimp only; repeat (first | rfl | split)
@[simp] theorem State.finish_dport (s : State) (i : Nat) (r : Reply) : (s.finish i r).dport = s.dport := by unfold State.finish State.conclude State.ready; dsimp only; repeat (first | rfl | split)
@[simp] theorem State.finish_spdm (s : State) (i : Nat) (r : Reply) : (s.finish i r).spdm = s.spdm := by unfold State.finish State.conclude State.ready; dsimp only; repeat (first | rfl | split)
@[simp] theorem State.finish_tick (s : State) (i : Nat) (r : Reply) : (s.finish i r).tick = s.tick := by unfold State.finish State.conclude State.ready; dsimp only; repeat (first | rfl | split)
@[simp] theorem State.finish_mode (s : State) (i : Nat) (r : Reply) : (s.finish i r).mode = s.mode := by unfold State.finish State.conclude State.ready; dsimp only; repeat (first | rfl | split)
@[simp] theorem State.finish_laneCtl (s : State) (i : Nat) (r : Reply) : (s.finish i r).laneCtl = s.laneCtl := by unfold State.finish State.conclude State.ready; dsimp only; repeat (first | rfl | split)
@[simp] theorem State.finish_laneA (s : State) (i : Nat) (r : Reply) : (s.finish i r).laneA = s.laneA := by unfold State.finish State.conclude State.ready; dsimp only; repeat (first | rfl | split)
@[simp] theorem State.finish_laneB (s : State) (i : Nat) (r : Reply) : (s.finish i r).laneB = s.laneB := by unfold State.finish State.conclude State.ready; dsimp only; repeat (first | rfl | split)
@[simp] theorem State.finish_cfg (s : State) (i : Nat) (r : Reply) : (s.finish i r).cfg = s.cfg := by unfold State.finish State.conclude State.ready; dsimp only; repeat (first | rfl | split)
@[simp] theorem State.finish_due (s : State) (i : Nat) (r : Reply) : (s.finish i r).due = s.due := by unfold State.finish State.conclude State.ready; dsimp only; repeat (first | rfl | split)
@[simp] theorem State.finish_passDue (s : State) (i : Nat) (r : Reply) : (s.finish i r).passDue = s.passDue := by unfold State.finish State.conclude State.ready; dsimp only; repeat (first | rfl | split)
@[simp] theorem State.finish_govWait (s : State) (i : Nat) (r : Reply) : (s.finish i r).govWait = s.govWait := by unfold State.finish State.conclude State.ready; dsimp only; repeat (first | rfl | split)
@[simp] theorem State.finish_rel (s : State) (i : Nat) (r : Reply) : (s.finish i r).rel = s.rel := by unfold State.finish State.conclude State.ready; dsimp only; repeat (first | rfl | split)
@[simp] theorem State.finish_img (s : State) (i : Nat) (r : Reply) : (s.finish i r).img = s.img := by unfold State.finish State.conclude State.ready; dsimp only; repeat (first | rfl | split)
@[simp] theorem State.finish_tray (s : State) (i : Nat) (r : Reply) : (s.finish i r).tray = s.tray := by unfold State.finish State.conclude State.ready; dsimp only; repeat (first | rfl | split)
@[simp] theorem State.finish_cool (s : State) (i : Nat) (r : Reply) : (s.finish i r).cool = s.cool := by unfold State.finish State.conclude State.ready; dsimp only; repeat (first | rfl | split)
@[simp] theorem State.finish_motors (s : State) (i : Nat) (r : Reply) : (s.finish i r).motors = s.motors := by unfold State.finish State.conclude State.ready; dsimp only; repeat (first | rfl | split)
@[simp] theorem State.finish_valve (s : State) (i : Nat) (r : Reply) : (s.finish i r).valve = s.valve := by unfold State.finish State.conclude State.ready; dsimp only; repeat (first | rfl | split)
@[simp] theorem State.finish_sense (s : State) (i : Nat) (r : Reply) : (s.finish i r).sense = s.sense := by unfold State.finish State.conclude State.ready; dsimp only; repeat (first | rfl | split)
@[simp] theorem State.finish_bus (s : State) (i : Nat) (r : Reply) : (s.finish i r).bus = s.bus := by unfold State.finish State.conclude State.ready; dsimp only; repeat (first | rfl | split)
@[simp] theorem State.finish_upd (s : State) (i : Nat) (r : Reply) : (s.finish i r).upd = s.upd := by unfold State.finish State.conclude State.ready; dsimp only; repeat (first | rfl | split)
@[simp] theorem State.finish_hostMem (s : State) (i : Nat) (r : Reply) : (s.finish i r).hostMem = s.hostMem := by unfold State.finish State.conclude State.ready; dsimp only; repeat (first | rfl | split)

/-! ### State.writeTransfer -/

@[simp] theorem State.writeTransfer_pending (s : State) (a : Nat) (bs : List Byte) : (s.writeTransfer a bs).pending = s.pending := rfl
@[simp] theorem State.writeTransfer_fresh (s : State) (a : Nat) (bs : List Byte) : (s.writeTransfer a bs).fresh = s.fresh := rfl
@[simp] theorem State.writeTransfer_power (s : State) (a : Nat) (bs : List Byte) : (s.writeTransfer a bs).power = s.power := rfl
@[simp] theorem State.writeTransfer_gen (s : State) (a : Nat) (bs : List Byte) : (s.writeTransfer a bs).gen = s.gen := rfl
@[simp] theorem State.writeTransfer_hif (s : State) (a : Nat) (bs : List Byte) : (s.writeTransfer a bs).hif = s.hif := rfl
@[simp] theorem State.writeTransfer_dport (s : State) (a : Nat) (bs : List Byte) : (s.writeTransfer a bs).dport = s.dport := rfl
@[simp] theorem State.writeTransfer_spdm (s : State) (a : Nat) (bs : List Byte) : (s.writeTransfer a bs).spdm = s.spdm := rfl
@[simp] theorem State.writeTransfer_proto (s : State) (a : Nat) (bs : List Byte) : (s.writeTransfer a bs).proto = s.proto := rfl
@[simp] theorem State.writeTransfer_tick (s : State) (a : Nat) (bs : List Byte) : (s.writeTransfer a bs).tick = s.tick := rfl
@[simp] theorem State.writeTransfer_mode (s : State) (a : Nat) (bs : List Byte) : (s.writeTransfer a bs).mode = s.mode := rfl
@[simp] theorem State.writeTransfer_laneCtl (s : State) (a : Nat) (bs : List Byte) : (s.writeTransfer a bs).laneCtl = s.laneCtl := rfl
@[simp] theorem State.writeTransfer_cfg (s : State) (a : Nat) (bs : List Byte) : (s.writeTransfer a bs).cfg = s.cfg := rfl
@[simp] theorem State.writeTransfer_due (s : State) (a : Nat) (bs : List Byte) : (s.writeTransfer a bs).due = s.due := rfl
@[simp] theorem State.writeTransfer_passDue (s : State) (a : Nat) (bs : List Byte) : (s.writeTransfer a bs).passDue = s.passDue := rfl
@[simp] theorem State.writeTransfer_govWait (s : State) (a : Nat) (bs : List Byte) : (s.writeTransfer a bs).govWait = s.govWait := rfl
@[simp] theorem State.writeTransfer_nor (s : State) (a : Nat) (bs : List Byte) : (s.writeTransfer a bs).nor = s.nor := rfl
@[simp] theorem State.writeTransfer_rel (s : State) (a : Nat) (bs : List Byte) : (s.writeTransfer a bs).rel = s.rel := rfl
@[simp] theorem State.writeTransfer_img (s : State) (a : Nat) (bs : List Byte) : (s.writeTransfer a bs).img = s.img := rfl
@[simp] theorem State.writeTransfer_tray (s : State) (a : Nat) (bs : List Byte) : (s.writeTransfer a bs).tray = s.tray := rfl
@[simp] theorem State.writeTransfer_cool (s : State) (a : Nat) (bs : List Byte) : (s.writeTransfer a bs).cool = s.cool := rfl
@[simp] theorem State.writeTransfer_motors (s : State) (a : Nat) (bs : List Byte) : (s.writeTransfer a bs).motors = s.motors := rfl
@[simp] theorem State.writeTransfer_valve (s : State) (a : Nat) (bs : List Byte) : (s.writeTransfer a bs).valve = s.valve := rfl
@[simp] theorem State.writeTransfer_sense (s : State) (a : Nat) (bs : List Byte) : (s.writeTransfer a bs).sense = s.sense := rfl
@[simp] theorem State.writeTransfer_bus (s : State) (a : Nat) (bs : List Byte) : (s.writeTransfer a bs).bus = s.bus := rfl
@[simp] theorem State.writeTransfer_evt (s : State) (a : Nat) (bs : List Byte) : (s.writeTransfer a bs).evt = s.evt := rfl
@[simp] theorem State.writeTransfer_upd (s : State) (a : Nat) (bs : List Byte) : (s.writeTransfer a bs).upd = s.upd := rfl
@[simp] theorem State.writeTransfer_hostMem (s : State) (a : Nat) (bs : List Byte) : (s.writeTransfer a bs).hostMem = s.hostMem := rfl

/-! ### State.writeHost -/

@[simp] theorem State.writeHost_pending (s : State) (a : Nat) (bs : List Byte) : (s.writeHost a bs).pending = s.pending := rfl
@[simp] theorem State.writeHost_fresh (s : State) (a : Nat) (bs : List Byte) : (s.writeHost a bs).fresh = s.fresh := rfl
@[simp] theorem State.writeHost_power (s : State) (a : Nat) (bs : List Byte) : (s.writeHost a bs).power = s.power := rfl
@[simp] theorem State.writeHost_gen (s : State) (a : Nat) (bs : List Byte) : (s.writeHost a bs).gen = s.gen := rfl
@[simp] theorem State.writeHost_hif (s : State) (a : Nat) (bs : List Byte) : (s.writeHost a bs).hif = s.hif := rfl
@[simp] theorem State.writeHost_dport (s : State) (a : Nat) (bs : List Byte) : (s.writeHost a bs).dport = s.dport := rfl
@[simp] theorem State.writeHost_spdm (s : State) (a : Nat) (bs : List Byte) : (s.writeHost a bs).spdm = s.spdm := rfl
@[simp] theorem State.writeHost_proto (s : State) (a : Nat) (bs : List Byte) : (s.writeHost a bs).proto = s.proto := rfl
@[simp] theorem State.writeHost_tick (s : State) (a : Nat) (bs : List Byte) : (s.writeHost a bs).tick = s.tick := rfl
@[simp] theorem State.writeHost_mode (s : State) (a : Nat) (bs : List Byte) : (s.writeHost a bs).mode = s.mode := rfl
@[simp] theorem State.writeHost_laneCtl (s : State) (a : Nat) (bs : List Byte) : (s.writeHost a bs).laneCtl = s.laneCtl := rfl
@[simp] theorem State.writeHost_laneA (s : State) (a : Nat) (bs : List Byte) : (s.writeHost a bs).laneA = s.laneA := rfl
@[simp] theorem State.writeHost_laneB (s : State) (a : Nat) (bs : List Byte) : (s.writeHost a bs).laneB = s.laneB := rfl
@[simp] theorem State.writeHost_cfg (s : State) (a : Nat) (bs : List Byte) : (s.writeHost a bs).cfg = s.cfg := rfl
@[simp] theorem State.writeHost_due (s : State) (a : Nat) (bs : List Byte) : (s.writeHost a bs).due = s.due := rfl
@[simp] theorem State.writeHost_passDue (s : State) (a : Nat) (bs : List Byte) : (s.writeHost a bs).passDue = s.passDue := rfl
@[simp] theorem State.writeHost_govWait (s : State) (a : Nat) (bs : List Byte) : (s.writeHost a bs).govWait = s.govWait := rfl
@[simp] theorem State.writeHost_nor (s : State) (a : Nat) (bs : List Byte) : (s.writeHost a bs).nor = s.nor := rfl
@[simp] theorem State.writeHost_rel (s : State) (a : Nat) (bs : List Byte) : (s.writeHost a bs).rel = s.rel := rfl
@[simp] theorem State.writeHost_img (s : State) (a : Nat) (bs : List Byte) : (s.writeHost a bs).img = s.img := rfl
@[simp] theorem State.writeHost_tray (s : State) (a : Nat) (bs : List Byte) : (s.writeHost a bs).tray = s.tray := rfl
@[simp] theorem State.writeHost_cool (s : State) (a : Nat) (bs : List Byte) : (s.writeHost a bs).cool = s.cool := rfl
@[simp] theorem State.writeHost_motors (s : State) (a : Nat) (bs : List Byte) : (s.writeHost a bs).motors = s.motors := rfl
@[simp] theorem State.writeHost_valve (s : State) (a : Nat) (bs : List Byte) : (s.writeHost a bs).valve = s.valve := rfl
@[simp] theorem State.writeHost_sense (s : State) (a : Nat) (bs : List Byte) : (s.writeHost a bs).sense = s.sense := rfl
@[simp] theorem State.writeHost_bus (s : State) (a : Nat) (bs : List Byte) : (s.writeHost a bs).bus = s.bus := rfl
@[simp] theorem State.writeHost_evt (s : State) (a : Nat) (bs : List Byte) : (s.writeHost a bs).evt = s.evt := rfl
@[simp] theorem State.writeHost_upd (s : State) (a : Nat) (bs : List Byte) : (s.writeHost a bs).upd = s.upd := rfl

/-! ### State.dmaFault -/

@[simp] theorem State.dmaFault_pending (s : State) (q : Nat) : (s.dmaFault q).pending = s.pending := by unfold State.dmaFault State.setHifErr State.fireIfSet State.fire; repeat (first | rfl | split)
@[simp] theorem State.dmaFault_fresh (s : State) (q : Nat) : (s.dmaFault q).fresh = s.fresh := by unfold State.dmaFault State.setHifErr State.fireIfSet State.fire; repeat (first | rfl | split)
@[simp] theorem State.dmaFault_power (s : State) (q : Nat) : (s.dmaFault q).power = s.power := by unfold State.dmaFault State.setHifErr State.fireIfSet State.fire; repeat (first | rfl | split)
@[simp] theorem State.dmaFault_gen (s : State) (q : Nat) : (s.dmaFault q).gen = s.gen := by unfold State.dmaFault State.setHifErr State.fireIfSet State.fire; repeat (first | rfl | split)
@[simp] theorem State.dmaFault_dport (s : State) (q : Nat) : (s.dmaFault q).dport = s.dport := by unfold State.dmaFault State.setHifErr State.fireIfSet State.fire; repeat (first | rfl | split)
@[simp] theorem State.dmaFault_spdm (s : State) (q : Nat) : (s.dmaFault q).spdm = s.spdm := by unfold State.dmaFault State.setHifErr State.fireIfSet State.fire; repeat (first | rfl | split)
@[simp] theorem State.dmaFault_proto (s : State) (q : Nat) : (s.dmaFault q).proto = s.proto := by unfold State.dmaFault State.setHifErr State.fireIfSet State.fire; repeat (first | rfl | split)
@[simp] theorem State.dmaFault_tick (s : State) (q : Nat) : (s.dmaFault q).tick = s.tick := by unfold State.dmaFault State.setHifErr State.fireIfSet State.fire; repeat (first | rfl | split)
@[simp] theorem State.dmaFault_mode (s : State) (q : Nat) : (s.dmaFault q).mode = s.mode := by unfold State.dmaFault State.setHifErr State.fireIfSet State.fire; repeat (first | rfl | split)
@[simp] theorem State.dmaFault_laneCtl (s : State) (q : Nat) : (s.dmaFault q).laneCtl = s.laneCtl := by unfold State.dmaFault State.setHifErr State.fireIfSet State.fire; repeat (first | rfl | split)
@[simp] theorem State.dmaFault_laneA (s : State) (q : Nat) : (s.dmaFault q).laneA = s.laneA := by unfold State.dmaFault State.setHifErr State.fireIfSet State.fire; repeat (first | rfl | split)
@[simp] theorem State.dmaFault_laneB (s : State) (q : Nat) : (s.dmaFault q).laneB = s.laneB := by unfold State.dmaFault State.setHifErr State.fireIfSet State.fire; repeat (first | rfl | split)
@[simp] theorem State.dmaFault_cfg (s : State) (q : Nat) : (s.dmaFault q).cfg = s.cfg := by unfold State.dmaFault State.setHifErr State.fireIfSet State.fire; repeat (first | rfl | split)
@[simp] theorem State.dmaFault_due (s : State) (q : Nat) : (s.dmaFault q).due = s.due := by unfold State.dmaFault State.setHifErr State.fireIfSet State.fire; repeat (first | rfl | split)
@[simp] theorem State.dmaFault_passDue (s : State) (q : Nat) : (s.dmaFault q).passDue = s.passDue := by unfold State.dmaFault State.setHifErr State.fireIfSet State.fire; repeat (first | rfl | split)
@[simp] theorem State.dmaFault_govWait (s : State) (q : Nat) : (s.dmaFault q).govWait = s.govWait := by unfold State.dmaFault State.setHifErr State.fireIfSet State.fire; repeat (first | rfl | split)
@[simp] theorem State.dmaFault_nor (s : State) (q : Nat) : (s.dmaFault q).nor = s.nor := by unfold State.dmaFault State.setHifErr State.fireIfSet State.fire; repeat (first | rfl | split)
@[simp] theorem State.dmaFault_rel (s : State) (q : Nat) : (s.dmaFault q).rel = s.rel := by unfold State.dmaFault State.setHifErr State.fireIfSet State.fire; repeat (first | rfl | split)
@[simp] theorem State.dmaFault_img (s : State) (q : Nat) : (s.dmaFault q).img = s.img := by unfold State.dmaFault State.setHifErr State.fireIfSet State.fire; repeat (first | rfl | split)
@[simp] theorem State.dmaFault_tray (s : State) (q : Nat) : (s.dmaFault q).tray = s.tray := by unfold State.dmaFault State.setHifErr State.fireIfSet State.fire; repeat (first | rfl | split)
@[simp] theorem State.dmaFault_cool (s : State) (q : Nat) : (s.dmaFault q).cool = s.cool := by unfold State.dmaFault State.setHifErr State.fireIfSet State.fire; repeat (first | rfl | split)
@[simp] theorem State.dmaFault_motors (s : State) (q : Nat) : (s.dmaFault q).motors = s.motors := by unfold State.dmaFault State.setHifErr State.fireIfSet State.fire; repeat (first | rfl | split)
@[simp] theorem State.dmaFault_valve (s : State) (q : Nat) : (s.dmaFault q).valve = s.valve := by unfold State.dmaFault State.setHifErr State.fireIfSet State.fire; repeat (first | rfl | split)
@[simp] theorem State.dmaFault_sense (s : State) (q : Nat) : (s.dmaFault q).sense = s.sense := by unfold State.dmaFault State.setHifErr State.fireIfSet State.fire; repeat (first | rfl | split)
@[simp] theorem State.dmaFault_bus (s : State) (q : Nat) : (s.dmaFault q).bus = s.bus := by unfold State.dmaFault State.setHifErr State.fireIfSet State.fire; repeat (first | rfl | split)
@[simp] theorem State.dmaFault_evt (s : State) (q : Nat) : (s.dmaFault q).evt = s.evt := by unfold State.dmaFault State.setHifErr State.fireIfSet State.fire; repeat (first | rfl | split)
@[simp] theorem State.dmaFault_upd (s : State) (q : Nat) : (s.dmaFault q).upd = s.upd := by unfold State.dmaFault State.setHifErr State.fireIfSet State.fire; repeat (first | rfl | split)
@[simp] theorem State.dmaFault_hostMem (s : State) (q : Nat) : (s.dmaFault q).hostMem = s.hostMem := by unfold State.dmaFault State.setHifErr State.fireIfSet State.fire; repeat (first | rfl | split)

/-! ### State.onMotor -/

@[simp] theorem State.onMotor_pending (s : State) (n : Nat) (f : Motor → Motor) : (s.onMotor n f).pending = s.pending := rfl
@[simp] theorem State.onMotor_fresh (s : State) (n : Nat) (f : Motor → Motor) : (s.onMotor n f).fresh = s.fresh := rfl
@[simp] theorem State.onMotor_power (s : State) (n : Nat) (f : Motor → Motor) : (s.onMotor n f).power = s.power := rfl
@[simp] theorem State.onMotor_gen (s : State) (n : Nat) (f : Motor → Motor) : (s.onMotor n f).gen = s.gen := rfl
@[simp] theorem State.onMotor_hif (s : State) (n : Nat) (f : Motor → Motor) : (s.onMotor n f).hif = s.hif := rfl
@[simp] theorem State.onMotor_dport (s : State) (n : Nat) (f : Motor → Motor) : (s.onMotor n f).dport = s.dport := rfl
@[simp] theorem State.onMotor_spdm (s : State) (n : Nat) (f : Motor → Motor) : (s.onMotor n f).spdm = s.spdm := rfl
@[simp] theorem State.onMotor_proto (s : State) (n : Nat) (f : Motor → Motor) : (s.onMotor n f).proto = s.proto := rfl
@[simp] theorem State.onMotor_tick (s : State) (n : Nat) (f : Motor → Motor) : (s.onMotor n f).tick = s.tick := rfl
@[simp] theorem State.onMotor_mode (s : State) (n : Nat) (f : Motor → Motor) : (s.onMotor n f).mode = s.mode := rfl
@[simp] theorem State.onMotor_laneCtl (s : State) (n : Nat) (f : Motor → Motor) : (s.onMotor n f).laneCtl = s.laneCtl := rfl
@[simp] theorem State.onMotor_laneA (s : State) (n : Nat) (f : Motor → Motor) : (s.onMotor n f).laneA = s.laneA := rfl
@[simp] theorem State.onMotor_laneB (s : State) (n : Nat) (f : Motor → Motor) : (s.onMotor n f).laneB = s.laneB := rfl
@[simp] theorem State.onMotor_cfg (s : State) (n : Nat) (f : Motor → Motor) : (s.onMotor n f).cfg = s.cfg := rfl
@[simp] theorem State.onMotor_due (s : State) (n : Nat) (f : Motor → Motor) : (s.onMotor n f).due = s.due := rfl
@[simp] theorem State.onMotor_passDue (s : State) (n : Nat) (f : Motor → Motor) : (s.onMotor n f).passDue = s.passDue := rfl
@[simp] theorem State.onMotor_govWait (s : State) (n : Nat) (f : Motor → Motor) : (s.onMotor n f).govWait = s.govWait := rfl
@[simp] theorem State.onMotor_nor (s : State) (n : Nat) (f : Motor → Motor) : (s.onMotor n f).nor = s.nor := rfl
@[simp] theorem State.onMotor_rel (s : State) (n : Nat) (f : Motor → Motor) : (s.onMotor n f).rel = s.rel := rfl
@[simp] theorem State.onMotor_img (s : State) (n : Nat) (f : Motor → Motor) : (s.onMotor n f).img = s.img := rfl
@[simp] theorem State.onMotor_tray (s : State) (n : Nat) (f : Motor → Motor) : (s.onMotor n f).tray = s.tray := rfl
@[simp] theorem State.onMotor_cool (s : State) (n : Nat) (f : Motor → Motor) : (s.onMotor n f).cool = s.cool := rfl
@[simp] theorem State.onMotor_valve (s : State) (n : Nat) (f : Motor → Motor) : (s.onMotor n f).valve = s.valve := rfl
@[simp] theorem State.onMotor_sense (s : State) (n : Nat) (f : Motor → Motor) : (s.onMotor n f).sense = s.sense := rfl
@[simp] theorem State.onMotor_bus (s : State) (n : Nat) (f : Motor → Motor) : (s.onMotor n f).bus = s.bus := rfl
@[simp] theorem State.onMotor_evt (s : State) (n : Nat) (f : Motor → Motor) : (s.onMotor n f).evt = s.evt := rfl
@[simp] theorem State.onMotor_upd (s : State) (n : Nat) (f : Motor → Motor) : (s.onMotor n f).upd = s.upd := rfl
@[simp] theorem State.onMotor_hostMem (s : State) (n : Nat) (f : Motor → Motor) : (s.onMotor n f).hostMem = s.hostMem := rfl

/-! ### State.setPermit -/

@[simp] theorem State.setPermit_pending (s : State) (n : Nat) (on : Bool) : (s.setPermit n on).pending = s.pending := rfl
@[simp] theorem State.setPermit_fresh (s : State) (n : Nat) (on : Bool) : (s.setPermit n on).fresh = s.fresh := rfl
@[simp] theorem State.setPermit_power (s : State) (n : Nat) (on : Bool) : (s.setPermit n on).power = s.power := rfl
@[simp] theorem State.setPermit_gen (s : State) (n : Nat) (on : Bool) : (s.setPermit n on).gen = s.gen := rfl
@[simp] theorem State.setPermit_hif (s : State) (n : Nat) (on : Bool) : (s.setPermit n on).hif = s.hif := rfl
@[simp] theorem State.setPermit_dport (s : State) (n : Nat) (on : Bool) : (s.setPermit n on).dport = s.dport := rfl
@[simp] theorem State.setPermit_spdm (s : State) (n : Nat) (on : Bool) : (s.setPermit n on).spdm = s.spdm := rfl
@[simp] theorem State.setPermit_proto (s : State) (n : Nat) (on : Bool) : (s.setPermit n on).proto = s.proto := rfl
@[simp] theorem State.setPermit_tick (s : State) (n : Nat) (on : Bool) : (s.setPermit n on).tick = s.tick := rfl
@[simp] theorem State.setPermit_mode (s : State) (n : Nat) (on : Bool) : (s.setPermit n on).mode = s.mode := rfl
@[simp] theorem State.setPermit_laneCtl (s : State) (n : Nat) (on : Bool) : (s.setPermit n on).laneCtl = s.laneCtl := rfl
@[simp] theorem State.setPermit_laneA (s : State) (n : Nat) (on : Bool) : (s.setPermit n on).laneA = s.laneA := rfl
@[simp] theorem State.setPermit_laneB (s : State) (n : Nat) (on : Bool) : (s.setPermit n on).laneB = s.laneB := rfl
@[simp] theorem State.setPermit_cfg (s : State) (n : Nat) (on : Bool) : (s.setPermit n on).cfg = s.cfg := rfl
@[simp] theorem State.setPermit_due (s : State) (n : Nat) (on : Bool) : (s.setPermit n on).due = s.due := rfl
@[simp] theorem State.setPermit_passDue (s : State) (n : Nat) (on : Bool) : (s.setPermit n on).passDue = s.passDue := rfl
@[simp] theorem State.setPermit_govWait (s : State) (n : Nat) (on : Bool) : (s.setPermit n on).govWait = s.govWait := rfl
@[simp] theorem State.setPermit_nor (s : State) (n : Nat) (on : Bool) : (s.setPermit n on).nor = s.nor := rfl
@[simp] theorem State.setPermit_rel (s : State) (n : Nat) (on : Bool) : (s.setPermit n on).rel = s.rel := rfl
@[simp] theorem State.setPermit_img (s : State) (n : Nat) (on : Bool) : (s.setPermit n on).img = s.img := rfl
@[simp] theorem State.setPermit_tray (s : State) (n : Nat) (on : Bool) : (s.setPermit n on).tray = s.tray := rfl
@[simp] theorem State.setPermit_cool (s : State) (n : Nat) (on : Bool) : (s.setPermit n on).cool = s.cool := rfl
@[simp] theorem State.setPermit_valve (s : State) (n : Nat) (on : Bool) : (s.setPermit n on).valve = s.valve := rfl
@[simp] theorem State.setPermit_sense (s : State) (n : Nat) (on : Bool) : (s.setPermit n on).sense = s.sense := rfl
@[simp] theorem State.setPermit_bus (s : State) (n : Nat) (on : Bool) : (s.setPermit n on).bus = s.bus := rfl
@[simp] theorem State.setPermit_evt (s : State) (n : Nat) (on : Bool) : (s.setPermit n on).evt = s.evt := rfl
@[simp] theorem State.setPermit_upd (s : State) (n : Nat) (on : Bool) : (s.setPermit n on).upd = s.upd := rfl
@[simp] theorem State.setPermit_hostMem (s : State) (n : Nat) (on : Bool) : (s.setPermit n on).hostMem = s.hostMem := rfl

/-! ### State.onValve -/

@[simp] theorem State.onValve_pending (s : State) (n : Nat) (f : Valve → Valve) : (s.onValve n f).pending = s.pending := rfl
@[simp] theorem State.onValve_fresh (s : State) (n : Nat) (f : Valve → Valve) : (s.onValve n f).fresh = s.fresh := rfl
@[simp] theorem State.onValve_power (s : State) (n : Nat) (f : Valve → Valve) : (s.onValve n f).power = s.power := rfl
@[simp] theorem State.onValve_gen (s : State) (n : Nat) (f : Valve → Valve) : (s.onValve n f).gen = s.gen := rfl
@[simp] theorem State.onValve_hif (s : State) (n : Nat) (f : Valve → Valve) : (s.onValve n f).hif = s.hif := rfl
@[simp] theorem State.onValve_dport (s : State) (n : Nat) (f : Valve → Valve) : (s.onValve n f).dport = s.dport := rfl
@[simp] theorem State.onValve_spdm (s : State) (n : Nat) (f : Valve → Valve) : (s.onValve n f).spdm = s.spdm := rfl
@[simp] theorem State.onValve_proto (s : State) (n : Nat) (f : Valve → Valve) : (s.onValve n f).proto = s.proto := rfl
@[simp] theorem State.onValve_tick (s : State) (n : Nat) (f : Valve → Valve) : (s.onValve n f).tick = s.tick := rfl
@[simp] theorem State.onValve_mode (s : State) (n : Nat) (f : Valve → Valve) : (s.onValve n f).mode = s.mode := rfl
@[simp] theorem State.onValve_laneCtl (s : State) (n : Nat) (f : Valve → Valve) : (s.onValve n f).laneCtl = s.laneCtl := rfl
@[simp] theorem State.onValve_laneA (s : State) (n : Nat) (f : Valve → Valve) : (s.onValve n f).laneA = s.laneA := rfl
@[simp] theorem State.onValve_laneB (s : State) (n : Nat) (f : Valve → Valve) : (s.onValve n f).laneB = s.laneB := rfl
@[simp] theorem State.onValve_cfg (s : State) (n : Nat) (f : Valve → Valve) : (s.onValve n f).cfg = s.cfg := rfl
@[simp] theorem State.onValve_due (s : State) (n : Nat) (f : Valve → Valve) : (s.onValve n f).due = s.due := rfl
@[simp] theorem State.onValve_passDue (s : State) (n : Nat) (f : Valve → Valve) : (s.onValve n f).passDue = s.passDue := rfl
@[simp] theorem State.onValve_govWait (s : State) (n : Nat) (f : Valve → Valve) : (s.onValve n f).govWait = s.govWait := rfl
@[simp] theorem State.onValve_nor (s : State) (n : Nat) (f : Valve → Valve) : (s.onValve n f).nor = s.nor := rfl
@[simp] theorem State.onValve_rel (s : State) (n : Nat) (f : Valve → Valve) : (s.onValve n f).rel = s.rel := rfl
@[simp] theorem State.onValve_img (s : State) (n : Nat) (f : Valve → Valve) : (s.onValve n f).img = s.img := rfl
@[simp] theorem State.onValve_tray (s : State) (n : Nat) (f : Valve → Valve) : (s.onValve n f).tray = s.tray := rfl
@[simp] theorem State.onValve_cool (s : State) (n : Nat) (f : Valve → Valve) : (s.onValve n f).cool = s.cool := rfl
@[simp] theorem State.onValve_motors (s : State) (n : Nat) (f : Valve → Valve) : (s.onValve n f).motors = s.motors := rfl
@[simp] theorem State.onValve_sense (s : State) (n : Nat) (f : Valve → Valve) : (s.onValve n f).sense = s.sense := rfl
@[simp] theorem State.onValve_bus (s : State) (n : Nat) (f : Valve → Valve) : (s.onValve n f).bus = s.bus := rfl
@[simp] theorem State.onValve_evt (s : State) (n : Nat) (f : Valve → Valve) : (s.onValve n f).evt = s.evt := rfl
@[simp] theorem State.onValve_upd (s : State) (n : Nat) (f : Valve → Valve) : (s.onValve n f).upd = s.upd := rfl
@[simp] theorem State.onValve_hostMem (s : State) (n : Nat) (f : Valve → Valve) : (s.onValve n f).hostMem = s.hostMem := rfl

/-! ### State.onSupply -/

@[simp] theorem State.onSupply_pending (s : State) (n : Nat) (f : Supply → Supply) : (s.onSupply n f).pending = s.pending := rfl
@[simp] theorem State.onSupply_fresh (s : State) (n : Nat) (f : Supply → Supply) : (s.onSupply n f).fresh = s.fresh := rfl
@[simp] theorem State.onSupply_power (s : State) (n : Nat) (f : Supply → Supply) : (s.onSupply n f).power = s.power := rfl
@[simp] theorem State.onSupply_gen (s : State) (n : Nat) (f : Supply → Supply) : (s.onSupply n f).gen = s.gen := rfl
@[simp] theorem State.onSupply_hif (s : State) (n : Nat) (f : Supply → Supply) : (s.onSupply n f).hif = s.hif := rfl
@[simp] theorem State.onSupply_dport (s : State) (n : Nat) (f : Supply → Supply) : (s.onSupply n f).dport = s.dport := rfl
@[simp] theorem State.onSupply_spdm (s : State) (n : Nat) (f : Supply → Supply) : (s.onSupply n f).spdm = s.spdm := rfl
@[simp] theorem State.onSupply_proto (s : State) (n : Nat) (f : Supply → Supply) : (s.onSupply n f).proto = s.proto := rfl
@[simp] theorem State.onSupply_tick (s : State) (n : Nat) (f : Supply → Supply) : (s.onSupply n f).tick = s.tick := rfl
@[simp] theorem State.onSupply_mode (s : State) (n : Nat) (f : Supply → Supply) : (s.onSupply n f).mode = s.mode := rfl
@[simp] theorem State.onSupply_laneCtl (s : State) (n : Nat) (f : Supply → Supply) : (s.onSupply n f).laneCtl = s.laneCtl := rfl
@[simp] theorem State.onSupply_laneA (s : State) (n : Nat) (f : Supply → Supply) : (s.onSupply n f).laneA = s.laneA := rfl
@[simp] theorem State.onSupply_laneB (s : State) (n : Nat) (f : Supply → Supply) : (s.onSupply n f).laneB = s.laneB := rfl
@[simp] theorem State.onSupply_cfg (s : State) (n : Nat) (f : Supply → Supply) : (s.onSupply n f).cfg = s.cfg := rfl
@[simp] theorem State.onSupply_due (s : State) (n : Nat) (f : Supply → Supply) : (s.onSupply n f).due = s.due := rfl
@[simp] theorem State.onSupply_passDue (s : State) (n : Nat) (f : Supply → Supply) : (s.onSupply n f).passDue = s.passDue := rfl
@[simp] theorem State.onSupply_govWait (s : State) (n : Nat) (f : Supply → Supply) : (s.onSupply n f).govWait = s.govWait := rfl
@[simp] theorem State.onSupply_nor (s : State) (n : Nat) (f : Supply → Supply) : (s.onSupply n f).nor = s.nor := rfl
@[simp] theorem State.onSupply_rel (s : State) (n : Nat) (f : Supply → Supply) : (s.onSupply n f).rel = s.rel := rfl
@[simp] theorem State.onSupply_img (s : State) (n : Nat) (f : Supply → Supply) : (s.onSupply n f).img = s.img := rfl
@[simp] theorem State.onSupply_tray (s : State) (n : Nat) (f : Supply → Supply) : (s.onSupply n f).tray = s.tray := rfl
@[simp] theorem State.onSupply_cool (s : State) (n : Nat) (f : Supply → Supply) : (s.onSupply n f).cool = s.cool := rfl
@[simp] theorem State.onSupply_motors (s : State) (n : Nat) (f : Supply → Supply) : (s.onSupply n f).motors = s.motors := rfl
@[simp] theorem State.onSupply_sense (s : State) (n : Nat) (f : Supply → Supply) : (s.onSupply n f).sense = s.sense := rfl
@[simp] theorem State.onSupply_bus (s : State) (n : Nat) (f : Supply → Supply) : (s.onSupply n f).bus = s.bus := rfl
@[simp] theorem State.onSupply_evt (s : State) (n : Nat) (f : Supply → Supply) : (s.onSupply n f).evt = s.evt := rfl
@[simp] theorem State.onSupply_upd (s : State) (n : Nat) (f : Supply → Supply) : (s.onSupply n f).upd = s.upd := rfl
@[simp] theorem State.onSupply_hostMem (s : State) (n : Nat) (f : Supply → Supply) : (s.onSupply n f).hostMem = s.hostMem := rfl

/-! ### State.onRack -/

@[simp] theorem State.onRack_pending (s : State) (n : Nat) (f : RackDyn → RackDyn) : (s.onRack n f).pending = s.pending := rfl
@[simp] theorem State.onRack_fresh (s : State) (n : Nat) (f : RackDyn → RackDyn) : (s.onRack n f).fresh = s.fresh := rfl
@[simp] theorem State.onRack_power (s : State) (n : Nat) (f : RackDyn → RackDyn) : (s.onRack n f).power = s.power := rfl
@[simp] theorem State.onRack_gen (s : State) (n : Nat) (f : RackDyn → RackDyn) : (s.onRack n f).gen = s.gen := rfl
@[simp] theorem State.onRack_hif (s : State) (n : Nat) (f : RackDyn → RackDyn) : (s.onRack n f).hif = s.hif := rfl
@[simp] theorem State.onRack_dport (s : State) (n : Nat) (f : RackDyn → RackDyn) : (s.onRack n f).dport = s.dport := rfl
@[simp] theorem State.onRack_spdm (s : State) (n : Nat) (f : RackDyn → RackDyn) : (s.onRack n f).spdm = s.spdm := rfl
@[simp] theorem State.onRack_proto (s : State) (n : Nat) (f : RackDyn → RackDyn) : (s.onRack n f).proto = s.proto := rfl
@[simp] theorem State.onRack_tick (s : State) (n : Nat) (f : RackDyn → RackDyn) : (s.onRack n f).tick = s.tick := rfl
@[simp] theorem State.onRack_mode (s : State) (n : Nat) (f : RackDyn → RackDyn) : (s.onRack n f).mode = s.mode := rfl
@[simp] theorem State.onRack_laneCtl (s : State) (n : Nat) (f : RackDyn → RackDyn) : (s.onRack n f).laneCtl = s.laneCtl := rfl
@[simp] theorem State.onRack_laneA (s : State) (n : Nat) (f : RackDyn → RackDyn) : (s.onRack n f).laneA = s.laneA := rfl
@[simp] theorem State.onRack_laneB (s : State) (n : Nat) (f : RackDyn → RackDyn) : (s.onRack n f).laneB = s.laneB := rfl
@[simp] theorem State.onRack_cfg (s : State) (n : Nat) (f : RackDyn → RackDyn) : (s.onRack n f).cfg = s.cfg := rfl
@[simp] theorem State.onRack_due (s : State) (n : Nat) (f : RackDyn → RackDyn) : (s.onRack n f).due = s.due := rfl
@[simp] theorem State.onRack_passDue (s : State) (n : Nat) (f : RackDyn → RackDyn) : (s.onRack n f).passDue = s.passDue := rfl
@[simp] theorem State.onRack_govWait (s : State) (n : Nat) (f : RackDyn → RackDyn) : (s.onRack n f).govWait = s.govWait := rfl
@[simp] theorem State.onRack_nor (s : State) (n : Nat) (f : RackDyn → RackDyn) : (s.onRack n f).nor = s.nor := rfl
@[simp] theorem State.onRack_rel (s : State) (n : Nat) (f : RackDyn → RackDyn) : (s.onRack n f).rel = s.rel := rfl
@[simp] theorem State.onRack_img (s : State) (n : Nat) (f : RackDyn → RackDyn) : (s.onRack n f).img = s.img := rfl
@[simp] theorem State.onRack_tray (s : State) (n : Nat) (f : RackDyn → RackDyn) : (s.onRack n f).tray = s.tray := rfl
@[simp] theorem State.onRack_motors (s : State) (n : Nat) (f : RackDyn → RackDyn) : (s.onRack n f).motors = s.motors := rfl
@[simp] theorem State.onRack_valve (s : State) (n : Nat) (f : RackDyn → RackDyn) : (s.onRack n f).valve = s.valve := rfl
@[simp] theorem State.onRack_sense (s : State) (n : Nat) (f : RackDyn → RackDyn) : (s.onRack n f).sense = s.sense := rfl
@[simp] theorem State.onRack_bus (s : State) (n : Nat) (f : RackDyn → RackDyn) : (s.onRack n f).bus = s.bus := rfl
@[simp] theorem State.onRack_evt (s : State) (n : Nat) (f : RackDyn → RackDyn) : (s.onRack n f).evt = s.evt := rfl
@[simp] theorem State.onRack_upd (s : State) (n : Nat) (f : RackDyn → RackDyn) : (s.onRack n f).upd = s.upd := rfl
@[simp] theorem State.onRack_hostMem (s : State) (n : Nat) (f : RackDyn → RackDyn) : (s.onRack n f).hostMem = s.hostMem := rfl

/-! ### State.setCause -/

@[simp] theorem State.setCause_pending (s : State) (k c : Nat) (on : Bool) : (s.setCause k c on).pending = s.pending := rfl
@[simp] theorem State.setCause_fresh (s : State) (k c : Nat) (on : Bool) : (s.setCause k c on).fresh = s.fresh := rfl
@[simp] theorem State.setCause_power (s : State) (k c : Nat) (on : Bool) : (s.setCause k c on).power = s.power := rfl
@[simp] theorem State.setCause_gen (s : State) (k c : Nat) (on : Bool) : (s.setCause k c on).gen = s.gen := rfl
@[simp] theorem State.setCause_hif (s : State) (k c : Nat) (on : Bool) : (s.setCause k c on).hif = s.hif := rfl
@[simp] theorem State.setCause_dport (s : State) (k c : Nat) (on : Bool) : (s.setCause k c on).dport = s.dport := rfl
@[simp] theorem State.setCause_spdm (s : State) (k c : Nat) (on : Bool) : (s.setCause k c on).spdm = s.spdm := rfl
@[simp] theorem State.setCause_proto (s : State) (k c : Nat) (on : Bool) : (s.setCause k c on).proto = s.proto := rfl
@[simp] theorem State.setCause_tick (s : State) (k c : Nat) (on : Bool) : (s.setCause k c on).tick = s.tick := rfl
@[simp] theorem State.setCause_mode (s : State) (k c : Nat) (on : Bool) : (s.setCause k c on).mode = s.mode := rfl
@[simp] theorem State.setCause_laneCtl (s : State) (k c : Nat) (on : Bool) : (s.setCause k c on).laneCtl = s.laneCtl := rfl
@[simp] theorem State.setCause_laneA (s : State) (k c : Nat) (on : Bool) : (s.setCause k c on).laneA = s.laneA := rfl
@[simp] theorem State.setCause_laneB (s : State) (k c : Nat) (on : Bool) : (s.setCause k c on).laneB = s.laneB := rfl
@[simp] theorem State.setCause_cfg (s : State) (k c : Nat) (on : Bool) : (s.setCause k c on).cfg = s.cfg := rfl
@[simp] theorem State.setCause_due (s : State) (k c : Nat) (on : Bool) : (s.setCause k c on).due = s.due := rfl
@[simp] theorem State.setCause_passDue (s : State) (k c : Nat) (on : Bool) : (s.setCause k c on).passDue = s.passDue := rfl
@[simp] theorem State.setCause_govWait (s : State) (k c : Nat) (on : Bool) : (s.setCause k c on).govWait = s.govWait := rfl
@[simp] theorem State.setCause_nor (s : State) (k c : Nat) (on : Bool) : (s.setCause k c on).nor = s.nor := rfl
@[simp] theorem State.setCause_rel (s : State) (k c : Nat) (on : Bool) : (s.setCause k c on).rel = s.rel := rfl
@[simp] theorem State.setCause_img (s : State) (k c : Nat) (on : Bool) : (s.setCause k c on).img = s.img := rfl
@[simp] theorem State.setCause_cool (s : State) (k c : Nat) (on : Bool) : (s.setCause k c on).cool = s.cool := rfl
@[simp] theorem State.setCause_motors (s : State) (k c : Nat) (on : Bool) : (s.setCause k c on).motors = s.motors := rfl
@[simp] theorem State.setCause_valve (s : State) (k c : Nat) (on : Bool) : (s.setCause k c on).valve = s.valve := rfl
@[simp] theorem State.setCause_sense (s : State) (k c : Nat) (on : Bool) : (s.setCause k c on).sense = s.sense := rfl
@[simp] theorem State.setCause_bus (s : State) (k c : Nat) (on : Bool) : (s.setCause k c on).bus = s.bus := rfl
@[simp] theorem State.setCause_evt (s : State) (k c : Nat) (on : Bool) : (s.setCause k c on).evt = s.evt := rfl
@[simp] theorem State.setCause_upd (s : State) (k c : Nat) (on : Bool) : (s.setCause k c on).upd = s.upd := rfl
@[simp] theorem State.setCause_hostMem (s : State) (k c : Nat) (on : Bool) : (s.setCause k c on).hostMem = s.hostMem := rfl

/-! ### Lanes -/

@[simp] theorem State.lane_setLane_same (s : State) (l : LaneId) (x : Lane) : (s.setLane l x).lane l = x := by cases l <;> rfl
@[simp] theorem State.lane_setLane_other (s : State) (l : LaneId) (x : Lane) : (s.setLane l x).lane l.other = s.lane l.other := by
  cases l <;> rfl
@[simp] theorem State.lane_onLane_same (s : State) (l : LaneId) (f : Lane → Lane) : (s.onLane l f).lane l = f (s.lane l) := by
  cases l <;> rfl
@[simp] theorem State.lane_onLane_other (s : State) (l : LaneId) (f : Lane → Lane) : (s.onLane l f).lane l.other = s.lane l.other := by
  cases l <;> rfl

end Sys2Proof.Machine
end

