-- ==== Sys2Proof/Laws/Tab.lean ====
section
/-! SUPPORT. What the table and memory operations do: reading after writing, and the canonical form that every operation
keeps. -/

namespace Sys2Proof

variable {α : Type}

@[simp] theorem Tab.get_nil (d : α) (i : Nat) : Tab.get d [] i = d := rfl

@[simp] theorem Tab.erase_nil (i : Nat) : Tab.erase ([] : Tab α) i = [] := rfl

/-! ## Reading after writing -/

theorem Tab.get_erase (d : α) (t : Tab α) (i j : Nat) :
    Tab.get d (Tab.erase t i) j = if j = i then d else Tab.get d t j := by
  induction t with
  | nil => simp [Tab.get, Tab.erase]
  | cons e t ih =>
    obtain ⟨k, v⟩ := e
    by_cases hk : k = i
    · subst hk
      by_cases hj : j = k
      · subst hj; simpa [Tab.erase] using ih
      · simp [Tab.erase, ih, hj, Tab.get, Ne.symm hj]
    · by_cases hj : j = i
      · subst hj
        simp [Tab.erase, Tab.get, hk, ih]
      · simp only [Tab.erase, hk, if_false, Tab.get, ih, hj]

theorem Tab.get_insert (d v : α) (t : Tab α) (i j : Nat) :
    Tab.get d (Tab.insert (Tab.erase t i) i v) j = if j = i then v else Tab.get d t j := by
  induction t with
  | nil =>
    by_cases h : j = i
    · simp [Tab.erase, Tab.insert, Tab.get, h]
    · simp [Tab.erase, Tab.insert, Tab.get, h, Ne.symm h]
  | cons e t ih =>
    obtain ⟨k, w⟩ := e
    by_cases hk : k = i
    · subst hk
      simp only [Tab.erase, if_true, ih, Tab.get]
      by_cases hj : j = k
      · simp [hj]
      · simp [hj, Ne.symm hj]
    · by_cases hlt : i < k
      · simp only [Tab.erase, hk, if_false, Tab.insert, hlt, if_true, Tab.get, Tab.get_erase]
        by_cases hj : j = i
        · simp [hj]
        · simp [hj, Ne.symm hj]
      · simp only [Tab.erase, hk, if_false, Tab.insert, hlt, Tab.get, ih]
        by_cases hj : j = i
        · subst hj; simp [hk]
        · simp [hj]

variable [DecidableEq α]

/-- A read after a write: the value written at its index, every other entry as before. -/
theorem Tab.get_set (d v : α) (t : Tab α) (i j : Nat) :
    Tab.get d (Tab.set d t i v) j = if j = i then v else Tab.get d t j := by
  unfold Tab.set
  split
  · subst v; exact Tab.get_erase d t i j
  · exact Tab.get_insert d v t i j

@[simp] theorem Tab.get_set_same (d v : α) (t : Tab α) (i : Nat) : Tab.get d (Tab.set d t i v) i = v := by
  simp [Tab.get_set]

@[simp] theorem Tab.get_set_other (d v : α) (t : Tab α) {i j : Nat} (h : j ≠ i) :
    Tab.get d (Tab.set d t i v) j = Tab.get d t j := by
  simp [Tab.get_set, h]

theorem Tab.get_modify (d : α) (t : Tab α) (i j : Nat) (f : α → α) :
    Tab.get d (Tab.modify d t i f) j = if j = i then f (Tab.get d t i) else Tab.get d t j := by
  simp [Tab.modify, Tab.get_set]

@[simp] theorem Tab.get_modify_same (d : α) (t : Tab α) (i : Nat) (f : α → α) :
    Tab.get d (Tab.modify d t i f) i = f (Tab.get d t i) := by
  simp [Tab.modify]

@[simp] theorem Tab.get_modify_other (d : α) (t : Tab α) {i j : Nat} (f : α → α) (h : j ≠ i) :
    Tab.get d (Tab.modify d t i f) j = Tab.get d t j := by
  simp [Tab.modify, h]

/-! ## The canonical form -/

omit [DecidableEq α] in
theorem Tab.mem_erase {t : Tab α} {i : Nat} {e : Nat × α} : e ∈ Tab.erase t i ↔ e ∈ t ∧ e.1 ≠ i := by
  induction t with
  | nil => simp [Tab.erase]
  | cons x t ih =>
    obtain ⟨k, v⟩ := x
    by_cases hk : k = i
    · subst hk
      simp only [Tab.erase, if_true, ih, List.mem_cons]
      constructor
      · rintro ⟨h, n⟩; exact ⟨.inr h, n⟩
      · rintro ⟨rfl | h, n⟩
        · exact absurd rfl n
        · exact ⟨h, n⟩
    · simp only [Tab.erase, hk, if_false, List.mem_cons, ih]
      constructor
      · rintro (rfl | ⟨h, n⟩)
        · exact ⟨.inl rfl, hk⟩
        · exact ⟨.inr h, n⟩
      · rintro ⟨rfl | h, n⟩
        · exact .inl rfl
        · exact .inr ⟨h, n⟩

omit [DecidableEq α] in
theorem Tab.mem_insert {t : Tab α} {i : Nat} {v : α} {e : Nat × α} : e ∈ Tab.insert t i v ↔ e = (i, v) ∨ e ∈ t := by
  induction t with
  | nil => simp [Tab.insert]
  | cons x t ih =>
    obtain ⟨k, w⟩ := x
    by_cases hlt : i < k
    · simp [Tab.insert, hlt]
    · simp only [Tab.insert, hlt, if_false, List.mem_cons, ih]
      tauto

omit [DecidableEq α] in
theorem Tab.rising_erase {t : Tab α} (i : Nat) (h : t.Pairwise fun a b => a.1 < b.1) :
    (Tab.erase t i).Pairwise fun a b => a.1 < b.1 := by
  induction t with
  | nil => simp [Tab.erase]
  | cons x t ih =>
    obtain ⟨k, v⟩ := x
    rw [List.pairwise_cons] at h
    by_cases hk : k = i
    · simpa [Tab.erase, hk] using ih h.2
    · simp only [Tab.erase, hk, if_false, List.pairwise_cons]
      exact ⟨fun e he => h.1 e (Tab.mem_erase.1 he).1, ih h.2⟩

omit [DecidableEq α] in
theorem Tab.rising_insert {t : Tab α} {i : Nat} (v : α) (h : t.Pairwise fun a b => a.1 < b.1) (n : ∀ e ∈ t, e.1 ≠ i) :
    (Tab.insert t i v).Pairwise fun a b => a.1 < b.1 := by
  induction t with
  | nil => simp [Tab.insert]
  | cons x t ih =>
    obtain ⟨k, w⟩ := x
    rw [List.pairwise_cons] at h
    by_cases hlt : i < k
    · simp only [Tab.insert, hlt, if_true, List.pairwise_cons, List.mem_cons]
      refine ⟨?_, h.1, h.2⟩
      rintro e (rfl | he)
      · exact hlt
      · exact lt_trans hlt (h.1 e he)
    · have hki : k < i := lt_of_le_of_ne (not_lt.1 hlt) (n (k, w) (by simp))
      simp only [Tab.insert, hlt, if_false, List.pairwise_cons]
      refine ⟨fun e he => ?_, ih h.2 fun e he => n e (by simp [he])⟩
      rcases Tab.mem_insert.1 he with rfl | he
      · exact hki
      · exact h.1 e he

/-- The canonical form, said of the entries. -/
theorem Tab.wf_iff (d : α) (t : Tab α) :
    Tab.wf d t = true ↔ t.Pairwise (fun a b => a.1 < b.1) ∧ ∀ e ∈ t, e.2 ≠ d := by
  simp [Tab.wf, Tab.keys, List.pairwise_map, List.all_eq_true]

/-- A write keeps the canonical form. -/
theorem Tab.wf_set (d v : α) (t : Tab α) (i : Nat) (h : Tab.wf d t = true) : Tab.wf d (Tab.set d t i v) = true := by
  rw [Tab.wf_iff] at h ⊢
  unfold Tab.set
  split
  · exact ⟨Tab.rising_erase i h.1, fun e he => h.2 e (Tab.mem_erase.1 he).1⟩
  · rename_i hv
    refine ⟨Tab.rising_insert v (Tab.rising_erase i h.1) fun e he => (Tab.mem_erase.1 he).2, fun e he => ?_⟩
    rcases Tab.mem_insert.1 he with rfl | he
    · exact hv
    · exact h.2 e (Tab.mem_erase.1 he).1

theorem Tab.wf_modify (d : α) (t : Tab α) (i : Nat) (f : α → α) (h : Tab.wf d t = true) :
    Tab.wf d (Tab.modify d t i f) = true := Tab.wf_set d _ t i h

theorem Tab.wf_nil (d : α) : Tab.wf d ([] : Tab α) = true := by simp [Tab.wf, Tab.keys]

omit [DecidableEq α] in
theorem Tab.get_absent (d : α) {t : Tab α} {i : Nat} (h : ∀ e ∈ t, e.1 ≠ i) : Tab.get d t i = d := by
  induction t with
  | nil => rfl
  | cons x t ih =>
    obtain ⟨k, v⟩ := x
    simp only [Tab.get, h (k, v) (by simp), if_false]
    exact ih fun e he => h e (by simp [he])

/-- Canonical tables that read alike are equal. -/
theorem Tab.ext_get (d : α) {t u : Tab α} (ht : Tab.wf d t = true) (hu : Tab.wf d u = true)
    (h : ∀ i, Tab.get d t i = Tab.get d u i) : t = u := by
  rw [Tab.wf_iff] at ht hu
  induction t generalizing u with
  | nil =>
    cases u with
    | nil => rfl
    | cons y u =>
      have := h y.1
      simp [Tab.get] at this
      exact absurd this.symm (hu.2 y (by simp))
  | cons x t ih =>
    obtain ⟨hx, ht1⟩ := List.pairwise_cons.1 ht.1
    cases u with
    | nil =>
      have := h x.1
      simp [Tab.get] at this
      exact absurd this (ht.2 x (by simp))
    | cons y u =>
      obtain ⟨hy, hu1⟩ := List.pairwise_cons.1 hu.1
      obtain ⟨i, v⟩ := x
      obtain ⟨j, w⟩ := y
      have hij : i = j := by
        by_contra n
        rcases lt_or_gt_of_ne n with c | c
        · have e := h i
          simp only [Tab.get, if_true, Ne.symm n, if_false] at e
          rw [Tab.get_absent d fun q hq => ne_of_gt (lt_trans c (hy q hq))] at e
          exact ht.2 (i, v) (by simp) e
        · have e := h j
          simp only [Tab.get, if_true, n, if_false] at e
          rw [Tab.get_absent d fun q hq => ne_of_gt (lt_trans c (hx q hq))] at e
          exact hu.2 (j, w) (by simp) e.symm
      subst hij
      have hv : v = w := by simpa [Tab.get] using h i
      subst hv
      congr 1
      refine ih ⟨ht1, fun q hq => ht.2 q (by simp [hq])⟩ ⟨hu1, fun q hq => hu.2 q (by simp [hq])⟩ fun k => ?_
      by_cases hk : k = i
      · subst hk
        rw [Tab.get_absent d fun q hq => ne_of_gt (hx q hq), Tab.get_absent d fun q hq => ne_of_gt (hy q hq)]
      · simpa [Tab.get, Ne.symm hk] using h k

/-! ## Memory -/

theorem Mem.read_write (m : Mem) (a b : Nat) (v : Byte) :
    (m.write a v).read b = if b = a then v else m.read b := Tab.get_set 0 v m a b

theorem Mem.wf_write (m : Mem) (a : Nat) (v : Byte) (h : m.wf = true) : (m.write a v).wf = true := Tab.wf_set 0 v m a h

/-- Storing bytes keeps the canonical form. -/
theorem Mem.wf_writeBytes (bs : List Byte) (m : Mem) (a : Nat) (h : m.wf = true) : (m.writeBytes a bs).wf = true := by
  induction bs generalizing m a with
  | nil => exact h
  | cons b bs ih => exact ih _ _ (Mem.wf_write m a b h)

/-- After storing bytes, an address inside them reads its byte and every other address as before. -/
theorem Mem.read_writeBytes (bs : List Byte) (m : Mem) (a b : Nat) :
    (m.writeBytes a bs).read b = if a ≤ b ∧ b < a + bs.length then bs.getD (b - a) 0 else m.read b := by
  induction bs generalizing m a with
  | nil => simp [Mem.writeBytes]
  | cons x bs ih =>
    simp only [Mem.writeBytes, ih, Mem.read_write, List.length_cons]
    by_cases h1 : b = a
    · subst h1; simp
    · by_cases h2 : a + 1 ≤ b ∧ b < a + 1 + bs.length
      · have h3 : a ≤ b ∧ b < a + (bs.length + 1) := by omega
        obtain ⟨k, rfl⟩ : ∃ k, b = a + 1 + k := ⟨b - (a + 1), by omega⟩
        have e1 : a + 1 + k - (a + 1) = k := by omega
        have e2 : a + 1 + k - a = k + 1 := by omega
        rw [if_pos h2, if_pos h3, e1, e2]; rfl
      · have h3 : ¬ (a ≤ b ∧ b < a + (bs.length + 1)) := by omega
        rw [if_neg h2, if_neg h1, if_neg h3]

/-- Outside the bytes stored, memory reads as before. -/
theorem Mem.read_writeBytes_other (bs : List Byte) (m : Mem) (a b : Nat) (h : b < a ∨ a + bs.length ≤ b) :
    (m.writeBytes a bs).read b = m.read b := by
  rw [Mem.read_writeBytes, if_neg (by omega)]

/-- Memory made of bytes is canonical, and lists nothing below its first address. -/
theorem Mem.wf_ofBytes (bs : List Byte) (a : Nat) : (Mem.ofBytes a bs).wf = true ∧ ∀ e ∈ Mem.ofBytes a bs, a ≤ e.1 := by
  induction bs generalizing a with
  | nil => exact ⟨rfl, by simp [Mem.ofBytes]⟩
  | cons b bs ih =>
    obtain ⟨h1, h2⟩ := ih (a + 1)
    unfold Mem.ofBytes
    split
    · exact ⟨h1, fun e he => Nat.le_of_succ_le (h2 e he)⟩
    · rename_i hb
      refine ⟨?_, ?_⟩
      · unfold Mem.wf at h1 ⊢
        rw [Tab.wf_iff] at h1 ⊢
        exact ⟨List.pairwise_cons.2 ⟨fun e he => h2 e he, h1.1⟩, List.forall_mem_cons.2 ⟨hb, h1.2⟩⟩
      · intro e he
        rcases List.mem_cons.1 he with rfl | he
        · exact Nat.le_refl a
        · exact Nat.le_of_succ_le (h2 e he)

end Sys2Proof
end

