-- ==== Sys2Proof/Laws/Motors.lean ====
section
/-! SUPPORT. What the named operations on a motor channel change: its group's full speed, a permit, the swap of a failed lead. -/

namespace Sys2Proof.Machine

@[simp] theorem motor_onMotor_same (s : State) (n : Nat) (f : Motor → Motor) : (s.onMotor n f).motor n = f (s.motor n) := by
  simp [State.motor, State.onMotor]
theorem motor_onMotor_other (s : State) {n i : Nat} (f : Motor → Motor) (h : i ≠ n) : (s.onMotor n f).motor i = s.motor i := by
  simp [State.motor, State.onMotor, h]
theorem onlyMotor_onMotor (s : State) (n : Nat) (f : Motor → Motor) : OnlyMotor n s (s.onMotor n f) :=
  ⟨fun _ h => motor_onMotor_other s f h, rfl⟩
theorem onlyMotorLog_onMotor (s : State) (n : Nat) (f : Motor → Motor) (c y : Nat) (d : List U32) : OnlyMotorLog n s c y d ((s.onMotor n f).logRm c y (w32 n) d) :=
  ⟨fun _ h => motor_onMotor_other s f h, rfl⟩
@[simp] theorem motor_logRm (s : State) (c y : Nat) (u : U32) (d : List U32) (o n : Nat) : (s.logRm c y u d o).motor n = s.motor n := rfl
theorem setPermit_motor_other (s : State) {n i : Nat} (on : Bool) (h : i ≠ n) : (s.setPermit n on).motor i = s.motor i :=
  motor_onMotor_other s _ h
/-- A permit leaves a latched channel as it is but for the permit. -/
theorem setPermit_latched (s : State) (i n : Nat) (on : Bool) (h : (s.motor n).state.failedOrLocked = true) :
    ((s.setPermit i on).motor n).state = (s.motor n).state ∧ ((s.setPermit i on).motor n).lastFault = (s.motor n).lastFault ∧
    ((s.setPermit i on).motor n).groupFull = (s.motor n).groupFull := by
  by_cases hi : n = i
  · subst hi
    have hd : (s.motor n).state.driven = false := by cases hs : (s.motor n).state <;> simp_all [MotorState.driven, MotorState.failedOrLocked]
    have hc : (s.motor n).state ≠ .coast := by intro hc; simp [hc, MotorState.failedOrLocked] at h
    simp [State.setPermit, Motor.setPermit, hd, hc]
  · simp [setPermit_motor_other s on hi]
theorem swapFailedLead_latched (s : State) (i n : Nat) (h : (s.motor n).state.failedOrLocked = true) :
    ((s.swapFailedLead i).motor n).state = (s.motor n).state ∧ ((s.swapFailedLead i).motor n).lastFault = (s.motor n).lastFault ∧
    ((s.swapFailedLead i).motor n).groupFull = (s.motor n).groupFull := by
  unfold State.swapFailedLead
  split
  · exact ⟨rfl, rfl, rfl⟩
  · dsimp only
    split
    · exact ⟨rfl, rfl, rfl⟩
    · split
      · exact ⟨rfl, rfl, rfl⟩
      · rename_i g _ _ lag _
        generalize hs' : ({ s with cool := _ } : State) = s'
        have h0 : s'.motor n = s.motor n := by rw [← hs']; rfl
        have h1 := setPermit_latched s' lag n true (by rw [h0]; exact h)
        rw [h0] at h1
        have h2 := setPermit_latched (s'.setPermit lag true) i n false (by rw [h1.1]; exact h)
        rw [h1.1, h1.2.1, h1.2.2] at h2
        exact h2
theorem foldl_onMotor_other (l : List Nat) (f : Nat → Motor → Motor) (s : State) (n : Nat) (h : n ∉ l) :
    (l.foldl (fun (s : State) i => s.onMotor i (f i)) s).motor n = s.motor n := by
  induction l generalizing s with
  | nil => rfl
  | cons x l ih =>
    simp only [List.mem_cons, not_or] at h
    rw [List.foldl_cons, ih _ h.2, motor_onMotor_other _ _ h.1]
theorem groupFull_same (s : State) (n : Nat) : (s.groupFull n).motor n = s.motor n := by
  unfold State.groupFull
  dsimp only
  have h : n ∉ (s.motorGroup n).filter fun i => (s.motorRec i).on && !(s.motor i).state.failedOrLocked := by
    simp [State.motorGroup]
  split
  · exact foldl_onMotor_other _ (fun i m => { m with groupFull := true, permit := m.permit || decide (i < 8) }) s n h
  · exact foldl_onMotor_other _ (fun i m => { m with groupFull := true, permit := m.permit || decide (i < 8) }) s n h
/-- What failing a channel leaves of it. -/
theorem failMotor_motor (s : State) (n : Nat) (st : MotorState) (c : Nat) (h : st.failedOrLocked = true) :
    ((s.failMotor n st c).motor n).state = st ∧ ((s.failMotor n st c).motor n).lastFault = c := by
  unfold State.failMotor
  dsimp only
  generalize hs1 : (s.onMotor n _).logRm _ _ _ _ = s1
  have e : s1.motor n = { (s.motor n).toFail st with lastFault := c, faults := satTo 32 ((s.motor n).faults + 1) } := by rw [← hs1]; simp
  have h1 : ((s1.groupFull n).motor n).state = st := by rw [groupFull_same, e]; rfl
  have h2 := swapFailedLead_latched (s1.groupFull n) n n (by rw [h1]; exact h)
  rw [h1, groupFull_same, e] at h2
  exact ⟨h2.1, h2.2.1⟩
theorem foldl_onMotor_groupFull (l : List Nat) (f : Nat → Motor → Motor) (hf : ∀ i m, (f i m).groupFull = true) (s : State) (n : Nat) :
    n ∈ l ∨ (s.motor n).groupFull = true → ((l.foldl (fun (s : State) i => s.onMotor i (f i)) s).motor n).groupFull = true := by
  induction l generalizing s with
  | nil => intro h; simpa using h
  | cons x l ih =>
    intro h
    rw [List.foldl_cons]
    apply ih
    by_cases hx : n = x
    · subst hx; right; simp [hf]
    · rw [motor_onMotor_other _ _ hx]
      simpa [hx] using h
theorem groupFull_group (s : State) (n i : Nat) (hi : i ∈ s.motorGroup n) (h1 : (s.motorRec i).on = true) (h2 : (s.motor i).state.failedOrLocked = false) :
    ((s.groupFull n).motor i).groupFull = true := by
  unfold State.groupFull
  dsimp only
  have hm : i ∈ (s.motorGroup n).filter fun i => (s.motorRec i).on && !(s.motor i).state.failedOrLocked := by
    simp [hi, h1, h2]
  have := foldl_onMotor_groupFull _ (fun i m => { m with groupFull := true, permit := m.permit || decide (i < 8) }) (fun _ _ => rfl) s i (.inl hm)
  split
  · exact this
  · exact this
theorem setPermit_groupFull (s : State) (i n : Nat) (on : Bool) : ((s.setPermit i on).motor n).groupFull = (s.motor n).groupFull := by
  by_cases hi : n = i
  · subst hi
    simp only [State.setPermit, motor_onMotor_same, Motor.setPermit]
    split
    · simp [Motor.toCoast, Motor.enter]
    · split <;> simp
  · simp [setPermit_motor_other s on hi]
theorem swapFailedLead_groupFull (s : State) (i n : Nat) : ((s.swapFailedLead i).motor n).groupFull = (s.motor n).groupFull := by
  unfold State.swapFailedLead
  split
  · rfl
  · dsimp only
    split
    · rfl
    · split
      · rfl
      · rw [setPermit_groupFull, setPermit_groupFull]; rfl
theorem failMotor_group (s : State) (n : Nat) (st : MotorState) (c i : Nat) (hi : i ∈ s.motorGroup n) (h1 : (s.motorRec i).on = true)
    (h2 : (s.motor i).state.failedOrLocked = false) : ((s.failMotor n st c).motor i).groupFull = true := by
  unfold State.failMotor
  dsimp only
  rw [swapFailedLead_groupFull]
  have hne : i ≠ n := by
    have := (List.mem_filter.1 hi).2
    simpa using this
  apply groupFull_group
  · exact hi
  · exact h1
  · rw [motor_logRm, motor_onMotor_other _ _ hne]; exact h2
theorem foldl_onMotor_frame (l : List Nat) (f : Nat → Motor → Motor) (s : State) :
    l.foldl (fun (s : State) i => s.onMotor i (f i)) s = { s with motors := (l.foldl (fun (s : State) i => s.onMotor i (f i)) s).motors } := by
  induction l generalizing s with
  | nil => rfl
  | cons x l ih => rw [List.foldl_cons, ih]; rfl

/-- The memories of the module right after reset are canonical. -/
theorem State.reset_mem_wf : State.reset.hostMem.wf = true ∧ State.reset.laneA.dram.wf = true ∧ State.reset.laneB.array.memory.wf = true := by decide

end Sys2Proof.Machine
end

