-- ==== Sys2Proof/Tests/Slice0.lean ====
section
/-! SUPPORT. Tests: a state and operands that meet the hypotheses of each statement (wit_…), the checks of WellFormed, and the
spec's own worked examples (test_…). -/

open Sys2Proof Sys2Proof.Machine

namespace Sys2Proof.Tests

set_option Elab.async false

/-! ## Witnesses of the statements' hypotheses -/

/-- Tray 1 of one chip on pair 0, LIVE in incarnation 7. -/
def trayAt (d : Tray) : State :=
  { cfg := { topo := { accepted := true, trays := [(1, { enable := true, count := 1, mac := [1], ipv6 := [2] })] } }
    tray := { trays := [(1, d)] } }

/-- A frame of tray 1 of the type given: incarnation 7, sequence number 5, one chip record. -/
def frameOf (ty : Nat) : UpFrame :=
  { mac := [1], ipv6 := [2], formOk := true
    payload := le16 1 ++ le16 56 ++ le8 ty ++ le8 0 ++ le16 1 ++ le32 7 ++ le32 5 ++ zeros 16 ++ le8 1 ++ zeros 7 ++ zeros 16 }

/-- Tray 1 LIVE in incarnation 7 with sequence number 4 accepted. -/
def liveTray : State := trayAt { state := .live, incarnation := some 7, seqs := [4] }

set_option maxRecDepth 8000 in
theorem wit_TrayFrames_telemetry : liveTray.frameFault 0 (frameOf 1) = none := by decide

set_option maxRecDepth 8000 in
theorem wit_TrayFrames_resync : liveTray.frameFault 2 (frameOf 2) = none := by decide

set_option maxRecDepth 8000 in
theorem wit_TrayFrames_fields :
    (frameOf 1).formOk = true ∧ u8At (frameOf 1).payload 4 = 1 ∧ u8At (frameOf 2).payload 4 = 2 ∧ u16At (frameOf 1).payload 6 = 1 ∧
    u32At (frameOf 1).payload 8 = 7 ∧ u32At (frameOf 1).payload 0x0C = 5 := by decide

theorem wit_TrayFrames_state :
    (liveTray.trayDyn 1).state = .live ∧ (liveTray.trayDyn 1).incarnation = some 7 ∧ (liveTray.trayDyn 1).seqs = [4] ∧ 0 < seqDiff 5 4 := by decide

theorem wit_TrayStatesAndPorts :
    ((trayAt { state := .live, age := 3 }).trayDyn 1).state = .live ∧ 3 ≤ ((trayAt { state := .live, age := 3 }).trayDyn 1).age ∧
    ((trayAt { state := .live, age := 3 }).trayDyn 1).newLatch = none ∧ 10000 ≤ ((trayAt { state := .missing, age := 10000 }).trayDyn 1).age ∧
    ((trayAt { state := .resync, age := 10000 }).trayDyn 1).state = .resync ∧ ((trayAt { changed := true }).trayDyn 1).changed = true ∧
    ((trayAt { changed := true }).trayRec 1).enable = true ∧ (({ tray := { trays := [(2, { changed := true })] } } : State).trayDyn 2).changed = true ∧
    (({ tray := { trays := [(2, { changed := true })] } } : State).trayRec 2).enable = false ∧
    (Tab.get ({} : Port) ({ tray := { ports := [(3, { up := true })] } } : State).tray.ports 3).up = true ∧
    (Tab.get ({} : Port) ({} : State).tray.ports 3).up = false := by decide

theorem wit_HardWiredLines :
    Tab.get false (trayAt {}).tray.flowLoss 0 = false ∧ (trayAt {}).rackTrays 0 = true ∧ (trayAt {}).rackTrays 1 = false ∧
    Tab.get 0 ({ tray := { causes := [] } } : State).tray.causes 5 = 0 ∧
    (∀ e ∈ [10006, 10007], let s : State := { tray := { causes := [], causeEnd := [(5, 7)] }, tick := { epoch := e } };
      (Tab.get 0 s.tray.causeEnd 5 + 10000 ≤ s.tick.epoch) = (e = 10007)) := by decide

/-- Lane A active in SIMPLEX_A under INNER, and pump group 1 of channels 0 and 4 as given, its rack 2 in RUN. -/
def groupAt (d : GroupDyn) : State :=
  { laneA := { run := .active }, laneCtl := { redundancy := .simplexA }, mode := { authority := .inner }
    cfg := { topo := { accepted := true, groupEnable := 2, rackEnable := 4, groups := [(1, { lag := some 4, racks := 4, speedMax := 3000, stageUp := 90, stageDown := 40, stageUpS := 3, stageDownS := 30, rotateH := 24 })]
                       racks := [(2, { group := 1, flowMin := 100 })] } }
    cool := { groups := [(1, d)] } }

theorem wit_PumpStagingAndRotation :
    (∀ b ∈ [true, false], let s := groupAt { lag := some 4, rotating := b, upRun := 30, downRun := 300, leadRun := 864000 };
      10 * (s.cfg.topo.group 1).stageUpS ≤ (s.groupDyn 1).upRun ∧ 10 * (s.cfg.topo.group 1).stageDownS ≤ (s.groupDyn 1).downRun ∧
      36000 * (s.cfg.topo.group 1).rotateH ≤ (s.groupDyn 1).leadRun ∧
      (s.groupDyn 1).lag = some 4 ∧ s.supervises = true ∧ s.groupOn 1 = true ∧ s.pumpFailed 1 4 = false ∧
        (s.groupDyn 1).rotating = b ∧ (s.groupDyn 1).flowStop = false ∧ s.groupTrouble 1 = false ∧
        (s.cfg.topo.group 1).rotateH ≠ 0 ∧ (s.motor 4).permit = false) := by decide

theorem wit_HeatExchangerWarnings :
    (groupAt {}).cfg.topo.accepted = true ∧ (groupAt {}).anyLane = true ∧ (groupAt {}).cool.hxApproach = false ∧
    (groupAt {}).cool.hxHigh = false ∧ ({ laneA := { run := .active }, cool := { hxHigh := true, outletBelow := 10 } } : State).cool.hxHigh = true ∧
    10 * (groupAt {}).cfg.topo.hx.deficitS = 100 ∧ (groupAt {}).cool.approachAbove < 100 ∧ (groupAt {}).cool.outletAbove < 10 ∧
    (∀ n ∈ [100, 101], ({ cool := { approachAbove := n, approachBelow := n, outletAbove := n } } : State).cool.approachAbove = n) ∧
    ({ laneA := { run := .active }, cool := { hxApproach := true } } : State).anyLane = true := by decide

/-- Rack 2 with a detector of its own, as given. -/
def rackAt (d : RackDyn) : State :=
  { groupAt { armed := true } with
    cfg := { topo := { accepted := true, groupEnable := 2, rackEnable := 4, groups := [(1, { lag := some 4, racks := 4 })]
                       racks := [(2, { group := 1, gapUs := 5, flowSrc := 1, vBypass := some 9 })] }
             valves := [(9, { accepted := true, enable := true })] }
    cool := { groups := [(1, { armed := true })], racks := [(2, d)] } }

/-- Group 1 of two pumps with the detector of Table 10.7, armed. -/
def detectAt (d : GroupDyn) : State :=
  { groupAt {} with
    cfg := { topo := { accepted := true, groupEnable := 2, groups := [(1, { lag := some 4, dpAi := 17, flowPi := 40, dpCollapse := 600, gapUs := 400 })] } }
    cool := { groups := [(1, { d with armed := true })] } }

theorem wit_FlowStopDetectors :
    (groupAt {}).groupOn 1 = true ∧ ((groupAt {}).groupDyn 1).armed = false ∧
    (∃ p ∈ (({ groupAt {} with motors := [(4, { permit := true, state := .run })] } : State).cfg.topo.group 1).pumps,
      (({ groupAt {} with motors := [(4, { permit := true, state := .run })] } : State).motor p).permit = true ∧
      (({ groupAt {} with motors := [(4, { permit := true, state := .run })] } : State).motor p).state = .run) ∧
    ((groupAt {}).cfg.topo.group 1).dpCollapse = 0 ∧ (groupAt {}).dpBlind (.group 1) = false ∧
    (let s := detectAt {}; s.groupOn 1 = true ∧ (s.groupDyn 1).armed = true ∧ (s.groupDyn 1).flowStop = false ∧
      (s.cfg.topo.group 1).dpCollapse = 600 ∧ s.cfg.topo.hx.dpConfirmUs = 200 ∧ (s.cfg.topo.group 1).gapUs = 400 ∧
      s.dpBlind (.group 1) = false ∧ s.pulseBlind (.group 1) = false ∧
      s.flowStopSeen (.group 1) { dp := 599, dpUs := 200, gapUs := 400, pulseUs := 0 } = true ∧
      s.flowSeen (.group 1) { dp := 601, dpUs := 1000000, gapUs := 0, pulseUs := 1000000 } = true) ∧
    (rackAt {}).dpBlind (.rack 2) = true ∧ (rackAt {}).pulseBlind (.rack 2) = false ∧ ((rackAt {}).cfg.topo.rack 2).gapUs = 5 ∧
    (399 < ((detectAt {}).detectorLimits (.group 1)).2) ∧
    (rackAt {}).hasDetector (.rack 2) = true ∧ ((rackAt {}).rackDyn 2).armed = false ∧ (rackAt {}).rackState 2 = .run ∧
    ((rackAt {}).groupDyn 1).armed = true ∧ ((rackAt {}).groupDyn 1).flowStop = false ∧
    ((rackAt { armed := true }).rackDyn 2).armed = true ∧ ((rackAt { armed := true }).rackDyn 2).flowStop = false ∧
    ((groupAt { flowStop := true }).groupDyn 1).flowStop = true ∧
    (∀ e ∈ [0, 9], ((rackAt { bypassDue := some e }).rackDyn 2).bypassDue = some e ∧
      e + 10000 ≤ ({ rackAt {} with tick := { epoch := 10009 } } : State).tick.epoch) ∧ ((rackAt {}).cfg.topo.rack 2).vBypass = some 9 ∧
    (rackAt {}).rackState 2 ≠ .isolated ∧ ((rackAt {}).valveRec 9).on = true ∧ ((rackAt {}).valveCh 9).phase ≠ .fault := by decide

theorem wit_FlowStopDetectors_racks : ∀ k < 16, ((groupAt { flowStop := true }).rackDyn k).flowStop = false := by decide

/-- Rack 2 whose pulse flow source reads 60 L/min (1 Hz at 1 pulse a litre). -/
def flowAt (min : Nat) : State :=
  { groupAt {} with
    cfg := { topo := { accepted := true, groupEnable := 2, rackEnable := 4, groups := [(1, { racks := 4 })]
                       racks := [(2, { group := 1, flowSrc := 1, flowIdx := 3, flowMin := min })] }
             pulse := [(3, { kFactor := 0x3F800000 })] }
    tick := { frame := { pulse := [(3, { freq := 1000 })] } } }

theorem wit_FlowSupervisorCountsDeficit :
    (flowAt 60001).anyLane = true ∧ (flowAt 60001).inNet = false ∧ (flowAt 60001).rackOn 2 = true ∧ (flowAt 60001).rackState 2 = .run ∧
    flowReading (flowAt 60001).cfg (flowAt 60001).tick.frame 1 3 = some 0x42700000 ∧ milliLitres 0x42700000 = 60000 := by decide

/-- A state with motor channel 3 as given and an enabled record whose handoff is 60 rpm. -/
def motorAt (m : Motor) : State :=
  { cfg := { motors := [(3, { accepted := true, flags := 1, handoff := 60, alignMs := 200, rampMs := 1500, stallMs := 100, maxSpeed := 4000, iStart := 0x40000000 })] }, motors := [(3, m)] }

theorem wit_MotorStartSequence :
    (∀ w ∈ [60, 59, 1, 0, -1], let s := motorAt { permit := true, omega := w }
      (s.motorRec 3).on = true ∧ (s.motor 3).permit = true ∧ (s.motor 3).state = .stopped ∧ (s.motor 3).wait = .none) ∧
    (∀ n ∈ [3999, 4000], let s := motorAt { state := .align, clk := { phase := n } };
      (s.motor 3).state = .align ∧ (20 * (s.motorRec 3).alignMs ≤ (s.motor 3).clk.phase) = (n = 4000)) ∧
    (∀ n ∈ [29999, 30000], let s := motorAt { state := .ramp, clk := { phase := n } };
      (s.motor 3).state = .ramp ∧ (20 * (s.motorRec 3).rampMs ≤ (s.motor 3).clk.phase) = (n = 30000)) ∧
    (∀ w ∈ [42, 78], let s := motorAt { state := .verify, omega := w }
      (s.motor 3).state = .verify ∧ 7 * ((s.motorRec 3).handoff : Int) ≤ 10 * (s.motor 3).omega ∧
        10 * (s.motor 3).omega ≤ 13 * ((s.motorRec 3).handoff : Int)) ∧
    ((motorAt { state := .run, clk := { phase := 1200000 } }).motor 3).state = .run ∧
    1200000 ≤ ((motorAt { state := .run, clk := { phase := 1200000 } }).motor 3).clk.phase := by decide

theorem wit_MotorFailedAttempt :
    10000 ≤ ((motorAt { state := .verify, clk := { phase := 10000 } }).motor 3).clk.phase ∧
    200000 ≤ ((motorAt { state := .coast, wait := .spin, clk := { phase := 200000 } }).motor 3).clk.phase ∧
    (∀ a ∈ [0, 1], ((motorAt { state := .verify, attempts := a }).motor 3).state = .verify ∧
      ((motorAt { state := .verify, attempts := a }).motor 3).attempts < 2) ∧
    ((motorAt { state := .coast, wait := .spin, attempts := 1 }).motor 3).wait = .spin ∧
    ((motorAt { state := .align, attempts := 1 }).motor 3).state = .align ∧ ((motorAt { state := .ramp, attempts := 2 }).motor 3).state = .ramp ∧
    2 ≤ ((motorAt { state := .verify, attempts := 2 }).motor 3).attempts ∧
    2 ≤ ((motorAt { state := .coast, wait := .spin, attempts := 2 }).motor 3).attempts := by decide

theorem wit_MotorTripsAndRestarts :
    (∀ st ∈ [MotorState.align, .ramp, .verify, .run], ((motorAt { state := st }).motor 3).state.driven = true) ∧
    (({ motorAt { state := .run, tripAt := some 1 } with tick := { epoch := 100001 } } : State).motor 3).tripAt = some 1 ∧
    1 + 100000 ≤ ({ motorAt { state := .run, tripAt := some 1 } with tick := { epoch := 100001 } } : State).tick.epoch ∧
    ({ motorAt { state := .run, tripAt := some 1 } with tick := { epoch := 100000 } } : State).tick.epoch < 1 + 100000 ∧
    ((motorAt {}).motorRec 3).on = true ∧ 0 < ((motorAt {}).motorRec 3).handoff ∧
    (∀ v ∈ [239, 241], let s : State := { cfg := { motors := [(3, { accepted := true, flags := 1, vbusMin := 240, vbusMax := 240 })] }
                                          motors := [(3, { state := .run, vbus := v })] };
      (s.motor 3).vbus = v ∧ (s.motorRec 3).vbusMin = 240 ∧ (s.motorRec 3).vbusMax = 240 ∧ (s.motor 3).busBad = 0) ∧
    (∀ w ∈ [MotorWait.retry, .trip, .bus], let s := motorAt { state := .coast, permit := true, wait := w, clk := { phase := 40000, aboveMin := 2000, belowMax := 2000 } };
      (s.motor 3).wait = w ∧ (s.motor 3).omega = 0 ∧ 40000 ≤ (s.motor 3).clk.phase ∧ 2000 ≤ (s.motor 3).clk.aboveMin ∧
        2000 ≤ (s.motor 3).clk.belowMax) := by decide

/-- Channel 3 as given, in pump group 0 with channel 2. -/
def motorInGroup (m : Motor) : State :=
  { motorAt m with
    cfg := { topo := { accepted := true, groupEnable := 1, groups := [(0, { lead := 3, lag := some 2 })] }
             motors := [(2, { accepted := true, flags := 1 }), (3, { accepted := true, flags := 1, handoff := 60 })] } }

theorem wit_MotorFailureDrivesTheGroup :
    ((motorInGroup { state := .run }).motorRec 3).on = true ∧ ((motorInGroup { state := .run }).motor 3).state.failedOrLocked = false ∧
    2 ∈ (motorInGroup {}).motorGroup 3 ∧ ((motorInGroup {}).motorRec 2).on = true ∧ ((motorInGroup {}).motor 2).state.failedOrLocked = false ∧
    2000 ≤ ((motorInGroup { state := .run, clk := { fast := 2000 } }).motor 3).clk.fast ∧
    20 * ((motorAt {}).motorRec 3).stallMs ≤ ((motorAt { state := .run, clk := { stall := 2000 } }).motor 3).clk.stall ∧
    ((motorInGroup { state := .run, attempts := 1 }).motor 3).attempts < 2 ∧ ((motorInGroup { state := .run }).motor 3).stalled = false ∧
    (∀ i ∈ 3 :: (motorInGroup { groupFull := true }).motorGroup 3, ((motorInGroup { groupFull := true }).motor i).state.failedOrLocked = false ∧
      ((motorInGroup { groupFull := true }).motor i).stalled = false) := by decide

theorem wit_MotorTachAndPeriod :
    (∀ w ∈ [60, 61], let s := { motorAt { state := .run, omega := w, clk := { silent := 20000, agree := 20000, differ := 20000 } } with
        cfg := { motors := [(3, { accepted := true, flags := 3, handoff := 60 })] } }
      (s.motorRec 3).on = true ∧ (s.motorRec 3).tachPresent = true ∧ (s.motor 3).state = .run ∧
        ((s.motorRec 3).handoff : Int) ≤ (s.motor 3).omega ∧ (s.motor 3).tachFault = false ∧ 20000 ≤ (s.motor 3).clk.silent ∧
        20000 ≤ (s.motor 3).clk.agree ∧ 20000 ≤ (s.motor 3).clk.differ) ∧
    ((motorAt { tachFault := true }).motor 3).tachFault = true ∧
    ((motorAt {}).motorRec 4).accepted = false ∧ ((motorAt {}).motorRec 3).accepted = true ∧
    (∀ st ∈ [MotorState.align, .ramp, .verify, .failed, .locked, .stopped, .coast], ((motorAt { state := st }).motor 3).state = st ∧
      ((motorAt { state := st }).motor 3).permit = false) := by decide

/-- A state with valve 5 as given and an enabled record of it, both supplies ready. -/
def valveAt (x : Valve) : State :=
  { cfg := { valves := [(5, { accepted := true, enable := true, tRiseMin := 50 })] }
    valve := { v24 := true, chans := [(5, x)], supplies := [(0, { state := .ready }), (1, { state := .ready })] } }

theorem wit_ValveProfile :
    ((valveAt { phase := .pullIn }).valveCh 5).phase = .pullIn ∧ ((valveAt { phase := .pullIn }).valveCh 5).due = none ∧
    ((valveAt { phase := .pullIn }).valveCh 5).pullAt + 10 * ((valveAt { phase := .pullIn }).valveRec 5).tPull * 1 ≤ (valveAt { phase := .pullIn }).now ∧
    ((valveAt { phase := .decay }).valveCh 5).phase = .decay ∧ (valveAt { phase := .decay }).coilCurrent 5 < 50 ∧
    (let s := valveAt { phase := .deferred, due := some { since := some 1 } };
      (s.valveCh 5).phase = .deferred ∧ (s.valveCh 5).due = some { since := some 1 } ∧ s.valvePartners 5 = [37] ∧
        (s.valveCh 37).phase ≠ .pullIn ∧ s.supplyReady (valveSupply 5) = true) ∧
    (let s : State := { tick := { epoch := 60 }, valve := { v24 := true, chans := [(5, { due := some { protective := true, supplySince := some 9 } })] } };
      (s.valveCh 5).due = some { protective := true, supplySince := some 9 } ∧ 9 + 50 ≤ s.now ∧ s.valvePartners 5 = [37] ∧
        (s.valveCh 37).phase ≠ .pullIn ∧ s.valve.v24 = true ∧ s.supplyReady (valveSupply 5) = false) ∧
    ((valveAt { phase := .pullIn }).valveRec 5).tRiseMin ≤ 50 := by decide

theorem wit_ValveProfile_alone : ∀ p, p ≠ 5 → ((valveAt { phase := .deferred, due := some { since := some 1 } }).valveCh p).due = none := by
  intro p h; simp [valveAt, State.valveCh, Tab.get, Ne.symm h]

theorem wit_ValveFaults :
    (let s := { valveAt { phase := .pullIn } with cfg := { valves := [(5, { accepted := true, enable := true, iPeak := 1000 })] } };
      (s.valveCh 5).phase = .pullIn ∧ (s.valveCh 5).pullAt + (s.valveRec 5).tRiseMax / 100 ≤ s.now ∧
        10 * s.coilCurrent 5 < (s.valveRec 5).iPeak ∧ 3 * (s.valveRec 5).iPeak < 2 * 1501) ∧
    (let s := valveAt { phase := .hold, lowRun := 1000 };
      (s.valveCh 5).phase = .hold ∧ 3 * (s.valveRec 5).iPeak < 2 * 1 ∧ (s.valveCh 5).holdLow = false ∧ 1000 ≤ (s.valveCh 5).lowRun) ∧
    (let s := valveAt { offRun := 10 }; (s.valveRec 5).on = true ∧ (s.valveCh 5).phase = .off ∧ 10 ≤ (s.valveCh 5).offRun) ∧
    (let s := valveAt { phase := .deferred, offRun := 11 }; (s.valveCh 5).phase = .deferred ∧ 10 ≤ (s.valveCh 5).offRun) ∧
    (let s := valveAt { phase := .decay };
      (s.valveCh 5).phase = .decay ∧ (s.valveCh 5).decayAt + (s.valveRec 5).tDecayMax / 100 ≤ s.now) ∧
    (let s : State := { cfg := { valves := [(4, { accepted := true, enable := true, pair := true }), (37, { accepted := true, enable := true })] }
                        valve := { chans := [(4, { phase := .hold, uneven := 100 }), (37, { phase := .pullIn })] } };
      s.valveOwner 5 = 4 ∧ s.valvePaired 4 = true ∧ 100 ≤ (s.valveCh 4).uneven ∧ s.valveOwner 37 = 37 ∧ (s.valveRec 37).on = true ∧ (s.valveCh 37).phase ≠ .fault ∧
        (s.valveCh 4).phase = .hold ∧ s.valveOwner (37 % 32) = 4 ∧ s.valveOwner (37 % 32 + 32) = 37) := by decide

theorem wit_ValveSuppliesAndEntries :
    (∀ st ∈ [SupplyState.softStart, .low],
      let s : State := { valve := { v24 := true, supplies := [(1, { state := st, vOut := 440 })] } };
      (s.supply 1).state = st ∧ 440 ≤ (s.supply 1).vOut) ∧
    (∀ st ∈ [SupplyState.softStart, .fault],
      let s : State := { tick := { epoch := 100001 }, valve := { v24 := true, supplies := [(1, { state := st, vOut := 439, since := 1 })] } };
      (s.supply 1).state = st ∧ (s.supply 1).vOut < 440 ∧ (s.supply 1).since + 100000 ≤ s.now) ∧
    ({ valve := { v24 := true } } : State).valve.v24 = true ∧ ({} : State).valve.v24 = false ∧
    (let c : ValveCmd := { cmd := 7, entries := [(5, 1)], released := 1 };
      let s : State := { valve := { chans := [(5, { phase := .hold })], cmds := [c] } };
      s.valve.cmds = [c] ∧ c.entries = [(5, 1)] ∧ c.applied = 0 ∧ c.waitSupply = false ∧ (s.valveCh 5).phase = .hold) ∧
    (let c : ValveCmd := { cmd := 7, entries := [(5, 0)], waitSupply := true };
      let p : Packet := { sq := 0, tag := 9, opcode := 0x0602, flags := 0, block := [], id := 7 };
      let s : State := { valve := { cmds := [c] }, proto := { running := [{ packet := p, commit := 1 }] } };
      s.valve.cmds = [c] ∧ c.waitSupply = true ∧ c.waitEnd ≤ s.now ∧ c.needs.find? (fun x => !s.supplyReady x) = some 0 ∧
        s.runningCmd c.cmd = some { packet := p, commit := 1 } ∧ p.async = false ∧ s.proto.dropIds.contains p.id = false) ∧
    (let s : State := { tick := { epoch := 1 }, valve := { chans := [(5, { phase := .deferred, due := some { since := some 1 } }), (37, { phase := .pullIn })], supplies := [(0, { state := .ready })] } };
      (s.valveCh 5).due = some { since := some 1 } ∧ 1 + 10 * (s.valveRec 5).deferLimit ≤ s.now ∧ (s.valvePartners 5).filter (fun x => (s.valveCh x).phase = .pullIn) = [37] ∧
        s.supplyReady (valveSupply 5) = true ∧ s.proto.dropIds = []) := by decide

/-- Channels 3 (PT1000) and 20 (NTC) with the marks given. -/
def analogAt (d : AnalogDyn) : State :=
  { cfg := { analog := [(20, some { ty := 2 })] }, sense := { analog := [(3, d), (20, d)] } }

/-- Lane A active under the reference model, which checks channel 20 of the heat exchanger. -/
def checkedAt (on : Bool) : State :=
  { laneA := { run := .active }, laneCtl := { redundancy := .simplexA }, img := { activeSlot := some 7 }
    cfg := { analog := [(20, some { ty := 2, modelBand := 64 })], topo := { accepted := true, hx := { tAi := [20, 0, 0, 0] } } }
    sense := { analog := [(20, { suspect := on, y := some 0x41A00000 })] } }

theorem wit_AnalogChannelMarks :
    ((analogAt {}).cfg.analogRec 3).ty = 1 ∧ ((analogAt {}).cfg.analogRec 20).ty ≠ 0 ∧ ((analogAt {}).cfg.analogRec 20).compat = false ∧
    (let s := analogAt { failRun := [0, 0, 0, 10], passRun := [1000, 0, 0, 0], bits := 2 };
      bit (s.analogDyn 20).bits 4 = false ∧ 10 ≤ (s.analogDyn 20).failRun.getD 3 0 ∧ bit (s.analogDyn 3).bits 1 = true ∧
        1000 ≤ (s.analogDyn 3).passRun.getD 0 0) ∧
    bit ((analogAt {}).analogDyn 20).bits 4 = false ∧ ((analogAt {}).analogDyn 20).bits = 0 ∧
    ((analogAt { bits := 6 }).analogDyn 20).bits ≠ 0 ∧ bit ((analogAt { bits := 6 }).analogDyn 20).bits 3 = false ∧
    bit ((analogAt { bits := 2 }).analogDyn 3).bits 1 = true ∧ ((analogAt { bits := 2 }).analogDyn 3).bits = 2 ^ (0 + 1) ∧
    (∀ b ∈ [true, false], (checkedAt b).modelChecked 20 = true ∧ ((checkedAt b).analogDyn 20).suspect = b) ∧
    (checkedAt false).withinBand 20 1400 1500 = some false ∧ (checkedAt true).withinBand 20 1200 1300 = some true ∧
    bit ((analogAt {}).analogDyn 3).bits 1 = false ∧ bit ((analogAt {}).analogDyn 3).bits 2 = false ∧
    ({} : State).sense.tcritLogged ≠ 7 ∧ ({} : State).sense.netSpdLogged = 0 ∧ ({} : State).sense.tcritLogged = 0 ∧
    ({} : State).sense.netSpdLogged ≠ 3 := by decide

theorem wit_AnalogChannelMarks_disarmed : ∀ d, (analogAt {}).detectorArmed d = false := by
  intro d; cases d <;> rfl

/-- Leak channel 6, a rope that rack 2 names, with the marks given. -/
def leakAt (d : LeakDyn) : State :=
  { cfg := { leak := [(6, { ty := 1, lengthDm := 500 })], topo := { accepted := true, rackEnable := 4, racks := [(2, { leakMask := 64 })] } }
    sense := { leak := [(6, d)] } }

theorem wit_LeakChannelStates :
    ((leakAt {}).leakRec 6).ty ≠ 0 ∧ ((leakAt {}).leakRec 6).hasBreak = true ∧ ((leakAt {}).leakDyn 6).code ((leakAt {}).leakRec 6) = 1 ∧
    (leakAt {}).leakRacks 6 = [2] ∧ ((leakAt { wet := true }).leakDyn 6).wet = true ∧ ((leakAt { wet := true }).leakDyn 6).broken = false ∧
    ((leakAt { wet := true }).leakDyn 6).fault = false ∧ ((leakAt { broken := true }).leakDyn 6).broken = true ∧
    ((leakAt { fault := true }).leakDyn 6).wet = false ∧ ((leakAt { fault := true }).leakDyn 6).fault = true ∧
    (let s := leakAt { wetRun := 5000, dryRun := 3600000, brokenRun := 100, unregulated := true };
      (s.leakRec 6).wetMs ≤ (s.leakDyn 6).wetRun ∧ (s.leakDyn 6).code (s.leakRec 6) = 1 ∧ 100 ≤ (s.leakDyn 6).brokenRun ∧
        (s.leakDyn 6).unregulated = true ∧ 1000 * (s.leakRec 6).dryS ≤ (s.leakDyn 6).dryRun) ∧
    ((leakAt { broken := true }).leakDyn 6).brokenRun = 0 ∧ ((leakAt { fault := true }).leakDyn 6).unregulated = false := by decide

/-- Rack 2 in the state given with a harness whose memory is being read. -/
def harnessAt (st : RackState) : State :=
  { cfg := { topo := { accepted := true, rackEnable := 4 }, racks := [(2, { state := st })], pulse := [(5, { on := true, zeroMs := 20 })] }
    sense := { pulse := [(5, { quietRun := 200, floatRun := 100 })], harness := [(2, { present := true, state := .reading })] } }

/-- 256 bytes with the CRC of Table 13.10, for rack 2. -/
def harnessMem : List Byte := (zeros 4 ++ le8 2 ++ zeros 247) ++ leW (crc32c (zeros 4 ++ le8 2 ++ zeros 247))

theorem wit_PulseAndHarnessEvents :
    ((harnessAt .run).pulseRec 5).on = true ∧ ((harnessAt .run).pulseDyn 5).fault = false ∧
    100 ≤ ((harnessAt .run).pulseDyn 5).floatRun ∧ 10 * ((harnessAt .run).pulseRec 5).zeroMs ≤ ((harnessAt .run).pulseDyn 5).quietRun ∧ ((harnessAt .run).harness 3).present = false ∧
    ((harnessAt .run).harness 2).present = true ∧ ((harnessAt .run).harness 2).state = .reading ∧ ((harnessAt .run).harness 2).cmd = none ∧
    (harnessAt .run).harnessVerdict 2 [] ≠ .match_ ∧ (harnessAt .commission).rackOn 2 = true ∧ (harnessAt .commission).rackState 2 = .commission := by decide

/-- A harness memory that matches what the configuration expects of rack 2. -/
theorem wit_PulseAndHarnessEvents_match :
    let s : State := { cfg := { racks := [(2, { harness := some (harnessIdent harnessMem) })] }
                       sense := { harness := [(2, { present := true, state := .reading })] } };
    s.harnessVerdict 2 harnessMem = .match_ ∧ (s.harness 2).present = true ∧ (s.harness 2).cmd = none := by decide +kernel

/-- Channel 2 in the state given; buffer 1 takes every standard frame and is as given. -/
def canAt (st : CanState) (b : CanBuf) : State :=
  { cfg := { can := [(2, { enable := true, autoRecover := true, filters := [(1, { enable := true })] })]
             entries := [(4, { dir := 2, channel := 2, ident := 0x55, dlc := 2, width := 2, timing := 10 }), (5, { dir := 1, channel := 2, ident := 1, timing := 10 })] }
    bus := { chans := [(2, { state := st, bufs := [(1, b)] })], entries := [(4, { outVal := some 0x40000000 }), (5, { stale := false, age := 10 })] } }

theorem wit_CanMessageBuffers :
    (∀ l ∈ [true, false], let s := canAt .active { locked := l, count := 0xFF };
      (s.canChan 2).state.live = true ∧
        (List.range 64).find? (fun i => (Tab.get ({} : CanFilter) (s.canRec 2).filters i).matchesFrame { ident := 3 }) = some 1 ∧
        (Tab.get ({} : CanBuf) (s.canChan 2).bufs 1).locked = l ∧ (Tab.get ({} : CanBuf) (s.canChan 2).bufs 1).shadow = none) ∧
    ((canAt .passive {}).canChan 2).state.live = true ∧ (Tab.get ({} : CanBuf) ((canAt .active { locked := true }).canChan 2).bufs 1).locked = true ∧
    (let s := { canAt .active { locked := true, lockAt := 3 } with tick := { epoch := 13 } }; (Tab.get ({} : CanBuf) (s.canChan 2).bufs 1).locked = true ∧
      (Tab.get ({} : CanBuf) (s.canChan 2).bufs 1).lockAt + 10 ≤ s.now) := by decide

theorem wit_CanMappedEntries :
    ((canAt .active {}).entryRec 5).dir = 1 ∧ ((canAt .active {}).entryRec 5).timing ≤ ((canAt .active {}).entryDyn 5).age ∧
    ((canAt .active {}).entryRec 4).dir = 2 ∧ ((canAt .active {}).entryOut 4).isSome = true ∧
    ((canAt .active {}).entryDyn 4).handed = none ∧ ((canAt .active {}).canChan 2).state.live = true ∧
    (let s := { canAt .active {} with bus := { chans := [(2, { state := .active })], sent := [(2, false, 0x55, [])] } };
      s.bus.sent.find? (fun x => x.1 = (s.entryRec 4).channel && x.2.1 = (s.entryRec 4).ide && x.2.2.1 = (s.entryRec 4).ident) =
        some (2, false, 0x55, []) ∧ (s.canChan (s.entryRec 4).channel).state.live = true) ∧
    ((canAt .active {}).canRec 2).fd = false := by decide

theorem wit_CanErrorStates :
    ((canAt .active {}).canChan 2).state = .active ∧ ((canAt .passive {}).canChan 2).state.live = true ∧
    (((canAt .active {}).canChan 2).recent.filter fun e => (canAt .active {}).tick.epoch < e + 100000).length < 8 ∧
    (let s := { canAt .active {} with bus := { chans := [(2, { state := .active, recent := List.replicate 8 1 })] } };
      8 ≤ ((s.canChan 2).recent.filter fun e => s.tick.epoch < e + 100000).length ∧ (s.canChan 2).state.live = true) ∧
    ((canAt .busOff {}).canChan 2).state = .busOff ∧ ((canAt .busOff {}).canRec 2).autoRecover = true ∧
    (let s := { canAt .heldOff {} with tick := { epoch := 100001 } }; (s.canChan 2).state = .heldOff ∧ (s.canChan 2).recent.headD 0 + 100000 ≤ s.now) ∧
    (let a : Autobaud := { cmd := 7, channel := 2, apply := false, framesNeeded := 2, candidates := [{}, {}], dwell := 100 };
      let p : Packet := { sq := 0, tag := 9, opcode := 0x0802, flags := 0, block := [], id := 7 };
      let s : State := { tick := { epoch := 1000 }, bus := { autobaud := [a] }, proto := { running := [{ packet := p, commit := 1 }] } };
      s.bus.autobaud = [a] ∧ a.frames < a.framesNeeded ∧ a.present + 1 < a.candidates.length ∧ a.since + 10 * a.dwell ≤ s.now ∧
        ({ a with frames := 2 } : Autobaud).framesNeeded ≤ ({ a with frames := 2 } : Autobaud).frames ∧
        ({ a with present := 1 } : Autobaud).candidates.length ≤ ({ a with present := 1 } : Autobaud).present + 1 ∧
        s.runningCmd a.cmd = some { packet := p, commit := 1 } ∧ p.async = false ∧ s.proto.dropIds.contains p.id = false) := by decide

theorem wit_StepRunsFrontCommand :
    (match step { State.reset with pending := [.doeAbort, .rmBootComplete] } with
      | .next t => t.pending | _ => []) = [.rmBootComplete] ∧ State.reset.pending = [] := by decide

theorem wit_ResetLeaves : State.reset.mode.startPhase = .rmBoot ∧ State.reset.tick.epoch = 1 := by decide

theorem wit_QueueUntouched : ({ State.reset with pending := [.doeAbort, .d3hotEntry] } : State).pending = .doeAbort :: [.d3hotEntry] := by decide

theorem wit_HostMemoryCanonical : Mem.wf (({} : Mem).write 0x1000 0x5A) = true ∧ Mem.wf State.reset.hostMem = true := by decide

theorem wit_FusesAndLifeCycle :
    ({ State.reset with upd := { lifeTarget := some .provisioned, secFloor := 4 } } : State).upd.lifeTarget = some .provisioned ∧
    (match exec .lifecycleReset { State.reset with upd := { lifeTarget := some .provisioned, secFloor := 4 } } with
      | .next t => (t.mode.lifeCycle, t.upd.secFloor) | _ => (.blank, 0)) = (.provisioned, 4) := by decide

/-- DUPLEX with lane A active and lane control as given. -/
def duplexAt (c : LaneCtlSt) : State :=
  { laneA := { run := .active }, laneB := { run := .standby }, laneCtl := { c with redundancy := .duplex } }

theorem wit_LaneLosses :
    ((duplexAt {}).lane .A).isRunning = true ∧ (({ duplexAt {} with laneCtl := { mirror := [(3, { closed := true })] } } : State).mirrorSlot 3).closed = true ∧
    ((duplexAt {}).mirrorSlot 3).closed = false ∧
    InDuplex .A (duplexAt { statB := { silentRun := 3 } }) ∧
    3 ≤ ((duplexAt { statB := { silentRun := 3 } }).laneCtl.stat .B).silentRun ∧ ((duplexAt { statB := { silentRun := 3 } }).laneCtl.stat .A).silentRun < 3 ∧
    ((duplexAt {}).laneCtl.stat .A).selfCheckFail = false ∧
    InDuplex .A (duplexAt { merge := true, mergeRun := 100000 }) ∧
    (duplexAt { merge := true, mergeRun := 100000 }).cfg.mergeLimit ≤ 100000 ∧
    InDuplex .A (duplexAt { statA := { silentRun := 3 }, statB := { silentRun := 4 } }) ∧
    InDuplex .A (duplexAt { statA := { selfCheckFail := true, failedAt := some 1 } }) ∧
    (duplexAt { statA := { selfCheckFail := true, failedAt := some 1 } }).now = 1 := by unfold InDuplex; decide

theorem wit_LaneLosses_both (x : LaneId) : 3 ≤ ((duplexAt { statA := { silentRun := 3 }, statB := { silentRun := 4 } }).laneCtl.stat x).silentRun := by
  cases x <;> decide

theorem wit_LaneLosses_alone :
    (let s : State := { laneA := { run := .active }, laneCtl := { redundancy := .simplexA, mirror := [(0, { shortRun := 60000 })] } };
      s.laneCtl.redundancy = .simplexOn .A ∧ s.laneCtl.active = .A ∧ (s.lane .A).run = .active ∧ (s.lane .B).isRunning = false ∧
        s.laneCtl.held = false ∧ s.mode.update = .idle ∧ s.laneCtl.hold LaneId.A.other = false ∧ s.cfg.refTicks ≤ (s.mirrorSlot 0).shortRun ∧ 0 < s.cfg.refTicks) := by decide

theorem wit_LaneAuthority_gap :
    (let s : State := { laneA := {}, laneB := { run := .standby }, laneCtl := { redundancy := .simplexB, gap := true, held := true } };
      s.laneCtl.gap = true ∧ s.laneCtl.held = true ∧ s.laneCtl.granting = none ∧ s.laneCtl.grantNo < 2 ∧ (s.lane s.laneCtl.active.other).isRunning = true) ∧
    (let s : State := { laneB := { run := .standby }, laneCtl := { redundancy := .simplexB, gap := true, held := true, granting := some .B, grantNo := 2 } };
      s.laneCtl.granting = some .B ∧ (s.lane .B).isRunning = true ∧ s.laneCtl.drillGranted = false ∧ s.inNet = false ∧ s.laneCtl.others = [] ∧ 2 ≤ s.laneCtl.grantNo) ∧
    (let s : State := { laneCtl := { granting := some .B, grantNo := 1 } };
      s.laneCtl.granting = some .B ∧ s.laneCtl.drillGranted = false ∧ s.laneCtl.grantNo < 2) := by decide

theorem wit_LaneAuthority_drill :
    (let s := duplexAt { drillCmd := some 7 };
      s.laneCtl.drillCmd = some 7 ∧ s.laneCtl.drillAcked = false ∧ s.laneCtl.drillGranted = false ∧ s.laneCtl.redundancy = .duplex) ∧
    (let r : Running := { packet := { sq := 0, tag := 1, opcode := 0x0902, flags := 0, block := [], id := 7 }, commit := 4 };
      let s : State := { duplexAt { drillCmd := some 7, drillGranted := true, granting := some .B } with proto := { running := [r] } };
      s.laneCtl.active = .A ∧ s.laneCtl.granting = some LaneId.A.other ∧ s.laneCtl.drillCmd = some r.packet.id ∧ s.laneCtl.drillRetest = false ∧
        s.runningCmd r.packet.id = some r ∧ r.packet.async = false ∧ s.proto.dropIds.contains r.packet.id = false) := by decide

theorem wit_LaneAuthority_net :
    (let s : State := { laneA := { run := .running }, laneCtl := { statA := { qualRun := 100 } } };
      s.inNet = true ∧ s.laneCtl.granting = none ∧ s.qualified .A = true ∧ s.laneCtl.preNetActive = .A) ∧
    (let s : State := { laneB := { run := .running }, laneCtl := { granting := some .B, statB := { qualRun := 100 } } };
      s.inNet = true ∧ s.qualified .B = true ∧ s.qualified s.laneCtl.preNetActive = false ∧ s.laneCtl.granting = some .B ∧ (s.lane .B).isRunning = true ∧
        s.laneCtl.drillGranted = false ∧ s.qualified LaneId.B.other = false ∧ s.mode.authority ≠ .predictive) := by decide

theorem wit_LaneStartAndRejoin_up :
    (({ laneA := { run := .wipe } } : State).lane .A).run = .wipe ∧
    (let s : State := { laneB := { run := .test } };
      (s.lane .B).run = .test ∧ s.laneCtl.linkFail = false ∧ s.cfg.fenced = [] ∧ s.laneCtl.hold LaneId.B.other = false ∧ s.mode.update = .idle) ∧
    (let s : State := { laneB := { run := .copy } }; (s.lane .B).run = .copy ∧ s.anyLane = false ∧ s.inNet = true) ∧
    (let s : State := { mode := { firstReady := some 1 }, tick := { epoch := 200000 } };
      s.mode.firstReady = some 1 ∧ 1 + 10 * s.cfg.startWait ≤ s.now) := by decide

theorem wit_LaneStartAndRejoin_join :
    (let s : State := { laneA := { run := .active }, laneB := { run := .copy }, laneCtl := { redundancy := .simplexA } };
      (s.lane .B).run = .copy ∧ s.mayResync .B = true ∧ s.mode.update = .idle ∧ s.image = none) ∧
    (let s : State := { laneA := { run := .active }, laneB := { run := .joinWait }, laneCtl := { redundancy := .simplexA, statB := { resyncPct := 100 } }
                        tick := { epoch := 6000 } };
      (s.lane .B).run = .joinWait ∧ (s.laneCtl.stat .B).resyncPct = 100 ∧ s.mayResync .B = true ∧ s.joinBlocked = false ∧ s.image = none ∧
        s.mode.update = .idle ∧ s.laneCtl.hold .A = false ∧ (s.laneCtl.stat .B).resetEpoch + 5000 ≤ s.now) := by decide

theorem wit_LinkRingmasterAndWatchdogs :
    (let s := duplexAt {}; s.laneCtl.linkFail = false ∧ s.anyLane = true ∧ InDuplex .A s) ∧
    (let s : State := { hif := { wdogTicks := 0 } }; s.hif.wdogTicks = 0 ∧ s.hif.wdogExpired = false ∧ s.wdogWaits = false) ∧
    (let s := duplexAt { linkFail := true }; s.laneCtl.linkFail = true) ∧
    (let s : State := { gen := { rmRestart := true }, hif := { wdogTicks := 0 } }; s.gen.rmRestart = true ∧ s.mode.update ≠ .handover ∧ s.hif.wdogTicks = 0 ∧ s.wdogWaits = true) ∧
    (let s : State := { duplexAt {} with mode := { modeCfgActive := 2, predAvailTicks := 600000, authority := .inner, lifeCycle := .operational }
                                         img := { activeSlot := some 7, firstEpoch := some 1 } };
      bit s.mode.modeCfgActive 1 = true ∧ s.mode.authSetByHost = false ∧ s.cfg.predSettle ≤ s.mode.predAvailTicks ∧ s.predAvailable = true ∧
        s.mode.authority ≠ .predictive ∧ s.mode.pendingModes.contains .autoPredictive = false) ∧
    (let s : State := { hif := { wdogDeferred := true } }; s.hif.wdogDeferred = true ∧ s.wdogWaits = false) := by unfold InDuplex; decide

theorem wit_TickFrameViewsAndTime :
    (let s : State := { tick := { timeSeen := true, timeValid := true, t0Time := 5 }, laneA := { run := .active }, laneCtl := { redundancy := .simplexA } };
      s.tick.timeSeen = true ∧ s.tick.timeValid = true ∧ s.tick.phaseErr = 0 ∧ s.settledTick = true ∧ (s.lane .A).isRunning = true) ∧
    State.reset.tick.timeSeen = false ∧
    (({ tick := { closing := some { epoch := some 4 } } } : State).tick.closing = some { epoch := some 4 }) ∧
    (let s : State := { tick := { hold := true, holdTicks := 100 } }; s.tick.hold = true ∧ s.tick.viewHoldLimit ≤ s.tick.holdTicks) ∧
    (let s : State := { tray := { ports := [(2, { up := true })] } }; (Tab.get ({} : Port) s.tray.ports (2 : Fin 4).val).up = true) := by decide

theorem wit_TickFrameViewsAndTime_last : ∀ p, p ≠ (2 : Fin 4).val →
    (Tab.get ({} : Port) ({ tick := { timeValid := true }, tray := { ports := [(2, { ptp := 2 })] } } : State).tray.ports p).ptp ≠ 2 := by
  intro p h; have h2 : (2 : Nat) ≠ p := fun e => h e.symm
  simp [Tab.get, h2]

/-- Both lanes with a loop slot 3 that has run in epoch 1 with output 1.0, and a mirror slot and redundancy as given. -/
def mirrorAt (m : MirrorSlot) (r : Redundancy) : State :=
  { laneA := { run := .active, loops := [(3, { epoch := 1, eff := .auto, out := 0x3F800000 })] }
    laneB := { run := .standby, loops := [(3, { epoch := 1, eff := .auto, out := 0x3F800000 })] }
    cfg := { loops := [(3, { accepted := true, outMin := 0, outMax := 0x40000000 })] }
    laneCtl := { redundancy := r, mirror := Tab.set {} [] 3 m } }

theorem wit_LoopOutputsThroughTheMirrors_copy :
    (let s := mirrorAt {} .duplex;
      s.slotOut .B 3 = some { epoch := 1, eff := .auto, out := 0x3F800000 } ∧ (s.mirrorSlot 3).closed = false ∧ (s.mirrorSlot 3).copy .B = none ∧
        (s.mirrorSlot 3).copy .A = none ∧ (s.laneCtl.stat .B).outputsLost = false ∧ 7000 ≤ loopDeadline 3 ∧ s.laneCtl.redundancy = .duplex) ∧
    (let s := mirrorAt {} .simplexA;
      s.slotOut .A 3 = some { epoch := 1, eff := .auto, out := 0x3F800000 } ∧ (s.mirrorSlot 3).copy .A = none ∧ (s.mirrorSlot 3).copy .B = none ∧
        s.laneCtl.redundancy = .simplexOn .A ∧ s.laneCtl.held = false) ∧
    (let s := mirrorAt { a := some { out := 0x3F800000, tgt := 0, r := 0 } } .duplex;
      (s.mirrorSlot 3).closed = false ∧ (s.mirrorSlot 3).copy .B = none ∧ (s.mirrorSlot 3).copy .A = some { out := 0x3F800000, tgt := 0, r := 0 } ∧
        s.laneCtl.mergedNow = false ∧ s.laneCtl.countOf (.loop 3) + 1 < s.cfg.k ∧ s.inNet = false ∧ s.laneCtl.held = false ∧
        (s.slotOut .A 3).isSome = true ∧ (s.mirrorSlot 3).copy s.laneCtl.active = some { out := 0x3F800000, tgt := 0, r := 0 }) ∧
    (let s := mirrorAt {} .duplex; (s.mirrorSlot 3).copy s.laneCtl.active = none) := by decide

theorem wit_LoopOutputsThroughTheMirrors_values :
    ((mirrorAt {} .duplex).loopDesc 3).plausible { out := 0x3F800000, tgt := 0, r := 0 } = true ∧
    F32.agree 0 0x3F800000 0x3F800000 = true ∧ F32.agree 0 0x3F800000 0x40000000 = false ∧ F32.agree 0 0x40000000 0x3F800000 = false := by
  decide +kernel

theorem wit_LoopOutputsThroughTheMirrors_silence :
    (let s := mirrorAt {} .duplex; (s.lane .A).isRunning = true ∧ s.silent .A = true) ∧
    (let s : State := { laneA := { run := .running } }; (s.lane .A).isRunning = true ∧ s.silent .A = false ∧ s.inNet = true ∧ (s.laneCtl.stat .A).failedAt ≠ some s.now) := by decide

/-- SIMPLEX on lane A at epoch 9 with one held set-point result of loop 3 due at `d`. -/
def resultAt (d : Nat) (au : Authority) : State :=
  { laneA := { run := .active }, laneCtl := { redundancy := .simplexA }, mode := { authority := au }
    tick := { epoch := 9, held := [{ kind := .loopSp, target := 3, source := 4, due := d, copyA := some (.word 0x40000000) }] } }

theorem wit_ModelResultsAndSteps_release :
    (∀ d ∈ [9, 8, 2], (let s := resultAt d .predictive;
      s.laneCtl.redundancy = .simplexOn .A ∧ s.laneCtl.active = .A ∧ s.laneCtl.held = false ∧ s.tick.lastDue .loopSp 3 = none ∧ d ≤ s.now)) ∧
    (resultAt 9 .predictive).now ≤ 9 + (resultAt 9 .predictive).tick.staleLimit ∧ 2 + (resultAt 2 .inner).tick.staleLimit < (resultAt 2 .inner).now ∧
    (resultAt 9 .inner).mode.authority ≠ .predictive ∧
    (({ kind := .loopSp, target := 3, source := 4, due := 9, copyA := some (.word 0x40000000) } : HeldResult).copy .A = some (.word 0x40000000)) := by decide

theorem wit_ModelResultsAndSteps_steps :
    (let s : State := { tick := { windowOpen := true, capReleased := true }, laneCtl := { redundancy := .duplex } };
      s.tick.windowOpen = true ∧ s.inNet = false ∧ s.tick.held = [] ∧ s.laneCtl.others = [] ∧ s.tick.capReleased = true ∧ s.lateNow = false) ∧
    (let img : Image := {};
      let s : State := { laneA := { run := .active, step := { running := true, epoch := 4 } }, img := { activeSlot := some 0, images := [img] } };
      s.image = some img ∧ (s.lane .A).isRunning = true ∧ (s.lane .A).step.running = true ∧ (s.lane .A).stepDone img = true ∧ (s.lane .A).model.invalidRun < 7) ∧
    (let s : State := { tick := { epoch := 20 }, laneA := { run := .active, step := { running := true, epoch := 4, due := 8 } } };
      s.stepOverdue (s.lane .A) = true) := by decide

/-- A state in which tile 0 of lane A, its row running and its pc at 0x100, executes the word op · 2^26 + w. -/
def tileAt (op : Nat) (w : BitVec 26) (x : Tile) : State :=
  { laneA := { run := .running
               array := { tiles := [(0, { x with active := true, seq := .run, pc := 0x100 })], rows := [(0, .running)]
                          memory := (leBytes 4 (op * 2 ^ 26 + w.toNat)).foldl (fun (m : Mem × Nat) b => (m.1.write m.2 b, m.2 + 1)) ([], 0x30400) |>.1 } } }

theorem wit_TileScalarIntegers :
    (let s := tileAt 0x01 0x0221800 { sregs := [(2, 7)] };
      s.tileRuns .A 0 0x01 0x0221800 = true ∧ fld 0x0221800 5 0 = 0 ∧ fld 0x0221800 10 6 ≤ 0x10) ∧
    ((tileAt 0x01 0x0221801 {}).tileRuns .A 0 0x01 0x0221801 = true ∧ fld 0x0221801 5 0 ≠ 0) ∧
    (tileAt 0x02 0x0218005 {}).tileRuns .A 0 0x02 0x0218005 = true ∧ (tileAt 0x03 5 {}).tileRuns .A 0 0x03 5 = true ∧
    (tileAt 0x04 5 {}).tileRuns .A 0 0x04 5 = true ∧ (tileAt 0x05 5 {}).tileRuns .A 0 0x05 5 = true ∧
    ((tileAt 0x06 0x0208005 {}).tileRuns .A 0 0x06 0x0208005 = true ∧ fld 0x0208005 20 16 = 0) ∧
    ((tileAt 0x07 0x0210044 {}).tileRuns .A 0 0x07 0x0210044 = true ∧ fld 0x0210044 15 7 = 0 ∧ fld 0x0210044 6 5 ≠ 3) := by decide +kernel

theorem wit_TileScalarFloats :
    ((tileAt 0x08 0x02118C0 {}).tileRuns .A 0 0x08 0x02118C0 = true ∧ fld 0x02118C0 3 0 = 0 ∧ fld 0x02118C0 10 6 = 3) ∧
    ((tileAt 0x08 0x0210240 {}).tileRuns .A 0 0x08 0x0210240 = true ∧ 8 < fld 0x0210240 10 6) ∧
    ((tileAt 0x09 0x02118C0 {}).tileRuns .A 0 0x09 0x02118C0 = true ∧ fld 0x02118C0 10 6 ≤ 3) ∧
    ((tileAt 0x0A 0x02100C0 {}).tileRuns .A 0 0x0A 0x02100C0 = true ∧ fld 0x02100C0 15 11 = 0 ∧ fld 0x02100C0 10 6 ≤ 5 ∧ fld 0x02100C0 3 0 = 0) := by decide +kernel

theorem wit_TileLoadsAndStores :
    ((tileAt 0x0C 0x0208000 {}).tileRuns .A 0 0x0C 0x0208000 = true ∧ sizeBytes (fld 0x0208000 15 14) = 4 ∧ tileAddr 0 (sfld 0x0208000 14) = 0) ∧
    ((tileAt 0x0D 0x0208004 {}).tileRuns .A 0 0x0D 0x0208004 = true ∧ fld 0x0208004 15 14 ≠ 3 ∧ tileAddr 0 (sfld 0x0208004 14) = 4) ∧
    ((tileAt 0x0D 0x0208002 {}).tileRuns .A 0 0x0D 0x0208002 = true ∧ tileAddr 0 (sfld 0x0208002 14) % 4 ≠ 0) ∧
    ((tileAt 0x0C 0x020BFFC {}).tileRuns .A 0 0x0C 0x020BFFC = true ∧ 0x2E000 < tileAddr 0 (sfld 0x020BFFC 14) + 4) ∧
    ((tileAt 0x0E 0x0430001 {}).tileRuns .A 0 0x0E 0x0430001 = true ∧ fld 0x0430001 15 12 = 0 ∧ fld 0x0430001 16 16 = 1 ∧ fld 0x0430001 21 17 ≠ 0 ∧
      tileAddr 0 (sfld 0x0430001 12 * 64) = 64) ∧
    (tileAt 0x0F 0x0430001 {}).tileRuns .A 0 0x0F 0x0430001 = true ∧
    ((tileAt 0x10 0x0830001 {}).tileRuns .A 0 0x10 0x0830001 = true ∧ fld 0x0830001 22 22 = 0 ∧ fld 0x0830001 15 12 = 0 ∧ fld 0x0830001 21 17 ≠ 0) ∧
    (tileAt 0x11 0x0830001 {}).tileRuns .A 0 0x11 0x0830001 = true := by decide +kernel

theorem wit_TileControlAndSpecials_flow :
    ((tileAt 0x14 0x0221180 {}).tileRuns .A 0 0x14 0x0221180 = true ∧ fld 0x0221180 15 12 = 1 ∧ 0x100 ≤ fld 0x0221180 11 0) ∧
    ((tileAt 0x14 0x0207180 {}).tileRuns .A 0 0x14 0x0207180 = true ∧ fld 0x0207180 15 12 = 7 ∧ fld 0x0207180 20 16 = 0) ∧
    ((tileAt 0x14 0x0207080 {}).tileRuns .A 0 0x14 0x0207080 = true ∧ fld 0x0207080 15 12 = 7 ∧ fld 0x0207080 11 0 < 0x100) ∧
    ((tileAt 0x15 0x0200180 {}).tileRuns .A 0 0x15 0x0200180 = true ∧ fld 0x0200180 20 12 = 0 ∧ fld 0x0200180 25 21 ≠ 0) ∧
    (let s := tileAt 0x16 0x0200000 { sregs := [(1, 0x180)] }; s.tileRuns .A 0 0x16 0x0200000 = true ∧ 0x100 ≤ (((s.lane .A).array.tile 0).s 1).toNat % 0x1000) := by
  decide +kernel

theorem wit_TileControlAndSpecials_rest :
    (tileAt 0x17 0 {}).tileRuns .A 0 0x17 0 = true ∧ ((tileAt 0x18 0 {}).tileRuns .A 0 0x18 0 = true ∧ (((tileAt 0x18 0 {}).lane .A).array.tile 0).dmaq = []) ∧
    (let s := tileAt 0x18 0 { dmaq := [{ toSegment := true, channel := 0, sram := 0, offset := 0, length := 64 }] };
      s.tileRuns .A 0 0x18 0 = true ∧ ((s.lane .A).array.tile 0).dmaq ≠ []) ∧
    ((tileAt 0x34 0x0200001 {}).tileRuns .A 0 0x34 0x0200001 = true ∧ fld 0x0200001 20 16 = 0 ∧ fld 0x0200001 15 0 = 1) ∧
    ((tileAt 0x34 0x0200004 {}).tileRuns .A 0 0x34 0x0200004 = true ∧ fld 0x0200004 15 0 = 4) ∧
    ((tileAt 0x35 0x0200041 {}).tileRuns .A 0 0x35 0x0200041 = true ∧ fld 0x0200041 15 8 = 0) := by decide +kernel

theorem wit_TileVectorsAndMac_mac :
    ((tileAt 0x20 0x0804800 {}).tileRuns .A 0 0x20 0x0804800 = true ∧ fld 0x0804800 14 12 ≠ 5 ∧ fld 0x0804800 10 0 = 0) ∧
    ((tileAt 0x20 0x0005800 {}).tileRuns .A 0 0x20 0x0005800 = true ∧ fld 0x0005800 14 12 = 5 ∧ fld 0x0005800 25 23 % 2 = 0) ∧
    ((tileAt 0x20 0x0805800 {}).tileRuns .A 0 0x20 0x0805800 = true ∧ fld 0x0805800 14 12 = 5 ∧ fld 0x0805800 25 23 % 2 = 1) := by decide +kernel

theorem wit_TileVectorsAndMac_vop :
    ((tileAt 0x22 0x0480340 {}).tileRuns .A 0 0x22 0x0480340 = true ∧ fld 0x0480340 13 11 = 0 ∧ fld 0x0480340 10 6 = 0x0D ∧ fld 0x0480340 3 0 = 0 ∧
      vop 0 0x0D 0 0 0 0 = none) ∧
    ((tileAt 0x22 0x0483340 {}).tileRuns .A 0 0x22 0x0483340 = true ∧ fld 0x0483340 13 11 = 6 ∧ vop 6 0x0D 0 0 3 5 = some (1, 0)) ∧
    ((tileAt 0x23 0x0480000 {}).tileRuns .A 0 0x23 0x0480000 = true ∧ (vcvt 0 0 0 0 false 0 0).isSome = true ∧ vcvt 5 0 0 0 false 0 0 = none) ∧
    (tileAt 0x23 0x04A8000 {}).tileRuns .A 0 0x23 0x04A8000 = true ∧ fld 0x04A8000 17 15 = 5 := by decide +kernel

theorem wit_TileVectorsAndMac_rest :
    ((tileAt 0x24 0x0443600 {}).tileRuns .A 0 0x24 0x0443600 = true ∧ fld 0x0443600 11 9 = 3 ∧ fld 0x0443600 16 12 = 3 ∧ fld 0x0443600 8 0 = 0) ∧
    ((tileAt 0x26 0x0920000 {}).tileRuns .A 0 0x26 0x0920000 = true ∧ fld 0x0920000 11 0 = 0 ∧ fld 0x0920000 16 12 ≤ 6) ∧
    ((tileAt 0x27 0x0490000 {}).tileRuns .A 0 0x27 0x0490000 = true ∧ fld 0x0490000 15 0 = 0 ∧ fld 0x0490000 18 16 ≤ 2) := by decide +kernel

theorem wit_AccumulatorMoves :
    ((tileAt 0x21 0x0880000 {}).tileRuns .A 0 0x21 0x0880000 = true ∧ fld 0x0880000 15 0 = 0 ∧ fld 0x0880000 18 16 = 0) ∧
    ((tileAt 0x21 0x0890000 {}).tileRuns .A 0 0x21 0x0890000 = true ∧ fld 0x0890000 18 16 = 1) ∧
    ((tileAt 0x21 0x0820000 {}).tileRuns .A 0 0x21 0x0820000 = true ∧ fld 0x0820000 18 16 = 2 ∧ fld 0x0820000 22 19 = 0) ∧
    ((tileAt 0x21 0x08A0000 {}).tileRuns .A 0 0x21 0x08A0000 = true ∧ fld 0x08A0000 18 16 = 2 ∧ fld 0x08A0000 22 19 ≠ 0) ∧
    ((tileAt 0x21 0x0830000 {}).tileRuns .A 0 0x21 0x0830000 = true ∧ 2 < fld 0x0830000 18 16) := by decide +kernel

theorem wit_Int4Elements : (vecBytes (0xA5 : BitVec 512))[0]? = some 0xA5 ∧ (elems (elWidth 1) (elCount 1) (0xA5 : BitVec 512))[1]? = some 10 := by decide +kernel

theorem wit_TileNetworkAndDma_send :
    (let s := tileAt 0x30 0x0420000 { routes := [(1, { dest := .tile 5, channel := 2, maxFlits := 4, credits := 1 })] };
      s.tileRuns .A 0 0x30 0x0420000 = true ∧ fld 0x0420000 25 22 = 1 ∧ fld 0x0420000 16 12 < 4 ∧ fld 0x0420000 11 0 = 0 ∧
        Tab.get {} ((s.lane .A).array.tile 0).routes 1 = ({ dest := .tile 5, channel := 2, maxFlits := 4, credits := 1 } : Route)) ∧
    (let s := tileAt 0x30 0x0420000 { routes := [(1, { dest := .edge 3, maxFlits := 4 })] }; s.tileRuns .A 0 0x30 0x0420000 = true) ∧
    (tileAt 0x30 0x0420000 {}).tileRuns .A 0 0x30 0x0420000 = true := by decide +kernel

theorem wit_TileNetworkAndDma_rest :
    (let s := tileAt 0x31 0x0400000 { channels := [(1, { kind := .message, slotCount := 2, tokens := 1 })] };
      s.tileRuns .A 0 0x31 0x0400000 = true ∧ fld 0x0400000 25 22 = 1 ∧ fld 0x0400000 21 0 = 0) ∧
    (tileAt 0x31 0x0400000 {}).tileRuns .A 0 0x31 0x0400000 = true ∧
    (let s := tileAt 0x32 0x0420000 { channels := [(1, { kind := .input, slotCount := 2, tokens := 1 })] };
      s.tileRuns .A 0 0x32 0x0420000 = true ∧ fld 0x0420000 25 22 = 1 ∧ fld 0x0420000 11 0 = 0) ∧
    (let s := tileAt 0x33 0x2010880 { channels := [(0, { kind := .dma, slotCount := 2 })], sregs := [(2, 64)] };
      s.tileRuns .A 0 0x33 0x2010880 = true ∧ fld 0x2010880 24 21 = 0 ∧ fld 0x2010880 10 6 = 2 ∧ fld 0x2010880 5 0 = 0) := by decide +kernel

/-- Lane A running with a tile array. -/
def arrayAt (a : ArraySt) : State := { laneA := { run := .running, array := a } }

theorem wit_TileArrayEvents_tile :
    (let s := arrayAt { tiles := [(0, { active := true, blocks := [{ entry := 0x100 }] })], rows := [(0, .running)] };
      (s.lane .A).isRunning = true ∧ (s.lane .A).array.row (0 / 32) = .running ∧ ((s.lane .A).array.tile 0).active = true ∧
        ((s.lane .A).array.tile 0).blocks.find? ((s.lane .A).array.tile 0).blockReady = some { entry := 0x100 }) ∧
    (let s := arrayAt { tiles := [(0, { channels := [(1, { kind := .message, slotCount := 2, slotSize := 64, base := 0x100 })] })], rows := [(0, .running)]
                        flight := [{ dest := .tile 0, channel := 1, payload := [5] }] };
      (s.lane .A).array.row (0 / 32) = .running ∧ 0 < (Tab.get ({} : Channel) ((s.lane .A).array.tile 0).channels 1).slotCount) ∧
    (let s := arrayAt { rowPolicy := 1, flight := [{ dest := .tile 0, channel := 1, payload := [5] }] };
      (s.lane .A).array.row (0 / 32) = .gated ∧ (s.lane .A).array.policy (0 / 32) = 1) ∧
    (arrayAt { creditsDue := [(0, 3)] }).laneA.array.creditsDue = [((0 : Fin 1024).val, (3 : Fin 16).val)] ∧
    ((arrayAt { tiles := [(0, { dmaq := [{ toSegment := true, channel := 0, sram := 0, offset := 0, length := 64 }] })] }).laneA.array.tile 0).dmaq ≠ [] ∧
    (arrayAt { rows := [(4, .waking)] }).laneA.array.row 4 = .waking := by decide

theorem wit_TileArrayEvents_edge :
    (let img : Image := { outputs := [{ index := 2, kind := 1, count := 1 }] };
      let s : State := { arrayAt { flight := [{ dest := .edge 3, channel := 0, payload := [2, 0, 0, 0, 0, 0, 0, 0, 1, 2, 3, 4] }] } with
                         img := { activeSlot := some 0, images := [img] } };
      s.image = some img ∧ u16At [2, 0, 0, 0, 0, 0, 0, 0, 1, 2, 3, 4] 0 = 2 ∧ u32At [2, 0, 0, 0, 0, 0, 0, 0, 1, 2, 3, 4] 4 = 0 ∧
        ({ index := 2, kind := 1, count := 1 } : OutBinding).size = 4) ∧
    (arrayAt { flight := [{ dest := .edge 3, channel := 0, payload := [2, 0, 0, 0, 0, 0, 0, 0] }] }).image = none := by decide

/-- Lane A active with slot 3 being staged by a running command, or the reference model standing in it. -/
def stageAt (imgs : List Image) : State :=
  { laneA := { run := .active }, laneCtl := { redundancy := .simplexA }
    proto := { running := [{ packet := { sq := 0, tag := 9, opcode := 0x0301, flags := 0, block := [], id := 4 }, commit := 2 }] }
    img := { staging := [(3, some (4, 1))], images := imgs } }

theorem wit_ImageActivationInOrder_stage :
    (Tab.get none (stageAt []).img.staging 3 = some (4, 1) ∧ (stageAt []).anyLane = true ∧
      (match ({ stageAt [] with img := { (stageAt []).img with staging := Tab.set none (stageAt []).img.staging 3 none } } : State).checkSlot 3 with
        | .error _ => true | _ => false) = true ∧ (stageAt []).runningCmd 4 = some { packet := { sq := 0, tag := 9, opcode := 0x0301, flags := 0, block := [], id := 4 }, commit := 2 }) := by
  decide +kernel

theorem wit_ImageActivationInOrder_fits :
    (let i : Image := { slot := 3, reference := true, variants := [{ fold := 1 }] };
      let u := stageAt [i];
      (match u.checkSlot 3 with | .ok j => j.slot | _ => 9) = 3 ∧ (match u.fitReply i with | .ok _ => true | _ => false) = true) := by decide +kernel

theorem wit_ImageActivationInOrder_phases :
    (({ img := { act := .preparing } } : State).img.act = .preparing) ∧
    (let s : State := { img := { act := .prepared } }; s.img.act = .prepared ∧ s.stepping = false ∧ s.mode.authority ≠ .predictive) ∧
    (let s : State := { laneA := { run := .active }, img := { act := .boundary, images := [{}] } };
      s.img.act = .boundary ∧ s.actImage = some {} ∧ s.img.actInherit = false ∧ (s.lane .A).isRunning = true) ∧
    (({ img := { act := .loaded } } : State).img.act = .loaded) ∧
    (let s : State := { img := { act := .started, images := [{}] } }; s.img.act = .started ∧ s.actImage = some {}) := by decide

/-- Lane A running under an active image with chip 7 as given. -/
def chipAt (p : ChipTh) (epoch : Nat) : State :=
  { laneA := { run := .active, model := { chips := Tab.set {} [] 7 p } }, tick := { epoch := epoch }, img := { activeSlot := some 0 } }

theorem wit_ModelRuntimeEvents :
    (chipAt {} 36000001).main.model.windowStart + 36000000 ≤ (chipAt {} 36000001).now ∧
    (chipAt {} 9).main.model.sampledWindow ≠ some (chipAt {} 9).main.model.windowStart ∧
    ((chipAt {} 9).lane .A).isRunning = true ∧ (chipAt {} 9).img.activeSlot.isSome = true ∧
    (let p : ChipTh := { suspectB := true, agreeRun := 100000 };
      Tab.get {} ((chipAt p 9).lane .A).model.chips 7 = p ∧ p.suspectB = true ∧ (chipAt p 9).cfg.thermal.disagreeTicks ≤ p.agreeRun) ∧
    ({ laneA := { run := .active }, laneB := { run := .standby } } : State).bothLanes = true := by decide

theorem wit_ModelRuntimeEvents_digest :
    Config.tableDigest ({} : State).laneA.entry = Config.tableDigest ({} : State).laneB.entry := rfl

theorem wit_ModelRuntimeEvents_suspect :
    (let p : ChipTh := { present := true, disagreeRun := 100000, past := [(9, { lo := 0x42200000, hi := 0x42200000 })] };
      let s := { chipAt p 29 with tick := { epoch := 29, frame := { chips := [(7, { hotSpot := 0x0A00, hotSpotAux := 0x0B00 })] } } };
      p.present = true ∧ s.cfg.thermal.disagreeTicks ≤ p.disagreeRun ∧
        p.farther s.now { a := some 0x0A00, b := some 0x0B00 } = some false) := by decide +kernel

theorem wit_GovernorRows :
    (let s : State := { laneA := { run := .active, gov := { jobs := [(2, { ceilRun := 10 })] } }, cfg := { jobs := [(2, some { paceEnable := true })] } };
      (s.lane .A).isRunning = true ∧ Tab.get none s.cfg.jobs 2 = some { paceEnable := true } ∧ ((s.lane .A).govJob 2).syncActive = false ∧
        (s.cfg.paceOf 2).confirm ≤ ((s.lane .A).govJob 2).ceilRun) ∧
    (let s : State := { laneA := { run := .active, gov := { jobs := [(2, { syncActive := true, noCeilRun := 10 }), (3, { syncActive := true })] } } };
      ((s.lane .A).govJob 2).syncActive = true ∧ (s.cfg.paceOf 2).confirm ≤ ((s.lane .A).govJob 2).noCeilRun ∧
        ((s.lane .A).govJob 3).noCeilRun < (s.cfg.paceOf 3).confirm) ∧
    (let s : State := { laneA := { run := .active, gov := { sheds := [(255, { active := true, leftW := 5, clearRun := 100 }), (1, { active := true })]
                                                            chips := [(9, { overRun := 10 })] } }, tick := { epoch := 10000 } };
      (Tab.get ({} : Shed) (s.lane .A).gov.sheds 255).active = true ∧ 0 < (Tab.get ({} : Shed) (s.lane .A).gov.sheds 255).leftW ∧
        (Tab.get ({} : Shed) (s.lane .A).gov.sheds 255).lastPass + 10000 ≤ s.now ∧ (Tab.get ({} : Shed) (s.lane .A).gov.sheds 1).clearRun < 100 ∧
        10 ≤ ((s.lane .A).govChip 9).overRun ∧ ((s.lane .A).govChip 8).overRun < 10) := by decide

theorem wit_EventRecorder :
    State.reset.evt.rmLost = 0 ∧ State.reset.evt.rmQueue.length < 512 ∧ State.reset.gen.rmRestart = false ∧ State.reset.power.failing = false ∧
    (let s : State := { laneA := { run := .active } }; (s.lane .A).isRunning = true ∧ (s.lane .A).staging.lost = 0 ∧ (s.lane .A).staging.queue.length < 4096) ∧
    (let s : State := { evt := { rmLost := 3 } }; 0 < s.evt.rmLost ∧ s.evt.rmQueue.length < 512) ∧
    (let s : State := { gen := { rmRestart := true } }; s.gen.rmRestart = true ∧ s.gen.rmReady = false) ∧
    (let s : State := { gen := { rmReady := true } }; s.gen.rmRestart = false ∧ s.gen.rmReady = true) ∧
    (let s : State := { evt := { buffer := [{ seq := 0, event := { cls := 1, ty := 2 } }], countPend := [(4, 2)] } };
      s.evt.buffer ≠ [] ∧ s.evt.ring.length < ringSize ∧ Tab.get 0 s.evt.countPend (4 : Fin 7).val = 2 ∧ s.evt.countRecs = []) ∧
    (let c : Capture := { slot := 0, id := 1, state := .writing, trigger := 5 };
      let s : State := { tick := { epoch := 20005 }, evt := { captures := [c] } }; s.evt.captures = [c] ∧ c.state = .writing ∧ c.trigger + 20000 ≤ s.now) ∧
    (({ slot := 0, id := 1 } : Capture).state = .waiting) := by decide

theorem wit_EventRecorder_full : 512 ≤ ({ evt := { rmQueue := List.replicate 512 { cls := 0, ty := 2 } } } : State).evt.rmQueue.length :=
  Nat.le_of_eq List.length_replicate.symm

/-- An update phase with the update block as given, in DUPLEX. -/
def updateAt (u : UpdatePhase) (x : UpdSt) : State :=
  { laneA := { run := .active }, laneB := { run := .standby }, laneCtl := { redundancy := .duplex }, mode := { update := u }, upd := x
    tick := { epoch := 20000 } }

theorem wit_UpdateStepsAndTrial_handover :
    (let s : State := { updateAt .handover { step := 1 } with laneB := { run := .copy } };
      s.mode.update = .handover ∧ s.upd.rollingBack = false ∧ s.upd.failed = none ∧ (s.lane (s.upd.onNew.headD s.laneCtl.active.other)).run = .copy) ∧
    (∀ k ∈ [3, 4, 6], (updateAt .handover { step := k }).upd.step = k ∧ (updateAt .handover { step := k }).laneCtl.redundancy = .duplex ∧
      (updateAt .handover { step := k }).upd.stepEpoch + 10000 ≤ (updateAt .handover { step := k }).now) ∧
    (let s := updateAt .handover { step := 7 }; s.upd.step = 7 ∧ s.gen.rmRestart = false ∧ s.upd.swapped = s.upd.rollingBack ∧ s.upd.failed = none) := by decide

theorem wit_UpdateStepsAndTrial_trial :
    (let s := updateAt .trial { trialStart := 0, partsConfirmed := [1, 2, 4], recordWritten := true, completionWritten := true };
      s.inTrial = true ∧ s.partHealthy 5 = true ∧ s.partSick 5 = false ∧ s.partHealthy 3 = true ∧ s.partSick 3 = false ∧
        s.upd.partsConfirmed.contains 5 = false ∧ s.confirmable = false) ∧
    (let s := updateAt .trial { partsConfirmed := [1, 2, 3, 4, 5] }; s.confirmable = true) ∧
    (let s := updateAt .trial { failed := some 3 }; s.inTrial = true ∧ s.partSick 1 = true ∧ s.upd.cmd = none ∧ s.hitless = true ∧ s.upd.failed = some 3 ∧
      s.gen.rmRestart = false ∧ s.laneCtl.gap = false ∧ s.upd.rollbackAtReset = false ∧ s.upd.rollingBack = false) ∧
    (let s : State := { updateAt .trial { failed := some 3 } with laneCtl := { redundancy := .duplex, holdA := true } }; s.hitless = false ∧ s.partSick 1 = true) ∧
    (let s : State := { updateAt .trial {} with tick := { epoch := 100000000 } }; s.trialRemain = 0 ∧ s.inTrial = true ∧ s.confirmable = false) := by decide

/-- The Ringmaster up, lanes in DUPLEX, completion queue on, submission queue 0 with `n` bytes waiting. -/
def hostAt (n : Nat) : State :=
  { laneA := { run := .active }, laneB := { run := .standby }, laneCtl := { redundancy := .duplex }, gen := { rmReady := true }
    hif := { cqEnable := true, cqM := 6, sqs := [(0, { enable := true, n := 12, tail := n })] } }

/-- A NOP_ECHO packet of 36 bytes, and one with an undefined opcode. -/
def echoBytes (op : Nat) : List Byte :=
  le16 1 ++ le16 16 ++ le16 9 ++ le16 op ++ le32 7 ++ le16 0 ++ le16 0 ++ le16 1 ++ le16 20 ++ le32 0 ++ le32 1 ++ le32 2 ++ le32 3

theorem wit_PacketsFromFetchToCommit :
    ((hostAt 36).mayFetch 0 = true ∧ fetchCheck (hostAt 36).proto 36 (echoBytes 0x0101) = none ∧
      (fetchCheck (hostAt 36).proto 36 (echoBytes 0x0107)).isSome = true ∧ u16At (echoBytes 0x0107) 6 ∉ opcodes ∧ u16At (echoBytes 0x0107) 4 = 9 ∧
      (Tab.get ({} : Sq) (hostAt 36).hif.sqs 0).ring = 4096) ∧
    (let p : Packet := { sq := 0, tag := 7, opcode := 0x0101, flags := 0, block := [], id := 1 };
      let s : State := { hostAt 0 with proto := { fetched := [p] } };
      s.anyLane = true ∧ s.laneCtl.held = false ∧ s.proto.fetched.length ≤ 64 ∧ s.proto.barred p = false ∧
        (s.proto.fetched.foldl (fun n p => n + p.hdr + p.block.length) 0) ≤ 0x100000) ∧
    (let p : Packet := { sq := 0, tag := 7, opcode := 0x0101, flags := 0, block := [], id := 1 };
      let s : State := { hostAt 0 with proto := { delivered := [p] } };
      s.proto.delivered ≠ [] ∧ s.laneA.isRunning = s.laneB.isRunning ∧ s.anyLane = true) := by decide +kernel

theorem wit_CompletionsAndHeldResults :
    (let c : Completion := { id := 1, sq := 0, tag := 7, opcode := 0x0101, status := 0 };
      let s : State := { hostAt 0 with proto := { issued := [{ id := 1, sq := 0, tag := 7, opcode := 0x0101 }], ready := [c] } };
      s.hif.cqEnable = true ∧ s.hif.d3hot = false ∧ s.gen.rmRestart = false ∧ s.laneCtl.held = false ∧ s.proto.nextCompletion 0 = some c ∧ s.proto.barriers = [] ∧
        s.hif.cqTail + 1 ≠ 2 ^ s.hif.cqM ∧ s.proto.nextCompletion 1 = none) ∧
    (let s : State := { hif := { cqTail := 63, cqM := 6 } }; s.hif.cqTail + 1 = 2 ^ s.hif.cqM) ∧
    (let s : State := { hif := { cqCoal := 0x00100004, coalCount := 2, msixTable := [(3, 0)] } };
      0 < s.hif.coalCount ∧ bits s.hif.cqCoal.toNat 31 16 ≠ 0 ∧ bits s.hif.cqCoal.toNat 31 16 ≤ 16 ∧ (s.hif.msixDword 3).getLsbD 0 = false ∧ s.hif.d3hot = false) ∧
    (let h : HeldCmd := { tag := 5, sq := 0, id := 2, commit := 1, outcome := some { id := 2, sq := 0, tag := 5, opcode := 0x0301, status := 0 } };
      ({ held := [h] } : ProtoSt).held = [h] ∧ h.ready = false) := by decide

theorem wit_RegistersAndDoorbells_reads :
    0x30008 ∈ loRegs ∧ (State.reset.clearRc 0x30040).isSome = true ∧ State.reset.gen.rmRestart = false ∧ State.reset.tick.hold = false ∧
    (({ hif := { hiLatch := [(0x3000C, 5)] } } : State).hif.hiLatch.find? (·.1 = 0x30008 + 4) = some (0x30008 + 4, 5)) ∧
    ({ tick := { hold := true } } : State).tick.hold = true := by decide

theorem wit_RegistersAndDoorbells_writes :
    (let x := Tab.get ({} : Sq) (hostAt 0).hif.sqs 0; (64 : U32).toNat < x.ring ∧ (64 : U32).toNat % 4 = 0 ∧ x.ring ≤ (4096 : U32).toNat ∧ x.enable = true) ∧
    ((Tab.get ({} : Sq) State.reset.hif.sqs 3).enable = false ∧ 12 ≤ bits (0x8000000C : U32).toNat 4 0 ∧ (0x8000000C : U32).getLsbD 31 = true ∧
      (0 : U32).getLsbD 31 = false ∧ State.reset.hif.cqEnable = false ∧ bits (0x8000000C : U32).toNat 4 0 ≤ 16) ∧
    ((5 : U32).toNat < 2 ^ (hostAt 0).hif.cqM ∧ ((5 : U32).toNat + 2 ^ 6 - 0) % 2 ^ 6 ≤ ({ (hostAt 0).hif with cqFill := 5 } : HifSt).cqFill ∧ 2 ^ (hostAt 0).hif.cqM ≤ (64 : U32).toNat) ∧
    ((hostAt 0).laneA.run = .active ∧ State.reset.laneA.run = .reset ∧ (hostAt 0).mode.lifeCycle ≠ .returning) ∧
    (({ gen := { rmRestart := true } } : State).gen.rmRestart = true ∧ ({ hif := { latched := [(0x30020, 1)] } } : State).hif.latched = [(0x30020, 1)]) := by decide

/-- DUPLEX with DP_ADDR as given. -/
def dportAt (a : Nat) : State := { laneA := { run := .active }, laneB := { run := .standby }, laneCtl := { redundancy := .duplex }, dport := { addr := a } }

theorem wit_DeviceAddressSpace :
    ((dportAt 0x0400000000).refusal 0x0400000000 true = none ∧ (dportAt 0x0400000000).refusal 0x0400000000 false = none ∧
      (dportAt 0).mainLane = some .A ∧ ((dportAt 0).lane .B).isRunning = true) ∧
    ((dportAt 0x0600000000).refusal 0x0600000000 true = some 2 ∧ (dportAt 0).dport.err = false ∧ (dportAt 0x5000000000).refusal 0x5000000000 true = some 2) ∧
    (let s : State := { dportAt 0 with img := { slotState := [(0, 1)] } }; Tab.get 0 s.img.slotState (0 / 0x80000000) = 1 ∧ s.refusal 0 true = none) ∧
    (let s : State := { dportAt 0 with img := { activeSlot := some 0 } }; s.pinned 4 = true ∧ s.inNet = false) ∧
    (({ gen := { rmRestart := true } } : State).gen.rmRestart = true ∧ State.reset.inNet = true) := by decide

theorem wit_AttestationMailbox :
    (let s : State := { gen := { rmReady := true }, spdm := { phase := .algorithms, version := 0x13 } };
      s.gen.rmRestart = false ∧ s.gen.rmReady = true ∧ s.spdm.phase = .algorithms) ∧
    (let s : State := { gen := { rmReady := true } }; s.spdm.phase = .start ∧ s.spdm.phase ≠ .algorithms ∧ s.gen.rmRestart = false) ∧
    (({ spdm := { phase := .capabilities } } : State).spdm.phase = .capabilities ∧ 1 < (2 : Byte).toNat) ∧
    ({ gen := { rmRestart := true } } : State).gen.rmRestart = true ∧ 0 ≤ slotChain.length := by
  refine ⟨by decide, by decide, by decide, rfl, Nat.zero_le _⟩

theorem wit_HostSideResets :
    (let c : Completion := { id := 1, sq := 0, tag := 7, opcode := 0x0101, status := 0 };
      let s : State := { proto := { ready := [c] } }; s.proto.ready = [c] ∧ c.save = []) ∧
    (let s : State := { tick := { hold := true } }; s.proto.ready = [] ∧ s.tick.hold = true) ∧
    ({ hif := { d3hot := true } } : State).hif.d3hot = true ∧
    (let p : Packet := { sq := 0, tag := 7, opcode := 0x0101, flags := 0, block := [], id := 1 };
      let s : State := { proto := { delivered := [p], committed := [{ packet := p, epoch := 4 }] } }; p ∈ s.proto.delivered) := by
  refine ⟨by decide, by decide, rfl, by simp⟩

theorem wit_ModuleResets :
    State.reset.mode.startPhase = .rmBoot ∧ State.reset.mode.update = .idle ∧ (State.reset.lane .A).run = .reset ∧ State.reset.laneCtl.hold .B = false ∧
    ({ laneCtl := { holdA := true } } : State).laneCtl.hold .A = true ∧ ({ mode := { startPhase := .done } } : State).mode.startPhase ≠ .rmBoot ∧
    ({ lifeCycle := .operational } : ModeSt).lifeCycle ≠ .blank := by decide

/-- A block of version 1 with the size of its content, in a packet on queue 2. -/
def pktOf (body : List Byte) : Packet := { sq := 2, tag := 9, opcode := 0, flags := 0, block := le16 1 ++ le16 (4 + body.length) ++ body }

/-- DUPLEX, OPERATIONAL, out of the Safety Net, with nothing in the module. -/
def readyAt : State :=
  { laneA := { run := .active }, laneB := { run := .standby }, laneCtl := { redundancy := .duplex }, gen := { rmReady := true }, mode := { lifeCycle := .operational } }

theorem wit_accepts (p : Packet) (h : p.async = false) : readyAt.accepts p :=
  ⟨fun i hi => absurd hi (by simp [readyAt]), fun i hi => absurd hi (by simp [readyAt]), by decide, h⟩

theorem wit_serves : readyAt.serves := by unfold State.serves; decide

theorem wit_CommandChecks :
    (let p : Packet := { sq := 2, tag := 9, opcode := 0, flags := 0, block := le16 1 ++ le16 12 ++ le32 0 };
      p.async = false ∧ 4 ≤ p.block.length ∧ u16At p.block 2 ≠ p.block.length) ∧
    (let p : Packet := { sq := 2, tag := 9, opcode := 0, flags := 0, block := le16 2 ++ le16 8 ++ le32 0 };
      p.async = false ∧ p.block.length ≠ 0xFFFF ∧ u16At p.block 2 = p.block.length ∧ u16At p.block 0 ≠ 1) ∧
    ((pktOf (le32 0)).blockOk 8 [] = true ∧ State.reset.anyLane = false ∧ State.reset.laneCtl.holdA = false ∧
      ({ laneCtl := { holdA := true, holdB := true } } : State).anyLane = false) ∧
    (let p : Packet := { pktOf (le8 3 ++ zeros 3) with flags := 1 };
      p.async = true ∧ p.blockOk 8 [(5, 3)] = true ∧ u8At p.block 4 < 8 ∧ readyAt.img.activeSlot ≠ some 3 ∧ readyAt.img.staging = [] ∧
        readyAt.proto.held = [] ∧ readyAt.proto.dropIds = [] ∧ readyAt.proto.barriers = [] ∧ readyAt.proto.issued = []) := by decide

theorem wit_GeneralCommands :
    ((pktOf (zeros 16)).blockOk 20 [(4, 4)] = true ∧ (pktOf (zeros 4)).blockOk 8 [(4, 4)] = true ∧ (pktOf []).async = false) ∧
    (let p := pktOf (le16 1 ++ le16 0 ++ le64 0x1000 ++ le32 0xFFFFF8 ++ le32 8);
      p.blockOk 16 [(6, 2)] = true ∧ 24 ≤ p.block.length ∧ u16At p.block 4 = 1 ∧ u64At p.block 8 % 4 = 0 ∧ u32At p.block 16 + u32At p.block 20 ≤ 0x1000000 ∧
        u32At p.block 16 % 4 = 0 ∧ u32At p.block 20 % 4 = 0 ∧ 4 ≤ u32At p.block 20 ∧ p.async = false) ∧
    (let h : HeldCmd := { tag := 5, sq := 0, id := 2, commit := 1, ready := true, outcome := some { id := 2, sq := 0, tag := 5, opcode := 0x0301, status := 0 } };
      let s : State := { readyAt with proto := { held := [h] } }; let p := pktOf (le32 5);
      s.anyLane = true ∧ (∀ x ∈ s.proto.held, x.tag ≠ p.tag) ∧ s.proto.held.find? (fun (x : HeldCmd) => x.tag = w32 (u32At p.block 4)) = some h ∧ h.ready = true ∧
        h.outcome.isSome = true ∧ s.proto.held.find? (fun (x : HeldCmd) => x.tag = 6) = none) ∧
    (let i : Issued := { id := 0, sq := 1, tag := 3, opcode := 0x0301 };
      let s : State := { readyAt with proto := { issued := [i], nextId := 1 } };
      (∀ x ∈ s.proto.issued, x.tag ≠ (pktOf (zeros 4)).tag) ∧ i.id < s.proto.nextId ∧ namesQueue (u8At (pktOf (zeros 4)).block 4) i.sq = true ∧
        s.proto.barriers = [] ∧ s.proto.running = [] ∧ (pktOf (zeros 4)).blockOk 8 [(6, 2)] = true ∧ u8At (pktOf (zeros 4)).block 5 = 0) := by decide

/-- The block of a LOOP_SET_POINT that sets slot 3 to 20.0. -/
def setPointBlock : Packet := pktOf (le16 1 ++ le16 0 ++ le8 3 ++ zeros 3 ++ leW 0x41A00000)

/-- Serving, with an accepted slot 3 whose set point the host gives. -/
def loopAt : State := { readyAt with cfg := { loops := [(3, { accepted := true, spSrc := 2, spMin := 0, spMax := 0x42C80000 })] } }

theorem wit_LoopAndModelCommands_loops :
    ((setPointBlock.blockOk 16 [(6, 2), (9, 3)] = true ∧ u16At setPointBlock.block 4 = 1 ∧ u8At setPointBlock.block 8 = 3 ∧ F32.finite (f32At setPointBlock.block 12) = true ∧
        F32.le 0 (f32At setPointBlock.block 12) = true ∧ F32.le (f32At setPointBlock.block 12) 0x42C80000 = true ∧
        (Tab.get ({} : LoopDesc) loopAt.cfg.loops 3).accepted = true ∧ (Tab.get ({} : LoopDesc) loopAt.cfg.loops 3).spSrc = 2) ∧
      loopAt.anyLane = true ∧ loopAt.mode.lifeCycle = .operational ∧ loopAt.inNet = false) ∧
    (let p := pktOf (le8 3 ++ le8 2 ++ le16 0 ++ le32 0); p.blockOk 12 [] = true ∧ u8At p.block 5 ≤ 2 ∧ u16At p.block 6 = 0 ∧
      (Tab.get ({} : LoopDesc) loopAt.cfg.loops 3).rackIn loopAt.cfg .commission = false) ∧
    (let p := pktOf (le8 255 ++ le8 0 ++ le16 1 ++ le64 0x0400000000); p.blockOk 16 [(5, 1)] = true ∧ u8At p.block 4 + u16At p.block 6 ≤ 256 ∧
      addrOk (u64At p.block 8) (24 + 64 * 1) = true) := by decide +kernel

/-- A LOOP_CONFIGURE of one descriptor: slot 5 disabled. -/
def offDescriptor : Packet :=
  pktOf (le16 1 ++ le16 0 ++ (le16 1 ++ le16 624 ++ le8 5 ++ le8 0xFF ++ le16 0 ++ le8 1 ++ zeros 1 ++ le8 4 ++ zeros 5) ++
    (leW 0 ++ leW 0x3F800000 ++ leW 0 ++ leW 0 ++ leW 0x3F800000 ++ leW 0 ++ leW 0 ++ leW 0 ++ leW 0x42C80000 ++ leW 0 ++ leW 0 ++ leW 0 ++ leW 0x3F800000) ++
    zeros 20 ++ leW 0x3F800000 ++ zeros 20 ++ zeros 512)

theorem wit_LoopAndModelCommands_configure :
    (match loopShape offDescriptor with | .ok _ => true | .error _ => false) = true ∧ firstTwice [descSlot offDescriptor.block 8] = none ∧
      u8At offDescriptor.block (8 + 15) ≤ 32 ∧ u16At offDescriptor.block 4 = 1 ∧ bit (u16At offDescriptor.block 6) 0 = false ∧
      checkLoops (readyAt.cfg.putAll [CfgItem.loop 5 (descAt offDescriptor.block 8)]).loops [5] readyAt.cfg.busOut = none := by decide +kernel

theorem wit_LoopAndModelCommands_model :
    (let p := pktOf (le8 3 ++ zeros 3); p.blockOk 8 [(5, 3)] = true ∧ p.blockOk 8 [(6, 2)] = true ∧ p.block.length = 8 ∧ u8At p.block 5 ≤ 1 ∧
      readyAt.img.activeSlot ≠ some 3 ∧ Tab.get none readyAt.img.staging 3 = none) ∧
    (let i : Image := { slot := 3, reference := true, hasTable := true }; let s : State := { readyAt with img := { images := [i], activeSlot := some 3, slotState := [(3, 2)] } };
      s.image = some i ∧ i.hasTable = true ∧ s.serves ∧ s.main.model.fault = false ∧ s.img.images.find? (·.slot = 3) = some i ∧ Tab.get 0 s.img.slotState 3 ≠ 0) ∧
    (let i : Image := { slot := 3, reference := true }; let s : State := { readyAt with img := { images := [i], slotState := [(3, 1)] } };
      (match s.checkSlot 3 with | .ok j => decide (j = i) | .error _ => false) = true ∧ s.img.activeSlot ≠ some 3) ∧
    (let p := pktOf (le8 0 ++ zeros 3 ++ (le16 0 ++ le16 2 ++ le16 4094 ++ le16 2) ++ le64 0x0400000000 ++ zeros 8);
      p.blockOk 32 [(5, 3), (28, 4)] = true ∧ (rectAt p.block 8).ok = true ∧ addrOk (u64At p.block 16) (24 + 4 * 2 * 2) = true) ∧
    (let p := pktOf (le8 2 ++ zeros 3 ++ le16 4095 ++ le16 1 ++ zeros 4 ++ le64 0x0400000000);
      p.blockOk 24 [(5, 3), (12, 4)] = true ∧ u16At p.block 8 + u16At p.block 10 ≤ 4096 ∧ addrOk (u64At p.block 16) (32 + 136 * 1) = true) ∧
    (let p := pktOf (zeros 4 ++ le64 0x0400000000); p.blockOk 16 [(4, 4)] = true ∧ addrOk (u64At p.block 8) 96 = true) := by
  unfold State.serves
  decide +kernel

/-- A JOB_DEFINE of job 7: priority 2, pace on, caps 700.00 W and 600.00 W, members 0 and 4095. -/
def jobBlock (op : Nat) (members : List Byte) : Packet :=
  pktOf (le8 7 ++ le8 op ++ le8 2 ++ le8 1 ++ le16 14000 ++ le16 12000 ++ zeros 4 ++ members)

theorem wit_GovernorCommands_jobs :
    (let p := jobBlock 1 (zeros 512); p.blockOk 528 [(12, 4)] = true ∧ u8At p.block 5 = 1 ∧ u8At p.block 6 ≤ 3 ∧ u8At p.block 7 ≤ 3 ∧ memberList p.block 16 = []) ∧
    (let p := jobBlock 0 (le8 1 ++ zeros 510 ++ le8 0x80); p.blockOk 528 [(12, 4)] = true ∧ memberList p.block 16 = [0, 4095] ∧ u16At p.block 10 ≤ u16At p.block 8 ∧
      readyAt.planned.jobs = []) ∧
    (let p := jobBlock 0 (le8 1 ++ zeros 511); let x : Job := { members := [0] }; let s : State := { readyAt with cfg := { jobs := [(3, some x)] } };
      memberList p.block 16 = [0] ∧ s.planned.jobs = [(3, some x)] ∧ 0 ∈ x.members ∧ u8At p.block 4 ≠ 3) := by decide +kernel

theorem wit_GovernorCommands_others :
    (let p := pktOf (le32 1000 ++ le32 0xFFFFFFFF ++ le32 900 ++ le32 800 ++ le32 0 ++ le32 5 ++ le16 600 ++ le16 200 ++ zeros 15 ++ le8 15 ++ zeros 64);
      p.blockOk 112 [] = true ∧ u16At p.block 0x1E ≤ 200 ∧ (∀ k, k < 16 → u8At p.block (0x20 + k) ≤ 15)) ∧
    (let p := pktOf (le16 1 ++ le16 3 ++ le16 4095 ++ le8 5 ++ le8 0 ++ le16 0 ++ le16 0);
      p.blockOk 16 [(11, 1), (14, 2)] = true ∧ p.block.length = 16 ∧ u16At p.block 4 = 1 ∧ u16At p.block 6 ≤ 3 ∧ u16At p.block 8 < 4096 ∧ u8At p.block 10 < 6) ∧
    (let p := pktOf (le8 0 ++ le8 1 ++ le16 65535 ++ le16 10 ++ le16 1000 ++ le16 32768 ++ le16 2000); p.blockOk 16 [] = true ∧ u8At p.block 5 ≤ 1 ∧ u8At p.block 4 = 0 ∧
      1 ≤ u16At p.block 6 ∧ 10 ≤ u16At p.block 8 ∧ u16At p.block 10 ≤ 1000 ∧ u16At p.block 12 ≤ 32768 ∧ u16At p.block 14 ≤ 2000) ∧
    (let p := pktOf (le8 4 ++ le8 2 ++ zeros 10); p.blockOk 16 [] = true ∧ u8At p.block 5 = 2) ∧
    (let p := pktOf (le8 4 ++ le8 0 ++ zeros 10); p.blockOk 16 [] = true ∧ u8At p.block 5 ≤ 1 ∧ u16At p.block 6 = 0) ∧
    (let p := pktOf (le8 4 ++ le8 0 ++ le16 1 ++ le16 100 ++ le16 0 ++ le32 0); p.blockOk 16 [] = true ∧ u8At p.block 5 ≤ 1 ∧ 1 ≤ u16At p.block 6 ∧ u16At p.block 8 ≤ 100) ∧
    (let p := pktOf (le8 2 ++ zeros 3 ++ le16 4095 ++ le16 1 ++ zeros 4 ++ le64 0x0400000000); p.blockOk 24 [(5, 3), (12, 4)] = true ∧ u8At p.block 4 = 2 ∧
      u16At p.block 8 + u16At p.block 10 ≤ 4096 ∧ addrOk (u64At p.block 16) (24 + 16 * 1) = true) := by decide +kernel

/-- A pump record of Table 11.2 for channel `n`. -/
def motorBlock (n : Nat) : List Byte :=
  le16 1 ++ le16 80 ++ le8 n ++ le8 1 ++ le8 4 ++ le8 0 ++ (leW 0x3F800000 ++ leW 0x3A83126F ++ leW 0x3D4CCCCD ++ leW 0x3F800000 ++ leW 0x41200000 ++ leW 0 ++ leW 0x41A00000) ++
    (le16 5000 ++ le16 500 ++ le16 100 ++ le16 1000 ++ leW 0x40A00000 ++ leW 0 ++ leW 0 ++ leW 0 ++ leW 0) ++ (le16 200 ++ le16 300 ++ le16 500 ++ le16 500) ++ zeros 8

theorem wit_FieldConfigurationCommands_motors :
    (let p := pktOf (le16 1 ++ le16 0 ++ motorBlock 7); (match motorShape p with | .ok _ => true | .error _ => false) = true ∧ u8At p.block 12 = 7 ∧
      (motorRecAt p.block 8).badField (Tab.get [] readyAt.planned.skipBands 7) = none ∧ (readyAt.motor 7).state = .stopped ∧ bit (u16At p.block 6) 0 = false) ∧
    (let p := pktOf (le16 1 ++ le16 1 ++ motorBlock 8); (match motorShape p with | .ok _ => true | .error _ => false) = true ∧ bit (u16At p.block 6) 0 = true ∧
      (motorRecAt p.block 8).badField [] = none) ∧
    (let p := pktOf (le8 55 ++ le8 1 ++ le16 0); p.blockOk 8 [(6, 2)] = true ∧ u8At p.block 4 ≤ 55 ∧ ({ readyAt with mode := { readyAt.mode with authority := .manual } } : State).overrideTarget 55 = none) ∧
    (let p := pktOf (le16 1 ++ le16 0 ++ (le8 7 ++ le8 1 ++ le16 0 ++ le16 1000 ++ le16 1020 ++ zeros 12)); p.blockOk 28 [(6, 2), (10, 2)] = true ∧ u8At p.block 9 = 1 ∧
      zeroRange p.block 16 12 = true ∧ bandsAt p.block 8 = [(1000, 1020)] ∧ bandsOk (bandsAt p.block 8) = true ∧
      (let s : State := { readyAt with cfg := { motors := [(7, { handoff := 999, maxSpeed := 1021 })] } };
        (Tab.get ({} : MotorRec) s.planned.motors 7).handoff < 1000 ∧ 1020 < (Tab.get ({} : MotorRec) s.planned.motors 7).maxSpeed)) := by decide +kernel

theorem wit_FieldConfigurationCommands_valves :
    (let p := pktOf (le16 1 ++ le16 0 ++ (le16 1 ++ le16 32 ++ le8 62 ++ le8 3 ++ zeros 2 ++ le16 4000 ++ le16 1000 ++ le16 20 ++ le16 500 ++ le16 10000 ++ le16 5000 ++ le16 0 ++ le16 30 ++ zeros 8));
      p.blockOk 40 [(14, 2), (32, 8)] = true ∧ u16At p.block 8 = 1 ∧ u16At p.block 10 = 32 ∧ u8At p.block 12 = 62 ∧ u8At p.block 13 ≤ 3 ∧
      ((valveRecAt p.block 8).checks 62).all (!·.1) = true ∧ (valveCross (readyAt.planned.putAll [.valve 62 (valveRecAt p.block 8)]).valves).all (!·.1) = true ∧
      (readyAt.valveCh 62).phase = .off) ∧
    (let p := pktOf (le16 1 ++ le16 0 ++ le8 5 ++ le8 0 ++ zeros 2); let s : State := { readyAt with cfg := { valves := [(5, { accepted := true, enable := true })] } };
      p.blockOk 12 [(6, 2), (10, 2)] = true ∧ u8At p.block 8 = 5 ∧ s.valveOwner 5 = 5 ∧ (s.valveRec 5).on = true ∧ s.valveBarred 5 0 = false ∧
        s.supplyReady (valveSupply 5) = false ∧ (s.valveRec 5).boostWait = 0 ∧
        ({ s with valve := { supplies := [(0, { state := .ready })] } } : State).supplyReady (valveSupply 5) = true) ∧
    (let p := pktOf (le8 63 ++ le8 1 ++ zeros 10 ++ le64 0x0400000000); p.blockOk 24 [(6, 10)] = true ∧ u8At p.block 4 + u8At p.block 5 ≤ 64 ∧
      addrOk (u64At p.block 16) (24 + 16 * 1 + 32) = true) := by decide +kernel

theorem wit_FieldConfigurationCommands_inputs :
    (let p := pktOf (le16 1 ++ le16 0 ++ (le8 0 ++ le8 20 ++ le8 1 ++ zeros 21)); (match inputShape p with | .ok _ => true | .error _ => false) = true ∧ u8At p.block 9 = 20 ∧
      (analogRecAt p.block 8).badField 20 = none ∧ readyAt.namedInRun (fun r => r.dpAi = 20 || r.tSupAi = 20 || r.tRetAi = 20) = false) ∧
    (let p := pktOf (le16 1 ++ le16 0 ++ (le8 1 ++ le8 63 ++ le8 0 ++ zeros 21)); (match inputShape p with | .ok _ => true | .error _ => false) = true ∧ u8At p.block 8 = 1 ∧
      u8At p.block 10 ≤ 1 ∧ (pulseRecAt p.block 8).badField = none) ∧
    (let p := pktOf (le16 1 ++ le16 0 ++ (le8 63 ++ zeros 23)); p.blockOk 32 [(11, 1), (28, 4)] = true ∧ u8At p.block 8 = 63 ∧ (leakRecAt p.block 8).badField = none) ∧
    (let p := pktOf (le8 15 ++ le8 0 ++ zeros 10 ++ le64 0x0400000000); let s : State := { readyAt with sense := { harness := [(15, { present := true, state := .noExpected })] } };
      p.blockOk 24 [(6, 10)] = true ∧ addrOk (u64At p.block 16) 256 = true ∧ (s.harness 15).present = true ∧ (s.harness 15).state ≠ .reading ∧ (s.harness 15).cmd = none) := by decide +kernel

/-- Timing of 500 kbit/s and 2 Mbit/s (14 Table 14.8). -/
def canBits : List Byte := le16 1 ++ le16 127 ++ le16 32 ++ le16 32 ++ le8 1 ++ le8 29 ++ le8 10 ++ le8 10 ++ le8 0

theorem wit_FieldConfigurationCommands_bus :
    (let p := pktOf (le8 1 ++ le8 0 ++ le16 0 ++ (le8 15 ++ le8 1 ++ le16 0 ++ canBits ++ zeros 15 ++ zeros 512)); (match busShape p with | .ok _ => true | .error _ => false) = true ∧
      u8At p.block 8 = 15 ∧ (canRecAt p.block 8).timing.badField = none ∧ (canRecAt p.block 8).enable = true ∧ readyAt.canInRun 15 = false) ∧
    (let p := pktOf (le8 0 ++ le8 1 ++ le16 1 ++ le16 100 ++ le16 100 ++ zeros 4 ++ canBits ++ zeros 3); p.blockOk 32 [(12, 4), (29, 3)] = true ∧ u8At p.block 5 = 1 ∧
      100 ≤ u16At p.block 8 ∧ u16At p.block 10 ≤ 100 ∧ (canTimingAt p.block 16).badField = none ∧ readyAt.canInRun 0 = false ∧ readyAt.bus.autobaud = []) := by decide +kernel

/-- What a NETWORK_CONFIGURE that enables nothing carries before its tray table. -/
def netHead : List Byte := le16 1 ++ le16 17072 ++ zeros 668 ++ (le16 100 ++ le16 1 ++ le16 32768 ++ le16 60 ++ le16 1 ++ zeros 6)

/-- A NETWORK_CONFIGURE that enables nothing. -/
def emptyNetwork : Packet := { pktOf [] with block := netHead ++ zeros 16384 }

theorem leNat_zeros (n : Nat) : leNat (zeros n) = 0 := by
  induction n with
  | zero => rfl
  | succ n ih => simp [zeros, List.replicate_succ, leNat] at ih ⊢; exact ih

theorem leNat_pad (l : List Byte) (n : Nat) : leNat (l ++ zeros n) = leNat l := by
  induction l with
  | nil => simpa [leNat] using leNat_zeros n
  | cons b l ih => simp [leNat, ih]

/-- Zero bytes behind the end change no field. -/
theorem fieldAt_pad (l : List Byte) (n off k : Nat) : fieldAt (l ++ zeros n) off k = fieldAt l off k := by
  simp only [fieldAt, List.drop_append, List.take_append, zeros, List.drop_replicate, List.take_replicate]
  exact leNat_pad _ _

theorem zeroRange_pad (l : List Byte) (n off k : Nat) : zeroRange (l ++ zeros n) off k = zeroRange l off k := by
  simp [zeroRange, bytesAt, List.drop_append, List.take_append, zeros, List.drop_replicate, List.take_replicate, List.all_append]

theorem zeroRange_past (l : List Byte) (off k : Nat) (h : l.length ≤ off) : zeroRange l off k = true := by
  simp [zeroRange, bytesAt, List.drop_eq_nil_of_le h]

theorem u8At_past (l : List Byte) (off : Nat) (h : l.length ≤ off) : u8At l off = 0 := by
  simp [u8At, fieldAt, List.drop_eq_nil_of_le h, leNat]

theorem netHead_length : netHead.length = 688 := by decide +kernel

theorem emptyNetwork_u8 (off : Nat) : u8At emptyNetwork.block off = u8At netHead off := fieldAt_pad _ _ _ _

theorem emptyNetwork_u16 (off : Nat) : u16At emptyNetwork.block off = u16At netHead off := fieldAt_pad _ _ _ _

theorem emptyNetwork_length : emptyNetwork.block.length = 17072 := by
  show (netHead ++ zeros 16384).length = 17072
  rw [List.length_append, netHead_length, zeros, List.length_replicate]

theorem emptyNetwork_shape : networkShape emptyNetwork = .ok () := by
  unfold networkShape
  dsimp only
  rw [Packet.checkBlock_ok]
  · have hr : ∀ k, k < 16 → ¬ 8 ≤ u8At netHead (0x95 + 32 * k) := by decide +kernel
    have hg : ¬ 16 ≤ u8At netHead 0x0A := by decide +kernel
    have h : ∀ (l : List (Bool × Reply)), (∀ e ∈ l, e.1 = false) → deny l = .ok () := by
      intro l hl
      have : l.find? (·.1) = none := by rw [List.find?_eq_none]; intro e he; simp [hl e he]
      simp only [deny, this]
    rw [show ∀ (x : Except Reply Unit), (Except.ok () >>= fun _ => x) = x from fun x => rfl]
    apply h
    intro e he
    simp only [List.mem_cons, List.mem_append, List.mem_map, List.mem_range] at he
    rcases he with he | ⟨k, hk, he⟩ | ⟨t, ht, he⟩ <;> subst he
    · show decide (16 ≤ u8At emptyNetwork.block 0x0A) = false
      rw [emptyNetwork_u8]; exact decide_eq_false hg
    · show decide (8 ≤ u8At emptyNetwork.block (0x95 + 32 * k)) = false
      rw [emptyNetwork_u8]; exact decide_eq_false (hr k hk)
    · have := u8At_past netHead (0x2B7 + 32 * t) (by rw [netHead_length]; omega)
      show decide (2 ≤ u8At emptyNetwork.block (0x2B7 + 32 * t)) = false
      rw [emptyNetwork_u8, this]; rfl
  · have h1 : u16At netHead 0 = 1 := by decide +kernel
    have h2 : u16At netHead 2 = 17072 := by decide +kernel
    have h3 : ∀ r ∈ ([(4, 4), (0x0B, 5)] ++ (List.range 4).map (fun g => (0x10 + 32 * g + 0x0F, 1)) ++ (List.range 16).map (fun k => (0x90 + 32 * k + 0x0E, 2)) ++
      [(0x297, 1), (0x29C, 4), (0x2AA, 6)] : List (Nat × Nat)), zeroRange netHead r.1 r.2 = true := by decide +kernel
    simp only [Packet.blockOk, Bool.and_eq_true, decide_eq_true_eq, List.all_eq_true, emptyNetwork_length, emptyNetwork_u16]
    refine ⟨⟨⟨⟨?_, ?_⟩, by decide⟩, by decide⟩, ?_⟩
    · exact h1
    · exact h2
    · intro r hr
      show zeroRange (netHead ++ zeros 16384) r.1 r.2 = true
      rw [zeroRange_pad]
      rw [List.mem_append] at hr
      rcases hr with hr | hr
      · exact h3 r hr
      · obtain ⟨t, -, rfl⟩ := List.mem_map.1 hr
        refine zeroRange_past _ _ _ ?_
        show netHead.length ≤ 688 + 32 * t + 14
        rw [netHead_length]; omega

theorem emptyNetwork_trays : (topologyAt emptyNetwork.block).trays = [] := by
  have : ((List.range 512).filter fun t => bit (u8At emptyNetwork.block (0x2B7 + 32 * t)) 0) = [] := by
    rw [List.filter_eq_nil_iff]
    intro t _
    have h := u8At_past netHead (0x2B7 + 32 * t) (by rw [netHead_length]; omega)
    rw [emptyNetwork_u8, h]; decide
  simp only [topologyAt, this, List.foldl_nil]

theorem wit_FieldConfigurationCommands_network :
    networkShape emptyNetwork = .ok () ∧ ((topologyAt emptyNetwork.block).checks emptyNetwork.block).all (!·.1) = true ∧
      ((topologyAt emptyNetwork.block).trayChecks emptyNetwork.block).all (!·.1) = true ∧ readyAt.planned.topo.accepted = false := by
  refine ⟨emptyNetwork_shape, ?_, by simp only [Topology.trayChecks, emptyNetwork_trays]; rfl, by decide⟩
  have hg : (topologyAt emptyNetwork.block).groupEnable = 0 := by
    have : u8At netHead 0x0A = 0 := by decide +kernel
    simpa only [topologyAt, emptyNetwork_u8] using this
  have hk : (topologyAt emptyNetwork.block).rackEnable = 0 := by
    have : u16At netHead 8 = 0 := by decide +kernel
    simpa only [topologyAt, emptyNetwork_u16] using this
  have hx : (topologyAt emptyNetwork.block).hx = hxAt netHead := by
    simp only [topologyAt, hxAt, emptyNetwork_u8, emptyNetwork_u16, List.map]
  have g0 : (List.range 4).filter (bit 0) = [] := by decide
  have k0 : (List.range 16).filter (bit 0) = [] := by decide
  simp only [Topology.checks, hg, hk, g0, k0, hx, List.flatMap_nil, List.nil_append]
  decide +kernel

/-- Serving, with rack 15 enabled and in SERVICE. -/
def serviceAt : State :=
  { readyAt with cfg := { topo := { accepted := true, rackEnable := 0x8000 }, racks := [(15, { state := .service })] }, mode := { readyAt.mode with authority := .manual } }

theorem wit_ModeRecordAndUpdateCommands_modes :
    (let p := pktOf (le8 0 ++ le8 1 ++ zeros 6); p.blockOk 12 [(10, 2)] = true ∧ u8At p.block 5 ≤ 2 ∧ u16At p.block 8 = 0 ∧ serviceAt.mode.authority ≠ authorityOf 1) ∧
    (let p := pktOf (le8 1 ++ le8 0 ++ le16 0 ++ le16 0x8000 ++ zeros 2); p.blockOk 12 [(10, 2)] = true ∧ u16At p.block 8 ≠ 0 ∧ bit 0x8000 15 = true ∧
      (∀ k, k < 16 → bit 0x8000 k = true → serviceAt.rackOn k = true ∧ serviceAt.rackForbidden k (rackStateOf 0) = false) ∧ serviceAt.rackState 15 ≠ rackStateOf 0) ∧
    (let p := pktOf (le8 1 ++ le8 3 ++ le16 0 ++ le16 0x8000 ++ zeros 2); p.blockOk 12 [(10, 2)] = true ∧ u16At p.block 8 = 2 ^ 15 ∧ serviceAt.rackState 15 ≠ .commission) ∧
    (let s : State := { serviceAt with laneCtl := { redundancy := .net } }; s.inNet = true ∧ s.rackOn 15 = true ∧ s.rackState 15 ≠ .isolated ∧ s.mode.lifeCycle = .operational) ∧
    (readyAt.laneCtl.redundancy = .duplex ∧ readyAt.laneCtl.gap = false ∧ readyAt.laneCtl.merge = false ∧ readyAt.laneCtl.drillCmd = none ∧
      (pktOf (le16 1 ++ zeros 2)).blockOk 8 [(6, 2)] = true ∧ u16At (pktOf (le16 1 ++ zeros 2)).block 4 ≤ 1) ∧
    (let p := pktOf (zeros 4 ++ le64 0x05FFFFFFC0); p.blockOk 16 [(4, 4)] = true ∧ addrOk (u64At p.block 8) 64 = true ∧
      ({ readyAt with tick := { settled := { epoch := some 5 } } } : State).tick.settled.epoch = some 5) := by decide +kernel

theorem wit_ModeRecordAndUpdateCommands_records :
    (let p := pktOf (le16 16384 ++ le8 0 ++ le8 0 ++ le64 7 ++ le64 0x1000); let r : LogRecord := { seq := 9, event := { cls := 0, ty := 2 } };
      let s : State := { readyAt with evt := { ring := [r], nextSeq := 10 } };
      p.blockOk 24 [(7, 1)] = true ∧ u64At p.block 16 % 4 = 0 ∧ u8At p.block 6 = 0 ∧ u16At p.block 4 ≤ 16384 ∧ 1 ≤ u16At p.block 4 ∧ s.evt.ring.getLast? = some r ∧
        s.evt.ring.all (!·.torn) = true ∧ s.evt.ring.length ≤ u16At p.block 4 ∧ u64At p.block 8 ≤ s.evt.oldest ∧ s.mode.lifeCycle = .operational) ∧
    (let p := pktOf (le8 1 ++ zeros 3 ++ le32 6 ++ zeros 4); let c : Capture := { slot := 0, id := 6, state := .complete, frames := 40000 };
      p.blockOk 16 [(5, 3), (12, 4)] = true ∧ c.id = u32At p.block 8 ∧ readyAt.evt.captures = [] ∧ (c.state = .complete ∨ c.state = .partial_) ∧
        (let q := pktOf (le8 1 ++ zeros 3 ++ le32 6 ++ le32 39000 ++ le32 1000 ++ zeros 4 ++ le64 0x0400000000);
          q.blockOk 32 [(5, 3), (20, 4)] = true ∧ c.id = u32At q.block 8 ∧ u32At q.block 12 + u32At q.block 16 ≤ c.frames ∧ u32At q.block 16 ≤ 1000 ∧
          addrOk (u64At q.block 24) (u32At q.block 16 * 0x11000) = true ∧ addrOk (u64At q.block 24) 1024 = true)) := by decide +kernel

/-- The first 64 bytes of a manifest of no parts, and 64 bytes long as a package. -/
def bareManifest : List Byte := le16 1 ++ le16 64 ++ le32 0x4A444854 ++ le32 3 ++ le32 127 ++ le32 0 ++ le16 0 ++ le8 1 ++ le8 0 ++ le32 64 ++ le16 3600 ++ zeros 34

/-- DUPLEX with that package at the start of the transfer area. -/
def packageAt : State :=
  { readyAt with laneA := { run := .active, dram := Mem.ofBytes 0x0400000000 bareManifest }, laneB := { run := .standby, dram := Mem.ofBytes 0x0400000000 bareManifest } }

theorem wit_ModeRecordAndUpdateCommands_update :
    (let p := pktOf (le8 0 ++ zeros 3 ++ le64 0x0400000000 ++ le32 64 ++ zeros 4); let b := packageAt.main.dram.readBytes (u64At p.block 8) (u32At p.block 16);
      p.blockOk 24 [(5, 3), (20, 4)] = true ∧ u64At p.block 8 % 64 = 0 ∧ u64At p.block 8 + u32At p.block 16 ≤ transferEnd ∧ transferBase ≤ u64At p.block 8 ∧
        u32At p.block 16 ≤ 0x07000000 ∧ b = bareManifest ∧ (match checkManifest b with | .ok _ => true | .error _ => false) = true ∧ u32At b 0x18 = u32At p.block 16 ∧
        packageAt.mode.update = .idle ∧ packageAt.anyLane = true) ∧
    (let p := pktOf (le8 1 ++ zeros 19); p.blockOk 24 [(5, 3), (20, 4)] = true ∧ ({ readyAt with mode := { readyAt.mode with update := .staged } } : State).mode.update = .staged) ∧
    (let s : State := { readyAt with mode := { readyAt.mode with update := .staged }, upd := { altSet := { stateFrom := 1 } } };
      s.laneCtl.active = .A ∧ (s.lane .A).run = .active ∧ (s.lane .B).run = .standby ∧ s.upd.runningSet.version.toNat < s.upd.altSet.stateFrom.toNat ∧
        readyAt.upd.altSet.stateFrom.toNat ≤ readyAt.upd.runningSet.version.toNat ∧ (pktOf []).blockOk 4 [] = true) ∧
    (let p := pktOf (le8 1 ++ zeros 3); p.blockOk 8 [(5, 3)] = true ∧ u8At p.block 4 = 1 ∧ ({ readyAt with mode := { readyAt.mode with update := .trial } } : State).anyLane = true) ∧
    (let p := pktOf (le8 0 ++ zeros 3 ++ le64 0x2000 ++ zeros 40); p.blockOk 56 [(5, 3), (48, 8)] = true ∧ u64At p.block 8 % 4 = 0 ∧ u8At p.block 4 ≤ 2) ∧
    (let p := pktOf (le8 3 ++ le8 0 ++ zeros 2); p.blockOk 8 [(6, 2)] = true ∧ lifeOf (u8At p.block 4) = .returning ∧ serviceAt.mode.authority = .manual ∧
      (∀ k, k < 16 → serviceAt.rackOn k = true → serviceAt.rackState k ≠ .run) ∧ lifeOf 2 = .operational ∧ lifeOf 0 = .blank) := by decide +kernel

/-! ## WellFormed: each check refuses an ill-formed command -/

theorem test_wf_packet_queue : (Instr.queueBarrier { (pktOf [0, 0, 0, 0]) with opcode := 0x0105, hdr := 16 }).wf = true ∧
    (Instr.queueBarrier { (pktOf [0, 0, 0, 0]) with opcode := 0x0105, hdr := 16, sq := 8 }).wf = false := by decide +kernel
theorem test_wf_packet_opcode : (Instr.queueBarrier { (pktOf [0, 0, 0, 0]) with opcode := 0x0104, hdr := 16 }).wf = false := by decide +kernel
theorem test_wf_packet_flags : (Instr.queueBarrier { (pktOf [0, 0, 0, 0]) with opcode := 0x0105, hdr := 16, flags := 4 }).wf = false := by decide +kernel
theorem test_wf_packet_header : (Instr.queueBarrier { (pktOf [0, 0, 0, 0]) with opcode := 0x0105, hdr := 14 }).wf = false := by decide +kernel
theorem test_wf_packet_long : (Instr.queueBarrier { (pktOf [0, 0, 0, 0]) with opcode := 0x0105, hdr := 65532 }).wf = false := by decide +kernel
theorem test_wf_block_version : (pktOf [0, 0, 0, 0]).blockOk 8 [] = true ∧ ({ (pktOf []) with block := [2, 0, 8, 0, 0, 0, 0, 0] }).blockOk 8 [] = false := by decide +kernel
theorem test_wf_block_size : ({ (pktOf []) with block := [1, 0, 12, 0, 0, 0, 0, 0] }).blockOk 8 [] = false ∧ (pktOf [0, 0, 0, 0]).blockOk 12 [] = false := by
  decide +kernel
theorem test_wf_block_reserved : (pktOf [0, 0, 1, 0]).blockOk 8 [(6, 2)] = false := by decide +kernel
theorem test_wf_register : regOk 0x002 = false ∧ regOk 0x1000000 = false ∧ (Instr.loRegisterRead 4).wf = false ∧ (Instr.hiRegisterRead 8).wf = false := by decide
theorem test_wf_measurement : measAskOk (.one 256) = false ∧ (Instr.getMeasurements .all true []).wf = false := by decide
theorem test_wf_frame : frameOk { mac := [], ipv6 := zeros 16, formOk := true, payload := [] } = false := by decide
theorem test_wf_scope : scopeOk 16 = false ∧ scopeOk 15 = true ∧ scopeOk 255 = true := by decide
theorem test_wf_delivery : deliveryOk (.loop 256 none) = false ∧ deliveryOk (.valve 0 64 0 0) = false ∧ (Instr.laneOutputDelivery .A 100000 (.loop 0 none)).wf = false := by decide
theorem test_wf_inputs : inputsOk { coils := [(64, 0)] } = false ∧ inputsOk { boost := [(2, 0)] } = false := by decide
theorem test_wf_can : canOk { ident := 2 ^ 11 } = false := by decide
theorem test_wf_part : partOk 0 = false ∧ partOk 6 = false := by decide
theorem test_wf_window : (Instr.bar2Access 4 false true 0).wf = false ∧ (Instr.dpApertureAccess 2 false false 0).wf = false := by decide

/-! ## The spec's worked examples -/

/-- The next state of an outcome. -/
def stateAfter : Host.Outcome State Fault Refusal → State
  | .next s => s
  | _ => State.reset


/-- No row of the table gives bits. -/
theorem test_no_word_spells_a_command : decodeTableWord 32 0x54600105 = none := by decide

/-- 00, after R10. -/
theorem test_formats : t16Rat 0x1B40 = 109 ∧ t16Rat 0xFEC0 = -5 ∧ t16Sat (600 * 64) = 0x7FFF := by decide +kernel

/-- 01: tile (5, 17) is tile 549; its window base is 0x40_0894_0000. -/
theorem test_tile_window : 0x4000000000 + tileBase (32 * 17 + 5) = 0x4008940000 := by decide

/-- 03: 12.0 mA through sp_scale 0.875 and sp_offset 14.5 is 25.0 °C. -/
theorem test_analog_setpoint : F32.fma 0x3F600000 (F32.ofNat 12) 0x41680000 = F32.ofNat 25 := by decide +kernel

def tightropeEnv : LoopEnv :=
  { epoch := 0, frame := {}, cfg := {}, net := false, resume := false, manual := false, predictive := false, returning := false, rel := {}, floors := [] }

/-- 03 Table 3.9: deviations of 12, 23, 18, 15 and then 25 kPa, 50 times, in a band of 20 kPa with SAFE after 50 ticks. -/
def tightropeRun (d : LoopDesc) : List Nat → LoopSlot → LoopSlot
  | [], x => x
  | v :: l, x => tightropeRun d l
    ({ x with r := F32.ofNat v }.tightrope tightropeEnv d .auto).1

def tightropeL40 : LoopDesc := { accepted := true, flags := 1, trBand := F32.ofNat 20, trTimer := 50, trAction := 2 }

theorem test_tightrope_counts : (tightropeRun tightropeL40 [12] {}).c = 0 ∧ (tightropeRun tightropeL40 [12, 23] {}).c = 1 ∧
    (tightropeRun tightropeL40 [12, 23, 18] {}).c = 1 ∧ (tightropeRun tightropeL40 [12, 23, 18, 15] {}).c = 0 := by decide +kernel

theorem test_tightrope_latches : (tightropeRun tightropeL40 (List.replicate 49 25) {}).latch = .none ∧
    (tightropeRun tightropeL40 (List.replicate 50 25) {}).latch = .safe := by decide +kernel

/-- 04: chip 1,200 at epoch N + 20: residual 2.000 °C, the margin at once 2.109375 °C less one tick's decay, published as 0x0087. -/
theorem test_margin_rises :
    (let x := ({ m := 0x3FC00000 } : ChipTh).residual {} false 84 { lo := 0x42A2D000, hi := 0x42A53000 };
      x.resid = some (F32.ofNat 2) ∧ marginSteps x.m = 0x87) := by decide +kernel

/-- 06: 500.0 to E4M3 with SAT clear and set and to E5M2; 0.7 to Q15. -/
theorem test_conversions : (toElem 2 .rne false (F32.val 0x43FA0000)).1 = 0x7F ∧
    (toElem 2 .rne true (F32.val 0x43FA0000)).1 = 0x7E ∧ (toElem 3 .rne false (F32.val 0x43FA0000)).1 = 0x60 ∧ (toElem 7 .rne false (F32.val 0x3F333333)).1 = 0x599A := by decide +kernel

/-- 06: PACK of [39.71875, 41.2890625] is 0x4226_421E. -/
theorem test_pack : (ivPack (BitVec.ofNat 512 0x421EE000) (BitVec.ofNat 512 0x42252800)).1.toNat % 2 ^ 32 = 0x4226421E := by decide +kernel

/-- 06 Table 6.14: the two couplings of chip 0 with p(0) and p(1) leave [9.46875, 10.5390625] in lane 0. -/
theorem test_interval_mac :
    (let r := mmaInterval true 0 0 (packElems 32 [0x3C503C40, 0x3B203B00]) (packElems 32 [0x4430442F, 0x44244422]);
      (r.1.toNat % 2 ^ 32, r.2.1.toNat % 2 ^ 32) = (0x41178000, 0x4128A000)) := by decide +kernel

/-- 06, worked kernel: the words of DBNZ s3, loop at 0x10B and of ACCCLR acc0 and MMA acc0, v0, v1, INT8. -/
theorem test_dbnz_goes_back :
    (let x := (stateAfter (exec (.dbnz .A 0 0x0600105) (tileAt 0x15 0x0600105 { sregs := [(3, 8)] }))).laneA.array.tile 0;
      (x.s 3, x.pc) = (7, 0x105)) := by decide +kernel

/-- 06 R156: 1 · 3 + 2 · 4 + (−1) · 5, an FP32 in lane 0. -/
theorem test_mma_in_int8 :
    (let x := (stateAfter (exec (.mma .A 0 0x0008000) (tileAt 0x20 0x0008000 { vregs := [(0, packElems 8 [1, 2, 0xFF]), (1, packElems 8 [3, 4, 5])] }))).laneA.array.tile 0;
      (x.acc 0).toNat % 2 ^ 32 = 0x40C00000) := by decide +kernel

/-- 07: the predicted times of KT-R3's variants, and the budgets they meet. -/
theorem test_predicted_times : ({ tBody := 84000 } : Variant).tPred = 89600 ∧
    ({ fold := 2, residency := .streamed, tBody := 170000, streamRow := [3932160] } : Variant).tPred = 175750 ∧ stepBudget 1 = 88000 ∧ stepBudget 2 = 188000 := by
  decide +kernel

/-- 15: L41 at 2,400 rpm held and 2,380 rpm measured: u_ref 12.2 A to binary32's accuracy, so that lane A's 31.7 A stands farther off than
lane B's 12.4 A. -/
def refereeAt : State :=
  { cfg := { loops := [(41, { accepted := true, flags := 1, pvSrc := 7, pvIdx := 2, pvScale := 0x3F800000, outMax := 0x42200000
                              refKp := 0x3C23D70A, refBias := 0x41400000, refFloor := 0x40800000 })] }
    tick := { frame := { motor := [(2, { speed := 2380 })] } }
    laneCtl := { mirror := [(41, { a := some { out := 0x41FD999A, tgt := 0, r := 0 }, b := some { out := 0x41466666, tgt := 0, r := 0 }, rHeld := 0x45160000, disagreed := true })] } }

theorem test_referee_law : (refereeAt.refereeLaw 41 0x45160000).map (fun u => decide (|u - 122 / 10| < 1 / 100000)) = some true ∧
    refereeAt.distances.map (fun d => decide (d.2 < d.1)) = some true := by decide +kernel

/-- 17: a write at 0xFFC of the aperture moves DP_ADDR from 0x01_0000_0000 to 0x01_0000_1000. -/
theorem test_aperture_advances :
    (stateAfter (exec (.dpApertureAccess 0xFFC true false 7) (dportAt 0x0100000000))).dport.addr = 0x0100001000 := by decide +kernel

/-- 17: the model runtime region refuses a word: DP_STATUS 0x0000_0021, DP_ERR_ADDR the address, DP_ADDR moved on. -/
theorem test_dp_refusal :
    (let d := (stateAfter (exec (.dpDataAccess true false 7) (dportAt 0x0600000000))).dport;
      d.addr = 0x0600000004 ∧ d.err = true ∧ d.errAddr = 0x0600000000 ∧ d.errCode = 2) := by decide +kernel

/-- 18: the SC_PENDING entry of the worked example, in order of offset. -/
theorem test_completion_entry :
    (({ id := 0, sq := 1, tag := 0x60, opcode := 0x0301, status := 1, r0 := 0x3B9ACA01, epochLo := 0x3B9ACA01 } : Completion).bytes true) =
      [1, 0, 0x20, 0, 0x60, 0, 0, 0, 1, 0, 1, 3, 1, 1, 0, 0, 1, 0xCA, 0x9A, 0x3B, 0, 0, 0, 0, 0, 0, 0, 0, 1, 0xCA, 0x9A, 0x3B] := by decide +kernel

end Sys2Proof.Tests
end

section
/-! SUPPORT. What the shared operations on lanes change: event registers, a lane's statistics, its reset, the note of a
loss, and the accessors the statements read. -/

namespace Sys2Proof.Machine

/-! ## Event registers -/

theorem State.fire_eq (s : State) (v : Nat) : s.fire v = { s with hif := (s.fire v).hif } := by
  unfold State.fire; split
  · rfl
  · split <;> rfl

/-- A vector that fires is pending or counted; nothing else of the host interface changes. -/
theorem State.fire_hif (s : State) (v : Nat) :
    (s.fire v).hif = { s.hif with msixPba := (s.fire v).hif.msixPba, irqs := (s.fire v).hif.irqs } := by
  unfold State.fire; split
  · rfl
  · split <;> rfl

/-- A condition newly set fires its vector or does nothing. -/
theorem State.fireIfSet_cases (s : State) (v : Nat) (old new : U32) :
    s.fireIfSet v old new = s ∨ s.fireIfSet v old new = s.fire v := by
  unfold State.fireIfSet; split
  · exact .inl rfl
  · exact .inr rfl

theorem State.setLaneEvent_cases (s : State) (m : U32) :
    s.setLaneEvent m = { s with laneCtl := { s.laneCtl with event := s.laneCtl.event ||| m } } ∨
    s.setLaneEvent m = ({ s with laneCtl := { s.laneCtl with event := s.laneCtl.event ||| m } } : State).fire 2 :=
  State.fireIfSet_cases _ _ _ _

@[simp] theorem State.setLaneEvent_laneCtl (s : State) (m : U32) :
    (s.setLaneEvent m).laneCtl = { s.laneCtl with event := s.laneCtl.event ||| m } := by
  rcases s.setLaneEvent_cases m with h | h <;> rw [h]
  exact State.fire_laneCtl _ 2

theorem State.setLaneEvent_eq (s : State) (m : U32) :
    s.setLaneEvent m = { s with laneCtl := (s.setLaneEvent m).laneCtl, hif := (s.setLaneEvent m).hif } := by
  rcases s.setLaneEvent_cases m with h | h <;> rw [h]
  rw [State.fire_eq]

theorem State.setModeEvent_cases (s : State) (m : U32) :
    s.setModeEvent m = { s with mode := { s.mode with event := s.mode.event ||| m } } ∨
    s.setModeEvent m = ({ s with mode := { s.mode with event := s.mode.event ||| m } } : State).fire 3 :=
  State.fireIfSet_cases _ _ _ _

@[simp] theorem State.setModeEvent_mode (s : State) (m : U32) :
    (s.setModeEvent m).mode = { s.mode with event := s.mode.event ||| m } := by
  rcases s.setModeEvent_cases m with h | h <;> rw [h]
  exact State.fire_mode _ 3

theorem State.setModeEvent_hif (s : State) (m : U32) :
    (s.setModeEvent m).hif = { s.hif with msixPba := (s.setModeEvent m).hif.msixPba, irqs := (s.setModeEvent m).hif.irqs } := by
  rcases s.setModeEvent_cases m with h | h <;> rw [h]
  exact State.fire_hif _ 3

theorem State.setModeEvent_eq (s : State) (m : U32) :
    s.setModeEvent m = { s with mode := (s.setModeEvent m).mode, hif := (s.setModeEvent m).hif } := by
  rcases s.setModeEvent_cases m with h | h <;> rw [h]
  rw [State.fire_eq]

theorem State.setHifErr_cases (s : State) (m : U32) :
    s.setHifErr m = { s with hif := { s.hif with err := s.hif.err ||| m } } ∨
    s.setHifErr m = ({ s with hif := { s.hif with err := s.hif.err ||| m } } : State).fire 6 :=
  State.fireIfSet_cases _ _ _ _

theorem State.setHifErr_hif (s : State) (m : U32) :
    (s.setHifErr m).hif =
      { s.hif with err := s.hif.err ||| m, msixPba := (s.setHifErr m).hif.msixPba, irqs := (s.setHifErr m).hif.irqs } := by
  rcases s.setHifErr_cases m with h | h <;> rw [h]
  exact State.fire_hif _ 6

@[simp] theorem State.setHifErr_err (s : State) (m : U32) : (s.setHifErr m).hif.err = s.hif.err ||| m := by
  rw [State.setHifErr_hif]

theorem State.setHifErr_eq (s : State) (m : U32) : s.setHifErr m = { s with hif := (s.setHifErr m).hif } := by
  rcases s.setHifErr_cases m with h | h <;> rw [h]
  rw [State.fire_eq]

/-! ## Lanes by their name -/

theorem LaneId.other_ne (l : LaneId) : l.other ≠ l := by cases l <;> decide

/-- Of two lanes, one is the other or its other. -/
theorem LaneId.eq_or_other (a l : LaneId) : l = a ∨ l = a.other := by cases a <;> cases l <;> decide

theorem State.lane_congr {s t : State} (ha : t.laneA = s.laneA) (hb : t.laneB = s.laneB) (l : LaneId) : t.lane l = s.lane l := by
  cases l
  · exact ha
  · exact hb

@[simp] theorem State.lane_onLanes (s : State) (f : Lane → Lane) (l : LaneId) :
    (s.onLanes f).lane l = if (s.lane l).isRunning then f (s.lane l) else s.lane l := by cases l <;> rfl

/-! ## The statistics of a lane -/

@[simp] theorem LaneCtlSt.stat_setStat_same (c : LaneCtlSt) (l : LaneId) (x : LaneStat) : (c.setStat l x).stat l = x := by
  cases l <;> rfl

@[simp] theorem LaneCtlSt.stat_setStat_other (c : LaneCtlSt) (l : LaneId) (x : LaneStat) :
    (c.setStat l x).stat l.other = c.stat l.other := by cases l <;> rfl

@[simp] theorem LaneCtlSt.hold_setHold_other (c : LaneCtlSt) (l : LaneId) (b : Bool) :
    (c.setHold l b).hold l.other = c.hold l.other := by cases l <;> rfl

@[simp] theorem LaneCtlSt.stat_setHold (c : LaneCtlSt) (l x : LaneId) (b : Bool) : (c.setHold l b).stat x = c.stat x := by
  cases l <;> cases x <;> rfl

@[simp] theorem LaneCtlSt.event_setHold (c : LaneCtlSt) (l : LaneId) (b : Bool) : (c.setHold l b).event = c.event := by
  cases l <;> rfl

@[simp] theorem LaneCtlSt.hold_setStat (c : LaneCtlSt) (l x : LaneId) (y : LaneStat) : (c.setStat l y).hold x = c.hold x := by
  cases l <;> cases x <;> rfl

/-- What noting a loss and abandoning what was in progress can change of lane control: nothing but these fields. -/
def LossFrame (c d : LaneCtlSt) : Prop :=
  d = { c with statA := d.statA, statB := d.statB, holdA := d.holdA, holdB := d.holdB, event := d.event
               drillCmd := d.drillCmd, drillGranted := d.drillGranted, drillAcked := d.drillAcked
               merge := d.merge, mergeRun := d.mergeRun, counts := d.counts }

theorem LossFrame.refl (c : LaneCtlSt) : LossFrame c c := rfl

theorem LossFrame.trans {c d e : LaneCtlSt} (h : LossFrame c d) (g : LossFrame d e) : LossFrame c e := by
  unfold LossFrame at *; rw [g, h]

theorem LossFrame.redundancy {c d : LaneCtlSt} (h : LossFrame c d) : d.redundancy = c.redundancy := by rw [h]
theorem LossFrame.netCause {c d : LaneCtlSt} (h : LossFrame c d) : d.netCause = c.netCause := by rw [h]
theorem LossFrame.active {c d : LaneCtlSt} (h : LossFrame c d) : d.active = c.active := by rw [h]
theorem LossFrame.gap {c d : LaneCtlSt} (h : LossFrame c d) : d.gap = c.gap := by rw [h]
theorem LossFrame.held {c d : LaneCtlSt} (h : LossFrame c d) : d.held = c.held := by rw [h]
theorem LossFrame.cntSwitchover {c d : LaneCtlSt} (h : LossFrame c d) : d.cntSwitchover = c.cntSwitchover := by rw [h]

theorem LossFrame.setStat (c : LaneCtlSt) (l : LaneId) (x : LaneStat) : LossFrame c (c.setStat l x) := by cases l <;> rfl
theorem LossFrame.setHold (c : LaneCtlSt) (l : LaneId) (b : Bool) : LossFrame c (c.setHold l b) := by cases l <;> rfl

/-! ## A lane in reset -/

@[simp] theorem State.resetLane_lane_same (s : State) (l : LaneId) : (s.resetLane l).lane l = (s.lane l).wiped .reset := by
  cases l <;> rfl

@[simp] theorem State.resetLane_lane_other (s : State) (l : LaneId) : (s.resetLane l).lane l.other = s.lane l.other := by
  cases l <;> rfl

theorem State.resetLane_laneCtl (s : State) (l : LaneId) :
    (s.resetLane l).laneCtl = s.laneCtl.setStat l
      { s.laneCtl.stat l with authExercised := false, resetEpoch := s.now, qualRun := 0, resyncPct := 0 } := by cases l <;> rfl

theorem State.resetLane_eq (s : State) (l : LaneId) :
    s.resetLane l = { s with laneA := (s.resetLane l).laneA, laneB := (s.resetLane l).laneB, laneCtl := (s.resetLane l).laneCtl } := by
  cases l <;> rfl

theorem State.resetLane_lossFrame (s : State) (l : LaneId) : LossFrame s.laneCtl (s.resetLane l).laneCtl := by
  rw [State.resetLane_laneCtl]; exact LossFrame.setStat _ _ _

@[simp] theorem State.resetLane_lastLoss (s : State) (l x : LaneId) :
    ((s.resetLane l).laneCtl.stat x).lastLoss = (s.laneCtl.stat x).lastLoss := by cases l <;> cases x <;> rfl

@[simp] theorem State.resetLane_selfCheckFail (s : State) (l x : LaneId) :
    ((s.resetLane l).laneCtl.stat x).selfCheckFail = (s.laneCtl.stat x).selfCheckFail := by cases l <;> cases x <;> rfl

@[simp] theorem State.resetLane_hold (s : State) (l x : LaneId) : (s.resetLane l).laneCtl.hold x = s.laneCtl.hold x := by
  rw [State.resetLane_laneCtl, LaneCtlSt.hold_setStat]

@[simp] theorem State.resetLane_event (s : State) (l : LaneId) : (s.resetLane l).laneCtl.event = s.laneCtl.event := by
  cases l <;> rfl

/-! ## The note of a loss (15 R375, R388) -/

/-- A lane's statistics after a loss: reason, losses of the last 24 hours, failed check, disagreements. -/
def State.lossStat (s : State) (l : LaneId) (reason : Nat) : LaneStat :=
  let x := s.laneCtl.stat l
  let recent := x.losses.filter fun e => s.now < e + ticksPerDay
  { x with
    lastLoss := reason, losses := if reason = Loss.hostHold then recent else s.now :: recent
    selfCheckFail := decide (reason = Loss.selfCheck)
    disagreements := if reason = Loss.arbitration ∨ reason = Loss.plausibility then satTo 32 (x.disagreements + 1) else x.disagreements }

/-- The state once a loss is noted and logged, before the hold on the third. -/
def State.lossLogged (s : State) (l : LaneId) (reason : Nat) : State :=
  ((s.onStat l fun _ => s.lossStat l reason).logRm Cls.warning 0x0906 (laneSubject l) [w32 reason]).setLaneEvent 0x10

theorem State.noteLoss_cases (s : State) (l : LaneId) (reason : Nat) :
    s.noteLoss l reason =
      if 3 ≤ (s.lossStat l reason).losses.length ∧ (s.lossLogged l reason).laneCtl.hold l = false then
        ({ s.lossLogged l reason with laneCtl := (s.lossLogged l reason).laneCtl.setHold l true } : State).logRm
          Cls.alarm 0x0903 (laneSubject l) []
      else s.lossLogged l reason := rfl

theorem State.lossLogged_laneCtl (s : State) (l : LaneId) (reason : Nat) :
    (s.lossLogged l reason).laneCtl =
      { s.laneCtl.setStat l (s.lossStat l reason) with event := s.laneCtl.event ||| 0x10 } := by
  unfold State.lossLogged
  rw [State.setLaneEvent_laneCtl, State.logRm_laneCtl]
  cases l <;> rfl

theorem State.lossLogged_eq (s : State) (l : LaneId) (reason : Nat) :
    s.lossLogged l reason =
      { s with laneCtl := (s.lossLogged l reason).laneCtl, evt := (s.lossLogged l reason).evt, hif := (s.lossLogged l reason).hif } := by
  unfold State.lossLogged
  rw [State.setLaneEvent_eq]
  rfl

theorem State.lossLogged_lossFrame (s : State) (l : LaneId) (reason : Nat) : LossFrame s.laneCtl (s.lossLogged l reason).laneCtl := by
  rw [State.lossLogged_laneCtl]
  exact (LossFrame.setStat s.laneCtl l (s.lossStat l reason)).trans rfl

/-- A noted loss changes lane control, the log and interrupts. -/
theorem State.noteLoss_eq (s : State) (l : LaneId) (reason : Nat) :
    s.noteLoss l reason =
      { s with laneCtl := (s.noteLoss l reason).laneCtl, evt := (s.noteLoss l reason).evt, hif := (s.noteLoss l reason).hif } := by
  rw [State.noteLoss_cases]
  split
  · rw [State.lossLogged_eq]; rfl
  · exact State.lossLogged_eq s l reason

/-- Lane control after a noted loss: that of the logged loss, the lane's hold perhaps set. -/
theorem State.noteLoss_laneCtl (s : State) (l : LaneId) (reason : Nat) :
    (s.noteLoss l reason).laneCtl = (s.lossLogged l reason).laneCtl ∨
    (s.noteLoss l reason).laneCtl = (s.lossLogged l reason).laneCtl.setHold l true := by
  rw [State.noteLoss_cases]
  split
  · exact .inr rfl
  · exact .inl rfl

theorem State.noteLoss_lossFrame (s : State) (l : LaneId) (reason : Nat) : LossFrame s.laneCtl (s.noteLoss l reason).laneCtl := by
  rcases s.noteLoss_laneCtl l reason with h | h <;> rw [h]
  · exact s.lossLogged_lossFrame l reason
  · exact (s.lossLogged_lossFrame l reason).trans (LossFrame.setHold _ _ _)

@[simp] theorem State.noteLoss_stat (s : State) (l : LaneId) (reason : Nat) :
    (s.noteLoss l reason).laneCtl.stat l = s.lossStat l reason := by
  have e : (s.lossLogged l reason).laneCtl.stat l = s.lossStat l reason := by
    rw [State.lossLogged_laneCtl]; cases l <;> rfl
  rcases s.noteLoss_laneCtl l reason with h | h <;> simp [h, e]

@[simp] theorem State.noteLoss_hold_other (s : State) (l : LaneId) (reason : Nat) :
    (s.noteLoss l reason).laneCtl.hold l.other = s.laneCtl.hold l.other := by
  have e : (s.lossLogged l reason).laneCtl.hold l.other = s.laneCtl.hold l.other := by
    rw [State.lossLogged_laneCtl]; cases l <;> rfl
  rcases s.noteLoss_laneCtl l reason with h | h <;> simp [h, e]

/-- A loss sets LANE_LOST in the event register (15 Table 15.8). -/
@[simp] theorem State.noteLoss_event (s : State) (l : LaneId) (reason : Nat) :
    (s.noteLoss l reason).laneCtl.event = s.laneCtl.event ||| 0x10 := by
  have e : (s.lossLogged l reason).laneCtl.event = s.laneCtl.event ||| 0x10 := by rw [State.lossLogged_laneCtl]
  rcases s.noteLoss_laneCtl l reason with h | h <;> simp [h, e]

@[simp] theorem State.noteLoss_lane (s : State) (l x : LaneId) (reason : Nat) : (s.noteLoss l reason).lane x = s.lane x := by
  rw [State.noteLoss_eq]; exact State.lane_congr rfl rfl x

end Sys2Proof.Machine
end

section
/-! SUPPORT. The device address space: what one word through the data port or BAR2 does. -/

namespace Sys2Proof

/-! ## Bytes stored and read back -/

@[simp] theorem Machine.leBytes_length (n v : Nat) : (Machine.leBytes n v).length = n := by
  induction n generalizing v with
  | zero => rfl
  | succ n ih => exact congrArg (· + 1) (ih (v / 256))

@[simp] theorem Machine.leW_length (w : U32) : (Machine.leW w).length = 4 := Machine.leBytes_length 4 w.toNat

/-- Bytes stored are read back. -/
theorem Mem.readBytes_writeBytes (bs : List Byte) (m : Mem) (a : Nat) : (m.writeBytes a bs).readBytes a bs.length = bs := by
  induction bs generalizing m a with
  | nil => rfl
  | cons b bs ih =>
    have head : ((m.write a b).writeBytes (a + 1) bs).read a = b := by
      rw [Mem.read_writeBytes_other _ _ _ _ (.inl (Nat.lt_succ_self a)), Mem.read_write, if_pos rfl]
    exact congrArg₂ List.cons head (ih (m.write a b) (a + 1))

theorem Mem.readBytes_writeWord (m : Mem) (a : Nat) (w : U32) : (m.writeBytes a (Machine.leW w)).readBytes a 4 = Machine.leW w := by
  have h := Mem.readBytes_writeBytes (Machine.leW w) m a
  rwa [Machine.leW_length] at h

theorem Mem.read_writeWord_other (m : Mem) (a b : Nat) (w : U32) (h : b < a ∨ a + 4 ≤ b) :
    (m.writeBytes a (Machine.leW w)).read b = m.read b :=
  Mem.read_writeBytes_other _ _ _ _ (by rwa [Machine.leW_length])

namespace Machine

/-! ## A word in the lanes (01 R28, R29; 07 R191) -/

/-- A write to a slot changes the image table alone. -/
theorem State.touchSlot_eq (s : State) (a : Nat) : s.touchSlot a = { s with img := (s.touchSlot a).img } := by
  unfold State.touchSlot; dsimp only; split <;> rfl

/-- A host write leaves a STAGED slot EMPTY. -/
theorem State.touchSlot_staged (s : State) (a : Nat) (ha : a < 0x0400000000)
    (h : Tab.get 0 s.img.slotState (a / 0x80000000) = 1) :
    Tab.get 0 (s.touchSlot a).img.slotState (a / 0x80000000) = 0 := by
  unfold State.touchSlot
  dsimp only
  rw [if_pos ⟨ha, h⟩]
  exact Tab.get_set_same 0 0 s.img.slotState _

/-- One word stored changes the running lanes and the image table. -/
theorem State.writeDevice_eq (s : State) (a : Nat) (w : U32) :
    s.writeDevice a w =
      { s with laneA := (s.writeDevice a w).laneA, laneB := (s.writeDevice a w).laneB, img := (s.writeDevice a w).img } := by
  unfold State.writeDevice
  rw [State.touchSlot_eq]
  rfl

theorem State.writeDevice_lane (s : State) (a : Nat) (w : U32) (l : LaneId) :
    (s.writeDevice a w).lane l =
      if (s.lane l).isRunning then { s.lane l with dram := (s.lane l).dram.writeBytes a (leW w) } else s.lane l := by
  rw [← State.lane_onLanes s (fun x => { x with dram := x.dram.writeBytes a (leW w) }) l]
  unfold State.writeDevice
  rw [State.touchSlot_eq]
  exact State.lane_congr rfl rfl l

/-- The lane that counts is the one read. -/
theorem State.main_of_mainLane {s : State} {l : LaneId} (h : s.mainLane = some l) : s.main = s.lane l := by
  unfold State.main; rw [h]

/-! ## One word through the data port and through BAR2 (17 R428 to R430) -/

theorem State.dpAccess_word (s : State) (a : Nat) (write : Bool) (d : U64) :
    s.dpAccess a write false d =
      if write then (s.dpWord a write (u64lo d)).1
      else (s.dpWord a write (u64lo d)).1.answer (s.dpWord a write (u64lo d)).2.toNat := rfl

theorem State.dpAccess_write {s : State} {a : Nat} (d : U64) (h : s.refusal a true = none) :
    s.dpAccess a true false d = s.writeDevice a (u64lo d) := by
  rw [State.dpAccess_word]; unfold State.dpWord; rw [h]; rfl

theorem State.dpAccess_read {s : State} {a : Nat} (d : U64) (h : s.refusal a false = none) :
    s.dpAccess a false false d = s.answer (s.main.readDevice a).toNat := by
  rw [State.dpAccess_word]; unfold State.dpWord; rw [h]; rfl

/-- A refused word of the data port, the first since ERR was clear (17 R429). -/
def State.dpRefused (s : State) (a code : Nat) : State :=
  ({ s with dport := { s.dport with err := true, errCode := code, errAddr := a } } : State).fire 7

theorem State.dpAccess_refused {s : State} {a code : Nat} (write : Bool) (d : U64) (h : s.refusal a write = some code)
    (he : s.dport.err = false) :
    s.dpAccess a write false d =
      if write then s.dpRefused a code else (s.dpRefused a code).answer (none32 : U32).toNat := by
  have e : s.dpWord a write (u64lo d) = (s.dpRefused a code, none32) := by
    unfold State.dpWord; rw [h]; dsimp only; rw [he]; rfl
  rw [State.dpAccess_word, e]

theorem State.bar2Word_read {s : State} {a : Nat} (w : U32) (h : s.refusal a false = none) :
    s.bar2Word a false w = (s, s.main.readDevice a) := by
  unfold State.bar2Word; rw [h]; rfl

theorem State.bar2Word_refused {s : State} {a code : Nat} (write : Bool) (w : U32) (h : s.refusal a write = some code) :
    s.bar2Word a write w = (s.setHifErr 0x10, none32) := by
  unfold State.bar2Word; rw [h]

theorem exec_bar2Access_word (off : Fin 0x40000000) (write : Bool) (d : U64) (s : State) :
    exec (.bar2Access off write false d) s =
      let x := s.bar2Word ((s.hif.bar2Base.toNat + off.val / 4 * 4) % 2 ^ 48) write (u64lo d)
      .next (if write then x.1 else x.1.answer (x.2.toNat + 2 ^ 32 * (0 : U32).toNat)) := rfl

/-- Within its 48 bits DP_ADDR advances without wrapping. -/
theorem State.advanceDp_eq {s : State} {n : Nat} (h : s.dport.addr + n < 2 ^ 48) :
    s.advanceDp n = { s with dport := { s.dport with addr := s.dport.addr + n } } := by
  unfold State.advanceDp; rw [Nat.mod_eq_of_lt h]

/-! ## What the map allows (01 Table 1.7, 17 Table 17.10) -/

theorem State.refusal_restart {s : State} (a : Nat) (w : Bool) (h : s.gen.rmRestart = true) : s.refusal a w = some 4 := by
  unfold State.refusal; rw [if_pos h]

theorem State.refusal_unmapped {s : State} {a : Nat} (w : Bool) (h : s.gen.rmRestart = false) (ha : hostAccess a = none) :
    s.refusal a w = some 1 := by
  unfold State.refusal
  rw [if_neg (by simp [h]), ha]

/-- Outside a restart the region's access decides first, then the Safety Net, then named and pinned ranges. -/
theorem State.refusal_mapped {s : State} {a : Nat} {r x : Bool} (w : Bool) (h : s.gen.rmRestart = false)
    (ha : hostAccess a = some (r, x)) :
    s.refusal a w =
      if (w && !x) || (!w && !r) then some 2 else if s.inNet then some 5
      else if w && (s.namedRange a || s.pinned a) then some 3 else none := by
  unfold State.refusal
  rw [if_neg (by simp [h]), ha]

theorem hostAccess_dram {a : Nat} (h : a < 0x0600000000) : hostAccess a = some (true, true) := by
  unfold hostAccess; rw [if_pos h]

theorem hostAccess_runtime {a : Nat} (h : 0x0600000000 ≤ a) (h' : a < 0x1000000000) : hostAccess a = some (false, false) := by
  unfold hostAccess; rw [if_neg (by omega), if_pos h']

theorem hostAccess_above {a : Nat} (h : 0x5004000000 ≤ a) : hostAccess a = none := by
  unfold hostAccess
  rw [if_neg (by omega), if_neg (by omega), if_neg (by omega), if_neg (by omega), if_neg (by omega)]

theorem State.refusal_dram {s : State} {a : Nat} (w : Bool) (h : s.gen.rmRestart = false) (ha : a < 0x0600000000) :
    s.refusal a w = if s.inNet then some 5 else if w && (s.namedRange a || s.pinned a) then some 3 else none := by
  rw [State.refusal_mapped w h (hostAccess_dram ha)]
  cases w <;> rfl

/-- The coupling view of a lane: entry `i` at four bytes each (04 R93). -/
theorem Lane.readDevice_coupling (x : Lane) (i : Nat) : x.readDevice (0x5000000000 + i * 4) = x.entry i := by
  have e : (0x5000000000 + i * 4 - 0x5000000000) / 4 = i := by omega
  unfold Lane.readDevice
  rw [if_neg (by omega), if_neg (by omega), if_neg (by omega), e]

/-! ## What each access does -/

theorem exec_dpDataAccess_write {d : U64} {s : State} {a : Nat} (hd : s.dport.addr = a) (hb : a + 4 < 2 ^ 48)
    (hr : s.refusal a true = none) :
    exec (.dpDataAccess true false d) s = .next { s.writeDevice a (u64lo d) with dport := { s.dport with addr := a + 4 } } := by
  subst hd
  have hp : (s.writeDevice s.dport.addr (u64lo d)).dport = s.dport := by rw [State.writeDevice_eq]
  change Host.Outcome.next ((s.dpAccess s.dport.addr true false d).advanceDp 4) = _
  rw [State.dpAccess_write d hr, State.advanceDp_eq (by rw [hp]; exact hb), hp]

theorem exec_dpDataAccess_read {d : U64} {s : State} {a : Nat} {l : LaneId} (hd : s.dport.addr = a) (hb : a + 4 < 2 ^ 48)
    (hr : s.refusal a false = none) (hl : s.mainLane = some l) :
    exec (.dpDataAccess false false d) s =
      .next { s.answer ((s.lane l).readDevice a).toNat with dport := { s.dport with addr := a + 4 } } := by
  subst hd
  change Host.Outcome.next ((s.dpAccess s.dport.addr false false d).advanceDp 4) = _
  rw [State.dpAccess_read d hr, State.main_of_mainLane hl]
  exact congrArg _ (State.advanceDp_eq hb)

/-- What a first refused word leaves: the error with its code and address, and all ones as the answer of a read. -/
theorem State.dpAccess_refused_spec {s : State} {a code : Nat} (w : Bool) (d : U64) (h : s.refusal a w = some code)
    (he : s.dport.err = false) :
    let t := s.dpAccess a w false d
    t.dport = { s.dport with err := true, errCode := code, errAddr := a } ∧ (w = false → t.hif.rdata = 0xFFFFFFFF) ∧
      t = { s with dport := t.dport, hif := t.hif } := by
  have hf : s.dpRefused a code = { s with dport := (s.dpRefused a code).dport, hif := (s.dpRefused a code).hif } := by
    unfold State.dpRefused; rw [State.fire_dport, State.fire_eq]
  have hd : (s.dpRefused a code).dport = { s.dport with err := true, errCode := code, errAddr := a } := State.fire_dport _ 7
  dsimp only
  rw [State.dpAccess_refused w d h he]
  cases w
  · exact ⟨hd, fun _ => rfl, congrArg (State.answer · _) hf⟩
  · exact ⟨hd, fun h => absurd h (by decide), hf⟩

/-- A refused word of BAR2: BAR2 in HIF_ERR, and all ones as the answer of a read. -/
theorem exec_bar2Access_refused {off : Fin 0x40000000} {w : Bool} {d : U64} {s : State} {code : Nat}
    (h : s.refusal ((s.hif.bar2Base.toNat + off.val / 4 * 4) % 2 ^ 48) w = some code) :
    ∃ t, exec (.bar2Access off w false d) s = .next t ∧ t.hif.err.getLsbD 4 = true ∧
      (w = false → t.hif.rdata = 0xFFFFFFFF) ∧ t = { s with hif := t.hif } := by
  rw [exec_bar2Access_word, State.bar2Word_refused w _ h]
  cases w
  · exact ⟨_, rfl, by simp [State.answer], fun _ => rfl, congrArg (State.answer · _) (State.setHifErr_eq s 0x10)⟩
  · exact ⟨_, rfl, by simp, fun h => absurd h (by decide), State.setHifErr_eq s 0x10⟩

theorem exec_bar2Access_read {off : Fin 0x40000000} {d : U64} {s : State} {a : Nat} {l : LaneId}
    (ha : a = (s.hif.bar2Base.toNat + off.val / 4 * 4) % 2 ^ 48) (hr : s.refusal a false = none) (hl : s.mainLane = some l) :
    exec (.bar2Access off false false d) s = .next (s.answer ((s.lane l).readDevice a).toNat) := by
  subst ha
  rw [exec_bar2Access_word, State.bar2Word_read _ hr, State.main_of_mainLane hl]
  rfl

/-- An allowed word through the aperture: stored at its address, DP_ADDR moved at the last word only (17 R428). -/
theorem exec_dpApertureAccess_write {off : Fin 4096} {d : U64} {s : State} {o : Nat} (ho : o = off.val / 4 * 4)
    (hr : s.refusal (s.dport.addr + o) true = none) :
    exec (.dpApertureAccess off true false d) s =
      .next { s.writeDevice (s.dport.addr + o) (u64lo d) with
        dport := { s.dport with addr := if o = 0xFFC then (s.dport.addr + 0x1000) % 2 ^ 48 else s.dport.addr } } := by
  subst ho
  have hw := State.writeDevice_eq s (s.dport.addr + off.val / 4 * 4) (u64lo d)
  have e : exec (.dpApertureAccess off true false d) s =
      let t := s.dpAccess (s.dport.addr + off.val / 4 * 4) true false d
      .next (if off.val / 4 * 4 = 0xFFC ∨ false ∧ off.val / 4 * 4 = 0xFF8 then t.advanceDp 0x1000 else t) := rfl
  rw [e, State.dpAccess_write d hr]
  by_cases last : off.val / 4 * 4 = 0xFFC
  · simp only [last, if_true, true_or]
    rw [last] at hw
    rw [State.advanceDp, hw]
  · simp only [last, if_false, false_or, Bool.false_eq_true, false_and]
    rw [hw]

/-- Settles O51: each access is one word at its address, refused by the map or done in the running lanes. -/
theorem deviceAddressSpace : Obligations.DeviceAddressSpace := by
  refine ⟨?write, ?read, ?refused, ?aperture, ?bar2, ?map, ?coupling⟩
  case write =>
    intro d s a hd hb _ hr
    have lane (l : LaneId) : State.lane { s.writeDevice a (u64lo d) with dport := { s.dport with addr := a + 4 } } l =
        if (s.lane l).isRunning then { s.lane l with dram := (s.lane l).dram.writeBytes a (leW (u64lo d)) } else s.lane l :=
      (State.lane_congr rfl rfl l).trans (s.writeDevice_lane a (u64lo d) l)
    refine ⟨_, exec_dpDataAccess_write hd hb hr, rfl, fun l hl => ?_, fun l hl => ?_, fun ha hs => ?_, ?_⟩
    · rw [lane l, if_pos hl]
      exact ⟨rfl, Mem.readBytes_writeWord _ _ _, fun b hb => Mem.read_writeWord_other _ _ _ _ hb⟩
    · rw [lane l, if_neg (by simp [hl])]
    · exact State.touchSlot_staged (s.onLanes _) a ha hs
    · rw [State.writeDevice_eq]
  case read =>
    intro d s a l hd hb hr hl
    exact ⟨_, exec_dpDataAccess_read hd hb hr hl, rfl, rfl, rfl⟩
  case refused =>
    intro w d s a code hd hb hr he
    subst hd
    obtain ⟨hp, hv, ht⟩ := State.dpAccess_refused_spec w d hr he
    have hx := State.advanceDp_eq (s := s.dpAccess s.dport.addr w false d) (n := 4) (by rw [hp]; exact hb)
    refine ⟨_, congrArg Host.Outcome.next hx, by rw [hp], hv, ?_⟩
    rw [ht]
  case aperture =>
    intro off d s o ho hr
    refine ⟨_, exec_dpApertureAccess_write ho hr, rfl, fun l hl => ?_⟩
    exact (State.lane_congr rfl rfl l).trans ((s.writeDevice_lane _ _ l).trans (if_pos hl))
  case bar2 =>
    intro off d s a ha
    refine ⟨fun l hr hl => ⟨_, exec_bar2Access_read ha hr hl, rfl, rfl⟩, fun w code hr => ?_⟩
    subst ha
    exact exec_bar2Access_refused hr
  case map =>
    intro s a w
    refine ⟨s.refusal_restart a w, fun h h1 h2 => ?_, fun h h1 => ?_, fun h h1 hn => ?_, fun h h1 hn hp => ⟨?_, ?_⟩⟩
    · rw [State.refusal_mapped w h (hostAccess_runtime h1 h2)]; cases w <;> rfl
    · exact State.refusal_unmapped w h (hostAccess_above h1)
    · rw [State.refusal_dram w h h1, if_pos hn]
    · rw [State.refusal_dram true h h1, if_neg (by simp [hn]), if_pos (by simp [hp])]
    · rw [State.refusal_dram false h h1, if_neg (by simp [hn]), if_neg (by simp)]
  case coupling =>
    intro x i j _ _
    exact x.readDevice_coupling _

end Machine
end Sys2Proof
end

section
/-! SUPPORT. The loss of a lane and the Safety Net, each cut into its stages, with what each stage changes. -/

namespace Sys2Proof.Machine

/-- A fold of steps that all keep `g` keeps `g`. -/
theorem foldl_keeps {α β γ : Type} (g : β → γ) {f : β → α → β} (h : ∀ b a, g (f b a) = g b) (l : List α) (b : β) :
    g (l.foldl f b) = g b := by
  induction l generalizing b with
  | nil => rfl
  | cons a l ih => exact (ih (f b a)).trans (h b a)

/-! ## Ending what is in progress -/

@[simp] theorem State.abandonDrill_laneA (s : State) : s.abandonDrill.laneA = s.laneA := by
  unfold State.abandonDrill; split <;> simp

@[simp] theorem State.abandonDrill_laneB (s : State) : s.abandonDrill.laneB = s.laneB := by
  unfold State.abandonDrill; split <;> simp

@[simp] theorem State.abandonDrill_update (s : State) : s.abandonDrill.mode.update = s.mode.update := by
  unfold State.abandonDrill; split <;> simp

@[simp] theorem State.abandonDrill_laneCtl (s : State) :
    s.abandonDrill.laneCtl = { s.laneCtl with drillCmd := none, drillGranted := false, drillAcked := false } := by
  unfold State.abandonDrill
  split
  · rename_i h; simp [← h]
  · simp

/-- With no drill in progress nothing else changes. -/
theorem State.abandonDrill_none {s : State} (h : s.laneCtl.drillCmd = none) :
    s.abandonDrill = { s with laneCtl := s.abandonDrill.laneCtl } := by
  unfold State.abandonDrill; rw [h]

theorem State.abandonDrill_lossFrame (s : State) : LossFrame s.laneCtl s.abandonDrill.laneCtl := by
  rw [State.abandonDrill_laneCtl]; rfl

/-- The mode requests that are dropped keep every part of the state that ending a command keeps. -/
theorem State.dropRequests_keeps {γ : Type} (g : State → γ) (hf : ∀ (t : State) (id : Nat) (r : Reply), g (t.finish id r) = g t)
    (hp : g { s with mode := { s.mode with pendingModes := [] } } = g s) : g s.dropRequests = g s := by
  unfold State.dropRequests
  refine (foldl_keeps g (fun t m => ?_) _ _).trans hp
  cases m
  · exact hf t _ _
  · exact hf t _ _
  · rfl

@[simp] theorem State.dropRequests_laneA (s : State) : s.dropRequests.laneA = s.laneA :=
  State.dropRequests_keeps State.laneA State.finish_laneA rfl

@[simp] theorem State.dropRequests_laneB (s : State) : s.dropRequests.laneB = s.laneB :=
  State.dropRequests_keeps State.laneB State.finish_laneB rfl

@[simp] theorem State.dropRequests_laneCtl (s : State) : s.dropRequests.laneCtl = s.laneCtl :=
  State.dropRequests_keeps State.laneCtl State.finish_laneCtl rfl

@[simp] theorem State.dropRequests_update (s : State) : s.dropRequests.mode.update = s.mode.update :=
  State.dropRequests_keeps (fun t => t.mode.update) (fun t i r => congrArg ModeSt.update (State.finish_mode t i r)) rfl

/-- Commands that end unexecuted keep every part of the state that their completions and the mode register keep. -/
theorem State.notExecuted_keeps {γ : Type} (g : State → γ) (hr : ∀ (t : State) (p : Packet) (e : Nat) (r : Reply), g (t.ready p e r) = g t)
    (hc : ∀ (t : State) (p : Packet) (e : Nat) (r : Reply), g (t.conclude p e r) = g t) (he : ∀ (t : State) (m : U32), g (t.setModeEvent m) = g t)
    (hw : ∀ (t : State) (v : ValveSt) (q : ProtoSt) (m : ModeSt), g { t with valve := v, proto := q, mode := m } = g t) (s : State) :
    g s.notExecuted = g s := by
  have hm (t : State) (q : ProtoSt) (m : ModeSt) : g { t with proto := q, mode := m } = g t := hw t t.valve q m
  have hv (t : State) (v : ValveSt) (q : ProtoSt) : g { t with valve := v, proto := q } = g t := hw t v q t.mode
  unfold State.notExecuted
  dsimp only
  split
  · rw [hm, foldl_keeps g fun t r => hc t _ _ _, foldl_keeps g fun t x => hr t _ _ _, hv]
  · rw [he, hm, foldl_keeps g fun t r => hc t _ _ _, foldl_keeps g fun t x => hr t _ _ _, hv]

@[simp] theorem State.notExecuted_laneA (s : State) : s.notExecuted.laneA = s.laneA :=
  State.notExecuted_keeps State.laneA (fun t p e r => State.ready_laneA t p e r false) State.conclude_laneA State.setModeEvent_laneA
    (fun _ _ _ _ => rfl) s

@[simp] theorem State.notExecuted_laneB (s : State) : s.notExecuted.laneB = s.laneB :=
  State.notExecuted_keeps State.laneB (fun t p e r => State.ready_laneB t p e r false) State.conclude_laneB State.setModeEvent_laneB
    (fun _ _ _ _ => rfl) s

@[simp] theorem State.notExecuted_laneCtl (s : State) : s.notExecuted.laneCtl = s.laneCtl :=
  State.notExecuted_keeps State.laneCtl (fun t p e r => State.ready_laneCtl t p e r false) State.conclude_laneCtl
    State.setModeEvent_laneCtl (fun _ _ _ _ => rfl) s

/-! ## Lanes started again from the store -/

/-- A lane that is not in reset already is put there. -/
def State.resetIfUp (s : State) (l : LaneId) : State := if (s.lane l).run = .reset then s else s.resetLane l

theorem State.resetIfUp_run (s : State) (l : LaneId) : ((s.resetIfUp l).lane l).run = .reset := by
  unfold State.resetIfUp; split
  · assumption
  · rw [State.resetLane_lane_same]; rfl

theorem State.resetIfUp_lane_other (s : State) (l : LaneId) : (s.resetIfUp l).lane l.other = s.lane l.other := by
  unfold State.resetIfUp; split
  · rfl
  · exact State.resetLane_lane_other s l

theorem State.resetIfUp_lossFrame (s : State) (l : LaneId) : LossFrame s.laneCtl (s.resetIfUp l).laneCtl := by
  unfold State.resetIfUp; split
  · exact LossFrame.refl _
  · exact State.resetLane_lossFrame s l

theorem State.resetIfUp_lastLoss (s : State) (l x : LaneId) :
    ((s.resetIfUp l).laneCtl.stat x).lastLoss = (s.laneCtl.stat x).lastLoss := by
  unfold State.resetIfUp; split
  · rfl
  · exact State.resetLane_lastLoss s l x

/-- Of lanes and lane control, a start from the store changes what the two resets change. -/
theorem State.reloadLanes_eq (s : State) :
    let t := (s.notExecuted.resetIfUp .A).resetIfUp .B
    s.reloadLanes.laneCtl = t.laneCtl ∧ s.reloadLanes.laneA = t.laneA ∧ s.reloadLanes.laneB = t.laneB := by
  unfold State.reloadLanes
  generalize s.notExecuted = u
  exact ⟨rfl, rfl, rfl⟩

theorem State.reloadLanes_run (s : State) (l : LaneId) : (s.reloadLanes.lane l).run = .reset := by
  obtain ⟨-, ha, hb⟩ := s.reloadLanes_eq
  rw [State.lane_congr ha hb l]
  cases l with
  | A =>
    have h := State.resetIfUp_lane_other (s.notExecuted.resetIfUp .A) .B
    exact (congrArg Lane.run h).trans (State.resetIfUp_run _ _)
  | B => exact State.resetIfUp_run _ _

theorem State.reloadLanes_lossFrame (s : State) : LossFrame s.laneCtl s.reloadLanes.laneCtl := by
  rw [s.reloadLanes_eq.1, ← s.notExecuted_laneCtl]
  exact (State.resetIfUp_lossFrame _ _).trans (State.resetIfUp_lossFrame _ _)

theorem State.reloadLanes_lastLoss (s : State) (l : LaneId) :
    (s.reloadLanes.laneCtl.stat l).lastLoss = (s.laneCtl.stat l).lastLoss := by
  rw [s.reloadLanes_eq.1, State.resetIfUp_lastLoss, State.resetIfUp_lastLoss, State.notExecuted_laneCtl]

/-! ## Entry to the Safety Net (15 R382 to R386) -/

@[simp] theorem State.failUpdateInNet_laneCtl (s : State) : s.failUpdateInNet.laneCtl = s.laneCtl := by
  unfold State.failUpdateInNet; split
  · simp
  · rfl

theorem State.failUpdateInNet_idle {s : State} (h : s.mode.update = .idle) : s.failUpdateInNet = s := by
  unfold State.failUpdateInNet; rw [if_neg (by simp [h])]

/-- Entry to NET up to its record: the axis, what was in progress ended, the field on its own. -/
def State.netEntered (s : State) (cause : Nat) : State :=
  let first := !s.inNet
  let q := s.abandonDrill.dropRequests
  let t : State := { q with
    laneCtl := { q.laneCtl with
      redundancy := .net, netCause := cause, gap := false, held := false, granting := none, grantNo := 0, merge := false
      mergeRun := 0, counts := [], retesting := none, netAgreeRun := 0
      preNetActive := if first then q.laneCtl.active else q.laneCtl.preNetActive
      cntNet := if first then satTo 32 (q.laneCtl.cntNet + 1) else q.laneCtl.cntNet
      statA := { q.laneCtl.statA with qualRun := 0 }, statB := { q.laneCtl.statB with qualRun := 0 } },
    rel := { q.rel with netActive := true },
    tick := { q.tick with held := [] } }
  if first then (t.logRm Cls.prot 0x0904 (w32 cause) []).setLaneEvent 0x40 else t

/-- The stages of an entry to NET. -/
theorem State.enterNet_stages (s : State) (cause : Nat) (resets : Bool) :
    s.enterNet cause resets =
      let u := (s.netEntered cause).failUpdateInNet
      let t := if resets || s.mode.update = .handover || s.mode.update = .trial then u.reloadLanes
        else u.onLanes fun x => { x with run := .running }
      let t := { t with upd := { t.upd with cmd := if t.mode.update = .idle then none else t.upd.cmd } }
      if resets then t else t.restartRm := by
  unfold State.enterNet State.netEntered
  with_reducible rfl

/-- The command of an update that has ended is forgotten. -/
def State.dropUpdateCmd (s : State) : State :=
  { s with upd := { s.upd with cmd := if s.mode.update = .idle then none else s.upd.cmd } }

/-- With a cause that resets the lanes, they start again from the store. -/
theorem State.enterNet_resets (s : State) (cause : Nat) :
    s.enterNet cause true = (s.netEntered cause).failUpdateInNet.reloadLanes.dropUpdateCmd := by
  simp only [State.enterNet_stages, Bool.true_or, if_true]
  rfl

/-- With no update in progress, a cause in the Ringmaster leaves the lanes running and restarts its firmware. -/
theorem State.enterNet_restarts {s : State} (cause : Nat) (h : s.mode.update = .idle) :
    s.enterNet cause false = (((s.netEntered cause).failUpdateInNet.onLanes fun x => { x with run := .running }).dropUpdateCmd).restartRm := by
  simp only [State.enterNet_stages, h, Bool.false_or, reduceCtorEq, decide_false, if_false, Bool.false_eq_true]
  rfl

theorem State.netEntered_lane (s : State) (cause : Nat) (l : LaneId) : (s.netEntered cause).lane l = s.lane l := by
  apply State.lane_congr <;> (unfold State.netEntered; dsimp only; split <;> simp)

theorem State.netEntered_update (s : State) (cause : Nat) : (s.netEntered cause).mode.update = s.mode.update := by
  unfold State.netEntered; dsimp only; split <;> simp

theorem State.netEntered_netActive (s : State) (cause : Nat) : (s.netEntered cause).rel.netActive = true := by
  unfold State.netEntered; dsimp only; split <;> simp

theorem State.netEntered_redundancy (s : State) (cause : Nat) : (s.netEntered cause).laneCtl.redundancy = .net := by
  unfold State.netEntered; dsimp only; split <;> simp

theorem State.netEntered_netCause (s : State) (cause : Nat) : (s.netEntered cause).laneCtl.netCause = cause := by
  unfold State.netEntered; dsimp only; split <;> simp

theorem State.netEntered_cntRmRestart (s : State) (cause : Nat) :
    (s.netEntered cause).laneCtl.cntRmRestart = s.laneCtl.cntRmRestart := by
  unfold State.netEntered; dsimp only; split <;> simp

theorem State.netEntered_cntNet {s : State} (cause : Nat) (h : s.inNet = false) :
    (s.netEntered cause).laneCtl.cntNet = satTo 32 (s.laneCtl.cntNet + 1) := by
  unfold State.netEntered; simp [h]

theorem State.netEntered_lastLoss (s : State) (cause : Nat) (l : LaneId) :
    ((s.netEntered cause).laneCtl.stat l).lastLoss = (s.laneCtl.stat l).lastLoss := by
  unfold State.netEntered; dsimp only; split <;> cases l <;> simp [LaneCtlSt.stat]

/-- Entry to NET with a cause that resets the lanes: the axis, its cause, both lanes in reset, their last losses kept. -/
theorem State.enterNet_resets_spec (s : State) (cause : Nat) :
    let t := s.enterNet cause true
    t.laneCtl.redundancy = .net ∧ t.laneCtl.netCause = cause ∧ (∀ l, (t.lane l).run = .reset) ∧
      ∀ l, (t.laneCtl.stat l).lastLoss = (s.laneCtl.stat l).lastLoss := by
  have hf := State.reloadLanes_lossFrame (s.netEntered cause).failUpdateInNet
  have hl := State.reloadLanes_lastLoss (s.netEntered cause).failUpdateInNet
  have hr := State.reloadLanes_run (s.netEntered cause).failUpdateInNet
  rw [State.failUpdateInNet_laneCtl] at hf hl
  rw [State.enterNet_resets]
  generalize (s.netEntered cause).failUpdateInNet.reloadLanes = t at *
  exact ⟨hf.redundancy.trans (s.netEntered_redundancy cause), hf.netCause.trans (s.netEntered_netCause cause),
    fun l => (congrArg Lane.run (State.lane_congr rfl rfl l)).trans (hr l),
    fun l => (hl l).trans (s.netEntered_lastLoss cause l)⟩

/-- Entry to NET for a cause in the Ringmaster, from outside NET and with no update: lanes that run keep running, the
firmware restarts, and both are counted. -/
theorem State.enterNet_restarts_spec (s : State) (cause : Nat) (h : s.mode.update = .idle) (hn : s.inNet = false) :
    let t := s.enterNet cause false
    t.laneCtl.redundancy = .net ∧ t.laneCtl.netCause = cause ∧ t.gen.rmRestart = true ∧
      t.laneCtl.cntRmRestart = satTo 32 (s.laneCtl.cntRmRestart + 1) ∧ t.laneCtl.cntNet = satTo 32 (s.laneCtl.cntNet + 1) ∧
      t.rel.netActive = true ∧ ∀ l, t.lane l = if (s.lane l).isRunning then { s.lane l with run := .running } else s.lane l := by
  dsimp only
  rw [State.enterNet_restarts cause h, State.failUpdateInNet_idle ((s.netEntered_update cause).trans h)]
  have hl (l : LaneId) : ((s.netEntered cause).onLanes fun x => { x with run := .running }).lane l =
      if (s.lane l).isRunning then { s.lane l with run := .running } else s.lane l := by
    rw [State.lane_onLanes, State.netEntered_lane]
  simp only [State.restartRm, State.setLaneEvent_laneCtl, State.setLaneEvent_gen, State.setLaneEvent_rel]
  exact ⟨s.netEntered_redundancy cause, s.netEntered_netCause cause, trivial,
    congrArg (fun n => satTo 32 (n + 1)) (s.netEntered_cntRmRestart cause), State.netEntered_cntNet cause hn,
    s.netEntered_netActive cause, fun l =>
      (State.lane_congr (State.setLaneEvent_laneA _ _) (State.setLaneEvent_laneB _ _) l).trans ((State.lane_congr rfl rfl l).trans (hl l))⟩

end Sys2Proof.Machine
end

section
/-! SUPPORT. The loss of one lane, in DUPLEX and alone, and the events that bring it about. -/

namespace Sys2Proof.Machine

/-! ## What a single loss changes -/

theorem LaneFrame.refl (s : State) : LaneFrame s s := rfl

theorem LaneFrame.trans {s t u : State} (h : LaneFrame s t) (g : LaneFrame t u) : LaneFrame s u := by
  unfold LaneFrame at *; rw [g, h]

theorem LaneFrame.mode {s t : State} (h : LaneFrame s t) : t.mode = s.mode := by rw [h]

theorem State.refitK_eq (s : State) : s.refitK = { s with img := s.refitK.img } := by
  unfold State.refitK; dsimp only; split <;> rfl

/-- A loss up to the choice of the redundancy axis. -/
def State.lossTaken (s : State) (l : LaneId) (reason : Nat) : State :=
  let s := (s.abandonDrill.noteLoss l reason).resetLane l
  let s := { s with tick := { s.tick with held := dropCopies l s.tick.held } }
  let s := { s with laneCtl := { s.laneCtl with merge := false, mergeRun := 0, counts := [] } }
  let s := if s.mode.update = .handover ∨ s.mode.update = .trial then
      { s with upd := { s.upd with failed := s.upd.failed <|> some 3 } } else s
  s.refitK

/-- Lane `l` carries the authority, or the grant that would give it. -/
def State.carriesAuthority (s : State) (l : LaneId) : Bool :=
  !s.inNet && (s.lane l).run = .active || s.laneCtl.held && (s.laneCtl.granting = some l || (s.lane l).run = .standby)

/-- The switch-over gap that the loss of the active lane opens. -/
def State.openGap (s : State) (l : LaneId) (reason : Nat) : State :=
  ({ s with
    proto := s.proto.delayReady
    laneCtl := { s.laneCtl with
      redundancy := .simplexOn l.other, gap := true, held := true, granting := none, grantNo := 0
      cntSwitchover := satTo 32 (s.laneCtl.cntSwitchover + 1) } } : State).logRm Cls.warning 0x0901 (laneSubject l)
        [laneSubject l.other, w32 reason]

theorem State.loseLane_running {s : State} {l : LaneId} (reason : Nat) (h : (s.lane l).isRunning = true) :
    s.loseLane l reason =
      let t := s.lossTaken l reason
      if s.inNet then t
      else if t.laneCtl.holdA && t.laneCtl.holdB then t.enterNet 6 true
      else if s.carriesAuthority l && !(s.lane l.other).isRunning then t.enterNet 3 true
      else if s.carriesAuthority l then t.openGap l reason
      else { t with laneCtl := { t.laneCtl with redundancy := .simplexOn l.other } } := by
  unfold State.loseLane State.lossTaken State.carriesAuthority State.openGap
  rw [if_neg (by simp [h])]

/-- The lane named and the other have not both their HOLD bit where the other has none. -/
theorem LaneCtlSt.not_bothHeld {c : LaneCtlSt} {l : LaneId} (h : c.hold l.other = false) : (c.holdA && c.holdB) = false := by
  cases l
  · exact (congrArg (c.holdA && ·) h).trans (Bool.and_false _)
  · exact (congrArg (· && c.holdB) h).trans (Bool.false_and _)

section
variable (s : State) (l : LaneId) (reason : Nat)

theorem State.lossTaken_laneCtl :
    (s.lossTaken l reason).laneCtl =
      { ((s.abandonDrill.noteLoss l reason).resetLane l).laneCtl with merge := false, mergeRun := 0, counts := [] } := by
  unfold State.lossTaken
  rw [State.refitK_eq]
  dsimp only
  split <;> rfl

theorem State.lossTaken_lossFrame : LossFrame s.laneCtl (s.lossTaken l reason).laneCtl := by
  rw [State.lossTaken_laneCtl]
  exact ((s.abandonDrill_lossFrame.trans (State.noteLoss_lossFrame _ _ _)).trans (State.resetLane_lossFrame _ _)).trans rfl

theorem State.lossTaken_stat :
    ((s.lossTaken l reason).laneCtl.stat l).lastLoss = reason ∧
    ((s.lossTaken l reason).laneCtl.stat l).selfCheckFail = decide (reason = Loss.selfCheck) := by
  have e : (s.lossTaken l reason).laneCtl.stat l = ((s.abandonDrill.noteLoss l reason).resetLane l).laneCtl.stat l := by
    rw [State.lossTaken_laneCtl]; cases l <;> rfl
  rw [e, State.resetLane_lastLoss, State.resetLane_selfCheckFail, State.noteLoss_stat]
  exact ⟨rfl, rfl⟩

theorem State.lossTaken_event : (s.lossTaken l reason).laneCtl.event = s.laneCtl.event ||| 0x10 := by
  rw [State.lossTaken_laneCtl]
  exact (State.resetLane_event _ _).trans ((State.noteLoss_event _ _ _).trans (by rw [State.abandonDrill_laneCtl]))

theorem State.lossTaken_hold_other : (s.lossTaken l reason).laneCtl.hold l.other = s.laneCtl.hold l.other := by
  have e : (s.lossTaken l reason).laneCtl.hold l.other = ((s.abandonDrill.noteLoss l reason).resetLane l).laneCtl.hold l.other := by
    rw [State.lossTaken_laneCtl]; cases l <;> rfl
  rw [e, State.resetLane_hold, State.noteLoss_hold_other, State.abandonDrill_laneCtl]
  cases l <;> rfl

theorem State.lossTaken_lane_eq (x : LaneId) :
    (s.lossTaken l reason).lane x = ((s.abandonDrill.noteLoss l reason).resetLane l).lane x := by
  unfold State.lossTaken
  rw [State.refitK_eq]
  dsimp only
  split <;> exact State.lane_congr rfl rfl x

theorem State.lossTaken_lane_same : (s.lossTaken l reason).lane l = (s.lane l).wiped .reset := by
  rw [State.lossTaken_lane_eq, State.resetLane_lane_same, State.noteLoss_lane,
    State.lane_congr s.abandonDrill_laneA s.abandonDrill_laneB]

theorem State.lossTaken_lane_other : (s.lossTaken l reason).lane l.other = s.lane l.other := by
  rw [State.lossTaken_lane_eq, State.resetLane_lane_other, State.noteLoss_lane,
    State.lane_congr s.abandonDrill_laneA s.abandonDrill_laneB]

/-- Without a drill or an update, a loss changes lanes and their control, the held results, images' k, the log and interrupts. -/
theorem State.lossTaken_eq (hd : s.laneCtl.drillCmd = none) (hu : s.mode.update = .idle) :
    let t := s.lossTaken l reason
    t = { s with laneCtl := t.laneCtl, laneA := t.laneA, laneB := t.laneB, tick := { s.tick with held := dropCopies l s.tick.held }
                 img := t.img, evt := t.evt, hif := t.hif } := by
  have h : (s.abandonDrill.noteLoss l reason).resetLane l =
      let t := (s.abandonDrill.noteLoss l reason).resetLane l
      { s with laneCtl := t.laneCtl, laneA := t.laneA, laneB := t.laneB, evt := t.evt, hif := t.hif } := by
    rw [State.resetLane_eq, State.noteLoss_eq, State.abandonDrill_none hd]
  unfold State.lossTaken
  generalize (s.abandonDrill.noteLoss l reason).resetLane l = t at h
  have hm : t.mode.update = .idle := by rw [h]; exact hu
  dsimp only at h ⊢
  rw [if_neg (by simp [hm]), State.refitK_eq, h]

end

/-! ## Losses in DUPLEX -/

theorem InDuplex.inNet {a : LaneId} {s : State} (h : InDuplex a s) : s.inNet = false := by
  unfold State.inNet; rw [h.1]; rfl

theorem InDuplex.isRunning {a : LaneId} {s : State} (h : InDuplex a s) (l : LaneId) : (s.lane l).isRunning = true := by
  obtain ⟨-, -, ha, ho, -⟩ := h
  rcases LaneId.eq_or_other a l with rfl | rfl
  · exact congrArg LaneRun.isRunning ha
  · exact congrArg LaneRun.isRunning ho

theorem InDuplex.hold {a : LaneId} {s : State} (h : InDuplex a s) (l : LaneId) : s.laneCtl.hold l = false := by
  obtain ⟨-, -, -, -, -, -, -, -, hA, hB, -⟩ := h
  cases l
  · exact hA
  · exact hB

theorem InDuplex.carriesAuthority {a : LaneId} {s : State} (h : InDuplex a s) (l : LaneId) : s.carriesAuthority l = decide (l = a) := by
  have hn := h.inNet
  obtain ⟨-, -, ha, ho, hh, -⟩ := h
  unfold State.carriesAuthority
  rw [hn, hh]
  rcases LaneId.eq_or_other a l with rfl | rfl
  · simp [ha]
  · simp [ho, LaneId.other_ne]

/-- In DUPLEX the loss of the active lane opens the gap, and that of the standby leaves SIMPLEX. -/
theorem InDuplex.loseLane_eq {a : LaneId} {s : State} (h : InDuplex a s) (l : LaneId) (reason : Nat) :
    s.loseLane l reason =
      let t := s.lossTaken l reason
      if l = a then t.openGap l reason else { t with laneCtl := { t.laneCtl with redundancy := .simplexOn l.other } } := by
  have hb : ((s.lossTaken l reason).laneCtl.holdA && (s.lossTaken l reason).laneCtl.holdB) = false :=
    LaneCtlSt.not_bothHeld ((s.lossTaken_hold_other l reason).trans (h.hold _))
  rw [State.loseLane_running reason (h.isRunning l)]
  simp only [h.inNet, hb, h.isRunning l.other, h.carriesAuthority l, Bool.false_eq_true, if_false, Bool.not_true, Bool.and_false,
    decide_eq_true_eq]

theorem InDuplex.loseLane {a : LaneId} {s : State} (h : InDuplex a s) (l : LaneId) (reason : Nat) :
    LaneFrame s (s.loseLane l reason) ∧ LaneLost a l reason s (s.loseLane l reason) ∧
      ((s.loseLane l reason).laneCtl.stat l).selfCheckFail = decide (reason = Loss.selfCheck) := by
  have frame := s.lossTaken_lossFrame l reason
  obtain ⟨hloss, hcheck⟩ := s.lossTaken_stat l reason
  have hevent : (s.lossTaken l reason).laneCtl.event.getLsbD 4 = true := by rw [State.lossTaken_event]; simp
  have hsame := s.lossTaken_lane_same l reason
  have hother := s.lossTaken_lane_other l reason
  have hctl := s.lossTaken_laneCtl l reason
  rw [h.loseLane_eq]
  obtain ⟨-, hact, -, -, hheld, hgap, -, hdrill, -, -, hidle⟩ := h
  have heq := s.lossTaken_eq l reason hdrill hidle
  have hmerge : (s.lossTaken l reason).laneCtl.merge = false := by rw [hctl]
  have hcounts : (s.lossTaken l reason).laneCtl.counts = [] := by rw [hctl]
  have htick : (s.lossTaken l reason).tick.held = dropCopies l s.tick.held := by rw [heq]
  have hproto : (s.lossTaken l reason).proto = s.proto := by rw [heq]
  have hframe : LaneFrame s (s.lossTaken l reason) := by unfold LaneFrame; rw [heq]
  dsimp only
  generalize s.lossTaken l reason = t at *
  by_cases hl : l = a
  · rw [if_pos hl]
    refine ⟨hframe.trans rfl, ⟨?_, ?_, hloss, rfl, htick, hmerge, hcounts, hevent, frame.active.trans hact, ?_⟩, hcheck⟩
    · exact (State.lane_congr rfl rfl l).trans hsame
    · exact (State.lane_congr rfl rfl l.other).trans hother
    · rw [if_pos hl]
      exact ⟨rfl, rfl, congrArg ProtoSt.delayReady hproto, congrArg (fun n => satTo 32 (n + 1)) frame.cntSwitchover⟩
  · rw [if_neg hl]
    refine ⟨hframe.trans rfl, ⟨?_, ?_, hloss, rfl, htick, hmerge, hcounts, hevent, frame.active.trans hact, ?_⟩, hcheck⟩
    · exact (State.lane_congr rfl rfl l).trans hsame
    · exact (State.lane_congr rfl rfl l.other).trans hother
    · rw [if_neg hl]
      exact ⟨frame.gap.trans hgap, frame.held.trans hheld, hproto, frame.cntSwitchover⟩

/-! ## The loss of the only lane -/

/-- In SIMPLEX the loss of the active lane leaves none to trust: the Safety Net with cause 3, the reason kept. -/
theorem State.loseLane_alone {s : State} {a : LaneId} (reason : Nat) (hn : s.inNet = false) (ha : (s.lane a).run = .active)
    (ho : (s.lane a.other).isRunning = false) (hh : s.laneCtl.hold a.other = false) :
    s.loseLane a reason = (s.lossTaken a reason).enterNet 3 true := by
  have hb : ((s.lossTaken a reason).laneCtl.holdA && (s.lossTaken a reason).laneCtl.holdB) = false :=
    LaneCtlSt.not_bothHeld ((s.lossTaken_hold_other a reason).trans hh)
  have hr : (s.lane a).isRunning = true := congrArg LaneRun.isRunning ha
  have hc : s.carriesAuthority a = true := by unfold State.carriesAuthority; simp [hn, ha]
  rw [State.loseLane_running reason hr]
  simp only [hn, hb, ho, hc, Bool.false_eq_true, if_false, Bool.not_false, Bool.and_self, if_true]

/-! ## A failed self-check noted (05 R141, 15 R365) -/

/-- The lane's failure noted, with the parity error of its tile. -/
def State.checkFailed (s : State) (l : LaneId) (tile : Option Nat) : State :=
  (match tile with
    | some t => s.noteParity l t
    | none => s).markFailed l

/-- A parity error enters the lane's statistics, and perhaps the fence records. -/
theorem State.noteParity_cases (s : State) (l : LaneId) (tile : Nat) :
    ∃ f, s.noteParity l tile = s.onStat l f ∨ ∃ g, s.noteParity l tile = (s.onStat l f).cfgReg g := by
  unfold State.noteParity
  cases l
  · dsimp only
    split
    · exact ⟨_, .inr ⟨_, rfl⟩⟩
    · exact ⟨_, .inl rfl⟩
  · dsimp only
    split
    · exact ⟨_, .inr ⟨_, rfl⟩⟩
    · exact ⟨_, .inl rfl⟩

theorem State.noteParity_eq (s : State) (l : LaneId) (tile : Nat) :
    s.noteParity l tile = { s with laneCtl := (s.noteParity l tile).laneCtl, cfg := (s.noteParity l tile).cfg, nor := (s.noteParity l tile).nor } := by
  obtain ⟨f, h | ⟨g, h⟩⟩ := s.noteParity_cases l tile <;> rw [h] <;> rfl

theorem State.noteParity_laneCtl (s : State) (l : LaneId) (tile : Nat) :
    ∃ x, (s.noteParity l tile).laneCtl = s.laneCtl.setStat l x := by
  obtain ⟨f, h | ⟨g, h⟩⟩ := s.noteParity_cases l tile <;> rw [h] <;> exact ⟨_, rfl⟩

theorem LaneCtlSt.setStat_setStat (c : LaneCtlSt) (l : LaneId) (x y : LaneStat) : (c.setStat l x).setStat l y = c.setStat l y := by
  cases l <;> rfl

/-- A noted failure changes the lane's statistics and the fence records. -/
theorem State.checkFailed_eq (s : State) (l : LaneId) (tile : Option Nat) :
    let t := s.checkFailed l tile
    t = { s with laneCtl := t.laneCtl, cfg := t.cfg, nor := t.nor } := by
  cases tile with
  | none => rfl
  | some t =>
    have h := s.noteParity_eq l t
    unfold State.checkFailed
    dsimp only
    generalize s.noteParity l t = u at h
    rw [h]
    rfl

theorem State.checkFailed_laneCtl (s : State) (l : LaneId) (tile : Option Nat) :
    ∃ x, (s.checkFailed l tile).laneCtl = s.laneCtl.setStat l x := by
  cases tile with
  | none => exact ⟨_, rfl⟩
  | some t =>
    obtain ⟨x, hx⟩ := s.noteParity_laneCtl l t
    obtain ⟨y, hy⟩ : ∃ y, (s.checkFailed l (some t)).laneCtl = (s.noteParity l t).laneCtl.setStat l y := ⟨_, rfl⟩
    exact ⟨y, by rw [hy, hx, LaneCtlSt.setStat_setStat]⟩

end Sys2Proof.Machine
end

section
/-! SUPPORT. The events that lose a lane (15 R364, R365, R371, R376; 01 R20), and what they lose. -/

namespace Sys2Proof

/-- An entry that is not the default is listed. -/
theorem Tab.mem_of_get_ne {α : Type} {d : α} {t : Tab α} {i : Nat} (h : Tab.get d t i ≠ d) : (i, Tab.get d t i) ∈ t := by
  induction t with
  | nil => exact absurd rfl h
  | cons e t ih =>
    obtain ⟨k, v⟩ := e
    by_cases hk : k = i
    · subst hk; simp [Tab.get]
    · simp only [Tab.get, hk, if_false] at h ⊢
      exact List.mem_cons_of_mem _ (ih h)

/-- Reading a table whose entries have all been changed alike. -/
theorem Tab.get_map {α : Type} {d : α} (f : α → α) (hd : f d = d) (t : Tab α) (i : Nat) :
    Tab.get d (t.map fun e => (e.1, f e.2)) i = f (Tab.get d t i) := by
  induction t with
  | nil => exact hd.symm
  | cons e t ih =>
    obtain ⟨k, v⟩ := e
    by_cases hk : k = i
    · simp [Tab.get, hk]
    · simpa [Tab.get, hk] using ih

namespace Machine

/-! ## A flit lost for good -/

/-- A mirror slot without the copy of lane `l`, unless it has closed. -/
def MirrorSlot.without (l : LaneId) (m : MirrorSlot) : MirrorSlot :=
  if m.closed then m else
    match l with
    | .A => { m with a := none }
    | .B => { m with b := none }

theorem MirrorSlot.without_closed {m : MirrorSlot} (l : LaneId) (h : m.closed = true) : m.without l = m := if_pos h

theorem MirrorSlot.without_open {m : MirrorSlot} (l : LaneId) (h : m.closed = false) :
    (m.without l).copy l = none ∧ (m.without l).copy l.other = m.copy l.other := by
  unfold MirrorSlot.without
  rw [if_neg (by simp [h])]
  cases l <;> exact ⟨rfl, rfl⟩

/-- A flit of lane `l` noted as lost. -/
def State.flitNoted (s : State) (l : LaneId) (frame : Bool) : State :=
  s.onStat l fun x => { x with outputsLost := true, frameLost := x.frameLost || frame }

theorem State.flitNoted_mirror (s : State) (l : LaneId) (frame : Bool) : (s.flitNoted l frame).laneCtl.mirror = s.laneCtl.mirror := by
  cases l <;> rfl

theorem exec_flitLost {l : LaneId} {frame : Bool} {s : State} (h : (s.lane l).isRunning = true) :
    exec (.flitLost l frame) s =
      let t := s.flitNoted l frame
      .next { t with laneCtl := { t.laneCtl with mirror := s.laneCtl.mirror.map fun e => (e.1, e.2.without l) } } := by
  change execFlitLost l frame s = _
  unfold execFlitLost
  rw [if_neg (by simp [h]), ← s.flitNoted_mirror l frame]
  refine congrArg (fun m => (.next { s.flitNoted l frame with laneCtl := { (s.flitNoted l frame).laneCtl with mirror := m } } :
    Host.Outcome State Fault Refusal)) (List.map_congr_left fun e _ => ?_)
  unfold MirrorSlot.without
  split <;> rfl

/-! ## Silence, failed checks, the merge limit -/

theorem exec_laneSilentLost_one {l : LaneId} {s : State} (hr : (s.lane l).isRunning = true) (ho : (s.lane l.other).isRunning = true)
    (hl : 3 ≤ (s.laneCtl.stat l).silentRun) (hq : (s.laneCtl.stat l.other).silentRun < 3) :
    exec (.laneSilentLost l) s = .next (s.loseLane l Loss.silent) := by
  change execLaneSilentLost l s = _
  unfold execLaneSilentLost
  simp [hr, ho, hl, Nat.not_le.2 hq]

theorem exec_laneSilentLost_both {l : LaneId} {s : State} (hr : (s.lane l).isRunning = true)
    (hq : ∀ x, 3 ≤ (s.laneCtl.stat x).silentRun) :
    exec (.laneSilentLost l) s = .next ((s.onStat l fun x => { x with silentRun := 0 }).enterNet 2 true) := by
  change execLaneSilentLost l s = _
  unfold execLaneSilentLost
  simp [hr, hq]

theorem State.migrating_idle {s : State} (l : LaneId) (h : s.mode.update = .idle) : s.migrating l = false := by
  unfold State.migrating; simp [h]

theorem exec_selfCheckFailure {l : LaneId} {tile : Option Nat} {s : State} (hm : s.migrating l = false)
    (hr : (s.lane l).isRunning = true) :
    exec (.selfCheckFailure l tile) s =
      let u := s.checkFailed l tile
      let o := u.laneCtl.stat l.other
      .next (if o.selfCheckFail && o.failedAt = some u.now && !u.inNet then (u.noteLoss l Loss.selfCheck).enterNet 2 true
        else u.loseLane l Loss.selfCheck) := by
  change execSelfCheckFailure l tile s = _
  unfold execSelfCheckFailure
  rw [if_neg (by simp [hm]), if_neg (by simp [hr])]
  cases tile <;> rfl

theorem exec_mergeLimitReached {s : State} (hm : s.laneCtl.merge = true) (hd : s.laneCtl.redundancy = .duplex)
    (hl : s.cfg.mergeLimit ≤ s.laneCtl.mergeRun) :
    exec .mergeLimitReached s = .next (s.loseLane s.laneCtl.active.other Loss.mergeLimit) := by
  change execMergeLimitReached s = _
  unfold execMergeLimitReached
  simp [hm, hd, hl]

/-- A slot short for the whole of REF_TICKS is seen by the cross-check. -/
theorem State.crossCheck_short {s : State} {n : Nat} (h : s.cfg.refTicks ≤ (s.mirrorSlot n).shortRun) (h0 : 0 < s.cfg.refTicks) :
    (s.laneCtl.mirror.any fun e => decide (s.cfg.refTicks ≤ e.2.shortRun)) = true := by
  have hne : Tab.get {} s.laneCtl.mirror n ≠ {} := by
    intro e
    have z : (s.mirrorSlot n).shortRun = 0 := congrArg MirrorSlot.shortRun e
    omega
  exact List.any_eq_true.2 ⟨_, Tab.mem_of_get_ne hne, decide_eq_true h⟩

theorem exec_refereeCrossCheckFail {s : State} (hr : s.laneCtl.redundancy = .simplexOn s.laneCtl.active)
    (hh : s.laneCtl.held = false) (hs : (s.laneCtl.mirror.any fun e => decide (s.cfg.refTicks ≤ e.2.shortRun)) = true) :
    exec .refereeCrossCheckFail s = .next (s.loseLane s.laneCtl.active Loss.crossCheck) := by
  change execRefereeCrossCheckFail s = _
  unfold execRefereeCrossCheckFail
  simp only [hr, hh, hs, decide_true, Bool.not_false, Bool.and_self, if_true]

/-! ## DUPLEX with a lane's statistics changed -/

theorem InDuplex.setStat {a l : LaneId} {x : LaneStat} {s t : State} (h : InDuplex a s) (hl : ∀ y, t.lane y = s.lane y)
    (hc : t.laneCtl = s.laneCtl.setStat l x) (hm : t.mode = s.mode) : InDuplex a t := by
  unfold InDuplex at *
  rw [hc, hl, hl, hm]
  cases l <;> exact h

/-- Noting a failed check leaves DUPLEX and everything else that a loss is measured by. -/
theorem InDuplex.checkFailed {a : LaneId} {s : State} (h : InDuplex a s) (l : LaneId) (tile : Option Nat) :
    let u := s.checkFailed l tile
    InDuplex a u ∧ LaneFrame s u ∧ (∀ y, u.lane y = s.lane y) ∧ u.laneCtl.stat l.other = s.laneCtl.stat l.other ∧
      u.laneCtl.cntSwitchover = s.laneCtl.cntSwitchover ∧ u.tick = s.tick ∧ u.proto = s.proto := by
  obtain ⟨x, hc⟩ := s.checkFailed_laneCtl l tile
  have hu := s.checkFailed_eq l tile
  dsimp only at hu ⊢
  generalize s.checkFailed l tile = u at *
  have hlane (y : LaneId) : u.lane y = s.lane y := by rw [hu]; exact State.lane_congr rfl rfl y
  refine ⟨h.setStat hlane hc (by rw [hu]), by unfold LaneFrame; rw [hu], hlane, ?_, ?_, by rw [hu], by rw [hu]⟩
  · rw [hc, LaneCtlSt.stat_setStat_other]
  · rw [hc]; cases l <;> rfl

theorem InDuplex.update {a : LaneId} {s : State} (h : InDuplex a s) : s.mode.update = .idle := by
  obtain ⟨-, -, -, -, -, -, -, -, -, -, h⟩ := h
  exact h

/-- A loss counts from any state with the same lanes, results, completions and switch-overs. -/
theorem LaneLost.congr {a l : LaneId} {r : Nat} {s u t : State} (h : LaneLost a l r u t) (hl : ∀ y, u.lane y = s.lane y)
    (ht : u.tick = s.tick) (hp : u.proto = s.proto) (hc : u.laneCtl.cntSwitchover = s.laneCtl.cntSwitchover) : LaneLost a l r s t := by
  unfold LaneLost at *
  rwa [hl, hl, ht, hp, hc] at h

theorem Redundancy.simplexOn_ne_net (a : LaneId) : Redundancy.simplexOn a ≠ .net := by cases a <;> decide

/-- Settles O27: a single loss in DUPLEX is `InDuplex.loseLane`, and a loss that leaves no lane is an entry to NET. -/
theorem laneLosses : Obligations.LaneLosses := by
  refine ⟨?flit, ?silent, ?check, ?merge, ?bothSilent, ?bothFail, ?cross⟩
  case flit =>
    intro l frame s hr
    refine ⟨_, exec_flitLost hr, rfl, ?_, ?_, fun n => ?_⟩
    · exact LaneCtlSt.stat_setStat_same _ _ _
    · exact LaneCtlSt.stat_setStat_other _ _ _
    · have hslot := Tab.get_map (d := {}) (MirrorSlot.without l) (by cases l <;> rfl) s.laneCtl.mirror n
      constructor
      · intro hc; exact hslot.trans (MirrorSlot.without_closed l hc)
      · intro hc
        obtain ⟨h1, h2⟩ := MirrorSlot.without_open l hc
        exact ⟨(congrArg (MirrorSlot.copy · l) hslot).trans h1, (congrArg (MirrorSlot.copy · l.other) hslot).trans h2⟩
  case silent =>
    intro a l s hd hl ho
    obtain ⟨hframe, hlost, -⟩ := hd.loseLane l Loss.silent
    exact ⟨_, exec_laneSilentLost_one (hd.isRunning l) (hd.isRunning _) hl ho, hframe, hlost⟩
  case check =>
    intro a l tile s hd ho
    obtain ⟨hdu, hfu, hlane, hstat, hcnt, htick, hproto⟩ := hd.checkFailed l tile
    obtain ⟨hframe, hlost, hcheck⟩ := hdu.loseLane l Loss.selfCheck
    have he := exec_selfCheckFailure (tile := tile) (State.migrating_idle l hd.update) (hd.isRunning l)
    dsimp only at he
    rw [hstat, ho, Bool.false_and, Bool.false_and, if_neg Bool.false_ne_true] at he
    exact ⟨_, he, hfu.trans hframe, hlost.congr hlane htick hproto hcnt, hcheck.trans rfl⟩
  case merge =>
    intro a s hd hm hl
    obtain ⟨hframe, hlost, -⟩ := hd.loseLane a.other Loss.mergeLimit
    obtain ⟨hdup, hact, -⟩ := hd
    exact ⟨_, by rw [exec_mergeLimitReached hm hdup hl, hact], hframe, hlost⟩
  case bothSilent =>
    intro a l s hd hq
    obtain ⟨hnet, hcause, hrun, -⟩ := State.enterNet_resets_spec (s.onStat l fun x => { x with silentRun := 0 }) 2
    exact ⟨_, exec_laneSilentLost_both (hd.isRunning l) hq, hnet, hcause, hrun⟩
  case bothFail =>
    intro a l tile s hd ho hnow
    obtain ⟨hdu, -, -, hstat, -, htick, -⟩ := hd.checkFailed l tile
    have hn := hdu.inNet
    have ht : (s.checkFailed l tile).now = s.now := congrArg TickSt.epoch htick
    have he := exec_selfCheckFailure (tile := tile) (State.migrating_idle l hd.update) (hd.isRunning l)
    dsimp only at he
    rw [hstat, if_pos (by simp [ho, hnow, hn, ht])] at he
    obtain ⟨hnet, hcause, hrun, -⟩ := State.enterNet_resets_spec ((s.checkFailed l tile).noteLoss l Loss.selfCheck) 2
    exact ⟨_, he, hnet, hcause, hrun⟩
  case cross =>
    intro a s n hred hact hrun ho hheld _ hhold hshort hpos
    have hn : s.inNet = false := by unfold State.inNet; rw [hred]; exact decide_eq_false (Redundancy.simplexOn_ne_net a)
    have he := exec_refereeCrossCheckFail (hact.symm ▸ hred) hheld (State.crossCheck_short hshort hpos)
    rw [hact, State.loseLane_alone Loss.crossCheck hn hrun ho hhold] at he
    obtain ⟨hnet, hcause, hreset, hloss⟩ := State.enterNet_resets_spec (s.lossTaken a Loss.crossCheck) 3
    exact ⟨_, he, hnet, hcause, hreset a, (hloss a).trans (s.lossTaken_stat a Loss.crossCheck).1⟩

end Machine
end Sys2Proof
end

section
/-! SUPPORT. A lane that comes up: wipe, self-test, start from the store, copy, join and timeout (15 R377, R378; 16 R404). -/

namespace Sys2Proof.Machine

/-! ## A rejoin that fails -/

/-- Where the other lane has no hold and no update is in progress, a failed rejoin is a noted loss and a reset. -/
theorem State.failRejoin_eq {s : State} {l : LaneId} (reason : Nat) (hh : s.laneCtl.hold l.other = false) (hu : s.mode.update = .idle) :
    s.failRejoin l reason = (s.noteLoss l reason).resetLane l := by
  have hold : ((s.noteLoss l reason).resetLane l).laneCtl.hold l.other = false := by
    rw [State.resetLane_hold, State.noteLoss_hold_other, hh]
  have hb := LaneCtlSt.not_bothHeld hold
  have hm : ((s.noteLoss l reason).resetLane l).mode.update = .idle := by
    rw [State.resetLane_eq, State.noteLoss_eq]; exact hu
  unfold State.failRejoin
  dsimp only
  generalize (s.noteLoss l reason).resetLane l = t at *
  simp only [hm, reduceCtorEq, or_self, if_false, hb, Bool.false_and, Bool.false_eq_true]

theorem State.failRejoin_spec {s : State} {l : LaneId} (reason : Nat) (hh : s.laneCtl.hold l.other = false) (hu : s.mode.update = .idle) :
    let t := s.failRejoin l reason
    t.lane l = (s.lane l).wiped .reset ∧ t.lane l.other = s.lane l.other ∧ (t.laneCtl.stat l).lastLoss = reason ∧
      t.laneCtl.redundancy = s.laneCtl.redundancy := by
  rw [State.failRejoin_eq reason hh hu]
  refine ⟨?_, ?_, ?_, ?_⟩
  · rw [State.resetLane_lane_same, State.noteLoss_lane]
  · rw [State.resetLane_lane_other, State.noteLoss_lane]
  · rw [State.resetLane_lastLoss, State.noteLoss_stat]; rfl
  · exact ((s.noteLoss_lossFrame l reason).trans (State.resetLane_lossFrame _ l)).redundancy

/-! ## Wipe and self-test (01 R24, 05 R141) -/

theorem exec_laneWipeDone {l : LaneId} {s : State} (h : (s.lane l).run = .wipe) :
    exec (.laneWipeDone l) s = .next (s.setLane l ((s.lane l).wiped .test)) := by
  change execLaneWipeDone l s = _
  unfold execLaneWipeDone
  rw [if_pos h]
  rfl

/-- With no fence record and the link up, the failed tiles are fenced and the copy begins, at a share not given. -/
theorem exec_laneSelfTestDone_passed {l : LaneId} {failed : List Nat} {s : State} (h : (s.lane l).run = .test)
    (hl : s.laneCtl.linkFail = false) (hc : s.cfg.fenced = []) :
    exec (.laneSelfTestDone l failed false) s =
      let t := s.onLane l fun x => { x with fenced := failed, run := .copy }
      .next (({ t with fresh := t.fresh + 1 } : State).onStat l fun x => { x with resyncPct := Config.freeTicks t.fresh % 100 }) := by
  change execLaneSelfTestDone l failed false s = _
  unfold execLaneSelfTestDone
  have hk (k : Nat) : Tab.get [] s.cfg.fenced k = [] := by rw [hc]; rfl
  have hf : [] ++ failed.filter (fun t => !([] : List Nat).contains t) = failed := by simp
  dsimp only
  rw [if_neg (by simp [h]), if_neg (by decide), hk, hf, hl, Bool.false_and, if_neg Bool.false_ne_true]

theorem exec_laneSelfTestDone_faulty {l : LaneId} {failed : List Nat} {s : State} (h : (s.lane l).run = .test) :
    exec (.laneSelfTestDone l failed true) s = .next (s.failRejoin l Loss.selfCheck) := by
  change execLaneSelfTestDone l failed true s = _
  unfold execLaneSelfTestDone
  dsimp only
  rw [if_neg (by simp [h]), if_pos rfl]

/-! ## Start from the store (16 R404) -/

theorem exec_laneReady {l : LaneId} {s : State} (h : (s.lane l).run = .copy) (ha : s.anyLane = false) (hn : s.inNet = true) :
    exec (.laneReady l) s =
      let t := s.onLane l s.startedLane
      .next { t with mode := { t.mode with
        firstReady := t.mode.firstReady <|> some t.now
        startPhase := if t.mode.startPhase = .laneStart then .sync else t.mode.startPhase } } := by
  change execLaneReady l s = _
  unfold execLaneReady
  rw [if_pos (by simp [h, ha, hn])]

theorem exec_startWaitExpiry {s : State} {e : Nat} (h : s.mode.firstReady = some e) (he : e + 10 * s.cfg.startWait ≤ s.now) :
    exec .startWaitExpiry s = .next { s with mode := { s.mode with startAlone := true } } := by
  change execStartWaitExpiry s = _
  unfold execStartWaitExpiry
  rw [h]
  dsimp only
  rw [if_pos he]

/-! ## Resynchronisation (15 R377, R378) -/

theorem exec_resyncCopyDone {l : LaneId} {s : State} (h : (s.lane l).run = .copy) (hm : s.mayResync l = true)
    (hu : s.mode.update = .idle) (hi : s.image = none) :
    exec (.resyncCopyDone l) s =
      .next ((s.onLane l fun x => { x with run := .joinWait }).onStat l fun x => { x with resyncPct := 100 }) := by
  change execResyncCopyDone l s = _
  unfold execResyncCopyDone
  dsimp only
  rw [if_neg (by simp [h, hm, hu]), hi]

/-- The joined lane in its place, standby in DUPLEX, before the record of it. -/
def State.joined (s : State) (l : LaneId) (x : Lane) : State :=
  let s := (s.setLane l x).onStat l fun x => { x with silentRun := 0, selfCheckFail := false, failedAt := none }
  let test := s.laneCtl.retesting = some l
  { s with
    laneCtl := { s.laneCtl with redundancy := .duplex, counts := [], retesting := if test then none else s.laneCtl.retesting }
    mode := { s.mode with test := s.mode.test && !test }
    upd := { s.upd with duplexSince := s.now } }

theorem exec_resyncJoin {l : LaneId} {s : State} (h : (s.lane l).run = .joinWait) (hp : (s.laneCtl.stat l).resyncPct = 100)
    (hm : s.mayResync l = true) (hb : s.joinBlocked = false) (hi : s.image = none) :
    exec (.resyncJoin l) s =
      let t := s.joined l ((s.lane l).copyOf (s.lane l.other))
      .next ((t.logRm Cls.notice 0x0907 (laneSubject l) [lo32 t.now, hi32 t.now]).setLaneEvent 0x20).refitK := by
  change execResyncJoin l s = _
  unfold execResyncJoin
  dsimp only
  rw [if_neg (by simp [h, hp, hm, hb]), hi]
  rfl

theorem State.joined_spec (s : State) (l : LaneId) (x : Lane) :
    (s.joined l x).lane l = x ∧ (s.joined l x).lane l.other = s.lane l.other ∧ (s.joined l x).laneCtl.redundancy = .duplex ∧
      ((s.joined l x).laneCtl.stat l).silentRun = 0 := by
  cases l <;> exact ⟨rfl, rfl, rfl, rfl⟩

/-- A lane that waits to join and has run out of its 500 ms is lost again; a retest ends with it. -/
theorem exec_resyncTimeout {l : LaneId} {s : State} (h : (s.lane l).run = .joinWait) (hm : s.mayResync l = true)
    (hu : s.mode.update = .idle) (hd : (s.laneCtl.stat l).resetEpoch + 5000 ≤ s.now) :
    exec (.resyncTimeout l) s =
      let t := s.failRejoin l Loss.resyncFailed
      let test := s.laneCtl.retesting = some l
      .next { t with laneCtl := { t.laneCtl with retesting := if test then none else t.laneCtl.retesting }
                     mode := { t.mode with test := t.mode.test && !test } } := by
  change execResyncTimeout l s = _
  unfold execResyncTimeout
  dsimp only
  rw [if_pos (by simp [h, hm, hu, hd])]

/-- Settles O29: each stage is one update of the lane; a failure is `State.failRejoin_spec`. -/
theorem laneStartAndRejoin : Obligations.LaneStartAndRejoin := by
  refine ⟨?wipe, ?passed, ?faulty, ?ready, ?wait, ?copied, ?join, ?timeout⟩
  case wipe => exact fun l s h => ⟨_, exec_laneWipeDone h, rfl⟩
  case passed =>
    intro l failed s h hl hc
    refine ⟨_, exec_laneSelfTestDone_passed h hl hc, ?_, ?_, ?_⟩
    · exact (State.lane_congr rfl rfl l).trans (State.lane_onLane_same s l _)
    · exact (State.lane_congr rfl rfl l.other).trans (State.lane_onLane_other s l _)
    · cases l <;> rfl
  case faulty =>
    intro l failed s h hh hu
    obtain ⟨hl, ho, hloss, -⟩ := State.failRejoin_spec Loss.selfCheck hh hu
    exact ⟨_, exec_laneSelfTestDone_faulty h, hl, ho, hloss⟩
  case ready =>
    intro l s h ha hn
    have he := exec_laneReady h ha hn
    have hl := State.lane_onLane_same s l s.startedLane
    have ho := State.lane_onLane_other s l s.startedLane
    have ht : s.onLane l s.startedLane = { s with laneA := (s.onLane l s.startedLane).laneA, laneB := (s.onLane l s.startedLane).laneB } := by
      cases l <;> rfl
    dsimp only at he
    generalize s.onLane l s.startedLane = t at *
    have hs := (State.lane_congr (s := t) rfl rfl l).trans hl
    refine ⟨_, he, congrArg Lane.ready hs, congrArg Lane.run hs, congrArg Lane.loops hs, (State.lane_congr rfl rfl l.other).trans ho, ?_⟩
    rw [ht]
  case wait => exact fun s e h he => ⟨_, exec_startWaitExpiry h he, rfl⟩
  case copied =>
    intro l s h hm hu hi
    refine ⟨_, exec_resyncCopyDone h hm hu hi, ?_, ?_, ?_, ?_⟩
    · exact (State.lane_congr rfl rfl l).trans (State.lane_onLane_same s l _)
    · exact congrArg LaneStat.resyncPct (LaneCtlSt.stat_setStat_same _ _ _)
    · exact (State.lane_congr rfl rfl l.other).trans (State.lane_onLane_other s l _)
    · cases l <;> rfl
  case join =>
    intro l s h hp hm hb hi
    obtain ⟨hl, ho, hred, hsil⟩ := s.joined_spec l ((s.lane l).copyOf (s.lane l.other))
    have he := exec_resyncJoin h hp hm hb hi
    dsimp only at he
    generalize s.joined l ((s.lane l).copyOf (s.lane l.other)) = t at *
    have hlane (u : State) (y : LaneId) : ((u.setLaneEvent 0x20).refitK).lane y = u.lane y := by
      rw [State.refitK_eq]; exact State.lane_congr (State.setLaneEvent_laneA u 0x20) (State.setLaneEvent_laneB u 0x20) y
    have hctl (u : State) : ((u.setLaneEvent 0x20).refitK).laneCtl = { u.laneCtl with event := u.laneCtl.event ||| 0x20 } := by
      rw [State.refitK_eq]; exact State.setLaneEvent_laneCtl u 0x20
    refine ⟨_, he, (hlane _ _).trans ho, (hlane _ _).trans hl, ?_, ?_, ?_⟩
    · rw [hctl]; exact hred
    · rw [hctl]; simp
    · rw [hctl]; exact hsil
  case timeout =>
    intro l s h hm hu hh hd
    obtain ⟨hl, ho, hloss, hred⟩ := State.failRejoin_spec Loss.resyncFailed hh hu
    have he := exec_resyncTimeout h hm hu hd
    dsimp only at he hl ho hloss hred
    generalize s.failRejoin l Loss.resyncFailed = t at *
    exact ⟨_, he, (State.lane_congr rfl rfl l).trans hl, (State.lane_congr rfl rfl l.other).trans ho, hloss, hred⟩

end Sys2Proof.Machine
end

section
/-! SUPPORT. The lane link, the Ringmaster's restart, automatic PREDICTIVE and the host watchdog (15 R386, 16 R406, 17 R426, R427). -/

namespace Sys2Proof.Machine

/-! ## The lane link (01 R21, 15 R378) -/

/-- A lane in COPY stops at JOIN_WAIT. -/
def Lane.stopped (x : Lane) : Lane := if x.run = .copy then { x with run := .joinWait } else x

theorem exec_laneLinkFailure {s : State} (h : s.laneCtl.linkFail = false) (ha : s.anyLane = true) :
    exec .laneLinkFailure s =
      let t := ({ s with laneCtl := { s.laneCtl with linkFail := true } } : State).setLaneEvent 0x800
      .next { t with laneA := s.laneA.stopped, laneB := s.laneB.stopped } := by
  change execLaneLinkFailure s = _
  unfold execLaneLinkFailure
  dsimp only
  rw [if_neg (by simp [h]), if_pos (by simpa [State.anyLane] using ha), State.setLaneEvent_laneA, State.setLaneEvent_laneB]
  rfl

/-- What the link's return does to one lane: one that waits to join has its time again, and copies on where it had not finished. -/
def State.linkBack (s : State) (l : LaneId) : State :=
  if (s.lane l).run = .joinWait && !(s.lane l).ready then
    let s := s.onStat l fun x => { x with resetEpoch := s.now }
    if (s.laneCtl.stat l).resyncPct = 100 then s else s.onLane l fun x => { x with run := .copy }
  else s

theorem exec_laneLinkReturn {s : State} (h : s.laneCtl.linkFail = true) :
    exec .laneLinkReturn s =
      .next ((({ s with laneCtl := { s.laneCtl with linkFail := false } } : State).linkBack .A).linkBack .B) := by
  change execLaneLinkReturn s = _
  unfold execLaneLinkReturn
  rw [if_neg (by simp [h])]
  rfl

/-- Only the lane and its statistics change. -/
theorem State.linkBack_frame (s : State) (l : LaneId) :
    let t := s.linkBack l
    t = { s with laneCtl := t.laneCtl, laneA := t.laneA, laneB := t.laneB } ∧ t.laneCtl.linkFail = s.laneCtl.linkFail ∧
      t.lane l.other = s.lane l.other ∧ t.laneCtl.stat l.other = s.laneCtl.stat l.other := by
  unfold State.linkBack
  dsimp only
  split
  · split <;> cases l <;> exact ⟨rfl, rfl, rfl, rfl⟩
  · exact ⟨rfl, rfl, rfl, rfl⟩

theorem State.linkBack_not_waiting {s : State} {l : LaneId} (h : (s.lane l).run ≠ .joinWait) : s.linkBack l = s := by
  unfold State.linkBack; rw [if_neg (by simp [h])]

theorem State.linkBack_copies {s : State} {l : LaneId} (h : (s.lane l).run = .joinWait) (hr : (s.lane l).ready = false)
    (hp : (s.laneCtl.stat l).resyncPct ≠ 100) : ((s.linkBack l).lane l).run = .copy := by
  have e : ((s.onStat l fun x => { x with resetEpoch := s.now }).laneCtl.stat l).resyncPct = (s.laneCtl.stat l).resyncPct := by
    cases l <;> rfl
  unfold State.linkBack
  dsimp only
  rw [if_pos (by simp [h, hr]), e, if_neg hp, State.lane_onLane_same]

/-- What the return of the link makes of one lane. -/
def LinkBack (s t : State) (l : LaneId) : Prop :=
  ((s.lane l).run ≠ .joinWait → t.lane l = s.lane l) ∧
    ((s.lane l).run = .joinWait → (s.lane l).ready = false → (s.laneCtl.stat l).resyncPct ≠ 100 → (t.lane l).run = .copy)

theorem State.linkBack_spec (s : State) (l : LaneId) : LinkBack s (s.linkBack l) l :=
  ⟨fun h => by rw [State.linkBack_not_waiting h], State.linkBack_copies⟩

/-- The two lanes are taken in turn, and neither step touches the other's lane. -/
theorem State.linkBack_both (s : State) (l : LaneId) : LinkBack s ((s.linkBack .A).linkBack .B) l := by
  obtain ⟨-, -, hlaneB, hstatB⟩ := s.linkBack_frame .A
  obtain ⟨-, -, hlaneA, -⟩ := (s.linkBack .A).linkBack_frame .B
  have hA := s.linkBack_spec .A
  have hB := (s.linkBack .A).linkBack_spec .B
  unfold LinkBack at *
  dsimp only [LaneId.other] at hlaneA hlaneB hstatB
  cases l
  · rwa [hlaneA]
  · rwa [hlaneB, hstatB] at hB

/-! ## The Ringmaster -/

theorem exec_rmRestartComplete {s : State} (h : s.gen.rmRestart = true) (hu : s.mode.update ≠ .handover) :
    exec .rmRestartComplete s =
      .next { s with gen := { s.gen with rmRestart := false, rmRestartSwap := false, restartEnd := some s.now } } := by
  change execRmRestartComplete s = _
  unfold execRmRestartComplete
  dsimp only
  rw [if_neg (by simp [h]), if_pos (by simp [hu])]

theorem exec_autoPredictiveEntry {s : State} (hc : bit s.mode.modeCfgActive 1 = true) (hh : s.mode.authSetByHost = false)
    (hs : s.cfg.predSettle ≤ s.mode.predAvailTicks) (hp : s.predAvailable = true) (ha : s.mode.authority ≠ .predictive)
    (hq : s.mode.pendingModes.contains .autoPredictive = false) :
    exec .autoPredictiveEntry s = .next { s with mode := { s.mode with pendingModes := s.mode.pendingModes ++ [.autoPredictive] } } := by
  change execAutoPredictiveEntry s = _
  unfold execAutoPredictiveEntry
  dsimp only
  rw [if_pos (by simp only [hc, hh, hs, hp, hq, ha, decide_true, ne_eq, not_false_eq_true, Bool.not_false, Bool.and_self])]

/-- A cause in the Ringmaster in DUPLEX: both lanes keep running in the Safety Net. -/
theorem InDuplex.enterNet {a : LaneId} {s : State} (h : InDuplex a s) (cause : Nat) :
    let t := s.enterNet cause false
    t.laneCtl.redundancy = .net ∧ t.laneCtl.netCause = cause ∧ t.gen.rmRestart = true ∧
      t.laneCtl.cntRmRestart = satTo 32 (s.laneCtl.cntRmRestart + 1) ∧ t.laneCtl.cntNet = satTo 32 (s.laneCtl.cntNet + 1) ∧
      t.rel.netActive = true ∧ ∀ l, t.lane l = { s.lane l with run := .running } := by
  obtain ⟨hnet, hcause, hrm, hcnt, hnets, hact, hl⟩ := State.enterNet_restarts_spec s cause h.update h.inNet
  exact ⟨hnet, hcause, hrm, hcnt, hnets, hact, fun l => (hl l).trans (if_pos (h.isRunning l))⟩

/-! ## The host watchdog -/

theorem State.setHostAxis_silent (s : State) :
    let t := s.setHostAxis false
    t.mode.hostPresent = false ∧ t.hif = { s.hif with msixPba := t.hif.msixPba, irqs := t.hif.irqs } ∧
      t = { s with hif := t.hif, mode := t.mode, evt := t.evt } := by
  dsimp only
  unfold State.setHostAxis
  split
  · exact ⟨‹_›, rfl, rfl⟩
  · exact ⟨congrArg ModeSt.hostPresent (State.setModeEvent_mode _ 0x8), State.setModeEvent_hif _ 0x8, by rw [State.setModeEvent_eq]; rfl⟩

/-- The watchdog's expiry: SILENT, WDOG_EXPIRED, its bit and its record. -/
theorem State.expireWatchdog_spec (s : State) :
    let t := s.expireWatchdog
    t.mode.hostPresent = false ∧ t.hif.wdogTicks = 0 ∧ t.hif.wdogExpired = true ∧ t.hif.wdogDeferred = false ∧
      t.hif.err.getLsbD 0 = true ∧ t = { s with hif := t.hif, mode := t.mode, evt := t.evt } := by
  obtain ⟨hp, hh, hf⟩ :=
    State.setHostAxis_silent { s with hif := { s.hif with wdogTicks := 0, wdogExpired := true, wdogDeferred := false } }
  unfold State.expireWatchdog
  dsimp only at hp hh hf ⊢
  generalize State.setHostAxis _ false = t at *
  have he := State.setHifErr_hif t 0x1
  rw [hh] at he
  refine ⟨?_, ?_, ?_, ?_, ?_, ?_⟩
  · rw [State.logRm_mode, State.setHifErr_mode]; exact hp
  · rw [State.logRm_hif, he]
  · rw [State.logRm_hif, he]
  · rw [State.logRm_hif, he]
  · rw [State.logRm_hif, State.setHifErr_err]; simp
  · rw [State.setHifErr_eq, hf]; rfl

theorem exec_hostWatchdogExpiry {s : State} (h : s.hif.wdogTicks = 0) (he : s.hif.wdogExpired = false) :
    exec .hostWatchdogExpiry s =
      .next (if s.wdogWaits then { s with hif := { s.hif with wdogDeferred := true } } else s.expireWatchdog) := by
  change execHostWatchdogExpiry s = _
  unfold execHostWatchdogExpiry
  rw [if_neg (by simp [h, he])]

theorem exec_deferredWatchdogExpiry {s : State} (h : s.hif.wdogDeferred = true) (hw : s.wdogWaits = false) :
    exec .deferredWatchdogExpiry s = .next s.expireWatchdog := by
  change execDeferredWatchdogExpiry s = _
  unfold execDeferredWatchdogExpiry
  rw [if_pos (by simp [h, hw])]

/-- Settles O30: the link acts on each lane alone, and a cause in the Ringmaster is `InDuplex.enterNet`. -/
theorem linkRingmasterAndWatchdogs : Obligations.LinkRingmasterAndWatchdogs := by
  refine ⟨?failure, ?back, ?lockstep, ?watchdog, ?restarted, ?auto, ?expiry, ?waits, ?deferred⟩
  case failure =>
    intro s h ha
    have he := exec_laneLinkFailure h ha
    have hc := State.setLaneEvent_laneCtl { s with laneCtl := { s.laneCtl with linkFail := true } } 0x800
    have ht := State.setLaneEvent_eq { s with laneCtl := { s.laneCtl with linkFail := true } } 0x800
    dsimp only at he hc ht
    generalize State.setLaneEvent _ 0x800 = t at *
    refine ⟨_, he, by rw [ht], by rw [hc], by rw [hc], by rw [hc]; simp, fun l => ?_⟩
    cases l <;> rfl
  case back =>
    intro s h
    obtain ⟨hA, hfA, -⟩ := State.linkBack_frame { s with laneCtl := { s.laneCtl with linkFail := false } } .A
    have hboth := State.linkBack_both { s with laneCtl := { s.laneCtl with linkFail := false } }
    have he := exec_laneLinkReturn h
    generalize State.linkBack _ .A = u at *
    obtain ⟨hB, hfB, -⟩ := u.linkBack_frame .B
    generalize u.linkBack .B = t at *
    exact ⟨t, he, by rw [hB, hA], hfB.trans hfA, hboth⟩
  case lockstep => exact fun a s h => ⟨_, rfl, h.enterNet 4⟩
  case watchdog =>
    intro a s h
    obtain ⟨hnet, hcause, hrm, hcnt, -, -, hl⟩ := h.enterNet 5
    exact ⟨_, rfl, hnet, hcause, hrm, hcnt, hl⟩
  case restarted => exact fun s h hu => ⟨_, exec_rmRestartComplete h hu, rfl⟩
  case auto => exact fun s hc hh hs hp ha hq => ⟨_, exec_autoPredictiveEntry hc hh hs hp ha hq, rfl⟩
  case expiry =>
    intro s h he hw
    obtain ⟨hp, ht, hx, -, herr, hf⟩ := s.expireWatchdog_spec
    exact ⟨_, by rw [exec_hostWatchdogExpiry h he, if_neg (by simp [hw])], hp, ht, hx, herr, hf⟩
  case waits => exact fun s h he hw => ⟨_, by rw [exec_hostWatchdogExpiry h he, if_pos hw], rfl⟩
  case deferred => exact fun s h hw => ⟨_, exec_deferredWatchdogExpiry h hw, s.expireWatchdog_spec⟩

end Sys2Proof.Machine
end

section
/-! SUPPORT. The core of the state: what the work of a tick outside the Hall of Mirrors leaves as it is. -/

namespace Sys2Proof.Machine

/-- What of a lane neither the thermal runtime, the governor nor the field touch: its run state, the frames it keeps, where its
step stands. -/
structure LaneSpine where
  run : LaneRun
  ferris : Tab Frame
  running : Bool
  firstStep : Bool
  abortedLast : Bool
  abortRun : Nat
  invalidRun : Nat
  sourceEpoch : Option Nat

def Lane.spine (x : Lane) : LaneSpine :=
  { run := x.run, ferris := x.ferris, running := x.step.running, firstStep := x.step.firstStep, abortedLast := x.step.abortedLast
    abortRun := x.model.abortRun, invalidRun := x.model.invalidRun, sourceEpoch := x.model.sourceEpoch }

/-- The tick, lane control, what waits for T0, the count of step aborts, and the spine of each lane. -/
structure StateCore where
  tick : TickSt
  laneCtl : LaneCtlSt
  due : List CfgItem
  stepAborts : Nat
  spineA : LaneSpine
  spineB : LaneSpine

def State.core (s : State) : StateCore :=
  { tick := s.tick, laneCtl := s.laneCtl, due := s.due, stepAborts := s.img.stepAborts
    spineA := s.laneA.spine, spineB := s.laneB.spine }

section
variable {s t : State} (h : t.core = s.core)
include h
theorem State.tick_of_core : t.tick = s.tick := congrArg StateCore.tick h
theorem State.laneCtl_of_core : t.laneCtl = s.laneCtl := congrArg StateCore.laneCtl h
theorem State.due_of_core : t.due = s.due := congrArg StateCore.due h
theorem State.stepAborts_of_core : t.img.stepAborts = s.img.stepAborts := congrArg StateCore.stepAborts h
theorem State.spine_of_core (l : LaneId) : (t.lane l).spine = (s.lane l).spine := by
  cases l
  · exact congrArg StateCore.spineA h
  · exact congrArg StateCore.spineB h
end

theorem State.core_congr {s t : State} (ht : t.tick = s.tick) (hc : t.laneCtl = s.laneCtl) (hd : t.due = s.due) (hi : t.img = s.img)
    (hl : ∀ l, (t.lane l).spine = (s.lane l).spine) : t.core = s.core := by
  have ha : t.laneA.spine = s.laneA.spine := hl .A
  have hb : t.laneB.spine = s.laneB.spine := hl .B
  simp [State.core, ht, hc, hd, hi, ha, hb]

/-- A fold of steps that keep the core keeps it. -/
theorem State.foldl_core {α : Type} {f : State → α → State} {l : List α} {s : State} (hf : ∀ t a, (f t a).core = t.core) :
    (l.foldl f s).core = s.core := foldl_keeps State.core hf l s

/-! ## Shared operations -/

theorem State.onLane_core (s : State) (l : LaneId) {f : Lane → Lane} (hf : (f (s.lane l)).spine = (s.lane l).spine) :
    (s.onLane l f).core = s.core := by
  cases l <;> simp [State.core, State.onLane, State.setLane, State.lane] at hf ⊢ <;> exact hf

theorem State.setLane_core (s : State) (l : LaneId) {x : Lane} (hx : x.spine = (s.lane l).spine) : (s.setLane l x).core = s.core :=
  s.onLane_core l (f := fun _ => x) hx

theorem State.onLanes_core (s : State) {f : Lane → Lane} (hf : ∀ x, (f x).spine = x.spine) : (s.onLanes f).core = s.core :=
  State.core_congr rfl rfl rfl rfl fun l => by rw [State.lane_onLanes]; split <;> simp [hf]

@[simp] theorem State.logRm_core (s : State) (c y : Nat) (u : U32) (d : List U32) (o : Nat) : (s.logRm c y u d o).core = s.core := rfl

@[simp] theorem State.logIn_core (s : State) (l : LaneId) (c y : Nat) (u : U32) (d : List U32) (o : Option Nat) :
    (s.logIn l c y u d o).core = s.core := State.onLane_core s l rfl

@[simp] theorem State.logLanes_core (s : State) (c y : Nat) (u : U32) (d : List U32) (o : Option Nat) :
    (s.logLanes c y u d o).core = s.core := by
  unfold State.logLanes; dsimp only; split <;> split <;> simp

@[simp] theorem State.fire_core (s : State) (v : Nat) : (s.fire v).core = s.core := by rw [State.fire_eq]; rfl

@[simp] theorem State.setModeEvent_core (s : State) (m : U32) : (s.setModeEvent m).core = s.core := by rw [State.setModeEvent_eq]; rfl

@[simp] theorem State.apply_core (s : State) (l : List CfgItem) : (s.apply l).core = s.core := rfl
@[simp] theorem State.applyStore_core (s : State) (l : List CfgItem) : (s.applyStore l).core = s.core := rfl

@[simp] theorem State.finish_core (s : State) (id : Nat) (r : Reply) : (s.finish id r).core = s.core := by simp [State.core]

@[simp] theorem State.writeTransfer_core (s : State) (a : Nat) (bs : List Byte) : (s.writeTransfer a bs).core = s.core :=
  s.onLanes_core fun _ => rfl

@[simp] theorem State.onMotor_core (s : State) (n : Nat) (f : Motor → Motor) : (s.onMotor n f).core = s.core := rfl
@[simp] theorem State.setPermit_core (s : State) (n : Nat) (on : Bool) : (s.setPermit n on).core = s.core := rfl
@[simp] theorem State.onValve_core (s : State) (n : Nat) (f : Valve → Valve) : (s.onValve n f).core = s.core := rfl
@[simp] theorem State.onSupply_core (s : State) (n : Nat) (f : Supply → Supply) : (s.onSupply n f).core = s.core := rfl
@[simp] theorem State.onValveCmds_core (s : State) (f : ValveCmd → ValveCmd) : (s.onValveCmds f).core = s.core := rfl
@[simp] theorem State.onRack_core (s : State) (n : Nat) (f : RackDyn → RackDyn) : (s.onRack n f).core = s.core := rfl
@[simp] theorem State.onGroup_core (s : State) (n : Nat) (f : GroupDyn → GroupDyn) : (s.onGroup n f).core = s.core := rfl
@[simp] theorem State.onTray_core (s : State) (n : Nat) (f : Tray → Tray) : (s.onTray n f).core = s.core := rfl
@[simp] theorem State.onAnalog_core (s : State) (n : Nat) (f : AnalogDyn → AnalogDyn) : (s.onAnalog n f).core = s.core := rfl
@[simp] theorem State.onPulse_core (s : State) (n : Nat) (f : PulseDyn → PulseDyn) : (s.onPulse n f).core = s.core := rfl
@[simp] theorem State.onCan_core (s : State) (n : Nat) (f : CanChan → CanChan) : (s.onCan n f).core = s.core := rfl
@[simp] theorem State.onEntry_core (s : State) (n : Nat) (f : EntryDyn → EntryDyn) : (s.onEntry n f).core = s.core := rfl
@[simp] theorem State.setCause_core (s : State) (k c : Nat) (on : Bool) : (s.setCause k c on).core = s.core := rfl

/-! ## Valves of a rack -/

@[simp] theorem State.startPullIn_core (s : State) (v : Nat) (b : Bool) : (s.startPullIn v b).core = s.core := rfl

@[simp] theorem State.startOnRail_core (s : State) (v : Nat) (d : ValveDue) : (s.startOnRail v d).core = s.core := by
  unfold State.startOnRail; split
  · rfl
  · split
    · rfl
    · split <;> rfl

@[simp] theorem State.tryStart_core (s : State) (v : Nat) : (s.tryStart v).core = s.core := by
  unfold State.tryStart; dsimp only; split
  · rfl
  · split
    · rfl
    · split
      · simp
      · split
        · rw [State.startOnRail_core]; exact State.foldl_core fun _ _ => rfl
        · rfl

@[simp] theorem State.advanceValves_core (s : State) : s.advanceValves.core = s.core := by
  unfold State.advanceValves; split <;> rfl

@[simp] theorem State.wakeValves_core (s : State) : s.wakeValves.core = s.core := by
  unfold State.wakeValves; dsimp only
  rw [State.advanceValves_core, State.onValveCmds_core]
  refine State.foldl_core fun t v => ?_
  split
  · split <;> simp
  · rfl

@[simp] theorem State.finishValveCmds_core (s : State) : s.finishValveCmds.core = s.core := by
  unfold State.finishValveCmds; dsimp only
  exact State.foldl_core fun t c => State.finish_core t _ _

@[simp] theorem State.settleValves_core (s : State) : s.settleValves.core = s.core := by
  unfold State.settleValves; simp

@[simp] theorem State.driveValve_core (s : State) (v : Nat) (e : Bool) (a : Nat) : (s.driveValve v e a).core = s.core := by
  unfold State.driveValve; dsimp only; split
  · rfl
  · split
    · split <;> simp
    · rfl

@[simp] theorem State.drivePosition_core (s : State) (k role : Nat) : (s.drivePosition k role).core = s.core := by
  unfold State.drivePosition; split
  · simp
  · rfl

@[simp] theorem State.driveRack_core (s : State) (k : Nat) : (s.driveRack k).core = s.core := by
  unfold State.driveRack; dsimp only
  rw [State.settleValves_core]
  exact State.foldl_core fun t r => State.drivePosition_core t k r

/-! ## Mode axes -/

@[simp] theorem State.putRack_core (s : State) (k : Nat) (st : RackState) : (s.putRack k st).core = s.core := by
  unfold State.putRack; split <;> simp

@[simp] theorem State.grantFans_core (s : State) (k : Nat) : (s.grantFans k).core = s.core :=
  State.foldl_core fun t f => by split <;> simp

@[simp] theorem State.moveRack_core (s : State) (k : Nat) (st : RackState) : (s.moveRack k st).core = s.core := by
  unfold State.moveRack; dsimp only; split
  · rfl
  · split <;> split <;> simp

@[simp] theorem State.loadHostRegisters_core (s : State) : s.loadHostRegisters.core = s.core := by
  unfold State.loadHostRegisters; dsimp only
  rw [State.applyStore_core]
  exact State.foldl_core fun t it => t.onLanes_core fun _ => rfl

@[simp] theorem State.leaveAuthority_core (s : State) (a : Authority) : (s.leaveAuthority a).core = s.core := by
  have hf (t : State) (ks : List Nat) : (ks.foldl State.grantFans t).core = t.core := State.foldl_core State.grantFans_core
  unfold State.leaveAuthority; dsimp only
  split <;> split <;> simp [hf]

@[simp] theorem State.putAuthority_core (s : State) (a : Authority) (e : Nat) : (s.putAuthority a e).core = s.core := rfl

@[simp] theorem State.changeAuthority_core (s : State) (a : Authority) (e : Nat) : (s.changeAuthority a e).core = s.core := by
  unfold State.changeAuthority; split <;> simp

@[simp] theorem State.forceAuthority_core (s : State) (a : Authority) (e c : Nat) : (s.forceAuthority a e c).core = s.core := by
  unfold State.forceAuthority; split <;> simp

@[simp] theorem State.moveAuthority_core (s : State) (a : Authority) (e : Nat) : (s.moveAuthority a e).core = s.core := by
  unfold State.moveAuthority; simp

@[simp] theorem State.dropAuthority_core (s : State) (a : Authority) (e c : Nat) : (s.dropAuthority a e c).core = s.core := by
  unfold State.dropAuthority; simp

@[simp] theorem State.startOver_core (s : State) : s.startOver.core = s.core := by
  unfold State.startOver; split
  · rfl
  · rw [State.setModeEvent_core]; rfl

/-- A model fault moves the authority and the log, nothing of the core. -/
@[simp] theorem State.modelFault_core (s : State) (cause : Nat) : (s.modelFault cause).core = s.core := by
  unfold State.modelFault; dsimp only; split
  · rfl
  · have hm (t : State) : (t.onLanes fun x => { x with model := { x.model with fault := true } }).core = t.core :=
      t.onLanes_core fun _ => rfl
    split <;> simp [hm]

/-! ## The configuration taken at T0 and at a pass -/

@[simp] theorem State.stageReference_core (s : State) : s.stageReference.core = s.core := by
  unfold State.stageReference; dsimp only; split
  · rfl
  · exact (s.onLanes_core (f := fun x => { x with dram := x.dram.writeBytes 0x380000000 (Config.referenceImage (refLoops s.cfg)) })
      fun _ => rfl : _)

@[simp] theorem State.restageReference_core (s : State) (c : Cfg) : (s.restageReference c).core = s.core := by
  unfold State.restageReference; split <;> simp

@[simp] theorem State.endFlowStopDrive_core (s : State) (g : Nat) : (s.endFlowStopDrive g).core = s.core := by
  unfold State.endFlowStopDrive; split
  · rfl
  · exact State.foldl_core fun _ _ => rfl

@[simp] theorem State.clearFlowStop_core (s : State) (d : Detector) : (s.clearFlowStop d).core = s.core := by
  cases d with
  | group g =>
    simp only [State.clearFlowStop]; split
    · rfl
    · rw [State.endFlowStopDrive_core, State.onGroup_core]
      exact State.foldl_core fun t k => by split <;> rfl
  | rack k =>
    simp only [State.clearFlowStop]; split
    · rfl
    · simp

@[simp] theorem State.freshGroups_core (s : State) (old : Topology) : (s.freshGroups old).core = s.core := by
  unfold State.freshGroups
  refine State.foldl_core fun t g => ?_
  dsimp only; split
  · split <;> simp
  · rfl

@[simp] theorem State.putTopology_core (s : State) (t : Topology) : (s.putTopology t).core = s.core := by
  have hGone (u : State) (ks : List Nat) : (ks.foldl (fun (s : State) k =>
      let s := s.clearFlowStop (.rack (Fin.ofNat 16 k))
      ((s.setCause k Cause.groupStop false).setCause k Cause.isolated false).onRack k fun _ => {}) u).core = u.core :=
    State.foldl_core fun v k => by simp
  have hTrays (u : State) (ks : List Nat) :
      (ks.foldl (fun (s : State) i => s.onTray i fun x => { x with changed := true }) u).core = u.core :=
    State.foldl_core fun _ _ => rfl
  unfold State.putTopology
  extract_lets before old wasOn gone s1 changed s2 s3 s4 s5
  have h1 : s1.core = s.core := hGone s gone
  have h2 : s2.core = s.core := by simp [s2, h1]
  have h3 : s3.core = s.core := (hTrays s2 changed).trans h2
  have h4 : s4.core = s.core := (State.foldl_core fun u k => by dsimp only; split <;> split <;> simp).trans h3
  have h5 : s5.core = s.core := by simp [s5, h4]
  clear_value s5
  split
  · exact h5
  · exact h5

@[simp] theorem State.putMotor_core (s : State) (n : Nat) (r : MotorRec) : (s.putMotor n r).core = s.core := by
  unfold State.putMotor; dsimp only; split
  · rfl
  · split <;> rfl

@[simp] theorem State.putAnalog_core (s : State) (n : Nat) (r : AnalogRec) : (s.putAnalog n r).core = s.core := by
  unfold State.putAnalog; dsimp only; split <;> rfl

@[simp] theorem State.putPulse_core (s : State) (n : Nat) (r : PulseRec) : (s.putPulse n r).core = s.core := by
  unfold State.putPulse; dsimp only; split <;> rfl

@[simp] theorem State.putLeak_core (s : State) (n : Nat) (r : LeakRec) : (s.putLeak n r).core = s.core := by
  unfold State.putLeak; dsimp only; split <;> rfl

@[simp] theorem State.putCan_core (s : State) (c : Nat) (r : CanRec) : (s.putCan c r).core = s.core := rfl

@[simp] theorem State.putEntry_core (s : State) (e : Nat) (r : EntryRec) : (s.putEntry e r).core = s.core := by
  unfold State.putEntry; dsimp only; split <;> rfl

@[simp] theorem State.putThermal_core (s : State) (k : ThermalBlock) : (s.putThermal k).core = s.core :=
  (s.apply [.thermal k]).onLanes_core fun _ => rfl

@[simp] theorem State.restoreAll_core (s : State) (c : Cfg) : (s.restoreAll c).core = s.core := by
  unfold State.restoreAll
  extract_lets old s1 s2 s3 s4 s5 s6 s7 s8 s9
  have h1 : s1.core = s.core := State.foldl_core fun u n => u.onLanes_core fun _ => rfl
  have h2 : s2.core = s.core := by simp only [s2]; split <;> simp [h1]
  have h3 : s3.core = s.core := (State.foldl_core fun u n => u.putMotor_core n _).trans h2
  have h4 : s4.core = s.core := (State.foldl_core fun u n => u.putAnalog_core n _).trans h3
  have h5 : s5.core = s.core := (State.foldl_core fun u n => u.putPulse_core n _).trans h4
  have h6 : s6.core = s.core := (State.foldl_core fun u n => u.putLeak_core n _).trans h5
  have h7 : s7.core = s.core := (State.foldl_core fun u n => u.putCan_core n _).trans h6
  have h8 : s8.core = s.core := (State.foldl_core fun u n => u.putEntry_core n _).trans h7
  have h9 : s9.core = s.core := by simp only [s9]; split <;> simp [h8]
  simp [h9]

/-- A change that takes effect at T0 leaves the core alone. -/
@[simp] theorem State.putItem_core (s : State) (i : CfgItem) : (s.putItem i).core = s.core := by
  unfold State.putItem; split <;> simp

end Sys2Proof.Machine
end

section
/-! SUPPORT. The core at a step boundary and under the thermal runtime: the coupling table changes, the core stays (04 R92 to R98). -/

namespace Sys2Proof.Machine

/-! ## The spine of a lane whose table changes -/

@[simp] theorem Lane.putEntry_spine (x : Lane) (i : Nat) (w : U32) : (x.putEntry i w).spine = x.spine := by
  unfold Lane.putEntry; split <;> rfl

@[simp] theorem Lane.changeEntry_spine (x : Lane) (i : Nat) (w : U32) : (x.changeEntry i w).spine = x.spine := by
  have h := x.putEntry_spine i w
  simp only [Lane.changeEntry]; split <;> exact h

@[simp] theorem Lane.writeEntry_spine (x : Lane) (i : Nat) (w : U32) : (x.writeEntry i w).spine = x.spine := x.putEntry_spine i w

@[simp] theorem Lane.adapt_spine (x : Lane) (b : ThermalBlock) (now i : Nat) (w : U32) : (x.adapt b now i w).spine = x.spine := by
  unfold Lane.adapt
  extract_lets a times aLo aHi
  split
  split
  extract_lets w' y
  have hy : y.spine = x.spine := x.changeEntry_spine i w'
  split <;> exact hy

/-- A fold of steps that keep the spine keeps it. -/
theorem Lane.foldl_spine {α : Type} {f : Lane → α → Lane} {l : List α} {x : Lane} (hf : ∀ y a, (f y a).spine = y.spine) :
    (l.foldl f x).spine = x.spine := foldl_keeps Lane.spine hf l x

@[simp] theorem Lane.widen_spine (x : Lane) (p : U32 × U32) (absent : Nat → Bool) (now : Nat) (r : Rect) :
    (x.widen p absent now r).spine = x.spine :=
  Lane.foldl_spine (l := r.entries) fun y i => by split <;> simp

@[simp] theorem Lane.slotChanged_spine (x : Lane) (p : U32 × U32) (slots : List Nat) (absent : Nat → Bool) (now c : Nat) :
    (x.slotChanged p slots absent now c).spine = x.spine :=
  (Lane.foldl_spine (l := slots) fun y i => y.widen_spine p absent now _).trans (Lane.foldl_spine fun y j => by simp)

@[simp] theorem copyTable_spine (src dst : Lane) : (copyTable src dst).spine = dst.spine :=
  Lane.foldl_spine fun y i => y.changeEntry_spine i _

/-! ## Step boundaries -/

@[simp] theorem State.couplingStep_core (s : State) (o : CouplingOp) : (s.couplingStep o).core = s.core := by
  unfold State.couplingStep
  dsimp only
  rw [State.finish_core]
  split
  · simp
  · refine s.onLanes_core fun x => ?_
    exact Lane.foldl_spine fun y e => y.writeEntry_spine e.1 e.2
  · exact s.onLanes_core fun _ => rfl
  · exact s.onLanes_core fun _ => rfl
  · split
    · refine (State.onLanes_core _ fun _ => ?_).trans (s.onLane_core _ ?_)
      · rfl
      · split <;> simp
    · rfl
  · exact s.onLanes_core fun x => x.widen_spine _ _ _ _

@[simp] theorem State.tableUpdates_core (s : State) (w : Nat → Bool) (u : LaneId → List (Nat × U32)) : (s.tableUpdates w u).core = s.core := by
  have run (t : State) (x : Lane) (l : List (Nat × U32)) : (l.foldl (fun (x : Lane) e =>
      if 16777216 ≤ e.1 || !couplingOk e.2.toNat || w e.1 || t.entryHeld x.model e.1 then x
      else x.adapt t.cfg.thermal t.now e.1 e.2) x).spine = x.spine :=
    Lane.foldl_spine fun y e => by split <;> simp
  refine State.core_congr rfl rfl rfl rfl fun l => ?_
  cases l <;> simp only [State.tableUpdates, State.lane] <;> split
  · exact run s _ _
  · rfl
  · exact run s _ _
  · rfl

@[simp] theorem State.couplingBoundary_core (s : State) (u : LaneId → List (Nat × U32)) : (s.couplingBoundary u).core = s.core := by
  unfold State.couplingBoundary
  extract_lets priors t ops img r
  have ht : t.core = s.core := by
    refine s.onLanes_core fun x => ?_
    exact Lane.foldl_spine fun y e => y.slotChanged_spine priors (s.rackSlots e.1) s.slotAbsent s.now e.1
  have hr : r.core = t.core := State.foldl_core State.couplingStep_core
  rw [State.tableUpdates_core, hr, ht]

/-- A step boundary changes the table and the parameter block, not the core (04 R95, R96, R114). -/
@[simp] theorem State.stepBoundary_core (s : State) (u : LaneId → List (Nat × U32)) : (s.stepBoundary u).core = s.core := by
  unfold State.stepBoundary; dsimp only; split
  · exact (State.putThermal_core _ _).trans (s.couplingBoundary_core u)
  · exact s.couplingBoundary_core u

@[simp] theorem State.settleBoundary_core (s : State) : s.settleBoundary.core = s.core := by
  unfold State.settleBoundary; dsimp only; split
  · rfl
  · split
    · rfl
    · refine (State.onLanes_core _ fun _ => ?_).trans (s.stepBoundary_core _)
      rfl

/-! ## A frame in the thermal runtime (04 R102 to R104, R112) -/

@[simp] theorem Lane.frameChip_spine (x : Lane) (k : ThermalBlock) (now c : Nat) (absent : Bool) (i : ChipIn) :
    (x.frameChip k now c absent i).1.spine = x.spine := rfl

@[simp] theorem Lane.sumCapacity_spine (x : Lane) (s : State) : (x.sumCapacity s).spine = x.spine := rfl

@[simp] theorem State.thermalFrame_core (s : State) (l : LaneId) : (s.thermalFrame l).core = s.core := by
  unfold State.thermalFrame
  split
  · rfl
  · extract_lets f fb on slots t
    have ht : t.core = s.core := State.foldl_core fun u c =>
      (State.foldl_core fun v e => v.logIn_core l _ _ _ _ _).trans (u.setLane_core l (Lane.frameChip_spine _ _ _ _ _ _))
    exact (t.onLane_core l (Lane.sumCapacity_spine _ _)).trans ht

/-! ## The passes of a frame -/

@[simp] theorem State.runPass_core (s : State) (l : LaneId) : (s.runPass l).core = s.core := by
  unfold State.runPass
  dsimp only
  exact (State.foldl_core fun t e => t.logIn_core l _ _ _ _ _).trans (s.onLane_core l rfl)

@[simp] theorem State.applyMode_core (s : State) (m : ModeChange) : (s.applyMode m).core = s.core := by
  cases m with
  | authority a cmd =>
    simp only [State.applyMode]; split
    · simp
    · rw [State.finish_core]; exact s.moveAuthority_core a s.now
  | rack racks value cmd =>
    simp only [State.applyMode]; split
    · simp
    · rw [State.finish_core]; exact State.foldl_core fun t k => t.moveRack_core k _
  | autoPredictive => simp only [State.applyMode]; split <;> simp

@[simp] theorem State.passModes_core (s : State) : s.passModes.core = s.core := State.foldl_core State.applyMode_core

@[simp] theorem State.passItem_core (s : State) (i : CfgItem) : (s.passItem i).core = s.core := by
  have gov (f : Lane → Lane) (hf : ∀ x, (f x).spine = x.spine) : ((s.apply [i]).onLanes f).core = s.core :=
    ((s.apply [i]).onLanes_core hf).trans (s.apply_core [i])
  unfold State.passItem
  dsimp only
  split
  case h_1 => simp
  case h_2 =>
    refine (State.onLanes_core _ fun x => ?_).trans (gov _ fun _ => ?_)
    · exact Lane.foldl_spine fun _ _ => rfl
    · rfl
  case h_14 => split <;> simp
  case h_15 => simp
  all_goals (refine gov _ fun _ => ?_); rfl

@[simp] theorem State.passStart_core (s : State) : s.passStart.core = s.core := State.foldl_core State.passItem_core

@[simp] theorem State.phaseStep_core (s : State) : s.phaseStep.core = s.core := by
  unfold State.phaseStep; split
  · split <;> rfl
  · rfl

end Sys2Proof.Machine
end

section
/-! SUPPORT. The governor's pass and the step grant: what they leave of a lane and of the tick (08 R206 to R226, 02 R47). -/

namespace Sys2Proof.Machine

/-! ## A lane but for its governor -/

def Lane.noGov (x : Lane) : Lane := { x with gov := {} }

theorem Lane.spine_of_noGov {x y : Lane} (h : y.noGov = x.noGov) : y.spine = x.spine := by
  have hs : y.noGov.spine = x.noGov.spine := congrArg Lane.spine h
  exact hs

theorem Lane.foldl_noGov {α : Type} {f : Lane → α → Lane} {l : List α} {x : Lane} (hf : ∀ y a, (f y a).noGov = y.noGov) :
    (l.foldl f x).noGov = x.noGov := foldl_keeps Lane.noGov hf l x

theorem Lane.onGovChip_noGov (x : Lane) (c : Nat) (f : GovChip → GovChip) : (x.onGovChip c f).noGov = x.noGov := rfl
theorem Lane.onGovJob_noGov (x : Lane) (j : Nat) (f : GovJob → GovJob) : (x.onGovJob j f).noGov = x.noGov := rfl

theorem State.endMark_noGov (s : State) (x : Lane) (c : Nat) : (s.endMark x c).noGov = x.noGov := by
  unfold State.endMark; extract_lets g fresh absent; split <;> rfl

theorem State.adopt_noGov (s : State) (x : Lane) (p : Proposal) : (s.adopt x p).noGov = x.noGov := by
  unfold State.adopt; split
  · rfl
  · split
    · rfl
    · extract_lets off; split <;> rfl

theorem State.adoptAll_noGov (s : State) (x : Lane) : (s.adoptAll x).noGov = x.noGov := Lane.foldl_noGov s.adopt_noGov

theorem State.paceDetect_noGov (s : State) (x : Lane) (l : List GSlot) : (s.paceDetect x l).1.noGov = x.noGov := by
  unfold State.paceDetect
  refine (foldl_keeps (fun a : Lane × List (Nat × Nat × List U32) => a.1.noGov) (fun a e => ?_) _ _).trans
    (foldl_keeps (fun a : Lane × List (Nat × Nat × List U32) => a.1.noGov) (fun a p => ?_) l (x, []))
  · dsimp only; split
    · rfl
    · split <;> rfl
  · dsimp only; split <;> rfl

theorem State.swingJob_noGov (s : State) (x : Lane) (l : List GSlot) (j : Nat) : (s.swingJob x l j).noGov = x.noGov := by
  unfold State.swingJob
  extract_lets k ms governed e unset drop slots y hit z
  have hy : y.noGov = x.noGov := Lane.foldl_noGov fun _ _ => rfl
  split
  · exact hy
  · exact Eq.trans (Lane.foldl_noGov fun _ _ => rfl) hy

/-- The stages of a pass change the governor's own state alone. -/
theorem State.passStages_noGov (s : State) (x : Lane) : (s.passStages x).1.noGov = x.noGov := by
  unfold State.passStages
  extract_lets e predictive x1 g1 x2 x3 l pm groups row
  have h1 : x1.noGov = x.noGov := Lane.foldl_noGov s.endMark_noGov
  have h2 : x2.noGov = x.noGov := by
    refine Eq.trans ?_ h1
    simp only [x2]; split <;> rfl
  have h3 : x3.noGov = x.noGov := (s.adoptAll_noGov x2).trans h2
  have h4 := (s.paceDetect_noGov x3 l).trans h3
  split
  rename_i x4 ev heq
  rw [heq] at h4
  extract_lets l' fast syncs l2 x5
  have h5 : x5.noGov = x.noGov := Eq.trans (Lane.foldl_noGov fun _ _ => rfl) h4
  split
  split
  split
  extract_lets l3 x6 caps x7 seen gone g7 x8 x9
  have h6 : x6.noGov = x.noGov := by
    refine Eq.trans (Lane.foldl_noGov fun y j => ?_) h5
    split
    · exact s.swingJob_noGov y _ _
    · rfl
  have h7 : x7.noGov = x.noGov := Eq.trans (Lane.foldl_noGov fun _ _ => rfl) h6
  have h9 : x9.noGov = x.noGov := Eq.trans (Lane.foldl_noGov fun _ _ => rfl) h7
  exact h9

theorem State.passStages_spine (s : State) (x : Lane) : (s.passStages x).1.spine = x.spine := Lane.spine_of_noGov (s.passStages_noGov x)

/-! ## The pass -/

@[simp] theorem State.lanePass_core (s : State) (l : LaneId) : (s.lanePass l).1.core = s.core := by
  have hx := s.passStages_spine (s.lane l)
  unfold State.lanePass
  split
  · rfl
  · split
    rename_i x caps ev halts heq
    rw [heq] at hx
    exact (State.foldl_core fun t e => t.logIn_core l _ _ _ _ _).trans (s.setLane_core l hx)

@[simp] theorem State.haltTrays_core (s : State) (l : LaneId) (ts : List Nat) : (s.haltTrays l ts).core = s.core := by
  unfold State.haltTrays
  split
  · rfl
  · rw [State.logIn_core]; exact State.foldl_core fun t n => t.onTray_core n _

@[simp] theorem State.endGovs_core (s : State) (due : Nat) : (s.endGovs due).core = s.core :=
  State.foldl_core fun t _ => t.finish_core _ _

/-- The governor's part of FRAME_READY keeps the core (08 R206). -/
@[simp] theorem State.governorPass_core (s : State) : s.governorPass.core = s.core := by
  unfold State.governorPass
  split
  rename_i s1 ha heqA
  have h1 : s1.core = s.core := by rw [← s.lanePass_core .A, heqA]
  split
  rename_i s2 hb heqB
  have h2 : s2.core = s.core := by rw [← h1, ← s1.lanePass_core .B, heqB]
  extract_lets s3 main mark s4
  have h3 : s3.core = s.core := by simp only [s3]; split <;> simp [h2]
  have h4 : s4.core = s.core := by
    refine Eq.trans ?_ h3
    simp only [s4]; split <;> rfl
  split
  · exact (s4.endGovs_core _).trans h4
  · exact h4

/-! ## Tick events -/

theorem State.setTickEvent_cases (s : State) (m : U32) :
    s.setTickEvent m = { s with tick := { s.tick with event := s.tick.event ||| m } } ∨
    s.setTickEvent m = ({ s with tick := { s.tick with event := s.tick.event ||| m } } : State).fire 1 :=
  State.fireIfSet_cases _ _ _ _

@[simp] theorem State.setTickEvent_tick (s : State) (m : U32) :
    (s.setTickEvent m).tick = { s.tick with event := s.tick.event ||| m } := by
  rcases s.setTickEvent_cases m with h | h <;> rw [h]
  exact State.fire_tick _ 1

theorem State.setTickEvent_eq (s : State) (m : U32) :
    s.setTickEvent m = { s with tick := (s.setTickEvent m).tick, hif := (s.setTickEvent m).hif } := by
  rcases s.setTickEvent_cases m with h | h <;> rw [h]
  rw [State.fire_eq]

@[simp] theorem State.countTick_tick (s : State) (i : Nat) (m : U32) :
    (s.countTick i m).tick = { s.tick with event := s.tick.event ||| m } := State.setTickEvent_tick _ m

/-- Counting a tick event changes its bit, the increments of the counter's record and interrupts. -/
theorem State.countTick_eq (s : State) (i : Nat) (m : U32) :
    s.countTick i m = { s with tick := (s.countTick i m).tick, evt := (s.countTick i m).evt, hif := (s.countTick i m).hif } := by
  unfold State.countTick
  rw [State.setTickEvent_eq]

/-- A state whose tick, log and interrupts are put anew has the lanes it had. -/
theorem State.countTick_lane (s : State) (i : Nat) (m : U32) (l : LaneId) : (s.countTick i m).lane l = s.lane l := by
  rw [State.countTick_eq]; exact State.lane_congr rfl rfl l

/-! ## Frame ready (02 R40, R41, R47) -/

theorem State.grantStep_ferris (s : State) (i : Image) (l : LaneId) : ((s.grantStep i).lane l).ferris = (s.lane l).ferris := by
  have start (x : Lane) (n d : Nat) (tl : Nat → Option U16) (fb : List Byte) : (x.startStep i n d tl fb).ferris = x.ferris := by
    simp only [Lane.startStep]
  cases l <;> (simp only [State.grantStep, State.onLanes, State.lane]; split <;> simp only [start])

/-- A step grant leaves the epoch and the frames a lane keeps. -/
theorem State.grantTick_keeps (s : State) :
    s.grantTick.tick.epoch = s.tick.epoch ∧ ∀ l, (s.grantTick.lane l).ferris = (s.lane l).ferris := by
  have same (t : State) (ht : t.tick.epoch = s.tick.epoch) (hl : ∀ l, t.lane l = s.lane l) :
      t.tick.epoch = s.tick.epoch ∧ ∀ l, (t.lane l).ferris = (s.lane l).ferris := ⟨ht, fun l => congrArg Lane.ferris (hl l)⟩
  unfold State.grantTick
  extract_lets busy had
  split
  · exact same s rfl fun _ => rfl
  · split
    · exact same s rfl fun _ => rfl
    · split
      · exact same s.swapTick rfl (State.lane_congr rfl rfl)
      · split
        · exact same s rfl fun _ => rfl
        · split
          · exact same _ (by rw [State.countTick_tick]) fun l => (State.countTick_lane _ _ _ l).trans (State.lane_congr rfl rfl l)
          · exact ⟨rfl, s.grantStep_ferris _⟩

theorem State.keepFrame_ferris (s : State) {l : LaneId} (h : (s.lane l).isRunning = true) :
    Tab.get {} (s.keepFrame.lane l).ferris (s.tick.frame.epoch % 960000) = s.tick.frame := by
  cases l <;> simp only [State.lane] at h <;> simp [State.keepFrame, State.lane, h]

/-- FRAME_READY keeps the frame of the tick in a running lane, and the epoch (02 R40, 19 R473). -/
theorem execFrameReady_keeps {l : LaneId} {s : State} (h : (s.lane l).isRunning = true) :
    ∃ t, exec .frameReady s = .next t ∧ Tab.get {} (t.lane l).ferris (s.tick.frame.epoch % 960000) = s.tick.frame ∧
      t.tick.epoch = s.tick.epoch := by
  let u := s.settleBoundary.passModes.passStart.phaseStep
  have hu : u.core = s.core := by simp [u]
  let p := (u.keepFrame.thermalFrame .A).thermalFrame .B
  let q := if p.laneA.isRunning then p.runPass .A else p
  let r := if q.laneB.isRunning then q.runPass .B else q
  have hq : q.core = u.keepFrame.core := by simp only [q]; split <;> simp [p]
  have hr : r.governorPass.core = u.keepFrame.core := by simp only [r]; split <;> simp [hq]
  obtain ⟨he, hf⟩ := r.governorPass.grantTick_keeps
  have hrun : (u.lane l).isRunning = true := by
    have : (u.lane l).run = (s.lane l).run := congrArg LaneSpine.run (State.spine_of_core hu l)
    rw [Lane.isRunning, this]; exact h
  refine ⟨r.governorPass.grantTick, rfl, ?_, ?_⟩
  · have hfer : (r.governorPass.lane l).ferris = (u.keepFrame.lane l).ferris := congrArg LaneSpine.ferris (State.spine_of_core hr l)
    rw [hf, hfer, ← State.tick_of_core hu]
    exact u.keepFrame_ferris hrun
  · rw [he, State.tick_of_core hr]
    exact congrArg TickSt.epoch (State.tick_of_core (t := u) hu)

end Sys2Proof.Machine
end

section
/-! SUPPORT. T0: what ends with a tick and what the next one begins with; views and tick time (02 R36 to R39, R50, R51; 09 R239). -/

namespace Sys2Proof.Machine

/-! ## The inputs of the window that closes -/

@[simp] theorem State.sampleAnalog_core (s : State) (i : AnalogIn) : (s.sampleAnalog i).core = s.core := by
  unfold State.sampleAnalog; dsimp only; split <;> rfl

@[simp] theorem State.sampleLeak_core (s : State) (i : LeakIn) : (s.sampleLeak i).core = s.core := rfl

@[simp] theorem State.samplePulse_core (s : State) (i : PulseIn) : (s.samplePulse i).core = s.core := by
  unfold State.samplePulse; split <;> rfl

@[simp] theorem State.countCoil_core (s : State) (v : Nat) : (s.countCoil v).core = s.core := by
  unfold State.countCoil; dsimp only; split <;> rfl

@[simp] theorem State.sampleValves_core (s : State) (coils boost : List (Nat × Nat)) : (s.sampleValves coils boost).core = s.core := by
  unfold State.sampleValves
  extract_lets s1 s2
  have h1 : s1.core = s.core := State.foldl_core fun _ _ => rfl
  have h2 : s2.core = s1.core := State.foldl_core fun _ _ => rfl
  exact (State.foldl_core fun t _ => t.countCoil_core _).trans (h2.trans h1)

@[simp] theorem State.sample_core (s : State) (i : TickInputs) : (s.sample i).core = s.core := by
  unfold State.sample
  extract_lets s1 s2 s3
  have h1 : s1.core = s.core := State.foldl_core State.sampleAnalog_core
  have h2 : s2.core = s1.core := State.foldl_core State.sampleLeak_core
  have h3 : s3.core = s2.core := State.foldl_core State.samplePulse_core
  rw [State.sampleValves_core, h3, h2, h1]

@[simp] theorem State.latchTrays_core (s : State) : s.latchTrays.core = s.core := State.foldl_core fun _ _ => rfl

@[simp] theorem State.disarmGroups_core (s : State) : s.disarmGroups.core = s.core :=
  State.foldl_core fun t e => by split <;> rfl

/-! ## What T0 gives the Hall of Mirrors -/

/-- A table filled entry by entry with values that all meet `P` answers one that meets `P` wherever the table before did. -/
theorem Tab.get_foldl_set {α : Type} [DecidableEq α] {P : α → Prop} {d : α} {g : Nat × α → α} (hg : ∀ e, P (g e)) (l : Tab α) {t : Tab α}
    (ht : ∀ i, P (Tab.get d t i)) (i : Nat) : P (Tab.get d (l.foldl (fun u e => Tab.set d u e.1 (g e)) t) i) := by
  induction l generalizing t with
  | nil => exact ht i
  | cons e l ih =>
    refine ih fun j => ?_
    rw [Tab.get_set]
    split
    · exact hg e
    · exact ht j

/-- A slot that holds no copy and is not closed. -/
def MirrorSlot.Unused (m : MirrorSlot) : Prop := m.a = none ∧ m.b = none ∧ m.closed = false

theorem State.freshTick_unused (s : State) (n : Nat) : (s.freshTick.mirrorSlot n).Unused :=
  Tab.get_foldl_set (P := MirrorSlot.Unused) (g := fun e => e.2.fresh _) (fun _ => ⟨rfl, rfl, rfl⟩) s.laneCtl.mirror
    (t := []) (fun _ => ⟨rfl, rfl, rfl⟩) n

theorem State.updateLock_tick (s : State) :
    s.updateLock.tick = { s.tick with locked := s.tick.near, event := s.updateLock.tick.event } := by
  unfold State.updateLock
  dsimp only
  split
  · rw [State.logRm_tick, State.setTickEvent_tick]
  · rfl

/-- Following the phase error changes the tick, the log and interrupts. -/
theorem State.updateLock_eq (s : State) :
    s.updateLock = { s with tick := s.updateLock.tick, evt := s.updateLock.evt, hif := s.updateLock.hif } := by
  unfold State.updateLock
  dsimp only
  split
  · rw [State.setTickEvent_eq]; rfl
  · rfl

/-- The state with the next epoch's number and time, before anything takes effect in it. -/
def State.nextEpoch (s : State) : State :=
  let u := { s with tick := { s.tick with closing := if s.settledTick then some s.snapshot else none } }.freshTick
  { u with tick := { u.tick.nextTime with epoch := u.now + 1 } }.updateLock

theorem State.releaseLanes_keeps (s : State) :
    s.releaseLanes.tick = s.tick ∧ s.releaseLanes.due = s.due ∧ s.releaseLanes.laneCtl.mirror = s.laneCtl.mirror := by
  have h : (fun t : State => (t.tick, t.due, t.laneCtl.mirror)) s.releaseLanes = (s.tick, s.due, s.laneCtl.mirror) := by
    unfold State.releaseLanes
    split
    · rfl
    · refine foldl_keeps (fun t : State => (t.tick, t.due, t.laneCtl.mirror)) (fun t l => ?_) _ _
      split
      · cases l <;> rfl
      · rfl
  simpa using h

theorem State.inStepStart_keeps (s : State) :
    s.inStepStart.tick = s.tick ∧ s.inStepStart.due = s.due ∧ s.inStepStart.laneCtl = s.laneCtl := by
  have ref (t : State) : t.stageReference.tick = t.tick ∧ t.stageReference.due = t.due ∧ t.stageReference.laneCtl = t.laneCtl :=
    ⟨State.tick_of_core t.stageReference_core, State.due_of_core t.stageReference_core, State.laneCtl_of_core t.stageReference_core⟩
  unfold State.inStepStart
  extract_lets a b due go e m u
  split
  · exact ⟨rfl, rfl, rfl⟩
  · exact ref u

/-- What takes effect at T0 does, and the window that ends is sampled. -/
def State.windowSampled (s : State) (inp : TickInputs) : State :=
  ((s.due.foldl State.putItem { s with due := [] }).sample inp).latchTrays.disarmGroups

theorem State.windowSampled_core (s : State) (inp : TickInputs) : (s.windowSampled inp).core = ({ s with due := [] } : State).core := by
  simp only [State.windowSampled, State.disarmGroups_core, State.latchTrays_core, State.sample_core]
  exact State.foldl_core State.putItem_core

/-- The times of a tick are counted and its frame is closed. -/
def State.frameClosed (s : State) (discarded : Nat) : State :=
  { s.countTickTimes with tick := { s.countTickTimes.tick with frame := s.countTickTimes.closeFrame discarded } }

theorem State.frameClosed_frame (s : State) (d : Nat) :
    (s.frameClosed d).tick.frame.epoch = s.tick.epoch ∧ (s.frameClosed d).tick.frame.t0Time = s.tick.t0Time := by
  unfold State.frameClosed State.closeFrame; dsimp only; exact ⟨rfl, rfl⟩

/-- Lanes out of reset, the in-step start, and a step boundary where no image is stepping. -/
def State.lanesStarted (s : State) : State :=
  let s := s.releaseLanes.inStepStart
  if s.stepping then s else s.stepBoundary fun _ => []

theorem State.lanesStarted_keeps (s : State) :
    s.lanesStarted.tick = s.tick ∧ s.lanesStarted.due = s.due ∧ s.lanesStarted.laneCtl.mirror = s.laneCtl.mirror := by
  obtain ⟨ht1, hd1, hm1⟩ := s.releaseLanes_keeps
  obtain ⟨ht2, hd2, hc2⟩ := s.releaseLanes.inStepStart_keeps
  have hc : s.lanesStarted.core = s.releaseLanes.inStepStart.core := by
    unfold State.lanesStarted; dsimp only; split <;> simp
  exact ⟨((State.tick_of_core hc).trans ht2).trans ht1, ((State.due_of_core hc).trans hd2).trans hd1,
    (congrArg LaneCtlSt.mirror ((State.laneCtl_of_core hc).trans hc2)).trans hm1⟩

/-- The stages of a T0. -/
theorem exec_tickStart (inp : TickInputs) (s : State) : exec (.tickStart inp) s = .next
    ((s.nextEpoch.windowSampled inp).frameClosed s.tick.discarded).lanesStarted := by
  show execTickStart inp s = _
  unfold execTickStart State.lanesStarted State.frameClosed State.windowSampled State.nextEpoch
  with_reducible rfl

/-- TICK_START: beside the frame and the age of a view hold the tick is that of the next epoch, the frame names it and its T0,
what waited for T0 is done, and the Hall of Mirrors starts empty (02 R36 to R39). -/
theorem execTickStart_spec (inp : TickInputs) (s : State) :
    ∃ t, exec (.tickStart inp) s = .next t ∧
      t.tick = { s.nextEpoch.tick with holdTicks := t.tick.holdTicks, frame := t.tick.frame } ∧
      t.tick.frame.epoch = s.nextEpoch.tick.epoch ∧ t.tick.frame.t0Time = s.nextEpoch.tick.t0Time ∧ t.due = [] ∧
      ∀ n, (t.mirrorSlot n).Unused := by
  have hw := s.nextEpoch.windowSampled_core inp
  generalize hu : s.nextEpoch.windowSampled inp = u at hw
  have hut : u.tick = s.nextEpoch.tick := State.tick_of_core (s := { s.nextEpoch with due := [] }) hw
  have hum : u.laneCtl = s.nextEpoch.laneCtl := State.laneCtl_of_core (s := { s.nextEpoch with due := [] }) hw
  have hud : u.due = [] := State.due_of_core (s := { s.nextEpoch with due := [] }) hw
  obtain ⟨ht, hd, hm⟩ := (u.frameClosed s.tick.discarded).lanesStarted_keeps
  obtain ⟨he, h0⟩ := u.frameClosed_frame s.tick.discarded
  refine ⟨_, exec_tickStart inp s, ?_⟩
  rw [hu, ht]
  refine ⟨?_, by rw [he, hut], by rw [h0, hut], hd.trans hud, fun n => ?_⟩
  · rw [← hut]; rfl
  · have : (u.frameClosed s.tick.discarded).laneCtl = s.nextEpoch.laneCtl := hum
    rw [State.mirrorSlot, hm, this, State.nextEpoch, State.updateLock_eq]
    exact State.freshTick_unused _ n

/-- The tick of the next epoch, by its fields (02 R36 to R38). -/
theorem State.nextEpoch_tick (s : State) :
    let t := s.nextEpoch.tick
    t.epoch = s.tick.epoch + 1 ∧ t.windowOpen = false ∧ t.loopRelLast = s.tick.loopRelCur ∧ t.loopRelCur = 0 ∧
      t.closing = (if s.settledTick then some s.snapshot else none) ∧ t.t0Time = s.tick.nextTime.t0Time ∧
      t.slewing = s.tick.nextTime.slewing := by
  unfold State.nextEpoch
  dsimp only
  rw [State.updateLock_tick]
  exact ⟨rfl, rfl, rfl, rfl, rfl, rfl, rfl⟩

theorem TickSt.nextTime_unseen {t : TickSt} (h : t.timeSeen = false) : t.nextTime.t0Time = t.t0Time := by simp [TickSt.nextTime, h]

/-- With valid time and no phase error a tick lasts 100,000 ns (02 R36). -/
theorem TickSt.nextTime_inPhase {t : TickSt} (h : t.timeSeen = true) (hv : t.timeValid = true) (hp : t.phaseErr = 0) :
    t.nextTime.t0Time = t.t0Time + 100000 ∧ t.nextTime.slewing = false := by
  simp [TickSt.nextTime, TickSt.adjust, h, hv, hp]

/-! ## Views (02 R50, R51) -/

theorem exec_viewPublish {s : State} {v : Snapshot} (h : s.tick.closing = some v) : exec .viewPublish s = .next
    { s with tick := { s.tick with closing := none, settled := v, shown := if s.tick.hold then s.tick.shown else v } } := by
  show execViewPublish s = _
  rw [execViewPublish, h]

theorem exec_viewHoldExpiry {s : State} (h : s.tick.hold = true) (hl : s.tick.viewHoldLimit ≤ s.tick.holdTicks) : exec .viewHoldExpiry s = .next
    { s with tick := { s.tick with hold := false, holdTicks := 0, shown := s.tick.settled, holdExpired := true } } := by
  show execViewHoldExpiry s = _
  rw [execViewHoldExpiry, if_pos (by simp [h, hl])]
  rfl

/-! ## 802.1AS time (09 R239) -/

/-- A Sync at a port that is up: the port is a slave, and time, valid and seen, is that of the Sync. -/
theorem exec_gptpSyncReceived {port : Fin 4} (time : U64) (e : Int) {s : State} (h : (Tab.get ({} : Port) s.tray.ports port.val).up = true) :
    exec (.gptpSyncReceived port time e) s = .next ({ s.onPort port.val fun x => { x with ptp := 2, syncMisses := 0 } with
      tick := { s.tick with timeValid := true, timeSeen := true, holdover := false, t0Time := time, phaseErr := e } } : State).updateLock := by
  show execGptpSyncReceived port time e s = _
  rw [execGptpSyncReceived, h]
  rfl

/-- What the last slave port's silence does to tick time. -/
def State.heldOver (s : State) : State :=
  (({ s with tick := { s.tick with timeValid := false, holdover := true, locked := false, slewing := false, phaseErr := 0 } } : State).setTickEvent
    0x80).logRm Cls.notice 0x0C08 none32 []

/-- A port without Sync is no slave; where no other is, the tick enters holdover. -/
theorem exec_syncTimeout_last {port : Fin 4} {s : State} (h : s.tick.timeValid = true)
    (hp : ∀ p, p ≠ port.val → (Tab.get ({} : Port) s.tray.ports p).ptp ≠ 2) :
    exec (.syncTimeout port) s = .next
      (s.onPort port.val fun x => { x with syncMisses := 3, ptp := if x.ptp = 2 then 1 else x.ptp }).heldOver := by
  show execSyncTimeout port s = _
  let u := s.onPort port.val fun x => { x with syncMisses := 3, ptp := if x.ptp = 2 then 1 else x.ptp }
  have hu (p : Nat) : (Tab.get ({} : Port) u.tray.ports p).ptp ≠ 2 := by
    by_cases hq : p = port.val
    · subst hq
      simp only [u, State.onPort, Tab.get_modify_same]
      split <;> simp_all
    · simp only [u, State.onPort, Tab.get_modify_other _ _ _ hq]
      exact hp p hq
  have hn : ((List.range 4).any fun p => (Tab.get ({} : Port) u.tray.ports p).ptp = 2 &&
      decide ((Tab.get ({} : Port) u.tray.ports p).syncMisses < 3)) = false := by simp [hu]
  simp only [execSyncTimeout]
  rw [if_neg]
  · rfl
  · have hv : u.tick.timeValid = true := h
    simp only [u] at hn hv
    rw [hn, hv]; decide

theorem State.heldOver_tick (s : State) : s.heldOver.tick =
    { s.tick with timeValid := false, holdover := true, locked := false, slewing := false, phaseErr := 0, event := s.tick.event ||| 0x80 } := by
  unfold State.heldOver; rw [State.logRm_tick, State.setTickEvent_tick]

theorem State.heldOver_eq (s : State) : s.heldOver = { s with tick := s.heldOver.tick, evt := s.heldOver.evt, hif := s.heldOver.hif } := by
  unfold State.heldOver; rw [State.setTickEvent_eq]; rfl

/-- Settles O31: TICK_START stage by stage, FRAME_READY by what its passes keep, views and tick time by their equations. -/
theorem tickFrameViewsAndTime : Obligations.TickFrameViewsAndTime := by
  unfold Obligations.TickFrameViewsAndTime
  refine ⟨?t0, fun l s h => execFrameReady_keeps h, fun s v h => ⟨_, exec_viewPublish h, rfl⟩,
    fun s h hl => ⟨_, exec_viewHoldExpiry h hl, rfl⟩, ?sync, ?timeout⟩
  case t0 =>
    intro inp s
    obtain ⟨t, hex, ht, hfe, hft, hd, hm⟩ := execTickStart_spec inp s
    obtain ⟨he, hw, hl, hc, hcl, ht0, hsl⟩ := s.nextEpoch_tick
    refine ⟨t, hex, by rw [ht]; exact he, hd, by rw [ht]; exact hw, hfe.trans he, by rw [hft, ht], by rw [ht]; exact hl,
      by rw [ht]; exact hc, hm, fun h => ?_, fun h hv hp => ?_, ?_, fun h => ?_⟩
    · rw [ht]; exact ht0.trans (TickSt.nextTime_unseen h)
    · obtain ⟨ha, hb⟩ := TickSt.nextTime_inPhase h hv hp
      rw [ht]; exact ⟨ht0.trans ha, hsl.trans hb⟩
    · rw [ht]; dsimp only; rw [hcl]; cases s.settledTick <;> simp
    · rw [ht]; dsimp only; rw [hcl, if_pos h]; rfl
  case sync =>
    intro port time e s h
    refine ⟨_, exec_gptpSyncReceived time e h, ?_⟩
    rw [State.updateLock_eq, State.updateLock_tick]
    refine ⟨rfl, rfl, rfl, rfl, rfl, ?_, ?_, rfl⟩
    · simp [TickSt.near]
    · simp [State.onPort]
  case timeout =>
    intro port s h hp
    refine ⟨_, exec_syncTimeout_last h hp, ?_⟩
    rw [State.heldOver_eq, State.heldOver_tick]
    refine ⟨rfl, rfl, rfl, rfl, ?_, rfl⟩
    simp

end Sys2Proof.Machine
end

section
/-! SUPPORT. Loop outputs in the Hall of Mirrors: a copy taken, compared, released or held, and silence (02 R42; 15 R364 to R368, R385). -/

namespace Sys2Proof.Machine

/-! ## Mirror slots and counts -/

@[simp] theorem State.mirrorSlot_onMirror (s : State) (n : Nat) (f : MirrorSlot → MirrorSlot) :
    (s.onMirror n f).mirrorSlot n = f (s.mirrorSlot n) := Tab.get_modify_same _ _ _ _

@[simp] theorem MirrorSlot.copy_setCopy_same (m : MirrorSlot) (l : LaneId) (o : LoopOut) : (m.setCopy l o).copy l = some o := by
  cases l <;> rfl

@[simp] theorem MirrorSlot.closed_setCopy (m : MirrorSlot) (l : LaneId) (o : LoopOut) : (m.setCopy l o).closed = m.closed := by
  cases l <;> rfl

theorem LaneCtlSt.countOf_setCount (c : LaneCtlSt) (k : OutKey) (n : Nat) : (c.setCount k n).countOf k = n := by
  have gone : (c.counts.filter fun x => x.1 ≠ k).find? (fun x => x.1 = k) = none := by simp
  unfold LaneCtlSt.setCount LaneCtlSt.countOf
  split
  · rename_i h; rw [gone]; exact h.symm
  · simp

/-! ## What a release can change -/

/-- A release changes the mirror, what is released and where it goes, and the tick's account of releases. -/
def ReleaseFrame (s t : State) : Prop :=
  t = { s with
    laneCtl := { s.laneCtl with mirror := t.laneCtl.mirror }, rel := t.rel, motors := t.motors, bus := t.bus
    tick := { s.tick with loopRelCur := t.tick.loopRelCur, unsettled := t.tick.unsettled } }

theorem ReleaseFrame.refl (s : State) : ReleaseFrame s s := rfl

theorem ReleaseFrame.trans {s t u : State} (h : ReleaseFrame s t) (g : ReleaseFrame t u) : ReleaseFrame s u := by
  unfold ReleaseFrame at *; rw [g, h]

theorem ReleaseFrame.laneCtl {s t : State} (h : ReleaseFrame s t) : t.laneCtl = { s.laneCtl with mirror := t.laneCtl.mirror } :=
  congrArg State.laneCtl h

theorem ReleaseFrame.countOf {s t : State} (h : ReleaseFrame s t) (k : OutKey) : t.laneCtl.countOf k = s.laneCtl.countOf k := by
  rw [h.laneCtl]; rfl

theorem State.onMirror_frame (s : State) (n : Nat) (f : MirrorSlot → MirrorSlot) : ReleaseFrame s (s.onMirror n f) := rfl

/-- What the referee takes over from an output whose copies agree (15 R370). -/
def State.heldNoted (s : State) (n : Nat) (o : LoopOut) : State :=
  if s.laneCtl.countOf (.loop n) = 0 then s.onMirror n fun m => { m with rHeld := o.r } else s

theorem State.heldNoted_frame (s : State) (n : Nat) (o : LoopOut) : ReleaseFrame s (s.heldNoted n o) := by
  unfold State.heldNoted; split <;> exact rfl

theorem State.heldNoted_tick (s : State) (n : Nat) (o : LoopOut) : (s.heldNoted n o).tick = s.tick := by
  unfold State.heldNoted; split <;> rfl

theorem State.crossCheck_frame (s : State) (n : Nat) (e : EffMode) (o : LoopOut) : ReleaseFrame s (s.crossCheck n e o) := rfl

theorem State.releaseLoop_frame (s : State) (n : Nat) (o : LoopOut) (ns : Nat) : ReleaseFrame s (s.releaseLoop n o ns) := by
  simp only [State.releaseLoop]
  split
  · exact rfl
  · split <;> exact rfl

/-- A release closes the slot, keeps its value and notes its time (02 R42). -/
theorem State.releaseLoop_spec (s : State) (n : Nat) (o : LoopOut) (ns : Nat) :
    ((s.releaseLoop n o ns).mirrorSlot n).closed = true ∧ Tab.get none (s.releaseLoop n o ns).rel.loopOut n = some o.out ∧
      (s.releaseLoop n o ns).tick = { s.tick with loopRelCur := max s.tick.loopRelCur ns } := by
  have hm : ((s.onMirror n fun m => { m with closed := true }).mirrorSlot n).closed = true := by rw [State.mirrorSlot_onMirror]
  have hr : Tab.get none (Tab.set none s.rel.loopOut n (some o.out)) n = some o.out := Tab.get_set_same _ _ _ _
  simp only [State.releaseLoop]
  split
  · exact ⟨hm, hr, rfl⟩
  · split <;> exact ⟨hm, hr, rfl⟩

/-! ## A comparison (15 R366, R367) -/

theorem State.noteCompare_agree (s : State) (k : OutKey) : s.noteCompare k true = { s with laneCtl := s.laneCtl.setCount k 0 } := rfl

/-- A disagreement below the K-th in a row: counted, with its event, and nothing else. -/
theorem State.noteCompare_below {s : State} {k : OutKey} (hn : s.inNet = false) (hk : s.laneCtl.countOf k + 1 < s.cfg.k) :
    (s.noteCompare k false).laneCtl = { s.laneCtl with
        cntDisagree := satTo 32 (s.laneCtl.cntDisagree + 1), event := s.laneCtl.event ||| 0x1 }.setCount k (s.laneCtl.countOf k + 1) ∧
      s.noteCompare k false = { s with laneCtl := (s.noteCompare k false).laneCtl, hif := (s.noteCompare k false).hif } := by
  let u := ({ s with laneCtl := { s.laneCtl with cntDisagree := satTo 32 (s.laneCtl.cntDisagree + 1) } } : State).setLaneEvent 0x1
  have hu : u = { s with laneCtl := { s.laneCtl with
      cntDisagree := satTo 32 (s.laneCtl.cntDisagree + 1), event := s.laneCtl.event ||| 0x1 }, hif := u.hif } := by
    simp only [u]; rw [State.setLaneEvent_eq, State.setLaneEvent_laneCtl]
  have hc : s.noteCompare k false = { u with laneCtl := u.laneCtl.setCount k (u.laneCtl.countOf k + 1) } := by
    have h1 : u.inNet = false := by rw [hu]; exact hn
    have h2 : ¬ u.cfg.k ≤ u.laneCtl.countOf k + 1 := by rw [hu]; exact Nat.not_le.mpr hk
    unfold State.noteCompare
    simp only [Bool.false_eq_true, if_false]
    rw [if_neg (by rw [h1]; decide), if_neg h2]
  rw [hc, hu]
  exact ⟨rfl, rfl⟩

/-- A compared output that is not withheld and not merged: the active lane's copy is released. -/
theorem State.compareLoop_released {s u : State} {n ns : Nat} {a b : LoopOut}
    (hu : (s.onMirror n fun m => { m with disagreed := !F32.agree (s.loopDesc n).mirrorTol a.out b.out }).noteCompare (.loop n)
      (F32.agree (s.loopDesc n).mirrorTol a.out b.out) = u)
    (hw : u.withheld = false) (hm : (!F32.agree (s.loopDesc n).mirrorTol a.out b.out && u.merging) = false) :
    s.compareLoop n ns a b =
      (u.heldNoted n (if u.laneCtl.active = .A then a else b)).releaseLoop n (if u.laneCtl.active = .A then a else b) ns := by
  unfold State.compareLoop
  simp only [hu]
  rw [if_neg (by rw [hw]; decide)]
  generalize (if u.laneCtl.active = .A then a else b) = act
  have hm' : (u.heldNoted n act).merging = u.merging := by unfold State.heldNoted; split <;> rfl
  rw [← hm'] at hm
  show (u.heldNoted n act).releaseLoop n (if _ = true then _ else act) ns = _
  rw [if_neg]
  exact fun h => absurd (hm.symm.trans h) (by decide)

/-! ## A copy delivered (15 R366) -/

/-- The value of lane A of two: a lane's own, `x`, and the other's, `y`. -/
def ofLaneA {α : Type} (l : LaneId) (x y : α) : α := match l with | .A => x | .B => y

/-- A lane's copy of a loop output is kept; an implausible one marks the lane. -/
def State.loopTaken (s : State) (l : LaneId) (n : Nat) (v : LoopOut) : State :=
  let s := (if (s.loopDesc n).plausible v then s else s.markFailed l).onMirror n fun m => m.setCopy l v
  { s with laneCtl := match l with
    | .A => { s.laneCtl with deliveredA := true }
    | .B => { s.laneCtl with deliveredB := true } }

/-- What a copy that is kept leaves of lane control: the mirror, the delivery, and the lane's statistics change. -/
theorem State.loopTaken_eq (s : State) (l : LaneId) (n : Nat) (v : LoopOut) :
    s.loopTaken l n v = { s with laneCtl := { s.laneCtl with
      mirror := (s.loopTaken l n v).laneCtl.mirror, deliveredA := (s.loopTaken l n v).laneCtl.deliveredA
      deliveredB := (s.loopTaken l n v).laneCtl.deliveredB, statA := (s.loopTaken l n v).laneCtl.statA
      statB := (s.loopTaken l n v).laneCtl.statB } } := by
  unfold State.loopTaken; dsimp only; split <;> cases l <;> rfl

theorem State.loopTaken_mirrorSlot (s : State) (l : LaneId) (n : Nat) (v : LoopOut) :
    (s.loopTaken l n v).mirrorSlot n = (s.mirrorSlot n).setCopy l v := by
  have h (t : State) (ht : t.mirrorSlot n = s.mirrorSlot n) :
      (t.onMirror n fun m => m.setCopy l v).mirrorSlot n = (s.mirrorSlot n).setCopy l v := by rw [State.mirrorSlot_onMirror, ht]
  unfold State.loopTaken; dsimp only
  split
  · cases l <;> exact h s rfl
  · cases l <;> exact h (s.markFailed _) rfl

section
variable {s : State} {l : LaneId} {ns n : Nat} {x : LoopSlot} (hx : s.slotOut l n = some x) (hc : (s.mirrorSlot n).closed = false)
  (hl : (s.mirrorSlot n).copy l = none) (hs : (s.laneCtl.stat l).outputsLost = false) (hns : ns ≤ loopDeadline n)
include hx hc hl hs hns

/-- A copy that counts is kept, and what follows depends on the other lane's copy alone. -/
theorem State.deliverLoop_taken (o : Option LoopOut) :
    s.deliverLoop l ns n o =
      let v := o.getD { out := x.out, tgt := x.tgt, r := x.r }
      let u := s.loopTaken l n v
      match (u.mirrorSlot n).a, (u.mirrorSlot n).b with
      | some a, some b => u.compareLoop n ns a b
      | _, _ => if u.laneCtl.redundancy = .simplexOn l && !u.laneCtl.held then (u.crossCheck n x.eff v).releaseLoop n v ns else u := by
  unfold State.deliverLoop
  rw [hx]
  dsimp only
  rw [if_neg (by simp [hc, hl, hs, hns])]
  rfl

/-- The first copy: released at once in SIMPLEX, kept otherwise. -/
theorem State.deliverLoop_first (o : Option LoopOut) (ho : (s.mirrorSlot n).copy l.other = none) :
    s.deliverLoop l ns n o =
      let v := o.getD { out := x.out, tgt := x.tgt, r := x.r }
      let u := s.loopTaken l n v
      if s.laneCtl.redundancy = .simplexOn l && !s.laneCtl.held then (u.crossCheck n x.eff v).releaseLoop n v ns else u := by
  rw [State.deliverLoop_taken hx hc hl hs hns]
  dsimp only
  have hr : (s.loopTaken l n (o.getD { out := x.out, tgt := x.tgt, r := x.r })).laneCtl.redundancy = s.laneCtl.redundancy := by
    rw [State.loopTaken_eq]
  have hh : (s.loopTaken l n (o.getD { out := x.out, tgt := x.tgt, r := x.r })).laneCtl.held = s.laneCtl.held := by
    rw [State.loopTaken_eq]
  rw [State.loopTaken_mirrorSlot, hr, hh]
  cases l <;> simp only [LaneId.other, MirrorSlot.copy] at ho <;> simp [MirrorSlot.setCopy, ho]

/-- The second copy: both are compared. -/
theorem State.deliverLoop_second (o : Option LoopOut) {p : LoopOut} (ho : (s.mirrorSlot n).copy l.other = some p) :
    s.deliverLoop l ns n o =
      let v := o.getD { out := x.out, tgt := x.tgt, r := x.r }
      (s.loopTaken l n v).compareLoop n ns (ofLaneA l v p) (ofLaneA l p v) := by
  rw [State.deliverLoop_taken hx hc hl hs hns]
  dsimp only
  rw [State.loopTaken_mirrorSlot]
  cases l <;> simp only [LaneId.other, MirrorSlot.copy] at ho <;> simp [MirrorSlot.setCopy, ho, ofLaneA]

end

theorem State.isRunning_of_slotOut {s : State} {l : LaneId} {n : Nat} {x : LoopSlot} (h : s.slotOut l n = some x) :
    (s.lane l).isRunning = true := by
  unfold State.slotOut at h
  dsimp only at h
  split at h
  · simp_all
  · cases h

theorem exec_laneOutputDelivery_loop {s : State} {l : LaneId} {n : Nat} {x : LoopSlot} (ns : Nat) (o : Option LoopOut)
    (h : s.slotOut l n = some x) : exec (.laneOutputDelivery l ns (.loop n o)) s = .next (s.deliverLoop l ns n o) := by
  show execLaneOutputDelivery l ns (.loop n o) s = _
  rw [execLaneOutputDelivery, if_neg (by simp [State.isRunning_of_slotOut h])]

end Sys2Proof.Machine
end

section
/-! SUPPORT. Release deadlines and silence, and the statement on loop outputs (02 R42; 15 R364, R385). -/

namespace Sys2Proof.Machine

/-! ## Two copies compared -/

section
variable {s : State} {l : LaneId} {ns n : Nat} {o p : LoopOut} {x : LoopSlot} (hx : s.slotOut l n = some x)
  (hc : (s.mirrorSlot n).closed = false) (hl : (s.mirrorSlot n).copy l = none) (ho : (s.mirrorSlot n).copy l.other = some p)
  (hs : (s.laneCtl.stat l).outputsLost = false) (hns : ns ≤ loopDeadline n)
include hx hc hl ho hs hns

/-- The second copy, where the comparison in `u` neither withholds nor merges: the active lane's value is released. -/
theorem State.deliverLoop_compared {u : State} {ok : Bool}
    (hok : F32.agree (s.loopDesc n).mirrorTol (ofLaneA l o p).out (ofLaneA l p o).out = ok)
    (hu : ((s.loopTaken l n o).onMirror n fun m => { m with disagreed := !ok }).noteCompare (.loop n) ok = u)
    (hlc : u.laneCtl.redundancy = .duplex ∧ u.laneCtl.held = false ∧ u.laneCtl.active = s.laneCtl.active)
    (hm : ok = true ∨ u.laneCtl.mergedNow = false) :
    ∃ t, exec (.laneOutputDelivery l ns (.loop n (some o))) s = .next t ∧ ReleaseFrame u t ∧ (t.mirrorSlot n).closed = true ∧
      Tab.get none t.rel.loopOut n = some (if s.laneCtl.active = l then o.out else p.out) := by
  obtain ⟨hud, huh, hua⟩ := hlc
  have hdesc : (s.loopTaken l n o).loopDesc n = s.loopDesc n := by rw [State.loopTaken_eq]; rfl
  have hw : u.withheld = false := by simp [State.withheld, State.inNet, hud, huh]
  have hmerge : (!F32.agree ((s.loopTaken l n o).loopDesc n).mirrorTol (ofLaneA l o p).out (ofLaneA l p o).out && u.merging) = false := by
    rw [hdesc, hok]
    rcases hm with h | h <;> simp [h, State.merging]
  have hrel := State.compareLoop_released (s := s.loopTaken l n o) (ns := ns) (by rw [hdesc, hok]; exact hu) hw hmerge
  have hout : (if u.laneCtl.active = .A then ofLaneA l o p else ofLaneA l p o).out = if s.laneCtl.active = l then o.out else p.out := by
    rw [hua]
    cases l <;> cases s.laneCtl.active <;> rfl
  refine ⟨_, exec_laneOutputDelivery_loop ns (some o) hx, ?_⟩
  rw [State.deliverLoop_second hx hc hl hs hns (some o) ho, Option.getD_some]
  dsimp only
  rw [hrel]
  obtain ⟨h1, h2, -⟩ := (u.heldNoted n (if u.laneCtl.active = .A then ofLaneA l o p else ofLaneA l p o)).releaseLoop_spec n
    (if u.laneCtl.active = .A then ofLaneA l o p else ofLaneA l p o) ns
  exact ⟨(u.heldNoted_frame n _).trans (State.releaseLoop_frame _ n _ ns), h1, h2.trans (congrArg some hout)⟩

variable (hd : s.laneCtl.redundancy = .duplex) (hh : s.laneCtl.held = false)
include hd hh

/-- Copies that agree: released, and the slot's count cleared. -/
theorem exec_laneOutputDelivery_agree (h1 : F32.agree (s.loopDesc n).mirrorTol o.out p.out = true)
    (h2 : F32.agree (s.loopDesc n).mirrorTol p.out o.out = true) :
    ∃ t, exec (.laneOutputDelivery l ns (.loop n (some o))) s = .next t ∧ (t.mirrorSlot n).closed = true ∧
      Tab.get none t.rel.loopOut n = some (if s.laneCtl.active = l then o.out else p.out) ∧ t.laneCtl.countOf (.loop n) = 0 ∧
      t = { s with laneCtl := t.laneCtl, rel := t.rel, tick := t.tick, motors := t.motors, bus := t.bus } := by
  have hok : F32.agree (s.loopDesc n).mirrorTol (ofLaneA l o p).out (ofLaneA l p o).out = true := by cases l <;> assumption
  obtain ⟨t, hex, hf, hcl, hout⟩ := State.deliverLoop_compared hx hc hl ho hs hns hok (State.noteCompare_agree _ _) (by
    rw [State.loopTaken_eq]; exact ⟨hd, hh, rfl⟩) (.inl rfl)
  refine ⟨t, hex, hcl, hout, ?_, ?_⟩
  · rw [hf.countOf]; exact LaneCtlSt.countOf_setCount _ _ 0
  · rw [hf, State.loopTaken_eq]; rfl

/-- Copies that disagree below the K-th time in a row and outside a merge: counted with the event, the active lane's released. -/
theorem exec_laneOutputDelivery_disagree (hm : s.laneCtl.mergedNow = false)
    (h1 : F32.agree (s.loopDesc n).mirrorTol o.out p.out = false) (h2 : F32.agree (s.loopDesc n).mirrorTol p.out o.out = false)
    (hk : s.laneCtl.countOf (.loop n) + 1 < s.cfg.k) :
    ∃ t, exec (.laneOutputDelivery l ns (.loop n (some o))) s = .next t ∧
      t.laneCtl.countOf (.loop n) = s.laneCtl.countOf (.loop n) + 1 ∧
      t.laneCtl.cntDisagree = satTo 32 (s.laneCtl.cntDisagree + 1) ∧ t.laneCtl.event.getLsbD 0 = true ∧
      Tab.get none t.rel.loopOut n = some (if s.laneCtl.active = l then o.out else p.out) := by
  have hok : F32.agree (s.loopDesc n).mirrorTol (ofLaneA l o p).out (ofLaneA l p o).out = false := by cases l <;> assumption
  let v := (s.loopTaken l n o).onMirror n fun m => { m with disagreed := !false }
  have hv : v.laneCtl = { s.laneCtl with
      mirror := v.laneCtl.mirror, deliveredA := v.laneCtl.deliveredA, deliveredB := v.laneCtl.deliveredB
      statA := v.laneCtl.statA, statB := v.laneCtl.statB } := by
    simp only [v]; rw [State.loopTaken_eq]; rfl
  have hcfg : v.cfg = s.cfg := by simp only [v]; rw [State.loopTaken_eq]; rfl
  have hn : v.inNet = false := by simp only [State.inNet]; rw [hv]; simp [hd]
  have hcount : v.laneCtl.countOf (.loop n) = s.laneCtl.countOf (.loop n) := by rw [hv]; rfl
  obtain ⟨hc1, -⟩ := State.noteCompare_below (k := .loop n) hn (by rw [hcount, hcfg]; exact hk)
  have hlc : (v.noteCompare (.loop n) false).laneCtl.redundancy = .duplex ∧ (v.noteCompare (.loop n) false).laneCtl.held = false ∧
      (v.noteCompare (.loop n) false).laneCtl.active = s.laneCtl.active := by
    rw [hc1, hv]; exact ⟨hd, hh, rfl⟩
  obtain ⟨t, hex, hf, -, hout⟩ := State.deliverLoop_compared hx hc hl ho hs hns hok rfl hlc (.inr (by rw [hc1, hv]; exact hm))
  refine ⟨t, hex, ?_, ?_, ?_, hout⟩
  · rw [hf.countOf, hc1, LaneCtlSt.countOf_setCount, hcount]
  · rw [hf.laneCtl, hc1, hv]; rfl
  · rw [hf.laneCtl, hc1]
    simp [LaneCtlSt.setCount]

end

/-! ## The only or first copy -/

/-- A first plausible copy in DUPLEX waits for the other. -/
theorem exec_laneOutputDelivery_waits {s : State} {l : LaneId} {ns n : Nat} {x : LoopSlot} (hx : s.slotOut l n = some x)
    (hc : (s.mirrorSlot n).closed = false) (hl : (s.mirrorSlot n).copy l = none) (ho : (s.mirrorSlot n).copy l.other = none)
    (hs : (s.laneCtl.stat l).outputsLost = false) (hns : ns ≤ loopDeadline n) (hd : s.laneCtl.redundancy = .duplex) :
    exec (.laneOutputDelivery l ns (.loop n none)) s = .next (s.loopTaken l n { out := x.out, tgt := x.tgt, r := x.r }) := by
  rw [exec_laneOutputDelivery_loop ns none hx, State.deliverLoop_first hx hc hl hs hns none ho]
  dsimp only
  rw [if_neg (by cases l <;> simp [hd, Redundancy.simplexOn])]
  rfl

/-- In SIMPLEX the running lane's copy is released at once. -/
theorem exec_laneOutputDelivery_simplex {s : State} {l : LaneId} {ns n : Nat} {x : LoopSlot} (hx : s.slotOut l n = some x)
    (hc : (s.mirrorSlot n).closed = false) (hl : (s.mirrorSlot n).copy l = none) (ho : (s.mirrorSlot n).copy l.other = none)
    (hs : (s.laneCtl.stat l).outputsLost = false) (hns : ns ≤ loopDeadline n) (hd : s.laneCtl.redundancy = .simplexOn l)
    (hh : s.laneCtl.held = false) :
    ∃ t, exec (.laneOutputDelivery l ns (.loop n none)) s = .next t ∧ (t.mirrorSlot n).closed = true ∧
      Tab.get none t.rel.loopOut n = some x.out ∧ t.tick.loopRelCur = max s.tick.loopRelCur ns := by
  let v : LoopOut := { out := x.out, tgt := x.tgt, r := x.r }
  refine ⟨_, exec_laneOutputDelivery_loop ns none hx, ?_⟩
  rw [State.deliverLoop_first hx hc hl hs hns none ho]
  dsimp only
  rw [if_pos (by simp [hd, hh])]
  obtain ⟨h1, h2, h3⟩ := ((s.loopTaken l n v).crossCheck n x.eff v).releaseLoop_spec n v ns
  refine ⟨h1, h2, (congrArg TickSt.loopRelCur h3).trans ?_⟩
  have : (s.loopTaken l n v).tick = s.tick := by rw [State.loopTaken_eq]
  show max (s.loopTaken l n v).tick.loopRelCur ns = _
  rw [this]

/-! ## The deadline of a slot (02 R42) -/

/-- The slot's output stays what it was: it is closed, and the tick is unsettled. -/
def State.loopHeld (s : State) (n : Nat) : State :=
  { s with tick := { s.tick with unsettled := true } }.onMirror n fun m => { m with closed := true, shortRun := 0 }

theorem State.loopDue_cases (s : State) (n : Nat) :
    s.loopDue n = s ∨ s.loopDue n = s.loopHeld n ∨ ∃ o, s.loopDue n = (s.heldNoted n o).releaseLoop n o (loopDeadline n) := by
  unfold State.loopDue
  dsimp only
  split
  · exact .inl rfl
  · split
    · split
      · exact .inr (.inl rfl)
      · exact .inl rfl
    · split
      · exact .inr (.inr ⟨_, rfl⟩)
      · exact .inr (.inl rfl)

theorem State.loopDue_frame (s : State) (n : Nat) : ReleaseFrame s (s.loopDue n) := by
  rcases s.loopDue_cases n with h | h | ⟨o, h⟩ <;> rw [h]
  · exact ReleaseFrame.refl s
  · exact rfl
  · exact (s.heldNoted_frame n o).trans (State.releaseLoop_frame _ n o _)

section
variable {s : State} {n : Nat} (hn : s.inNet = false) (hh : s.laneCtl.held = false) (hc : (s.mirrorSlot n).closed = false)
  (hs : (s.slotOut .A n).isSome = true ∨ (s.slotOut .B n).isSome = true)
include hn hh hc hs

theorem State.loopDue_open : s.loopDue n = match (s.mirrorSlot n).copy s.laneCtl.active with
    | some o => (s.heldNoted n o).releaseLoop n o (loopDeadline n)
    | none => s.loopHeld n := by
  unfold State.loopDue
  dsimp only
  rw [if_neg, if_neg (by simp [hh])]
  · rfl
  · rcases hs with h | h <;> (obtain ⟨y, hy⟩ := Option.isSome_iff_exists.mp h; simp [hn, hc, hh, hy])

end

theorem exec_loopReleaseDeadline {n : Fin 256} (s : State) (h : n.val ≠ 255) :
    exec (.loopReleaseDeadline n) s = .next (s.loopDue n.val) := by
  show execLoopReleaseDeadline n s = _
  simp [execLoopReleaseDeadline, h]

/-! ## Silence (15 R364, R385) -/

/-- The statistics of a running lane once its silence is counted. -/
def State.silenceStat (s : State) (l : LaneId) : LaneStat :=
  let x := s.laneCtl.stat l
  { x with
    silentRun := if s.silent l then x.silentRun + 1 else 0
    silentTicks := if s.silent l then satTo 32 (x.silentTicks + 1) else x.silentTicks
    qualRun := if !s.inNet || s.silent l || x.failedAt = some s.now then 0 else x.qualRun + 1 }

/-- What the count of a lane's silence is told by: the lane, the epoch, its statistics, the deliveries and the axis. -/
structure SameSilence (l : LaneId) (s t : State) : Prop where
  lane : t.lane l = s.lane l
  now : t.now = s.now
  stat : t.laneCtl.stat l = s.laneCtl.stat l
  deliveredA : t.laneCtl.deliveredA = s.laneCtl.deliveredA
  deliveredB : t.laneCtl.deliveredB = s.laneCtl.deliveredB
  redundancy : t.laneCtl.redundancy = s.laneCtl.redundancy

theorem SameSilence.trans {l : LaneId} {s t u : State} (h : SameSilence l s t) (g : SameSilence l t u) : SameSilence l s u :=
  ⟨g.lane.trans h.lane, g.now.trans h.now, g.stat.trans h.stat, g.deliveredA.trans h.deliveredA, g.deliveredB.trans h.deliveredB,
    g.redundancy.trans h.redundancy⟩

theorem SameSilence.silenceStat {l : LaneId} {s t : State} (h : SameSilence l s t) : t.silenceStat l = s.silenceStat l := by
  obtain ⟨hl, hn, hs, ha, hb, hr⟩ := h
  have hout : ∀ n, t.slotOut l n = s.slotOut l n := fun n => by simp only [State.slotOut, hl, hn]
  have hq : t.silent l = s.silent l := by cases l <;> simp only [State.silent, State.dueLoops, hl, hout, hs, ha, hb]
  have hi : t.inNet = s.inNet := by rw [State.inNet, hr]; rfl
  unfold State.silenceStat
  rw [hq, hs, hn, hi]

/-- The miss of a lane whose frame was lost is counted (02 R40). -/
def State.missCounted (s : State) (l : LaneId) : State :=
  match l with
  | .A => { s with tick := { s.tick with cntMissA := satTo 32 (s.tick.cntMissA + 1) } }.countTick 5 0x40
  | .B => { s with tick := { s.tick with cntMissB := satTo 32 (s.tick.cntMissB + 1) } }.countTick 6 0x40

theorem State.missCounted_keeps (s : State) (l : LaneId) :
    (s.missCounted l).laneCtl = s.laneCtl ∧ (s.missCounted l).now = s.now ∧ ∀ x, (s.missCounted l).lane x = s.lane x := by
  cases l <;> (unfold State.missCounted; dsimp only; rw [State.countTick_eq, State.countTick_tick]; exact ⟨rfl, rfl, State.lane_congr rfl rfl⟩)

/-- Counting the silence of a running lane: its statistics, and a miss where its frame was lost. -/
theorem State.countSilence_running {s : State} {l : LaneId} (h : (s.lane l).isRunning = true) :
    s.countSilence l =
      let u := s.onStat l fun _ => s.silenceStat l
      if (s.laneCtl.stat l).frameLost then u.missCounted l else u := by
  unfold State.countSilence
  rw [if_neg (by simp [h])]
  cases l <;> rfl

theorem State.countSilence_laneCtl {s : State} {l : LaneId} (h : (s.lane l).isRunning = true) :
    (s.countSilence l).laneCtl = s.laneCtl.setStat l (s.silenceStat l) := by
  rw [State.countSilence_running h]
  dsimp only
  split
  · exact (State.missCounted_keeps _ l).1
  · rfl

theorem State.countSilence_idle {s : State} {l : LaneId} (h : (s.lane l).isRunning = false) : s.countSilence l = s := by
  unfold State.countSilence; rw [if_pos (by simp [h])]

/-- Counting one lane's silence leaves lanes and epoch, and of lane control all but the lane's statistics. -/
theorem State.countSilence_keeps (s : State) (l : LaneId) :
    (∀ x, (s.countSilence l).lane x = s.lane x) ∧ (s.countSilence l).now = s.now ∧
      ∃ y, (s.countSilence l).laneCtl = s.laneCtl.setStat l y := by
  cases hr : (s.lane l).isRunning with
  | false =>
    rw [State.countSilence_idle hr]
    exact ⟨fun _ => rfl, rfl, s.laneCtl.stat l, by cases l <;> rfl⟩
  | true =>
    have hl (x : LaneId) : (s.onStat l fun _ => s.silenceStat l).lane x = s.lane x := State.lane_congr rfl rfl x
    obtain ⟨-, hn, hk⟩ := (s.onStat l fun _ => s.silenceStat l).missCounted_keeps l
    refine ⟨?_, ?_, _, State.countSilence_laneCtl hr⟩ <;> (rw [State.countSilence_running hr]; dsimp only; split)
    · exact fun x => (hk x).trans (hl x)
    · exact hl
    · exact hn
    · rfl

/-- At the deadline of L255 the tick's silence is counted in both lanes (15 R364). -/
theorem exec_loopReleaseDeadline_last (s : State) :
    ∃ k, exec (.loopReleaseDeadline 255) s = .next
      { ((s.loopDue 255).countSilence .A).countSilence .B with
        laneCtl := { (((s.loopDue 255).countSilence .A).countSilence .B).laneCtl with netAgreeRun := k } } := ⟨_, rfl⟩

theorem State.countSilence_same_other (s : State) (l : LaneId) : SameSilence l.other s (s.countSilence l) := by
  obtain ⟨hl, hn, y, hc⟩ := s.countSilence_keeps l
  refine ⟨hl _, hn, ?_, ?_, ?_, ?_⟩ <;> rw [hc]
  · exact LaneCtlSt.stat_setStat_other _ _ _
  all_goals cases l <;> rfl

theorem State.loopDue_same (s : State) (n : Nat) (l : LaneId) : SameSilence l s (s.loopDue n) := by
  have h := s.loopDue_frame n
  have hc := h.laneCtl
  refine ⟨?_, ?_, ?_, by rw [hc], by rw [hc], by rw [hc]⟩
  · rw [h]; exact State.lane_congr rfl rfl l
  · rw [h]; rfl
  · rw [hc]; cases l <;> rfl

/-- A running lane's statistics after the deadline of L255 are those of its silence in the tick. -/
theorem exec_loopReleaseDeadline_stat {l : LaneId} {s : State} (h : (s.lane l).isRunning = true) :
    ∃ t, exec (.loopReleaseDeadline 255) s = .next t ∧ t.laneCtl.stat l = s.silenceStat l := by
  have hd := s.loopDue_same 255 l
  obtain ⟨k, hex⟩ := exec_loopReleaseDeadline_last s
  refine ⟨_, hex, ?_⟩
  cases l with
  | A =>
    have hA : ((s.loopDue 255).countSilence .A).laneCtl.stat .A = s.silenceStat .A := by
      rw [State.countSilence_laneCtl (by rw [hd.lane]; exact h), LaneCtlSt.stat_setStat_same, hd.silenceStat]
    exact (State.countSilence_same_other _ .B).stat.trans hA
  | B =>
    have hB := hd.trans ((s.loopDue 255).countSilence_same_other .A)
    exact (congrArg (·.stat .B) (State.countSilence_laneCtl (by rw [hB.lane]; exact h))).trans
      ((LaneCtlSt.stat_setStat_same _ _ _).trans hB.silenceStat)

/-- Settles O32: a copy taken waits, is compared or is released; a slot's deadline and the count of silence by what they can do. -/
theorem loopOutputsThroughTheMirrors : Obligations.LoopOutputsThroughTheMirrors := by
  unfold Obligations.LoopOutputsThroughTheMirrors
  refine ⟨?waits, ?agree, ?disagree, ?simplex, ?due, ?hold, ?silent, ?heard⟩
  case waits =>
    intro l ns n s x hx hc hl ho hs hns hd hp
    refine ⟨_, exec_laneOutputDelivery_waits hx hc hl ho hs hns hd, ?_, ?_, ?_⟩
    · rw [State.loopTaken_eq]
    · rw [State.loopTaken_mirrorSlot, MirrorSlot.copy_setCopy_same]
    · rw [State.loopTaken_mirrorSlot, MirrorSlot.closed_setCopy]; exact hc
  case agree =>
    intro l ns n s o p x hx hc hl ho hs hns hd hh _ h1 h2
    exact exec_laneOutputDelivery_agree hx hc hl ho hs hns hd hh h1 h2
  case disagree =>
    intro l ns n s o p x hx hc hl ho hs hns hd hh hm _ h1 h2 hk
    exact exec_laneOutputDelivery_disagree hx hc hl ho hs hns hd hh hm h1 h2 hk
  case simplex =>
    intro l ns n s x hx hc hl ho hs hns hd hh
    exact exec_laneOutputDelivery_simplex hx hc hl ho hs hns hd hh
  case due =>
    intro n s o h hn hh hc hs ho
    refine ⟨_, exec_loopReleaseDeadline s h, ?_⟩
    rw [State.loopDue_open hn hh hc hs, ho]
    obtain ⟨hcl, hout, ht⟩ := (s.heldNoted n.val o).releaseLoop_spec n.val o (loopDeadline n.val)
    exact ⟨hout, hcl, by rw [ht, State.heldNoted_tick]⟩
  case hold =>
    intro n s h hn hh hc hs ho
    refine ⟨_, exec_loopReleaseDeadline s h, ?_⟩
    rw [State.loopDue_open hn hh hc hs, ho]
    exact ⟨rfl, rfl, by simp only [State.loopHeld, State.mirrorSlot_onMirror], rfl⟩
  case silent =>
    intro l s hr hq
    obtain ⟨t, hex, ht⟩ := exec_loopReleaseDeadline_stat hr
    exact ⟨t, hex, by simp [ht, State.silenceStat, hq]⟩
  case heard =>
    intro l s hr hq hn hf
    obtain ⟨t, hex, ht⟩ := exec_loopReleaseDeadline_stat hr
    exact ⟨t, hex, by simp [ht, State.silenceStat, hq, hn, hf]⟩

end Sys2Proof.Machine
end

section
/-! SUPPORT. Model results in the release window, the end of a step and its abort (02 R44, R45, R48, R530; 05 R137, R138). -/

namespace Sys2Proof.Machine

/-! ## A result alone in the window (02 R44, R530) -/

/-- The state with the release window open. -/
def State.windowOpened (s : State) : State := { s with tick := { s.tick with windowOpen := true } }

section
variable {s : State} {a : LaneId} {r : HeldResult} {v : ResultVal} (hr : s.laneCtl.redundancy = .simplexOn a) (ha : s.laneCtl.active = a)
  (hc : r.copy a = some v) (hs : s.tick.held = [r])
include hr ha hc hs

/-- In SIMPLEX a held result that is due is discarded once stale, and otherwise released from the running lane's copy alone. -/
theorem State.settleResult_simplex (ns : Nat) (alone : Bool) (hh : s.laneCtl.held = false)
    (hl : s.tick.lastDue r.kind r.target = none) (hd : r.due ≤ s.now) :
    s.settleResult r.key ns alone = if r.due + s.tick.staleLimit < s.now then s.discardResult r false else s.releaseResult r v ns := by
  have hdup : s.laneCtl.redundancy ≠ .duplex := by rw [hr]; cases a <;> decide
  have hw : s.withheld = false := by simp [State.withheld, State.inNet, hh, hr, Redundancy.simplexOn_ne_net]
  have hstale : s.now - r.due > s.tick.staleLimit ↔ r.due + s.tick.staleLimit < s.now := by omega
  unfold State.settleResult
  simp [hs, ha, hc, hdup, hw, Nat.not_lt.mpr hd, hl, hstale]

/-- RELEASE_WINDOW_OPEN with one result held settles that result. -/
theorem exec_releaseWindowOpen_one : exec .releaseWindowOpen s = .next (s.windowOpened.settleResult r.key 20000 false) := by
  have hu : s.windowOpened.tick.held = [r] := hs
  have hn : ¬s.windowOpened.inNet = true := by simp [State.windowOpened, State.inNet, hr, Redundancy.simplexOn_ne_net]
  have hdoom : s.windowOpened.tick.held.filter s.windowOpened.doomed = [] := by
    rw [hu]; simp [State.windowOpened, State.doomed, ha, hc]
  have hdue : byDue s.windowOpened.tick.held = [r.key] := by rw [hu]; rfl
  show execReleaseWindowOpen s = _
  unfold execReleaseWindowOpen
  extract_lets k u k' v
  have hv : v = s.windowOpened := congrArg (List.foldl (fun (t : State) x => t.discardResult x false) u) hdoom
  rw [if_neg (show ¬u.inNet = true from hn), hv, hdue]
  rfl

end

/-- The released set-point of a result is kept, and its due epoch with it; nothing else is released (02 R44). -/
theorem State.releaseResult_setPoint {s : State} {r : HeldResult} (w : F32) (ns : Nat) (hk : r.kind = .loopSp)
    (hp : s.mode.authority = .predictive) :
    let t := s.releaseResult r (.word w) ns
    Tab.get none t.rel.setPoint r.target = some w ∧
      (∀ i, i ≠ r.target → Tab.get none t.rel.setPoint i = Tab.get none s.rel.setPoint i) ∧ t.rel.loopOut = s.rel.loopOut ∧
      t.tick.lastDue .loopSp r.target = some r.due ∧ t.tick.windowOpen = s.tick.windowOpen ∧
      t.tick.held = s.tick.held.filter (fun x => x.key ≠ r.key) ∧ t = { s with tick := t.tick, rel := t.rel } := by
  have hu : (s.closeResult r.key).mode.authority = .predictive := hp
  unfold State.releaseResult
  dsimp only
  rw [if_neg (not_not.mpr hu)]
  simp only [hk, if_true, reduceCtorEq, if_false]
  refine ⟨Tab.get_set_same _ _ _ _, fun i hi => Tab.get_set_other _ _ _ hi, rfl, ?_, rfl, rfl, rfl⟩
  simp [State.noteReleased, TickSt.lastDue, hk]

/-- Under another authority a result is withheld: it is decided, and nothing is released (02 R530). -/
theorem State.releaseResult_withheld {s : State} (r : HeldResult) (w : F32) (ns : Nat) (hp : s.mode.authority ≠ .predictive) :
    s.releaseResult r (.word w) ns = s.closeResult r.key := by
  unfold State.releaseResult
  exact if_pos hp

/-- A stale result is discarded and counted (02 R45). -/
theorem State.discardResult_stale (s : State) {r : HeldResult} (hk : r.kind = .loopSp) :
    let t := s.discardResult r false
    t.rel = s.rel ∧ t.tick.cntStale = satTo 32 (s.tick.cntStale + 1) ∧ t.tick.discarded = s.tick.discarded + 1 ∧
      t.tick.event.getLsbD 2 = true ∧ t.tick.windowOpen = s.tick.windowOpen ∧
      t.tick.held = s.tick.held.filter (fun x => x.key ≠ r.key) ∧ t = { s with tick := t.tick, evt := t.evt, hif := t.hif } := by
  have hcap : r.kind ≠ .capSet := by rw [hk]; decide
  obtain ⟨u, hd, hu⟩ : ∃ u : State, s.discardResult r false = u.countTick 1 0x4 ∧ u = { s.closeResult r.key with
      tick := { (s.closeResult r.key).tick with discarded := s.tick.discarded + 1, cntStale := satTo 32 (s.tick.cntStale + 1) } } :=
    ⟨_, by simp only [State.discardResult, if_neg hcap, Bool.false_eq_true, if_false]; rfl, rfl⟩
  rw [hd]
  intro t
  have ht : t.tick = { u.tick with event := u.tick.event ||| 0x4 } := u.countTick_tick 1 0x4
  have hf : t = { u with tick := t.tick, evt := t.evt, hif := t.hif } := u.countTick_eq 1 0x4
  subst hu
  refine ⟨(congrArg State.rel hf :), (congrArg TickSt.cntStale ht :), (congrArg TickSt.discarded ht :), ?_,
    (congrArg TickSt.windowOpen ht :), (congrArg TickSt.held ht :), hf⟩
  rw [ht]
  simp

/-! ## The window closes (02 R45) -/

/-- With nothing held and nothing else delivered the window closes, and a tick with a late result is counted. -/
theorem exec_releaseWindowClose_empty {s : State} (ho : s.tick.windowOpen = true) (hn : s.inNet = false) (hh : s.tick.held = [])
    (hx : s.laneCtl.others = []) (hc : s.tick.capReleased = true) :
    ∃ u, exec .releaseWindowClose s = .next { u with tick := { u.tick with windowOpen := false } } ∧
      u = if s.lateNow then { s with tick := { s.tick with cntLate := satTo 32 (s.tick.cntLate + 1) } }.countTick 0 0x2 else s := by
  refine ⟨_, ?_, rfl⟩
  have hset : s.settleOthers = s := by unfold State.settleOthers; split <;> simp [hx]
  have hb : byDue s.tick.held = [] := by rw [hh]; rfl
  show execReleaseWindowClose s = _
  unfold execReleaseWindowClose
  rw [if_neg (by simp [ho])]
  dsimp only
  rw [if_neg (by rw [hn]; decide), hb, List.foldl_nil, hset]
  have hcap : (if s.lateNow = true then { s with tick := { s.tick with cntLate := satTo 32 (s.tick.cntLate + 1) } }.countTick 0 0x2
      else s).tick.capReleased = true := by
    split
    · rw [State.countTick_tick]; exact hc
    · exact hc
  rw [if_pos hcap]

/-! ## The end of a step (05 R137) -/

theorem State.filterLoop_spine (s : State) (x : Lane) (k : ResultKind) (b : OutBinding) (n : Nat) (v : F32) :
    (s.filterLoop x k b n v).1.spine = x.spine := by
  unfold State.filterLoop
  extract_lets
  split <;> rfl

theorem State.filterCap_spine (s : State) (x : Lane) (c v : Nat) : (s.filterCap x c v).1.spine = x.spine := by
  unfold State.filterCap
  extract_lets
  split <;> rfl

theorem State.putOutput_spine (s : State) (img : Image) (b : OutBinding) (d : List Byte) (x : Lane) (i : Nat) :
    (s.putOutput img b d x i).spine = x.spine := by
  unfold State.putOutput
  extract_lets n due w m y result propose
  have hy : y.spine = x.spine := by unfold y; split <;> rfl
  split
  · exact hy
  · split
    · exact (s.filterLoop_spine y .loopSp b n w).trans hy
    · exact (s.filterLoop_spine y .loopFf b n w).trans hy
    · have hcap := s.filterCap_spine y n (capUnits w)
      split <;> rename_i heq <;> rw [heq] at hcap
      · exact hcap.trans hy
      · exact hcap.trans hy
    · exact hy
    · exact hy

/-- A completed step leaves the lane idle, with the step's epoch as source epoch and no run of aborts; a run of invalid forecasts
below 8 raises no fault. -/
theorem State.completeLane_spine (s : State) (l : LaneId) (img : Image) (hi : (s.lane l).model.invalidRun < 7) :
    ∃ x, s.completeLane l img = s.setLane l x ∧ x.step.running = false ∧ x.step.firstStep = false ∧
      x.model.sourceEpoch = some (s.lane l).step.epoch ∧ x.model.abortRun = 0 := by
  unfold State.completeLane
  extract_lets x data bad badFc x1 m x2 x3 st x4
  have h3 : x3.spine = x2.spine := Lane.foldl_spine fun y b => Lane.foldl_spine fun y i => s.putOutput_spine img b (data b) y i
  have hrun : x4.model.invalidRun < 8 := by
    have h2 : x2.model.invalidRun < 8 := by
      show (if badFc = true then x.model.invalidRun + 1 else 0) < 8
      split
      · exact Nat.succ_lt_succ hi
      · decide
    exact (congrArg LaneSpine.invalidRun h3).trans_lt h2
  rw [if_neg (Nat.not_le.mpr hrun)]
  exact ⟨x4, rfl, rfl, rfl, congrArg LaneSpine.sourceEpoch h3, congrArg LaneSpine.abortRun h3⟩

/-- STEP_COMPLETE of a lane whose step is done completes it, and the boundary work follows. -/
theorem exec_stepComplete {s : State} {l : LaneId} {img : Image} (hm : s.image = some img) (hl : (s.lane l).isRunning = true)
    (hr : (s.lane l).step.running = true) (hd : (s.lane l).stepDone img = true) :
    exec (.stepComplete l) s = .next (s.completeLane l img).settleBoundary := by
  show execStepComplete l s = _
  unfold execStepComplete
  simp [hm, hl, hr, hd]

/-! ## The abort of a step (02 R48, 05 R138) -/

theorem Lane.isRunning_of_spine {x y : Lane} (h : x.spine = y.spine) : x.isRunning = y.isRunning :=
  congrArg (fun p => p.run.isRunning) h

/-- An abort counted in a lane's run of aborts. -/
def Lane.abortCounted (x : Lane) : Lane := { x with model := { x.model with abortRun := x.model.abortRun + 1 } }

theorem Lane.abortStep_abortCounted_spine (x : Lane) : x.abortStep.abortCounted.spine =
    { x.spine with running := false, abortedLast := true, firstStep := false, abortRun := x.model.abortRun + 1 } := by
  simp only [Lane.abortCounted, Lane.abortStep, Lane.spine]

/-- Two passes over the running lanes are one, when the first leaves each as running as it was. -/
theorem State.onLanes_onLanes (s : State) {f g : Lane → Lane} (hf : ∀ x, (f x).isRunning = x.isRunning) :
    (s.onLanes f).onLanes g = s.onLanes fun x => g (f x) := by
  have hlane (x : Lane) : (if (if x.isRunning then f x else x).isRunning then g (if x.isRunning then f x else x)
      else if x.isRunning then f x else x) = if x.isRunning then g (f x) else x := by
    by_cases h : x.isRunning = true
    · simp [h, hf]
    · simp [h]
  unfold State.onLanes
  dsimp only
  rw [hlane, hlane]

theorem Lane.abortStep_isRunning (x : Lane) : x.abortStep.isRunning = x.isRunning := by simp only [Lane.isRunning, Lane.abortStep]

/-- The steps of the running lanes aborted, counted, and their tick event set. -/
def State.stepsAborted (s : State) : State :=
  let u := (s.onLanes Lane.abortStep).onLanes Lane.abortCounted
  { u with tick := { u.tick with cntAbort := satTo 32 (u.tick.cntAbort + 1), event := u.tick.event ||| 0x20 }
           img := { u.img with stepAborts := satTo 32 (u.img.stepAborts + 1) } }

theorem State.stepsAborted_lane (s : State) (l : LaneId) :
    s.stepsAborted.lane l = if (s.lane l).isRunning then (s.lane l).abortStep.abortCounted else s.lane l := by
  have hpass : s.stepsAborted.lane l = ((s.onLanes Lane.abortStep).onLanes Lane.abortCounted).lane l := by cases l <;> rfl
  rw [hpass, State.onLanes_onLanes s Lane.abortStep_isRunning, State.lane_onLanes]

/-- A lane that runs once the steps are aborted was running before, and its step has ended. -/
theorem State.stepsAborted_idle {s : State} {l : LaneId} (h : (s.stepsAborted.lane l).isRunning = true) :
    (s.stepsAborted.lane l).step.running = false := by
  rw [State.stepsAborted_lane] at h ⊢
  split
  · next => exact congrArg LaneSpine.running (s.lane l).abortStep_abortCounted_spine
  · next hr => exact absurd (by rwa [if_neg hr] at h) hr

theorem State.countTick_core (s : State) (i : Nat) (m : U32) :
    (s.countTick i m).core = { s.core with tick := { s.tick with event := s.tick.event ||| m } } := by
  rw [State.countTick_eq, State.countTick_tick]
  rfl

/-- STEP_ABORT of an overdue step: the boundary work and a model fault after it leave the core as the aborts made it. -/
theorem exec_stepAbort_core {s : State} {l : LaneId} (h : s.stepOverdue (s.lane l) = true) :
    ∃ t, exec .stepAbort s = .next t ∧ t.core = s.stepsAborted.core := by
  have hover : ¬(!(s.stepOverdue s.laneA || s.stepOverdue s.laneB)) = true := by
    cases l <;> simp only [State.lane] at h <;> simp [h]
  refine ⟨_, rfl, ?_⟩
  rw [if_neg hover]
  extract_lets clean u0 u1 u2 u3 k m u4 u5
  have h1 : u1.stepsAborted.core = s.stepsAborted.core := by unfold u1; split <;> rfl
  have h4 : (u4.countTick 4 0x20).core = u1.stepsAborted.core := u4.countTick_core 4 0x20
  have h5 : u5.core = (u4.countTick 4 0x20).core := State.settleBoundary_core _
  split
  · rw [State.modelFault_core, h5, h4, h1]
  · rw [h5, h4, h1]

/-! ## O33 -/

/-- RELEASE_WINDOW_OPEN in SIMPLEX with one set-point result (02 R44, R45, R530). -/
theorem exec_releaseWindowOpen_setPoint {s : State} {a : LaneId} {r : HeldResult} {w : F32} (hr : s.laneCtl.redundancy = .simplexOn a)
    (ha : s.laneCtl.active = a) (hh : s.laneCtl.held = false) (hk : r.kind = .loopSp) (hc : r.copy a = some (.word w))
    (hs : s.tick.held = [r]) (hl : s.tick.lastDue .loopSp r.target = none) (hd : r.due ≤ s.now) :
    ∃ t, exec .releaseWindowOpen s = .next t ∧ t.tick.windowOpen = true ∧ t.tick.held = [] ∧
      (s.now ≤ r.due + s.tick.staleLimit → s.mode.authority = .predictive →
        Tab.get none t.rel.setPoint r.target = some w ∧
        (∀ i, i ≠ r.target → Tab.get none t.rel.setPoint i = Tab.get none s.rel.setPoint i) ∧
        t.rel.loopOut = s.rel.loopOut ∧ t.tick.lastDue .loopSp r.target = some r.due ∧ t = { s with tick := t.tick, rel := t.rel }) ∧
      (s.now ≤ r.due + s.tick.staleLimit → s.mode.authority ≠ .predictive → t.rel = s.rel ∧ t = { s with tick := t.tick }) ∧
      (r.due + s.tick.staleLimit < s.now → t.rel = s.rel ∧ t.tick.cntStale = satTo 32 (s.tick.cntStale + 1) ∧
        t.tick.discarded = s.tick.discarded + 1 ∧ t.tick.event.getLsbD 2 = true ∧
        t = { s with tick := t.tick, evt := t.evt, hif := t.hif }) := by
  have hnone : s.windowOpened.tick.held.filter (fun x => decide (x.key ≠ r.key)) = [] := by simp [State.windowOpened, hs]
  refine ⟨_, exec_releaseWindowOpen_one hr ha hc hs, ?_⟩
  have hset : s.windowOpened.settleResult r.key 20000 false = if r.due + s.tick.staleLimit < s.now
      then s.windowOpened.discardResult r false else s.windowOpened.releaseResult r (.word w) 20000 :=
    State.settleResult_simplex (s := s.windowOpened) hr ha hc hs 20000 false hh (hk ▸ hl) hd
  rw [hset]
  by_cases hst : r.due + s.tick.staleLimit < s.now
  · obtain ⟨hrel, hcnt, hdis, hev, hw, hheld, hf⟩ := s.windowOpened.discardResult_stale hk
    rw [if_pos hst]
    exact ⟨hw, hheld.trans hnone, fun h => absurd hst (Nat.not_lt.mpr h), fun h => absurd hst (Nat.not_lt.mpr h),
      fun _ => ⟨hrel, hcnt, hdis, hev, hf⟩⟩
  · rw [if_neg hst]
    by_cases hp : s.mode.authority = .predictive
    · obtain ⟨hsp, hoth, hout, hlast, hw, hheld, hf⟩ := State.releaseResult_setPoint (s := s.windowOpened) w 20000 hk hp
      exact ⟨hw, hheld.trans hnone, fun _ _ => ⟨hsp, hoth, hout, hlast, hf⟩, fun _ h => absurd hp h, fun h => absurd h hst⟩
    · rw [State.releaseResult_withheld (s := s.windowOpened) r w 20000 hp]
      exact ⟨rfl, hnone, fun _ h => absurd h hp, fun _ _ => ⟨rfl, rfl⟩, fun h => absurd h hst⟩

/-- RELEASE_WINDOW_CLOSE with nothing held (02 R45). -/
theorem exec_releaseWindowClose_counts {s : State} (ho : s.tick.windowOpen = true) (hn : s.inNet = false) (hh : s.tick.held = [])
    (hx : s.laneCtl.others = []) (hc : s.tick.capReleased = true) :
    ∃ t, exec .releaseWindowClose s = .next t ∧ t.tick.windowOpen = false ∧
      t.tick.cntLate = (if s.lateNow then satTo 32 (s.tick.cntLate + 1) else s.tick.cntLate) ∧
      (s.lateNow → t.tick.event.getLsbD 1 = true) ∧ t = { s with tick := t.tick, evt := t.evt, hif := t.hif } := by
  obtain ⟨u, he, hu⟩ := exec_releaseWindowClose_empty ho hn hh hx hc
  refine ⟨_, he, rfl, ?_⟩
  by_cases hl : s.lateNow = true
  · rw [if_pos hl] at hu ⊢
    have ht := hu ▸ State.countTick_tick { s with tick := { s.tick with cntLate := satTo 32 (s.tick.cntLate + 1) } } 0 0x2
    have hf := hu ▸ State.countTick_eq { s with tick := { s.tick with cntLate := satTo 32 (s.tick.cntLate + 1) } } 0 0x2
    refine ⟨(congrArg TickSt.cntLate ht :), fun _ => ?_, ?_⟩
    · show u.tick.event.getLsbD 1 = true
      rw [ht]
      simp
    · exact (congrArg (fun x : State => { x with tick := { u.tick with windowOpen := false } }) hf :)
  · rw [if_neg hl] at hu ⊢
    subst hu
    exact ⟨rfl, fun h => absurd h hl, rfl⟩

/-- STEP_COMPLETE of a lane whose step is done (05 R137). -/
theorem exec_stepComplete_ends {s : State} {l : LaneId} {img : Image} (hm : s.image = some img) (hl : (s.lane l).isRunning = true)
    (hr : (s.lane l).step.running = true) (hd : (s.lane l).stepDone img = true) (hi : (s.lane l).model.invalidRun < 7) :
    ∃ t, exec (.stepComplete l) s = .next t ∧ (t.lane l).step.running = false ∧ (t.lane l).step.firstStep = false ∧
      (t.lane l).model.sourceEpoch = some (s.lane l).step.epoch ∧ (t.lane l).model.abortRun = 0 ∧ t.tick = s.tick ∧
      t.laneCtl = s.laneCtl := by
  obtain ⟨x, hx, hrun, hfirst, hsrc, habort⟩ := s.completeLane_spine l img hi
  have hcore : (s.completeLane l img).settleBoundary.core = (s.setLane l x).core := hx ▸ State.settleBoundary_core _
  have hsp : ((s.completeLane l img).settleBoundary.lane l).spine = x.spine := by
    rw [State.spine_of_core hcore, State.lane_setLane_same]
  exact ⟨_, exec_stepComplete hm hl hr hd, (congrArg LaneSpine.running hsp).trans hrun, (congrArg LaneSpine.firstStep hsp).trans hfirst,
    (congrArg LaneSpine.sourceEpoch hsp).trans hsrc, (congrArg LaneSpine.abortRun hsp).trans habort,
    (State.tick_of_core hcore).trans (State.setLane_tick _ _ _), (State.laneCtl_of_core hcore).trans (State.setLane_laneCtl _ _ _)⟩

/-- STEP_ABORT of an overdue step (02 R48, 05 R138). -/
theorem exec_stepAbort_ends {s : State} {l : LaneId} (h : s.stepOverdue (s.lane l) = true) :
    ∃ t, exec .stepAbort s = .next t ∧ t.tick.cntAbort = satTo 32 (s.tick.cntAbort + 1) ∧ t.tick.event.getLsbD 5 = true ∧
      t.img.stepAborts = satTo 32 (s.img.stepAborts + 1) ∧ (t.lane l).step.running = false ∧ (t.lane l).step.abortedLast = true ∧
      (t.lane l).model.abortRun = (s.lane l).model.abortRun + 1 ∧
      ((t.lane l.other).isRunning → (t.lane l.other).step.running = false) := by
  obtain ⟨t, he, hcore⟩ := exec_stepAbort_core h
  have hrun : (s.lane l).isRunning = true := by
    unfold State.stepOverdue at h
    simp only [Bool.and_eq_true] at h
    exact h.1.1
  have htick : t.tick = s.stepsAborted.tick := State.tick_of_core hcore
  have hlane (k : LaneId) : (t.lane k).spine = (s.stepsAborted.lane k).spine := State.spine_of_core hcore k
  have hl : s.stepsAborted.lane l = (s.lane l).abortStep.abortCounted := by rw [State.stepsAborted_lane, if_pos hrun]
  have hsp := ((hlane l).trans (congrArg Lane.spine hl)).trans (s.lane l).abortStep_abortCounted_spine
  refine ⟨t, he, (congrArg TickSt.cntAbort htick :), ?_, ?_, (congrArg LaneSpine.running hsp :), (congrArg LaneSpine.abortedLast hsp :),
    (congrArg LaneSpine.abortRun hsp :), fun ho => ?_⟩
  · rw [htick]
    simp [State.stepsAborted]
  · exact State.stepAborts_of_core hcore
  · have hother := (Lane.isRunning_of_spine (hlane l.other)).symm.trans ho
    exact (congrArg LaneSpine.running (hlane l.other)).trans (State.stepsAborted_idle hother)

/-- Settles O33: a result alone in the window is settled by its age and the authority; the window's close counts a late tick; a
step that ends or is aborted leaves the spine of its lane as said, which the boundary work after it keeps. -/
theorem modelResultsAndSteps : Obligations.ModelResultsAndSteps := by
  unfold Obligations.ModelResultsAndSteps
  refine ⟨fun a n src d w r s hr ha hh hk hn _ hd hc hs hl hdue => ?_, fun s => exec_releaseWindowClose_counts,
    fun l img s => exec_stepComplete_ends, fun l s => exec_stepAbort_ends⟩
  subst hn hd
  exact exec_releaseWindowOpen_setPoint hr ha hh hk hc hs hl hdue

end Sys2Proof.Machine
end

section
/-! SUPPORT. The loop opcodes' CONFIG_CHANGE record (19 R472), against which the frame of an accepted LOOP_SET_MODE fails. -/

namespace Sys2Proof.Machine

/-! ## A record staged is a change (19 R466, R468, R472) -/

/-- Staging a record never leaves the queue as it was: the record is queued or counted as lost. -/
theorem Staging.stage_ne (q : Staging) (code : Nat) (e : Event) : q.stage code e ≠ q := by
  intro h
  unfold Staging.stage at h
  split at h
  · split at h
    · have hidx := congrArg Staging.nextIdx h
      simp at hidx
    · have hlost := congrArg Staging.lost h
      simp at hlost
  · split at h
    · have hidx := congrArg Staging.nextIdx h
      simp at hidx
    · rename_i hnone _
      exact hnone (h ▸ Nat.one_pos)

theorem State.logConfig_staging_ne {s : State} {l : LaneId} (p : Packet) (status : Nat) (h : (s.lane l).isRunning = true) :
    ((s.logConfig p status).lane l).staging ≠ (s.lane l).staging := by
  rw [State.logConfig, State.logLanes_eq]
  cases l with
  | A => simpa only [State.lane, if_pos (show s.laneA.isRunning = true from h)] using Staging.stage_ne _ _ _
  | B => simpa only [State.lane, if_pos (show s.laneB.isRunning = true from h)] using Staging.stage_ne _ _ _

/-- Configuration put in force leaves the lanes as they were. -/
theorem State.lane_apply (s : State) (items : List CfgItem) (l : LaneId) : (s.apply items).lane l = s.lane l :=
  State.lane_congr rfl rfl l

/-! ## An accepted LOOP_SET_MODE logs its change (03 R84) -/

/-- The axes of the loop opcodes let a serving module's commands pass. -/
theorem State.loopAxes_serves {s : State} (status : Bool) (h : s.serves) : ∀ e ∈ s.loopAxes status, e.1 = false := by
  obtain ⟨-, hu, hc, -, -⟩ := h
  simp [State.loopAxes, hu, hc]

/-- LOOP_SET_MODE without SET_MAN_OUT: it changes slots and configuration alone, and then logs the change. -/
theorem loopSetModeBody_logs {p : Packet} {s : State} (ha : (Tab.get {} s.cfg.loops (u8At p.block 4)).accepted = true)
    (hm : u8At p.block 5 ≤ 2) (hf : u16At p.block 6 = 0) :
    ∃ (u : State) (save : List CfgItem), loopSetModeBody p s = .ok (u.logConfig p SC.ok, .reply { Reply.done with save := save }) ∧
      u.proto = s.proto ∧ u.holdsBack = s.holdsBack ∧ ∀ l, u.lane l = { s.lane l with loops := (u.lane l).loops } := by
  have hman : bit (u16At p.block 6) 0 = false := by rw [hf]; decide
  unfold loopSetModeBody
  simp only [ha, hman, Nat.not_lt.mpr hm]
  refine ⟨_, _, rfl, rfl, rfl, fun l => ?_⟩
  simp only [State.lane_apply, State.lane_onLanes]
  split <;> rfl

/-- What LOOP_SET_MODE leaves in the staging queue of a running lane is never what stood there. -/
theorem exec_loopSetMode_staging_ne {p : Packet} {s : State} (hp : s.accepts p) (hs : s.serves) (hb : p.blockOk 12 [] = true)
    (hm : u8At p.block 5 ≤ 2) (hf : u16At p.block 6 = 0) (ha : (Tab.get {} s.cfg.loops (u8At p.block 4)).accepted = true)
    (hr : u8At p.block 5 = 2 → (Tab.get {} s.cfg.loops (u8At p.block 4)).rackIn s.cfg .commission = false)
    {l : LaneId} (hl : (s.lane l).isRunning = true) :
    ∃ t, exec (.loopSetMode p) s = .next t ∧ (t.lane l).staging ≠ (s.lane l).staging := by
  obtain ⟨u, save, hbody, hproto, hback, hlane⟩ :=
    loopSetModeBody_logs (p := s.taken 0x0202 p) (s := { s with proto := s.took 0x0202 p }) ha hm hf
  have hshape : (do
      (s.taken 0x0202 p).checkBlock 12 []
      deny [(u16At (s.taken 0x0202 p).block 6 / 2 ≠ 0, (s.taken 0x0202 p).badField 6)]) = .ok () := by
    rw [State.taken_block_ok s _ p _ _ hb, State.taken_block, hf]
    rfl
  refine ⟨_, congrArg Host.Outcome.next (State.runCmd_reply s (u.logConfig (s.taken 0x0202 p) SC.ok) 0x0202 false p
    { Reply.done with save := save } _ _ _ hp ?_ (.inr hs.1) (axes_pass fun e he => ?_) hbody ?_ ?_), ?_⟩
  · exact hshape
  · rcases List.mem_append.mp he with he | he
    · exact State.loopAxes_serves (s := { s with proto := s.took 0x0202 p }) false hs e he
    · rw [List.mem_singleton.mp he]
      by_cases hauto : u8At p.block 5 = 2
      · exact Bool.and_eq_false_iff.mpr (.inr (hr hauto))
      · simp [hauto]
  · rw [State.logConfig, State.logLanes_proto, hproto]
  · simpa only [State.logConfig, State.holdsBack, State.logLanes_laneCtl, State.logLanes_gen] using hback
  · have hstaging : (u.lane l).staging = (s.lane l).staging := (congrArg Lane.staging (hlane l) :)
    have hrun : (u.lane l).isRunning = true := (congrArg Lane.isRunning (hlane l) :).trans hl
    exact hstaging ▸ State.logConfig_staging_ne _ _ hrun

/-- Refutes O57: the LOOP_SET_MODE clause leaves a running lane nothing changed but its loop slots, where the lane also stages the
command's CONFIG_CHANGE record (19 R472). The counterexample sets slot 3, accepted, to OFF with lane A active. (The
LOOP_SET_POINT clause leaves the record out in the same way.) -/
theorem not_loopAndModelCommands : ¬ Obligations.LoopAndModelCommands := by
  unfold Obligations.LoopAndModelCommands
  intro ⟨_, hmode, _⟩
  let p : Packet := { sq := 2, tag := 9, opcode := 0, flags := 0, block := le16 1 ++ le16 12 ++ le8 3 ++ le8 0 ++ le16 0 ++ le32 0 }
  let s : State := { laneA := { run := .active }, laneCtl := { redundancy := .simplexOn .A }, mode := { lifeCycle := .operational },
                     cfg := { loops := [(3, { accepted := true })] } }
  have hp : s.accepts p := ⟨List.forall_mem_nil _, List.forall_mem_nil _, by decide, by decide⟩
  have hs : s.serves := by unfold State.serves; decide
  have hoff : u8At p.block 5 = 0 := by decide
  have hm : u8At p.block 5 ≤ 2 := hoff ▸ Nat.zero_le 2
  have hr : u8At p.block 5 = 2 → (Tab.get {} s.cfg.loops (u8At p.block 4)).rackIn s.cfg .commission = false := by rw [hoff]; nofun
  have hb : p.blockOk 12 [] = true := by decide
  have hf : u16At p.block 6 = 0 := by decide
  have ha : (Tab.get {} s.cfg.loops (u8At p.block 4)).accepted = true := by decide
  obtain ⟨t, ht, hne⟩ := exec_loopSetMode_staging_ne hp hs hb hm hf ha hr (l := .A) rfl
  obtain ⟨t', ht', -, -, -, hlane⟩ := hmode p s _ _ hp hs hb rfl hm hf ha hr rfl
  obtain rfl : t = t' := Host.Outcome.next.inj (ht.symm.trans ht')
  obtain ⟨hframe, -⟩ := hlane .A rfl
  exact hne (congrArg Lane.staging hframe :)

end Sys2Proof.Machine
end

section
/-! SUPPORT. The thermal runtime's own rows: sensor marks, hour windows, table digests and capacity samples (04 R94, R97, R103, R111, R112). -/

namespace Sys2Proof.Machine

/-! ## Records of the running lanes -/

theorem State.anyLane_of_running {s : State} {l : LaneId} (h : (s.lane l).isRunning = true) : s.anyLane = true := by
  cases l <;> simp only [State.lane] at h <;> simp [State.anyLane, h]

/-- A lane record changes a running lane's staging queue and no other part of it. -/
theorem State.logLanes_lane (s : State) (c y : Nat) (u : U32) (d : List U32) (o : Option Nat) (l : LaneId) :
    (s.logLanes c y u d o).lane l = { s.lane l with staging := ((s.logLanes c y u d o).lane l).staging } := by
  rw [State.logLanes_eq]
  cases l <;> simp only [State.lane] <;> split <;> rfl

theorem State.logLanes_frame (s : State) (c y : Nat) (u : U32) (d : List U32) (o : Option Nat) :
    s.logLanes c y u d o = { s with laneA := (s.logLanes c y u d o).laneA, laneB := (s.logLanes c y u d o).laneB } := by
  rw [State.logLanes_eq]

/-! ## A chip's record marked in the running lanes (04 R103) -/

/-- In lane `l`, where it runs and `m` gives chip `c` a new record: the record is taken and the mark logged. -/
def State.remark (s : State) (c cls ty : Nat) (m : ChipTh → Option ChipTh) (l : LaneId) : State :=
  match if (s.lane l).isRunning then m (Tab.get {} (s.lane l).model.chips c) else none with
  | none => s
  | some p =>
    (s.onLane l fun x => { x with model := { x.model with chips := Tab.set {} x.model.chips c p } }).logIn l cls ty (w32 c) []

/-- The mark in both lanes, each by its own record of the chip. -/
def State.remarkLanes (s : State) (c cls ty : Nat) (m : ChipTh → Option ChipTh) : State :=
  (s.remark c cls ty m .A).remark c cls ty m .B

section
variable {s : State} {c cls ty : Nat} {m : ChipTh → Option ChipTh}

theorem State.remark_eq_setLane (l : LaneId) : ∃ x, s.remark c cls ty m l = s.setLane l x := by
  unfold State.remark
  split
  · exact ⟨s.lane l, by cases l <;> rfl⟩
  · cases l <;> exact ⟨_, rfl⟩

theorem State.remark_lane_other (l : LaneId) : (s.remark c cls ty m l).lane l.other = s.lane l.other := by
  obtain ⟨x, hx⟩ := s.remark_eq_setLane (c := c) (cls := cls) (ty := ty) (m := m) l
  rw [hx, State.lane_setLane_other]

theorem State.remark_model {l : LaneId} {p : ChipTh} (hl : (s.lane l).isRunning = true)
    (hp : m (Tab.get {} (s.lane l).model.chips c) = some p) :
    ((s.remark c cls ty m l).lane l).model = { (s.lane l).model with chips := Tab.set {} (s.lane l).model.chips c p } := by
  unfold State.remark
  rw [if_pos hl, hp]
  cases l <;> rfl

theorem State.remarkLanes_frame :
    s.remarkLanes c cls ty m =
      { s with laneA := (s.remarkLanes c cls ty m).laneA, laneB := (s.remarkLanes c cls ty m).laneB } := by
  obtain ⟨x, hx⟩ := s.remark_eq_setLane (c := c) (cls := cls) (ty := ty) (m := m) .A
  obtain ⟨y, hy⟩ := (s.setLane .A x).remark_eq_setLane (c := c) (cls := cls) (ty := ty) (m := m) .B
  rw [State.remarkLanes, hx, hy]
  rfl

/-- Lane B's mark reads lane B, which lane A's mark leaves as it is; and it leaves lane A's mark as it is. -/
theorem State.remarkLanes_model {l : LaneId} {p : ChipTh} (hl : (s.lane l).isRunning = true)
    (hp : m (Tab.get {} (s.lane l).model.chips c) = some p) :
    ((s.remarkLanes c cls ty m).lane l).model = { (s.lane l).model with chips := Tab.set {} (s.lane l).model.chips c p } := by
  cases l with
  | A =>
    have hB : (s.remarkLanes c cls ty m).lane .A = (s.remark c cls ty m .A).lane .A := State.remark_lane_other .B
    rw [hB, State.remark_model hl hp]
  | B =>
    have hA : (s.remark c cls ty m .A).lane .B = s.lane .B := State.remark_lane_other .A
    rw [State.remarkLanes, State.remark_model (by rwa [hA]) (by rwa [hA]), hA]

/-- A running lane whose record of chip `c` is marked: that record is replaced, every other chip's is kept. -/
theorem State.remarkLanes_chips {l : LaneId} {p : ChipTh} (hl : (s.lane l).isRunning = true)
    (hp : m (Tab.get {} (s.lane l).model.chips c) = some p) :
    Tab.get {} ((s.remarkLanes c cls ty m).lane l).model.chips c = p ∧
    ∀ i, i ≠ c → Tab.get {} ((s.remarkLanes c cls ty m).lane l).model.chips i = Tab.get {} (s.lane l).model.chips i := by
  rw [State.remarkLanes_model hl hp]
  exact ⟨Tab.get_set_same _ _ _ _, fun i hi => Tab.get_set_other _ _ _ hi⟩

/-- Lane B's mark by what the state holds after lane A's, where that is what it held before. -/
theorem State.remark_remark_eq {m : State → ChipTh → Option ChipTh} (hm : ∀ x, m (s.setLane .A x) = m s) :
    (s.remark c cls ty (m s) .A).remark c cls ty (m (s.remark c cls ty (m s) .A)) .B = s.remarkLanes c cls ty (m s) := by
  obtain ⟨x, hx⟩ := s.remark_eq_setLane (c := c) (cls := cls) (ty := ty) (m := m s) .A
  rw [State.remarkLanes, hx, hm]

end

/-- The suspect mark due to a chip's record: the sensor farther from the estimate. -/
def State.suspectMark (s : State) (c : Nat) (p : ChipTh) : Option ChipTh :=
  if !p.present || p.disagreeRun < s.cfg.thermal.disagreeTicks || p.suspectA || p.suspectB then none
  else (p.farther s.now (chipIn s.image s.tick.frame.bytes s.tick.frame c)).map fun a => { p with suspectA := a, suspectB := !a }

/-- The clear due to a chip's record. -/
def State.clearMark (s : State) (p : ChipTh) : Option ChipTh :=
  if !(p.suspectA || p.suspectB) || p.agreeRun < s.cfg.thermal.disagreeTicks then none
  else some { p with suspectA := false, suspectB := false }

theorem exec_sensorSuspect_eq (chip : Fin 4096) (s : State) :
    exec (.sensorSuspect chip) s = .next (s.remarkLanes chip.val Cls.warning 0x0305 (s.suspectMark chip.val)) := by
  show execSensorSuspect chip s = _
  unfold execSensorSuspect
  extract_lets c one
  have hone (u : State) (l : LaneId) : one u l = u.remark c Cls.warning 0x0305 (u.suspectMark c) l := by
    unfold one State.remark State.suspectMark
    cases hr : (u.lane l).isRunning
    · simp
    · simp only [Bool.not_true, Bool.false_or, if_true]
      split
      · rfl
      · cases ChipTh.farther _ _ _ <;> rfl
  rw [hone, hone, State.remark_remark_eq (m := (·.suspectMark c)) fun _ => rfl]

theorem exec_sensorClear_eq (chip : Fin 4096) (s : State) :
    exec (.sensorClear chip) s = .next (s.remarkLanes chip.val Cls.notice 0x0306 s.clearMark) := by
  show execSensorClear chip s = _
  unfold execSensorClear
  extract_lets c one
  have hone (u : State) (l : LaneId) : one u l = u.remark c Cls.notice 0x0306 u.clearMark l := by
    unfold one State.remark State.clearMark
    cases hr : (u.lane l).isRunning
    · simp
    · simp only [Bool.not_true, Bool.false_or, if_true]
      split <;> rfl
  rw [hone, hone, State.remark_remark_eq (m := State.clearMark) fun _ => rfl]

/-! ## Hour windows and digests (04 R94, R97, R111) -/

/-- A new hour window: no anchors yet, and the present epoch as its start. -/
def Lane.windowOpened (x : Lane) (now : Nat) : Lane := { x with model := { x.model with anchors := [], windowStart := now } }

theorem exec_hourWindowStart_due {l : LaneId} {s : State} (hl : (s.lane l).isRunning = true) (hi : s.img.activeSlot.isSome = true)
    (hw : s.main.model.windowStart + 36000000 ≤ s.now) :
    exec .hourWindowStart s = .next (s.onLanes (·.windowOpened s.now)).checkpointRain := by
  show execHourWindowStart s = _
  unfold execHourWindowStart
  have himg : s.img.activeSlot.isNone = false := by rwa [Option.isNone_eq_false_iff]
  have hnow : ¬ s.now < s.main.model.windowStart + 36000000 := Nat.not_lt.mpr hw
  rw [if_neg (by simp [State.anyLane_of_running hl, himg, hnow])]
  rfl

theorem exec_sweepDigest_equal {s : State} (h : Config.tableDigest s.laneA.entry = Config.tableDigest s.laneB.entry) :
    exec .sweepDigest s = .next s := by
  show execSweepDigest s = _
  unfold execSweepDigest
  rw [if_pos (by simp [h])]

/-- A lane whose table's digest differs from the other's. -/
def Lane.divergeCounted (x : Lane) : Lane :=
  { x with model := { x.model with diverge := satTo 32 (x.model.diverge + 1), diverged := true } }

theorem exec_sweepDigest_differ {s : State} (hb : s.bothLanes = true)
    (h : Config.tableDigest s.laneA.entry ≠ Config.tableDigest s.laneB.entry) :
    exec .sweepDigest s = .next ((s.onLanes Lane.divergeCounted).logLanes Cls.notice 0x030A none32 []) := by
  show execSweepDigest s = _
  unfold execSweepDigest
  rw [if_neg (by simp [hb, h])]
  rfl

theorem State.lane_running_of_bothLanes {s : State} (h : s.bothLanes = true) (l : LaneId) : (s.lane l).isRunning = true := by
  obtain ⟨ha, hb⟩ := Bool.and_eq_true_iff.mp h
  cases l
  · exact ha
  · exact hb

/-! ## Capacity samples (04 R112, R113) -/

/-- A lane stripped to its run state and its count of hours, which a unit's sample keeps. -/
def Lane.hoursOnly (x : Lane) : Lane := { run := x.run, model := { capacityHours := x.model.capacityHours } }

/-- What a unit's sample keeps: all but the configuration, its store and the rest of each lane. -/
def State.unsampled (s : State) : State := { s with laneA := s.laneA.hoursOnly, laneB := s.laneB.hoursOnly, cfg := {}, nor := {} }

theorem State.onLanes_unsampled (s : State) {f : Lane → Lane} (hf : ∀ x, (f x).hoursOnly = x.hoursOnly) :
    (s.onLanes f).unsampled = s.unsampled := by
  have hlane (x : Lane) : (if x.isRunning then f x else x).hoursOnly = x.hoursOnly := by split <;> simp only [hf]
  simp only [State.unsampled, State.onLanes, hlane]

theorem State.logLanes_unsampled (s : State) (c y : Nat) (u : U32) (d : List U32) (o : Option Nat) :
    (s.logLanes c y u d o).unsampled = s.unsampled := by
  have hlane (l : LaneId) : ((s.logLanes c y u d o).lane l).hoursOnly = (s.lane l).hoursOnly := by rw [State.logLanes_lane]; rfl
  have hA : (s.logLanes c y u d o).laneA.hoursOnly = s.laneA.hoursOnly := hlane .A
  have hB : (s.logLanes c y u d o).laneB.hoursOnly = s.laneB.hoursOnly := hlane .B
  rw [State.unsampled, hA, hB, State.logLanes_frame]
  rfl

theorem State.sampleUnit_unsampled (s : State) (u : Nat) : (s.sampleUnit u).unsampled = s.unsampled := by
  unfold State.sampleUnit
  extract_lets x c g
  split
  next c' base warn hsample =>
  extract_lets s1 s2
  have h1 : s1.unsampled = s.unsampled := s.onLanes_unsampled fun _ => rfl
  have h2 : s2.unsampled = s1.unsampled := by unfold s2; split <;> rfl
  split
  · rw [State.logLanes_unsampled, h2, h1]
  · rw [h2, h1]

/-- Every enabled rack and the heat exchanger sampled. -/
def State.unitsSampled (s : State) : State := ((List.range 16).filter s.rackOn ++ [16]).foldl State.sampleUnit s

/-- The hour counted, its window noted as sampled. -/
def Lane.hourCounted (x : Lane) : Lane :=
  { x with model := { x.model with capacityHours := x.model.capacityHours + 1, sampledWindow := some x.model.windowStart } }

/-- What CAPACITY_SAMPLE does in a window not yet sampled: the units sampled, then the hour counted. -/
def State.capacitySampled (s : State) : State :=
  { s.unitsSampled.onLanes Lane.hourCounted with fresh := s.unitsSampled.fresh + 1 }

theorem State.unitsSampled_unsampled (s : State) : s.unitsSampled.unsampled = s.unsampled :=
  foldl_keeps State.unsampled State.sampleUnit_unsampled _ s

theorem State.unitsSampled_hoursOnly (s : State) (l : LaneId) : (s.unitsSampled.lane l).hoursOnly = (s.lane l).hoursOnly := by
  cases l
  · exact congrArg State.laneA s.unitsSampled_unsampled
  · exact congrArg State.laneB s.unitsSampled_unsampled

theorem State.capacitySampled_lane (s : State) (l : LaneId) :
    s.capacitySampled.lane l = if (s.unitsSampled.lane l).isRunning then (s.unitsSampled.lane l).hourCounted else s.unitsSampled.lane l :=
  (State.lane_congr rfl rfl l).trans (State.lane_onLanes s.unitsSampled Lane.hourCounted l)

theorem State.capacitySampled_capacityHours {s : State} {l : LaneId} (hl : (s.lane l).isRunning = true) :
    (s.capacitySampled.lane l).model.capacityHours = (s.lane l).model.capacityHours + 1 := by
  have hrun : (s.unitsSampled.lane l).isRunning = true := (congrArg Lane.isRunning (s.unitsSampled_hoursOnly l) :).trans hl
  have hhours : (s.unitsSampled.lane l).model.capacityHours = (s.lane l).model.capacityHours :=
    (congrArg (fun x : Lane => x.model.capacityHours) (s.unitsSampled_hoursOnly l) :)
  rw [State.capacitySampled_lane, if_pos hrun, ← hhours]
  rfl

theorem State.capacitySampled_frame (s : State) :
    s.capacitySampled =
      { s with laneA := s.capacitySampled.laneA, laneB := s.capacitySampled.laneB, cfg := s.capacitySampled.cfg
               nor := s.capacitySampled.nor, fresh := s.capacitySampled.fresh } :=
  congrArg (fun u : State =>
      { u with laneA := s.capacitySampled.laneA, laneB := s.capacitySampled.laneB, cfg := s.capacitySampled.cfg
               nor := s.capacitySampled.nor, fresh := s.capacitySampled.fresh })
    s.unitsSampled_unsampled

theorem exec_capacitySample_due {l : LaneId} {s : State} (hl : (s.lane l).isRunning = true) (hi : s.img.activeSlot.isSome = true)
    (hw : s.main.model.sampledWindow ≠ some s.main.model.windowStart) : exec .capacitySample s = .next s.capacitySampled := by
  show execCapacitySample s = _
  unfold execCapacitySample
  have himg : s.img.activeSlot.isNone = false := by rwa [Option.isNone_eq_false_iff]
  rw [if_neg (by simp [State.anyLane_of_running hl, himg, hw])]
  rfl

/-! ## O44 -/

theorem hourWindow_opens {l : LaneId} {s : State} (hl : (s.lane l).isRunning = true) (hi : s.img.activeSlot.isSome = true)
    (hw : s.main.model.windowStart + 36000000 ≤ s.now) :
    ∃ t, exec .hourWindowStart s = .next t ∧ (t.lane l).model = { (s.lane l).model with anchors := [], windowStart := s.now } ∧
      t.cfg.rainTime = some s.tick.t0Time ∧ t.nor.alternate.rainTime = some s.tick.t0Time ∧ t.cfg.rain = t.nor.alternate.rain ∧
      t = { s with laneA := t.laneA, laneB := t.laneB, cfg := t.cfg, nor := t.nor } := by
  refine ⟨_, exec_hourWindowStart_due hl hi hw, ?_, rfl, rfl, rfl, rfl⟩
  have hlane : (s.onLanes (·.windowOpened s.now)).checkpointRain.lane l = (s.onLanes (·.windowOpened s.now)).lane l :=
    State.lane_congr rfl rfl l
  rw [hlane, State.lane_onLanes, if_pos hl]
  rfl

theorem sweepDigest_counts {s : State} (hb : s.bothLanes = true)
    (hd : Config.tableDigest s.laneA.entry ≠ Config.tableDigest s.laneB.entry) :
    ∃ t, exec .sweepDigest s = .next t ∧
      (∀ l, (t.lane l).model = { (s.lane l).model with diverge := satTo 32 ((s.lane l).model.diverge + 1), diverged := true }) ∧
      t = { s with laneA := t.laneA, laneB := t.laneB } := by
  refine ⟨_, exec_sweepDigest_differ hb hd, fun l => ?_, State.logLanes_frame _ _ _ _ _ _⟩
  rw [State.logLanes_lane, State.lane_onLanes, if_pos (State.lane_running_of_bothLanes hb l)]
  rfl

theorem sensorSuspect_marks {chip : Fin 4096} {l : LaneId} {s : State} {p : ChipTh} {b : Bool} (hl : (s.lane l).isRunning = true)
    (hp : p = Tab.get {} (s.lane l).model.chips chip.val) (hpres : p.present = true)
    (hrun : s.cfg.thermal.disagreeTicks ≤ p.disagreeRun) (ha : p.suspectA = false) (hb : p.suspectB = false)
    (hfar : p.farther s.now (chipIn s.image s.tick.frame.bytes s.tick.frame chip.val) = some b) :
    ∃ t, exec (.sensorSuspect chip) s = .next t ∧
      Tab.get {} (t.lane l).model.chips chip.val = { p with suspectA := b, suspectB := !b } ∧
      (∀ c, c ≠ chip.val → Tab.get {} (t.lane l).model.chips c = Tab.get {} (s.lane l).model.chips c) ∧
      t = { s with laneA := t.laneA, laneB := t.laneB } := by
  have hmark : s.suspectMark chip.val (Tab.get {} (s.lane l).model.chips chip.val) = some { p with suspectA := b, suspectB := !b } := by
    rw [← hp, State.suspectMark, if_neg (by simp [hpres, ha, hb, hrun]), hfar]
    rfl
  obtain ⟨hsame, hother⟩ := State.remarkLanes_chips (cls := Cls.warning) (ty := 0x0305) hl hmark
  exact ⟨_, exec_sensorSuspect_eq chip s, hsame, hother, State.remarkLanes_frame⟩

theorem sensorClear_clears {chip : Fin 4096} {l : LaneId} {s : State} {p : ChipTh} (hl : (s.lane l).isRunning = true)
    (hp : p = Tab.get {} (s.lane l).model.chips chip.val) (hs : p.suspectA = true ∨ p.suspectB = true)
    (hrun : s.cfg.thermal.disagreeTicks ≤ p.agreeRun) :
    ∃ t, exec (.sensorClear chip) s = .next t ∧
      Tab.get {} (t.lane l).model.chips chip.val = { p with suspectA := false, suspectB := false } ∧
      (∀ c, c ≠ chip.val → Tab.get {} (t.lane l).model.chips c = Tab.get {} (s.lane l).model.chips c) ∧
      t = { s with laneA := t.laneA, laneB := t.laneB } := by
  have hmark : s.clearMark (Tab.get {} (s.lane l).model.chips chip.val) = some { p with suspectA := false, suspectB := false } := by
    rw [← hp, State.clearMark, if_neg (by simp [Bool.or_eq_true_iff.mpr hs, hrun])]
  obtain ⟨hsame, hother⟩ := State.remarkLanes_chips (cls := Cls.notice) (ty := 0x0306) hl hmark
  exact ⟨_, exec_sensorClear_eq chip s, hsame, hother, State.remarkLanes_frame⟩

/-- Settles O44, clause by clause: each row is one step of the runtime in the running lanes. -/
theorem modelRuntimeEvents : Obligations.ModelRuntimeEvents := by
  unfold Obligations.ModelRuntimeEvents
  refine ⟨fun _ _ => hourWindow_opens, fun _ => sweepDigest_counts, fun _ => exec_sweepDigest_equal, ?_, ?_, ?_⟩
  · exact fun _ _ _ _ _ => sensorSuspect_marks
  · exact fun _ _ _ _ => sensorClear_clears
  · exact fun _ s hl hi hw =>
      ⟨_, exec_capacitySample_due hl hi hw, State.capacitySampled_capacityHours hl, s.capacitySampled_frame⟩

end Sys2Proof.Machine
end

section
/-! SUPPORT. The tile array outside its instructions: blocks, messages, credits, DMA, rows and the output collector (05 R126 to R140). -/

namespace Sys2Proof

theorem Mem.length_readBytes (m : Mem) (a n : Nat) : (m.readBytes a n).length = n := by
  induction n generalizing a with
  | zero => rfl
  | succ n ih => exact congrArg (· + 1) (ih (a + 1))

namespace Machine

/-! ## The array of one lane -/

@[simp] theorem State.onArray_lane (s : State) (l : LaneId) (f : ArraySt → ArraySt) :
    (s.onArray l f).lane l = { s.lane l with array := f (s.lane l).array } := State.lane_onLane_same s l _

/-- Nothing but the lane's array changes. -/
theorem State.onArray_frame (s : State) (l : LaneId) (f : ArraySt → ArraySt) :
    s.onArray l f = s.setLane l { s.lane l with array := ((s.onArray l f).lane l).array } := by
  rw [State.onArray_lane]
  rfl

@[simp] theorem ArraySt.tile_setTile_same (a : ArraySt) (t : Nat) (x : Tile) : (a.setTile t x).tile t = x :=
  Tab.get_set_same ({} : Tile) x a.tiles t

@[simp] theorem ArraySt.tile_onTile_same (a : ArraySt) (t : Nat) (f : Tile → Tile) : (a.onTile t f).tile t = f (a.tile t) :=
  a.tile_setTile_same t _

@[simp] theorem ArraySt.read_setTile (a : ArraySt) (t u addr n : Nat) (x : Tile) : (a.setTile t x).read u addr n = a.read u addr n := rfl

theorem ArraySt.read_write_same (a : ArraySt) (t addr : Nat) (bs : List Byte) : (a.write t addr bs).read t addr bs.length = bs :=
  Mem.readBytes_writeBytes bs a.memory (tileBase t + addr)

/-- What is oldest and wanted is taken. -/
theorem takeFirst_cons {α : Type} {f : α → Bool} {x : α} {xs : List α} (h : f x = true) : takeFirst f (x :: xs) = some (x, xs) :=
  if_pos h

/-! ## Blocks (05 R129) -/

/-- What firing block `b` does to the array: its entry is fetched, or refused below 0x100. -/
def ArraySt.fireBlock (a : ArraySt) (t : Nat) (b : Block) : ArraySt :=
  if b.entry < 0x100 then a.setTile t { a.tile t with seq := .fault TileFault.entry }
  else (a.setTile t { a.tile t with seq := .run, pc := b.entry }).fetch t

theorem exec_tileBlockFire_ready {l : LaneId} {t : Fin 1024} {s : State} {b : Block} (hl : (s.lane l).isRunning = true)
    (hrow : (s.lane l).array.row (t.val / 32) = .running) (hact : ((s.lane l).array.tile t.val).active = true)
    (hidle : ((s.lane l).array.tile t.val).seq = .idle)
    (hb : ((s.lane l).array.tile t.val).blocks.find? ((s.lane l).array.tile t.val).blockReady = some b) :
    exec (.tileBlockFire l t) s = .next (s.onArray l fun a => a.fireBlock t.val b) := by
  show execTileBlockFire l t s = _
  unfold execTileBlockFire
  dsimp only
  rw [if_neg (by simp [hl, hrow, hact, hidle]), hb]
  rfl

theorem tileBlockFire_fires {l : LaneId} {t : Fin 1024} {s : State} {x : Tile} {b : Block} (hx : x = (s.lane l).array.tile t.val)
    (hl : (s.lane l).isRunning = true) (hrow : (s.lane l).array.row (t.val / 32) = .running) (hact : x.active = true)
    (hidle : x.seq = .idle) (hb : x.blocks.find? x.blockReady = some b) :
    (0x100 ≤ b.entry → ∃ s', exec (.tileBlockFire l t) s = .next s' ∧
      TileRetires l t.val s s' (s.lane l).array { x with seq := .run, pc := b.entry }) ∧
    (b.entry < 0x100 → ∃ s', exec (.tileBlockFire l t) s = .next s' ∧ TileFaults l t.val s s' 9) := by
  subst hx
  have hexec := exec_tileBlockFire_ready hl hrow hact hidle hb
  refine ⟨fun he => ⟨_, hexec, ?_⟩, fun he => ⟨_, hexec, ?_⟩⟩
  · simp only [ArraySt.fireBlock, if_neg (Nat.not_lt.mpr he)]
    rfl
  · simp only [ArraySt.fireBlock, if_pos he]
    rfl

/-! ## Messages (05 R126, R139, R140) -/

/-- A message that lands gives its channel a token. -/
theorem ArraySt.land_channel (a : ArraySt) (t : Nat) (m : Message) :
    Tab.get {} ((a.land t m).tile t).channels m.channel =
      { Tab.get ({} : Channel) (a.tile t).channels m.channel with
        tokens := (Tab.get ({} : Channel) (a.tile t).channels m.channel).tokens + 1 } := by
  simp [ArraySt.land]

/-- A message that lands fills the next free slot of its channel. -/
theorem ArraySt.land_read {a : ArraySt} {t : Nat} {m : Message} {c : Channel}
    (hc : c = Tab.get {} (a.tile t).channels m.channel) (hn : 0 < c.slotCount) :
    (a.land t m).read t (c.base + (c.head + c.tokens) % c.slotCount * c.slotSize) m.payload.length = m.payload := by
  subst hc
  simp only [ArraySt.land, if_neg (Nat.ne_of_gt hn), ArraySt.read_setTile, ArraySt.read_write_same]

section
variable {l : LaneId} {t : Fin 1024} {s : State} {m : Message} {rest : List Message} (hl : (s.lane l).isRunning = true)
  (hd : m.dest = .tile t.val) (hf : (s.lane l).array.flight = m :: rest)
include hl hd hf

theorem exec_messageArrival_running (hrow : (s.lane l).array.row (t.val / 32) = .running) :
    exec (.messageArrival l t) s = .next (s.onArray l fun a => { a with flight := rest }.land t.val m) := by
  show execMessageArrival l t s = _
  unfold execMessageArrival
  dsimp only
  rw [if_neg (by simp [hl]), hf, takeFirst_cons (by simpa using hd)]
  simp only [State.onArray, State.onLane, hrow]

theorem exec_messageArrival_lazy (hrow : (s.lane l).array.row (t.val / 32) = .gated)
    (hp : (s.lane l).array.policy (t.val / 32) = 1) :
    exec (.messageArrival l t) s = .next (s.onArray l fun a => a.setRow (t.val / 32) .waking) := by
  show execMessageArrival l t s = _
  unfold execMessageArrival
  dsimp only
  rw [if_neg (by simp [hl]), hf, takeFirst_cons (by simpa using hd)]
  simp only [State.onArray, State.onLane, hrow, if_pos hp]

theorem messageArrival_lands {c : Channel} (hc : c = Tab.get {} ((s.lane l).array.tile t.val).channels m.channel)
    (hrow : (s.lane l).array.row (t.val / 32) = .running) (hn : 0 < c.slotCount) :
    ∃ s', exec (.messageArrival l t) s = .next s' ∧ s' = s.setLane l { s.lane l with array := (s'.lane l).array } ∧
      (s'.lane l).array.flight = rest ∧
      Tab.get {} ((s'.lane l).array.tile t.val).channels m.channel = { c with tokens := c.tokens + 1 } ∧
      (s'.lane l).array.read t.val (c.base + (c.head + c.tokens) % c.slotCount * c.slotSize) m.payload.length = m.payload := by
  refine ⟨_, exec_messageArrival_running hl hd hf hrow, s.onArray_frame l _, ?_, ?_, ?_⟩ <;> rw [State.onArray_lane]
  · rfl
  · rw [ArraySt.land_channel, hc]
    rfl
  · exact ArraySt.land_read hc hn

end

/-! ## Credits and DMA (05 R126, R132) -/

/-- A credit that comes back to route `r` of tile `t`. -/
def ArraySt.creditBack (a : ArraySt) (t r : Nat) : ArraySt :=
  a.onTile t fun y => { y with routes := Tab.modify ({} : Route) y.routes r fun q => { q with credits := q.credits + 1 } }

theorem ArraySt.creditBack_credits (a : ArraySt) (t r : Nat) :
    (Tab.get ({} : Route) ((a.creditBack t r).tile t).routes r).credits = (Tab.get ({} : Route) (a.tile t).routes r).credits + 1 := by
  simp [ArraySt.creditBack]

theorem exec_creditArrival_due {l : LaneId} {t : Fin 1024} {r : Fin 16} {s : State} {rest : List (Nat × Nat)}
    (hc : (s.lane l).array.creditsDue = (t.val, r.val) :: rest) :
    exec (.creditArrival l t r) s = .next (s.onArray l fun a => { a with creditsDue := rest }.creditBack t.val r.val) := by
  show execCreditArrival l t r s = _
  unfold execCreditArrival
  dsimp only
  rw [hc, takeFirst_cons (by simp)]
  rfl

theorem creditArrival_returns {l : LaneId} {t : Fin 1024} {r : Fin 16} {s : State} {rest : List (Nat × Nat)}
    (hc : (s.lane l).array.creditsDue = (t.val, r.val) :: rest) :
    ∃ s', exec (.creditArrival l t r) s = .next s' ∧ s' = s.setLane l { s.lane l with array := (s'.lane l).array } ∧
      (s'.lane l).array.creditsDue = rest ∧
      (Tab.get ({} : Route) ((s'.lane l).array.tile t.val).routes r.val).credits =
        (Tab.get ({} : Route) ((s.lane l).array.tile t.val).routes r.val).credits + 1 := by
  refine ⟨_, exec_creditArrival_due hc, s.onArray_frame l _, ?_, ?_⟩ <;> rw [State.onArray_lane]
  · rfl
  · exact ArraySt.creditBack_credits _ _ _

theorem ArraySt.moveDma_tile (a : ArraySt) (t u : Nat) (d : DmaDesc) : (a.moveDma t d).tile u = a.tile u := by
  unfold ArraySt.moveDma
  split <;> rfl

/-- A descriptor that reads the segment: its bytes stand in the tile's SRAM. -/
theorem ArraySt.moveDma_in (a : ArraySt) (t : Nat) {d : DmaDesc} (h : d.toSegment = false) :
    (a.moveDma t d).read t d.sram d.length = a.segment.readBytes d.offset d.length ∧ (a.moveDma t d).segment = a.segment := by
  have hread := a.read_write_same t d.sram (a.segment.readBytes d.offset d.length)
  rw [Mem.length_readBytes] at hread
  rw [ArraySt.moveDma, if_neg (by simp [h])]
  exact ⟨hread, rfl⟩

/-- A descriptor that writes the segment: the tile's bytes stand there. -/
theorem ArraySt.moveDma_out (a : ArraySt) (t : Nat) {d : DmaDesc} (h : d.toSegment = true) :
    (a.moveDma t d).segment.readBytes d.offset d.length = a.read t d.sram d.length ∧ (a.moveDma t d).memory = a.memory := by
  have hread := Mem.readBytes_writeBytes (a.read t d.sram d.length) a.segment d.offset
  rw [show (a.read t d.sram d.length).length = d.length from Mem.length_readBytes _ _ _] at hread
  rw [ArraySt.moveDma, if_pos h]
  exact ⟨hread, rfl⟩

/-- The first descriptor gone from a tile's queue, its channel given a token. -/
def Tile.dmaDone (y : Tile) (d : DmaDesc) (rest : List DmaDesc) : Tile :=
  { y with
    dmaq := rest
    channels := Tab.modify ({} : Channel) y.channels d.channel fun c => { c with tokens := c.tokens + 1 } }

theorem Tile.dmaDone_tokens (y : Tile) (d : DmaDesc) (rest : List DmaDesc) :
    (Tab.get ({} : Channel) (y.dmaDone d rest).channels d.channel).tokens = (Tab.get ({} : Channel) y.channels d.channel).tokens + 1 := by
  simp [Tile.dmaDone]

theorem exec_dmaCompletion_first {l : LaneId} {t : Fin 1024} {s : State} {d : DmaDesc} {rest : List DmaDesc}
    (hq : ((s.lane l).array.tile t.val).dmaq = d :: rest) :
    exec (.dmaCompletion l t) s = .next (s.onArray l fun a => (a.moveDma t.val d).onTile t.val (·.dmaDone d rest)) := by
  show execDmaCompletion l t s = _
  unfold execDmaCompletion
  dsimp only
  rw [hq]
  rfl

theorem dmaCompletion_completes {l : LaneId} {t : Fin 1024} {s : State} {d : DmaDesc} {rest : List DmaDesc}
    (hq : ((s.lane l).array.tile t.val).dmaq = d :: rest) :
    ∃ s', exec (.dmaCompletion l t) s = .next s' ∧ s' = s.setLane l { s.lane l with array := (s'.lane l).array } ∧
      ((s'.lane l).array.tile t.val).dmaq = rest ∧
      (Tab.get ({} : Channel) ((s'.lane l).array.tile t.val).channels d.channel).tokens =
        (Tab.get ({} : Channel) ((s.lane l).array.tile t.val).channels d.channel).tokens + 1 ∧
      (d.toSegment = false → (s'.lane l).array.read t.val d.sram d.length = (s.lane l).array.segment.readBytes d.offset d.length ∧
        (s'.lane l).array.segment = (s.lane l).array.segment) ∧
      (d.toSegment = true → (s'.lane l).array.segment.readBytes d.offset d.length = (s.lane l).array.read t.val d.sram d.length ∧
        (s'.lane l).array.memory = (s.lane l).array.memory) := by
  refine ⟨_, exec_dmaCompletion_first hq, s.onArray_frame l _, ?_, ?_, ?_, ?_⟩ <;> rw [State.onArray_lane]
  · rw [ArraySt.tile_onTile_same]
    rfl
  · rw [ArraySt.tile_onTile_same, Tile.dmaDone_tokens, ArraySt.moveDma_tile]
  · exact ArraySt.moveDma_in _ _
  · exact ArraySt.moveDma_out _ _

/-! ## Rows (01 R23, 05 R139) -/

theorem exec_rowWakeComplete_waking {l : LaneId} {y : Fin 32} {s : State} (h : (s.lane l).array.row y.val = .waking) :
    exec (.rowWakeComplete l y) s = .next (s.onArray l fun a => a.setRow y.val .running) := by
  show execRowWakeComplete l y s = _
  unfold execRowWakeComplete
  rw [if_pos h]

/-! ## The output collector (05 R136) -/

/-- Bytes written into a tensor stand there. -/
theorem Tensor.get_write (x : Tensor) (off : Nat) (bs : List Byte) {i : Nat} (h : i < bs.length) :
    Tab.get none (x.write off bs).bytes (off + i) = bs[i]? := by
  induction bs using List.reverseRecOn with
  | nil => exact absurd h (Nat.not_lt_zero i)
  | append_singleton bs b ih =>
    have hlast : (x.write off (bs ++ [b])).bytes = Tab.set none (x.write off bs).bytes (off + bs.length) (some b) := by
      simp [Tensor.write, List.range_succ, List.zip_append]
    rw [hlast]
    by_cases hi : i = bs.length
    · subst hi
      simp
    · have hlt : i < bs.length := by
        rw [List.length_append, List.length_singleton] at h
        omega
      rw [Tab.get_set_other none _ _ (by omega), ih hlt, List.getElem?_append_left hlt]

/-- The binding of the active image whose tensor holds the bytes of message `m`. -/
def State.bindingFor (s : State) (m : Message) : Option OutBinding :=
  (s.image.map (·.outputs)).bind fun o =>
    o.find? fun b => b.index = u16At m.payload 0 && u32At m.payload 4 + (m.payload.drop 8).length ≤ b.size

/-- A message taken whose bytes go into its binding's tensor. -/
def Lane.collected (x : Lane) (m : Message) (rest : List Message) : Lane :=
  { x with
    array := { x.array with flight := rest }
    step := { x.step with
      tensors := Tab.modify {} x.step.tensors (u16At m.payload 0) fun v => v.write (u32At m.payload 4) (m.payload.drop 8) } }

/-- A message taken that no binding wants. -/
def Lane.discarded (x : Lane) (rest : List Message) : Lane :=
  { x with
    array := { x.array with flight := rest }
    model := { x.model with invalidOut := satTo 32 (x.model.invalidOut + 1) } }

/-- The bytes of a collected message stand in the tensor of the binding it names, from its offset up. -/
theorem Lane.collected_tensor (x : Lane) (m : Message) (rest : List Message) {i : Nat} (h : i < m.payload.length - 8) :
    Tab.get none (Tab.get ({} : Tensor) (x.collected m rest).step.tensors (u16At m.payload 0)).bytes (u32At m.payload 4 + i) =
      (m.payload.drop 8)[i]? := by
  rw [Lane.collected, Tab.get_modify_same]
  exact Tensor.get_write _ _ _ (by rwa [List.length_drop])

section
variable {l : LaneId} {y : Fin 32} {s : State} {m : Message} {rest : List Message} (hl : (s.lane l).isRunning = true)
  (hd : m.dest = .edge y.val) (hf : (s.lane l).array.flight = m :: rest)
include hl hd hf

theorem exec_outputCollect_oldest :
    exec (.outputCollect l y) s =
      .next (s.setLane l (if (s.bindingFor m).isSome then (s.lane l).collected m rest else (s.lane l).discarded rest)) := by
  show execOutputCollect l y s = _
  unfold execOutputCollect State.bindingFor
  dsimp only
  rw [if_neg (by simp [hl]), hf, takeFirst_cons (by simpa using hd)]
  dsimp only
  generalize Option.bind _ _ = b
  cases b <;> rfl

theorem outputCollect_discards (hi : s.image = none) :
    ∃ s', exec (.outputCollect l y) s = .next s' ∧ s' = s.setLane l ((s.lane l).discarded rest) := by
  have hb : s.bindingFor m = none := by rw [State.bindingFor, hi]; rfl
  refine ⟨_, exec_outputCollect_oldest hl hd hf, ?_⟩
  rw [hb]
  rfl

theorem outputCollect_writes {img : Image} {b : OutBinding} (hi : s.image = some img) (ho : img.outputs = [b])
    (hn : b.index = u16At m.payload 0) (hsize : u32At m.payload 4 + (m.payload.length - 8) ≤ b.size) :
    ∃ s', exec (.outputCollect l y) s = .next s' ∧
      s' = s.setLane l { s.lane l with array := (s'.lane l).array, step := (s'.lane l).step } ∧
      (s'.lane l).array.flight = rest ∧
      ∀ i, i < m.payload.length - 8 →
        Tab.get none (Tab.get ({} : Tensor) (s'.lane l).step.tensors (u16At m.payload 0)).bytes (u32At m.payload 4 + i) =
          (m.payload.drop 8)[i]? := by
  have hb : s.bindingFor m = some b := by simp [State.bindingFor, hi, ho, hn, hsize]
  have hexec := exec_outputCollect_oldest hl hd hf
  rw [hb] at hexec
  refine ⟨s.setLane l ((s.lane l).collected m rest), hexec, ?_, ?_, fun i h => ?_⟩ <;> rw [State.lane_setLane_same]
  · rfl
  · rfl
  · exact Lane.collected_tensor _ _ _ h

end

/-! ## O42 -/

/-- Settles O42, clause by clause: each row is one step of the lane's array, of its step or of its model. -/
theorem tileArrayEvents : Obligations.TileArrayEvents := by
  unfold Obligations.TileArrayEvents
  refine ⟨?_, ?_, ?_, ?_, ?_, ?_⟩
  · exact fun _ _ _ _ _ => tileBlockFire_fires
  · exact fun _ _ _ _ _ _ hl hd hf hc =>
      ⟨messageArrival_lands hl hd hf hc, fun hrow hp => ⟨_, exec_messageArrival_lazy hl hd hf hrow hp, rfl⟩⟩
  · exact fun _ _ _ _ _ => creditArrival_returns
  · exact fun _ _ _ _ _ => dmaCompletion_completes
  · exact fun _ _ _ hw => ⟨_, exec_rowWakeComplete_waking hw, rfl⟩
  · rintro l y s m rest _ _ hl hd hf rfl rfl
    exact ⟨outputCollect_discards hl hd hf, fun _ _ => outputCollect_writes hl hd hf⟩

end Machine
end Sys2Proof
end

section
/-! SUPPORT. The tile's sequencer (06 R144, R145, R178): an instruction issued retires, faults or waits; its checks, registers and fields. -/

namespace Sys2Proof.Machine

/-! ## How an instruction ends -/

section
variable {s : State} {l : LaneId} {t op : Nat} {w : BitVec 26} {f : ArraySt → Tile → Except Nat TileEnd} {x : Tile}
  (hr : s.tileRuns l t op w = true) (hx : x = (s.lane l).array.tile t)
include hr hx

theorem State.tileExec_retires {a : ArraySt} {y : Tile} (h : f (s.lane l).array x = .ok (.done a y)) :
    TileRetires l t s (s.tileExec l t op w f) a y := by
  subst hx
  simp only [TileRetires, State.tileExec, hr, Bool.not_true, Bool.false_eq_true, if_false, State.onLane, h]

theorem State.tileExec_faults {code : Nat} (h : f (s.lane l).array x = .error code) :
    TileFaults l t s (s.tileExec l t op w f) code := by
  subst hx
  simp only [TileFaults, State.tileExec, hr, Bool.not_true, Bool.false_eq_true, if_false, State.onLane, h]

theorem State.tileExec_waits (h : f (s.lane l).array x = .ok .wait) : s.tileExec l t op w f = s := by
  subst hx
  simp only [State.tileExec, hr, Bool.not_true, Bool.false_eq_true, if_false, State.onLane, h]
  cases l <;> rfl

end

/-- The fetch of the next word touches only the tile's sequencer. -/
theorem ArraySt.fetch_memory (a : ArraySt) (t : Nat) : (a.fetch t).memory = a.memory := by
  simp only [ArraySt.fetch]
  split
  · split
    · rfl
    · split <;> rfl
  · rfl

/-- An instruction that retires leaves the tile space as the array it ends with has it. -/
theorem TileRetires.memory {l : LaneId} {t : Nat} {s s' : State} {a : ArraySt} {y : Tile} (h : TileRetires l t s s' a y) :
    (s'.lane l).array.memory = a.memory := by
  rw [h, State.lane_setLane_same]
  exact ArraySt.fetch_memory _ _

/-! ## Checks -/

section
variable {α : Type} {c : Bool} {code : Nat} {k : Unit → Except Nat α}

theorem faultIf_ok (h : c = false) : faultIf c code = .ok () := by rw [h]; rfl

theorem faultIf_pass (h : c = false) : (faultIf c code >>= k) = k () := by rw [h]; rfl

theorem faultIf_fail (h : c = true) : (faultIf c code >>= k) = .error code := by rw [h]; rfl

theorem badWord_pass (h : c = false) : (badWord c >>= k) = k () := faultIf_pass h

theorem badWord_fail (h : c = true) : (badWord c >>= k) = .error 1 := faultIf_fail h

/-- An encoding fault follows whether or not the first check finds one. -/
theorem badWord_then_encoding (h : k () = .error 1) : (badWord c >>= k) = .error 1 := by
  cases c
  · exact h
  · rfl

theorem checkAddr_ok {a n : Nat} (ha : a % n = 0) (hn : a + n ≤ 0x2E000) : checkAddr a n = .ok () := by
  rw [checkAddr, faultIf_pass (by simp [ha])]
  exact faultIf_ok (decide_eq_false (Nat.not_lt.mpr hn))

/-- Alignment is looked at first. -/
theorem checkAddr_fault {a n : Nat} (h : a % n ≠ 0 ∨ 0x2E000 < a + n) : checkAddr a n = .error (if a % n ≠ 0 then 4 else 3) := by
  by_cases ha : a % n = 0
  · have hn : 0x2E000 < a + n := h.resolve_left (not_not_intro ha)
    rw [checkAddr, faultIf_pass (by simp [ha]), faultIf, if_pos (by simp [imageTop, hn]), if_neg (not_not_intro ha)]
    rfl
  · rw [checkAddr, faultIf_fail (by simp [ha]), if_pos ha]
    rfl

end

/-! ## Registers (R145) -/

@[simp] theorem Tile.s_zero (x : Tile) : x.s 0 = 0 := rfl

@[simp] theorem Tile.setS_zero (x : Tile) (v : U32) : x.setS 0 v = x := rfl

@[simp] theorem Tile.s_setS_same (x : Tile) {i : Nat} (v : U32) (h : i ≠ 0) : (x.setS i v).s i = v := by
  simp [Tile.s, Tile.setS, h]

@[simp] theorem Tile.s_setS_other (x : Tile) {i j : Nat} (v : U32) (h : j ≠ i) : (x.setS i v).s j = x.s j := by
  unfold Tile.s Tile.setS
  by_cases hi : i = 0
  · rw [if_pos hi]
  · rw [if_neg hi, Tab.get_set_other _ _ _ h]

@[simp] theorem Tile.v_setV_same (x : Tile) (i : Nat) (v : BitVec 512) : (x.setV i v).v i = v := Tab.get_set_same 0 v x.vregs i

@[simp] theorem Tile.v_setV_other (x : Tile) {i j : Nat} (v : BitVec 512) (h : j ≠ i) : (x.setV i v).v j = x.v j :=
  Tab.get_set_other 0 v x.vregs h

@[simp] theorem Tile.acc_setAcc_same (x : Tile) (i : Nat) (v : BitVec 512) : (x.setAcc i v).acc i = v := Tab.get_set_same 0 v x.accs i

@[simp] theorem Tile.acc_setAcc_other (x : Tile) {i j : Nat} (v : BitVec 512) (h : j ≠ i) : (x.setAcc i v).acc j = x.acc j :=
  Tab.get_set_other 0 v x.accs h

/-! ## Fields and values -/

/-- What a table of functions answers at the function a word names. -/
theorem value_at {β : Type} (f : Nat → Option β) {n k : Nat} {v u : β} (hv : f n = some v) (hn : n = k) (hk : f k = some u) : v = u := by
  subst hn
  exact Option.some.inj (hv.symm.trans hk)

theorem sext_eq_toInt (n v : Nat) : sext n v = (BitVec.ofNat n v).toInt := by
  rw [BitVec.toInt_eq_toNat_cond, BitVec.toNat_ofNat, sext]
  cases n with
  | zero => simp [Nat.mod_one]
  | succ n =>
    have hhalf : v % 2 ^ (n + 1) < 2 ^ (n + 1 - 1) ↔ 2 * (v % 2 ^ (n + 1)) < 2 ^ (n + 1) := by
      rw [Nat.add_sub_cancel, Nat.pow_succ]
      omega
    simp only [hhalf]

/-- A signed field as a word is the field sign-extended. -/
theorem ofInt_sext (n v : Nat) : BitVec.ofInt 32 (sext n v) = (BitVec.ofNat n v).signExtend 32 := by
  rw [sext_eq_toInt]
  rfl

theorem flag_decide (p : Prop) [Decidable p] : flag (decide p) = if p then 1 else 0 := by
  simp [flag]

theorem leNat_lt (bs : List Byte) : leNat bs < 256 ^ bs.length := by
  induction bs with
  | nil => exact Nat.one_pos
  | cons b bs ih =>
    have hb := b.isLt
    rw [leNat, List.length_cons, Nat.pow_succ]
    omega

end Sys2Proof.Machine
end

section
/-! SUPPORT. Scalar integers and scalar floating point of a tile (06 R150, R151; Table 6.4). -/

namespace Sys2Proof.Machine

/-! ## ALU (R150) -/

theorem aluFunc_defined {func : Nat} (h : func ≤ 0x10) (a b : U32) : ∃ v, aluFunc func a b = some v := by
  interval_cases func <;> exact ⟨_, rfl⟩

theorem aluFunc_undefined {func : Nat} (h : 0x10 < func) (a b : U32) : aluFunc func a b = none := by
  obtain ⟨k, rfl⟩ : ∃ k, func = k + 0x11 := ⟨func - 0x11, by omega⟩
  rfl

section
variable {s : State} {l : LaneId} {t : Fin 1024} {w : BitVec 26} {x : Tile}

theorem exec_alu_retires (hr : s.tileRuns l t.val 0x01 w = true) (hx : x = (s.lane l).array.tile t.val) {v : U32} (hz : fld w 5 0 = 0)
    (hv : aluFunc (fld w 10 6) (x.s (fld w 20 16)) (x.s (fld w 15 11)) = some v) :
    ∃ s', exec (.alu l t w) s = .next s' ∧ TileRetires l t.val s s' (s.lane l).array (x.setS (fld w 25 21) v).next :=
  ⟨_, rfl, State.tileExec_retires hr hx (by rw [badWord_pass (by simp [hz]), hv]; rfl)⟩

theorem exec_alu_faults (hr : s.tileRuns l t.val 0x01 w = true) (h : fld w 5 0 ≠ 0 ∨ 0x10 < fld w 10 6) :
    ∃ s', exec (.alu l t w) s = .next s' ∧ TileFaults l t.val s s' 1 := by
  refine ⟨_, rfl, State.tileExec_faults hr rfl ?_⟩
  rcases h with hbits | hfunc
  · exact badWord_fail (by simp [hbits])
  · refine badWord_then_encoding ?_
    rw [aluFunc_undefined hfunc]
    rfl

end

theorem toInt_min_slt (a b : U32) : (if a.slt b then a else b).toInt = min a.toInt b.toInt := by
  simp only [BitVec.slt_eq_decide, decide_eq_true_eq]
  split <;> omega

theorem toInt_max_slt (a b : U32) : (if a.slt b then b else a).toInt = max a.toInt b.toInt := by
  simp only [BitVec.slt_eq_decide, decide_eq_true_eq]
  split <;> omega

theorem toNat_min_ult (a b : U32) : (if a.ult b then a else b).toNat = min a.toNat b.toNat := by
  simp only [BitVec.ult_eq_decide, decide_eq_true_eq]
  split <;> omega

theorem toNat_max_ult (a b : U32) : (if a.ult b then b else a).toNat = max a.toNat b.toNat := by
  simp only [BitVec.ult_eq_decide, decide_eq_true_eq]
  split <;> omega

theorem toNat_highProduct (a b : U32) : (BitVec.ofNat 32 (a.toNat * b.toNat / 2 ^ 32)).toNat = a.toNat * b.toNat / 2 ^ 32 := by
  rw [BitVec.toNat_ofNat, Nat.mod_eq_of_lt]
  rw [Nat.div_lt_iff_lt_mul (by decide)]
  exact Nat.mul_lt_mul'' a.isLt b.isLt

/-! ## Immediates (R150) -/

theorem ofNat_imm16 (w : BitVec 26) : BitVec.ofNat 16 (fld w 15 0) = w.setWidth 16 := by
  apply BitVec.eq_of_toNat_eq
  simp [fld, bits]

theorem w32_shiftLeft_16 (i : Nat) : w32 (i * 0x10000) = w32 i <<< 16 := by
  rw [w32, w32, BitVec.ofNat_mul, BitVec.shiftLeft_eq_mul_twoPow]
  rfl

/-! ## O34 -/

/-- Settles O34: each function of Table 6.4 is what `aluFunc` answers at its code. -/
theorem tileScalarIntegers : Obligations.TileScalarIntegers := by
  unfold Obligations.TileScalarIntegers
  refine ⟨?_, fun _ _ _ _ hr => exec_alu_faults hr, fun l t w s x hr hx => ⟨_, rfl, State.tileExec_retires hr hx ?_⟩,
    fun _ _ _ _ _ hr hx => ⟨_, rfl, State.tileExec_retires hr hx rfl⟩, fun _ _ _ _ _ hr hx => ⟨_, rfl, State.tileExec_retires hr hx rfl⟩,
    fun _ _ _ _ _ hr hx => ⟨_, rfl, State.tileExec_retires hr hx rfl⟩,
    fun l t w s x hr hx hsa => ⟨_, rfl, State.tileExec_retires hr hx ?_⟩, fun l t w s x hr hx hz hk => ?_, fun x i j v => ?_⟩
  · intro l t w s x a b hr hx ha hb hz hf
    subst ha hb
    obtain ⟨v, hv⟩ := aluFunc_defined hf (x.s (fld w 20 16)) (x.s (fld w 15 11))
    obtain ⟨s', hexec, hret⟩ := exec_alu_retires hr hx hz hv
    have val {k u} (hk : fld w 10 6 = k) (hu : aluFunc k (x.s (fld w 20 16)) (x.s (fld w 15 11)) = some u) : v = u :=
      value_at (fun n => aluFunc n _ _) hv hk hu
    refine ⟨s', v, hexec, hret, fun h => val h rfl, fun h => val h rfl, fun h => val h rfl, fun h => val h rfl, fun h => val h rfl,
      fun h => val h rfl, fun h => val h rfl, fun h => val h rfl, fun h => ?_, fun h => val h rfl, fun h => ?_, fun h => ?_, fun h => ?_,
      fun h => ?_, fun h => ?_, fun h => ?_, fun h => ?_⟩
    · rw [BitVec.ofNat_mul, BitVec.ofNat_toNat, BitVec.ofNat_toNat, BitVec.setWidth_eq, BitVec.setWidth_eq]
      exact val h rfl
    · rw [val h rfl, toNat_highProduct]
    · rw [val h rfl, BitVec.slt_eq_decide]
      simp only [decide_eq_true_eq]
    · rw [val h rfl, BitVec.ult_eq_decide]
      simp only [decide_eq_true_eq]
    · rw [val h rfl, toInt_min_slt]
    · rw [val h rfl, toInt_max_slt]
    · rw [val h rfl, toNat_min_ult]
    · rw [val h rfl, toNat_max_ult]
  · rw [← ofNat_imm16, ← ofInt_sext]
    rfl
  · rw [badWord_pass (by simp [hsa]), ← w32_shiftLeft_16]
    rfl
  · refine ⟨_, _, rfl, State.tileExec_retires hr hx (badWord_pass (by simp [hz, hk])), fun h => ?_, fun h => ?_, fun h => ?_⟩ <;> simp [h]
  · exact ⟨x.s_zero, x.setS_zero v, x.s_setS_same v, x.s_setS_other v⟩

/-! ## FALU, FCMP and FCVT (R151) -/

theorem faluFunc_defined {func : Nat} (h : func ≤ 8) (r : RMode) (a b : U32) : ∃ v, faluFunc func r a b = some v := by
  interval_cases func <;> exact ⟨_, rfl⟩

theorem faluFunc_undefined {func : Nat} (h : 8 < func) (r : RMode) (a b : U32) : faluFunc func r a b = none := by
  obtain ⟨k, rfl⟩ : ∃ k, func = k + 9 := ⟨func - 9, by omega⟩
  rfl

theorem fcmpFunc_defined {func : Nat} (h : func ≤ 3) (a b : U32) : ∃ v, fcmpFunc func a b = some v := by
  interval_cases func <;> exact ⟨_, rfl⟩

theorem fcvtFunc_defined {func : Nat} (h : func ≤ 5) (r : RMode) (a : U32) : ∃ v, fcvtFunc func r a = some v := by
  interval_cases func <;> exact ⟨_, rfl⟩

section
variable {s : State} {l : LaneId} {t : Fin 1024} {w : BitVec 26} {x : Tile} {v : NumRes}

theorem exec_falu_retires (hr : s.tileRuns l t.val 0x08 w = true) (hx : x = (s.lane l).array.tile t.val) (hz : fld w 3 0 = 0)
    (hb : fld w 10 6 = 4 ∨ fld w 10 6 = 7 ∨ fld w 10 6 = 8 → fld w 15 11 = 0)
    (hv : faluFunc (fld w 10 6) (rmodeOf (fld w 5 4)) (x.s (fld w 20 16)) (x.s (fld w 15 11)) = some v) :
    ∃ s', exec (.falu l t w) s = .next s' ∧ TileRetires l t.val s s' (s.lane l).array (x.putS (fld w 25 21) v).next := by
  refine ⟨_, rfl, State.tileExec_retires hr hx ?_⟩
  have hsb : ([0x04, 0x07, 0x08].contains (fld w 10 6) && decide (fld w 15 11 ≠ 0)) = false := by
    simpa [or_assoc] using hb
  rw [badWord_pass (by simp only [hz, hsb]; rfl), hv]
  rfl

theorem exec_falu_faults (hr : s.tileRuns l t.val 0x08 w = true) (h : 8 < fld w 10 6) :
    ∃ s', exec (.falu l t w) s = .next s' ∧ TileFaults l t.val s s' 1 := by
  refine ⟨_, rfl, State.tileExec_faults hr rfl (badWord_then_encoding ?_)⟩
  rw [faluFunc_undefined h]
  rfl

theorem exec_fcmp_retires (hr : s.tileRuns l t.val 0x09 w = true) (hx : x = (s.lane l).array.tile t.val) (hz : fld w 3 0 = 0)
    (hv : fcmpFunc (fld w 10 6) (x.s (fld w 20 16)) (x.s (fld w 15 11)) = some v) :
    ∃ s', exec (.fcmp l t w) s = .next s' ∧ TileRetires l t.val s s' (s.lane l).array (x.putS (fld w 25 21) v).next :=
  ⟨_, rfl, State.tileExec_retires hr hx (by rw [badWord_pass (by simp [hz]), hv]; rfl)⟩

theorem exec_fcvt_retires (hr : s.tileRuns l t.val 0x0A w = true) (hx : x = (s.lane l).array.tile t.val) (hz : fld w 3 0 = 0)
    (hb : fld w 15 11 = 0) (hv : fcvtFunc (fld w 10 6) (rmodeOf (fld w 5 4)) (x.s (fld w 20 16)) = some v) :
    ∃ s', exec (.fcvt l t w) s = .next s' ∧ TileRetires l t.val s s' (s.lane l).array (x.putS (fld w 25 21) v).next :=
  ⟨_, rfl, State.tileExec_retires hr hx (by rw [badWord_pass (by simp [hz, hb]), hv]; rfl)⟩

end

/-- An ordered comparison holds where there is an order and it is one that is wanted. -/
theorem fOrder_fst (want : Ordering → Bool) (a b : FVal) : (fOrder want a b).1 = (a.cmp b).any want := by
  unfold fOrder
  cases a.cmp b <;> rfl

theorem flag_fOrder_lt (a b : FVal) : flag (fOrder (· = .lt) a b).1 = if a.cmp b = some .lt then 1 else 0 := by
  rw [fOrder_fst]
  cases a.cmp b with
  | none => rfl
  | some o => cases o <;> rfl

theorem flag_fOrder_le (a b : FVal) : flag (fOrder (fun o => o = .lt || o = .eq) a b).1 = if a.le b then 1 else 0 := by
  rw [fOrder_fst, FVal.le]
  cases a.cmp b with
  | none => rfl
  | some o => cases o <;> rfl

theorem w32_toNat (v : U32) : w32 v.toNat = v := by simp [w32]

/-! ## O35 -/

/-- Settles O35: each function of Table 6.4 and R151 is what its table answers at its code. -/
theorem tileScalarFloats : Obligations.TileScalarFloats := by
  unfold Obligations.TileScalarFloats
  refine ⟨?_, fun _ _ _ _ hr => exec_falu_faults hr, ?_, ?_⟩
  · rintro l t w s x _ _ _ hr hx rfl rfl rfl hz hf hb
    obtain ⟨v, hv⟩ := faluFunc_defined hf (rmodeOf (fld w 5 4)) (x.s (fld w 20 16)) (x.s (fld w 15 11))
    obtain ⟨s', hexec, hret⟩ := exec_falu_retires hr hx hz hb hv
    have val {k u} (hk : fld w 10 6 = k) (hu : faluFunc k (rmodeOf (fld w 5 4)) (x.s (fld w 20 16)) (x.s (fld w 15 11)) = some u) : v = u :=
      value_at (fun n => faluFunc n _ _ _) hv hk hu
    refine ⟨s', v, hexec, hret, fun h => val h rfl, fun h => val h rfl, fun h => val h rfl, fun h => val h rfl, fun h => val h rfl,
      fun h => val h rfl, fun h => val h rfl, fun h => ?_, fun h => ?_⟩
    · rw [val h rfl]
      exact ⟨rfl, w32_toNat _⟩
    · rw [val h rfl]
      exact ⟨rfl, w32_toNat _⟩
  · rintro l t w s x _ _ hr hx rfl rfl hz hf
    obtain ⟨v, hv⟩ := fcmpFunc_defined hf (x.s (fld w 20 16)) (x.s (fld w 15 11))
    obtain ⟨s', hexec, hret⟩ := exec_fcmp_retires hr hx hz hv
    have val {k u} (hk : fld w 10 6 = k) (hu : fcmpFunc k (x.s (fld w 20 16)) (x.s (fld w 15 11)) = some u) : v = u :=
      value_at (fun n => fcmpFunc n _ _) hv hk hu
    refine ⟨s', v, hexec, hret, fun h => (congrArg Prod.fst (val h rfl)).trans (flag_decide _),
      fun h => (congrArg Prod.fst (val h rfl)).trans (flag_fOrder_lt _ _),
      fun h => (congrArg Prod.fst (val h rfl)).trans (flag_fOrder_le _ _),
      fun h => (congrArg Prod.fst (val h rfl)).trans (flag_decide _), fun h => ?_⟩
    · rcases h with h | h <;> rw [val h rfl]
  · rintro l t w s x _ _ hr hx rfl rfl hz hb hf
    obtain ⟨v, hv⟩ := fcvtFunc_defined hf (rmodeOf (fld w 5 4)) (x.s (fld w 20 16))
    obtain ⟨s', hexec, hret⟩ := exec_fcvt_retires hr hx hz hb hv
    have val {k u} (hk : fld w 10 6 = k) (hu : fcvtFunc k (rmodeOf (fld w 5 4)) (x.s (fld w 20 16)) = some u) : v = u :=
      value_at (fun n => fcvtFunc n _ _) hv hk hu
    exact ⟨s', v, hexec, hret, fun h => congrArg Prod.fst (val h rfl), fun h => congrArg Prod.fst (val h rfl), fun h => val h rfl,
      fun h => val h rfl, fun h => val h rfl, fun h => val h rfl⟩

end Sys2Proof.Machine
end

section
/-! SUPPORT. Loads and stores of a tile (06 R152): the bytes they move, the address they check, and the faults. -/

namespace Sys2Proof.Machine

/-! ## What a store leaves unchanged -/

section
variable {l : LaneId} {t : Nat} {s s' : State} {a : ArraySt} {y : Tile} {addr : Nat} {bs : List Byte}

/-- The bytes stored stand there once the instruction has retired. -/
theorem TileRetires.read_write (h : TileRetires l t s s' (a.write t addr bs) y) : (s'.lane l).array.read t addr bs.length = bs := by
  rw [ArraySt.read, h.memory]
  exact ArraySt.read_write_same a t addr bs

/-- Outside the bytes stored, every byte reads as before. -/
theorem TileRetires.memory_write_other (h : TileRetires l t s s' (a.write t addr bs) y) {b : Nat}
    (hb : b < tileBase t + addr ∨ tileBase t + addr + bs.length ≤ b) : (s'.lane l).array.memory.read b = a.memory.read b := by
  rw [h.memory]
  exact Mem.read_writeBytes_other _ _ _ _ hb

end

@[simp] theorem vecBytes_length (v : BitVec 512) : (vecBytes v).length = 64 := leBytes_length 64 v.toNat

theorem ArraySt.leNat_read_lt (a : ArraySt) (t addr n : Nat) : leNat (a.read t addr n) < 256 ^ n := by
  have h := leNat_lt (a.read t addr n)
  rwa [ArraySt.read, Mem.length_readBytes] at h

theorem sizeBytes_le (size : Nat) : sizeBytes size ≤ 4 := by
  unfold sizeBytes
  split
  · decide
  · split <;> decide

/-- A load of at most four bytes fits a register whole. -/
theorem toNat_w32_read (a : ArraySt) (t addr size : Nat) :
    (w32 (leNat (a.read t addr (sizeBytes size)))).toNat = leNat (a.read t addr (sizeBytes size)) := by
  rw [w32, BitVec.toNat_ofNat, Nat.mod_eq_of_lt]
  calc leNat (a.read t addr (sizeBytes size)) < 256 ^ sizeBytes size := a.leNat_read_lt t addr _
    _ ≤ 256 ^ 4 := Nat.pow_le_pow_right (by decide) (sizeBytes_le size)

/-! ## LD and ST -/

/-- What LD writes: the bytes, or under size 3 the half word sign-extended. -/
def loadValue (size : Nat) (bs : List Byte) : U32 := if size = 3 then BitVec.ofInt 32 (sext 16 (leNat bs)) else w32 (leNat bs)

section
variable {s : State} {l : LaneId} {t : Fin 1024} {w : BitVec 26} {x : Tile} {n addr : Nat} (hx : x = (s.lane l).array.tile t.val)
  (hn : n = sizeBytes (fld w 15 14)) (haddr : addr = tileAddr (x.s (fld w 20 16)) (sfld w 14))
include hx hn haddr

theorem exec_ld_retires (hr : s.tileRuns l t.val 0x0C w = true) (ha : addr % n = 0) (hi : addr + n ≤ 0x2E000) :
    ∃ s', exec (.ld l t w) s = .next s' ∧ TileRetires l t.val s s' (s.lane l).array
      (x.setS (fld w 25 21) (loadValue (fld w 15 14) ((s.lane l).array.read t.val addr n))).next := by
  subst hn haddr
  exact ⟨_, rfl, State.tileExec_retires hr hx (by dsimp only; rw [checkAddr_ok ha hi]; rfl)⟩

theorem exec_ld_faults (hr : s.tileRuns l t.val 0x0C w = true) (h : addr % n ≠ 0 ∨ 0x2E000 < addr + n) :
    ∃ s', exec (.ld l t w) s = .next s' ∧ TileFaults l t.val s s' (if addr % n ≠ 0 then 4 else 3) := by
  subst hn haddr
  exact ⟨_, rfl, State.tileExec_faults hr hx (by dsimp only; rw [checkAddr_fault h]; rfl)⟩

theorem exec_st_retires (hr : s.tileRuns l t.val 0x0D w = true) (hsize : fld w 15 14 ≠ 3) (ha : addr % n = 0) (hi : addr + n ≤ 0x2E000) :
    ∃ s', exec (.st l t w) s = .next s' ∧
      TileRetires l t.val s s' ((s.lane l).array.write t.val addr (leBytes n (x.s (fld w 25 21)).toNat)) x.next := by
  subst hn haddr
  exact ⟨_, rfl, State.tileExec_retires hr hx (by dsimp only; rw [badWord_pass (by simp [hsize]), checkAddr_ok ha hi]; rfl)⟩

theorem exec_st_faults (hr : s.tileRuns l t.val 0x0D w = true) (hsize : fld w 15 14 ≠ 3) (h : addr % n ≠ 0 ∨ 0x2E000 < addr + n) :
    ∃ s', exec (.st l t w) s = .next s' ∧ TileFaults l t.val s s' (if addr % n ≠ 0 then 4 else 3) := by
  subst hn haddr
  exact ⟨_, rfl, State.tileExec_faults hr hx (by dsimp only; rw [badWord_pass (by simp [hsize]), checkAddr_fault h]; rfl)⟩

end

/-! ## LDV, STV, LDACC and STACC -/

/-- The tile with sa moved on by 64 under PI. -/
def Tile.postInc (x : Tile) (w : BitVec 26) : Tile := if fld w 16 16 = 1 then x.setS (fld w 21 17) (x.s (fld w 21 17) + 64) else x

/-- The post-increment leaves the vector registers and the accumulators. -/
theorem Tile.postInc_vectors (x : Tile) (w : BitVec 26) : (x.postInc w).vregs = x.vregs ∧ (x.postInc w).accs = x.accs := by
  unfold Tile.postInc Tile.setS
  split
  · split <;> exact ⟨rfl, rfl⟩
  · exact ⟨rfl, rfl⟩

section
variable {s : State} {l : LaneId} {t : Fin 1024} {w : BitVec 26} {x : Tile} {addr : Nat} (hx : x = (s.lane l).array.tile t.val)
  (hz : fld w 15 12 = 0) (hpi : fld w 16 16 = 1 → fld w 21 17 ≠ 0) (haddr : addr = tileAddr (x.s (fld w 21 17)) (sfld w 12 * 64))
  (ha : addr % 64 = 0) (hi : addr + 64 ≤ 0x2E000)
include hz hpi haddr ha hi

omit s l t in
theorem vAddr_ok : vAddr w x = .ok (addr, x.postInc w) := by
  subst haddr
  dsimp only [vAddr]
  rw [badWord_pass (by simpa [hz] using hpi), checkAddr_ok ha hi]
  rfl

include hx

theorem exec_ldv_retires (hr : s.tileRuns l t.val 0x0E w = true) :
    ∃ s', exec (.ldv l t w) s = .next s' ∧ TileRetires l t.val s s' (s.lane l).array
      ((x.postInc w).setV (fld w 25 22) (vecOf ((s.lane l).array.read t.val addr 64))).next :=
  ⟨_, rfl, State.tileExec_retires hr hx (by rw [vAddr_ok hz hpi haddr ha hi]; rfl)⟩

theorem exec_stv_retires (hr : s.tileRuns l t.val 0x0F w = true) :
    ∃ s', exec (.stv l t w) s = .next s' ∧
      TileRetires l t.val s s' ((s.lane l).array.write t.val addr (vecBytes (x.v (fld w 25 22)))) (x.postInc w).next :=
  ⟨_, rfl, State.tileExec_retires hr hx (by
    rw [vAddr_ok hz hpi haddr ha hi, Tile.v, ← (x.postInc_vectors w).1]
    rfl)⟩

theorem exec_ldacc_retires (hr : s.tileRuns l t.val 0x10 w = true) (hacc : fld w 22 22 = 0) :
    ∃ s', exec (.ldacc l t w) s = .next s' ∧ TileRetires l t.val s s' (s.lane l).array
      ((x.postInc w).setAcc (fld w 25 23) (vecOf ((s.lane l).array.read t.val addr 64))).next :=
  ⟨_, rfl, State.tileExec_retires hr hx (by rw [badWord_pass (by simp [hacc]), vAddr_ok hz hpi haddr ha hi]; rfl)⟩

theorem exec_stacc_retires (hr : s.tileRuns l t.val 0x11 w = true) (hacc : fld w 22 22 = 0) :
    ∃ s', exec (.stacc l t w) s = .next s' ∧
      TileRetires l t.val s s' ((s.lane l).array.write t.val addr (vecBytes (x.acc (fld w 25 23)))) (x.postInc w).next :=
  ⟨_, rfl, State.tileExec_retires hr hx (by
    rw [badWord_pass (by simp [hacc]), vAddr_ok hz hpi haddr ha hi, Tile.acc, ← (x.postInc_vectors w).2]
    rfl)⟩

end

/-! ## O36 -/

/-- Settles O36, access by access. -/
theorem tileLoadsAndStores : Obligations.TileLoadsAndStores := by
  unfold Obligations.TileLoadsAndStores
  refine ⟨fun l t w s x n addr hr hx hn haddr ha hi => ?_, fun l t w s x n addr hr hx hsize hn haddr ha hi => ?_,
    fun _ _ _ _ _ _ hr hx hz hpi haddr ha hi => exec_ldv_retires hx hz hpi haddr ha hi hr,
    fun l t w s x addr hr hx hz hpi haddr ha hi => ?_,
    fun _ _ _ _ _ _ hr hx hacc hz hpi haddr ha hi => exec_ldacc_retires hx hz hpi haddr ha hi hr hacc,
    fun l t w s x addr hr hx hacc hz hpi haddr ha hi => ?_, fun _ _ _ _ _ _ _ hr hx hn haddr h => exec_ld_faults hx hn haddr hr h,
    fun _ _ _ _ _ _ _ hr hx hsize hn haddr h => exec_st_faults hx hn haddr hr hsize h⟩
  · obtain ⟨s', hexec, hret⟩ := exec_ld_retires hx hn haddr hr ha hi
    refine ⟨s', _, hexec, hret, fun h => ?_, fun h => ?_⟩
    · rw [loadValue, if_neg h, hn, toNat_w32_read]
    · rw [loadValue, if_pos h, ofInt_sext]
  · obtain ⟨s', hexec, hret⟩ := exec_st_retires hx hn haddr hr hsize ha hi
    have hread := hret.read_write
    have hother := fun b => hret.memory_write_other (b := b)
    rw [leBytes_length] at hread hother
    exact ⟨s', hexec, hret, hread, hother⟩
  · obtain ⟨s', hexec, hret⟩ := exec_stv_retires hx hz hpi haddr ha hi hr
    exact ⟨s', hexec, hret, fun b hb => hret.memory_write_other (by rwa [vecBytes_length])⟩
  · obtain ⟨s', hexec, hret⟩ := exec_stacc_retires hx hz hpi haddr ha hi hr hacc
    exact ⟨s', hexec, hret, fun b hb => hret.memory_write_other (by rwa [vecBytes_length])⟩

end Sys2Proof.Machine
end

section
/-! SUPPORT. Control, special registers and flags of a tile (06 R153, R154, R166; 05 Table 5.3). -/

namespace Sys2Proof.Machine

/-! ## Branches (R153) -/

theorem branchTo_ok {a : ArraySt} {x : Tile} {target : Nat} (h : 0x100 ≤ target) :
    branchTo a x target = .ok (.done a { x with pc := target }) := by
  rw [branchTo, faultIf_pass (decide_eq_false (Nat.not_lt.mpr h))]

theorem branchTo_fault {a : ArraySt} {x : Tile} {target : Nat} (h : target < 0x100) : branchTo a x target = .error 2 := by
  rw [branchTo, faultIf_fail (decide_eq_true h)]
  rfl

/-- The conditions 0 to 6 of R153 on two words. -/
def BrCond (c : Nat) (a b : U32) : Prop :=
  (c = 0 ∧ a = b) ∨ (c = 1 ∧ a ≠ b) ∨ (c = 2 ∧ a.toInt < b.toInt) ∨ (c = 3 ∧ b.toInt ≤ a.toInt) ∨ (c = 4 ∧ a.toNat < b.toNat) ∨
    (c = 5 ∧ b.toNat ≤ a.toNat) ∨ c = 6

theorem brHolds_iff {c : Nat} (hc : c ≤ 6) (a b : U32) : brHolds c a b = true ↔ BrCond c a b := by
  interval_cases c <;> simp [brHolds, BrCond, BitVec.slt_eq_decide, BitVec.ult_eq_decide]

/-- Where a branch under cond 0 to 6 continues. -/
def Tile.branch (x : Tile) (taken : Bool) (target : Nat) : Tile := if taken then { x with pc := target } else x.next

section
variable {s : State} {l : LaneId} {t : Fin 1024} {w : BitVec 26} {x : Tile} (hx : x = (s.lane l).array.tile t.val)
include hx

theorem exec_br_retires (hr : s.tileRuns l t.val 0x14 w = true) (hc : fld w 15 12 ≤ 6) (ht : 0x100 ≤ fld w 11 0) :
    ∃ s', exec (.br l t w) s = .next s' ∧ TileRetires l t.val s s' (s.lane l).array
      (x.branch (brHolds (fld w 15 12) (x.s (fld w 25 21)) (x.s (fld w 20 16))) (fld w 11 0)) := by
  have h7 : fld w 15 12 ≠ 7 := by omega
  refine ⟨_, rfl, State.tileExec_retires hr hx ?_⟩
  dsimp only
  rw [badWord_pass (by simp [h7]; omega), if_neg h7, branchTo_ok ht, Tile.branch]
  split <;> rfl

theorem exec_jal_retires (hr : s.tileRuns l t.val 0x14 w = true) (hc : fld w 15 12 = 7) (hz : fld w 20 16 = 0) (ht : 0x100 ≤ fld w 11 0) :
    ∃ s', exec (.br l t w) s = .next s' ∧
      TileRetires l t.val s s' (s.lane l).array { x.setS (fld w 25 21) (w32 (x.pc + 1)) with pc := fld w 11 0 } := by
  refine ⟨_, rfl, State.tileExec_retires hr hx ?_⟩
  dsimp only
  rw [badWord_pass (by simp [hc, hz]), if_pos hc, branchTo_ok ht]

theorem exec_jal_faults (hr : s.tileRuns l t.val 0x14 w = true) (hc : fld w 15 12 = 7) (hz : fld w 20 16 = 0) (ht : fld w 11 0 < 0x100) :
    ∃ s', exec (.br l t w) s = .next s' ∧ TileFaults l t.val s s' 2 := by
  refine ⟨_, rfl, State.tileExec_faults hr hx ?_⟩
  dsimp only
  rw [badWord_pass (by simp [hc, hz]), if_pos hc, branchTo_fault ht]

theorem exec_dbnz_retires {v : U32} (hr : s.tileRuns l t.val 0x15 w = true) (hz : fld w 20 12 = 0) (hs : fld w 25 21 ≠ 0)
    (hv : v = x.s (fld w 25 21) - 1) (ht : 0x100 ≤ fld w 11 0) :
    ∃ s', exec (.dbnz l t w) s = .next s' ∧ TileRetires l t.val s s' (s.lane l).array
      (if v = 0 then (x.setS (fld w 25 21) v).next else { x.setS (fld w 25 21) v with pc := fld w 11 0 }) := by
  subst hv
  refine ⟨_, rfl, State.tileExec_retires hr hx ?_⟩
  dsimp only
  rw [badWord_pass (by simp [hz, hs]), branchTo_ok ht]
  split <;> rfl

theorem exec_jr_retires (hr : s.tileRuns l t.val 0x16 w = true) (ht : 0x100 ≤ (x.s (fld w 25 21)).toNat % 0x1000) :
    ∃ s', exec (.jr l t w) s = .next s' ∧
      TileRetires l t.val s s' (s.lane l).array { x with pc := (x.s (fld w 25 21)).toNat % 0x1000 } :=
  ⟨_, rfl, State.tileExec_retires hr hx (branchTo_ok ht)⟩

/-! ## END and STEPEND (R154) -/

theorem exec_endBlock_retires (hr : s.tileRuns l t.val 0x17 0 = true) :
    ∃ s', exec (.endBlock l t 0) s = .next s' ∧ TileRetires l t.val s s' (s.lane l).array { x with seq := .idle, pc := x.pc + 1 } :=
  ⟨_, rfl, State.tileExec_retires hr hx (badWord_pass rfl)⟩

theorem exec_stepend_retires {y : Tile} (hr : s.tileRuns l t.val 0x18 0 = true) (hq : x.dmaq = [])
    (hy : y = { x with seq := .stepEnd, pc := x.pc + 1 }) :
    ∃ s', exec (.stepend l t 0) s = .next s' ∧ TileRetires l t.val s s' (((s.lane l).array.setTile t.val y).sleepRow (t.val / 32)) y := by
  subst hy
  refine ⟨_, rfl, State.tileExec_retires hr hx ?_⟩
  dsimp only
  rw [badWord_pass (decide_eq_false (not_not_intro rfl)), if_neg (by simp [hq])]

theorem exec_stepend_waits (hr : s.tileRuns l t.val 0x18 0 = true) (hq : x.dmaq ≠ []) : exec (.stepend l t 0) s = .next s := by
  refine congrArg Host.Outcome.next (State.tileExec_waits hr hx ?_)
  dsimp only
  rw [badWord_pass (decide_eq_false (not_not_intro rfl)), if_pos (by simp [hq])]

/-! ## SRR and FLAGS (R166) -/

theorem exec_srr_retires (hr : s.tileRuns l t.val 0x34 w = true) (hz : fld w 20 16 = 0) (h4 : fld w 15 0 ≠ 4) (h5 : fld w 15 0 ≠ 5) :
    ∃ s', exec (.srr l t w) s = .next s' ∧ TileRetires l t.val s s' (s.lane l).array
      (x.setS (fld w 25 21) (specialReg (fld w 15 0) t.val
        (tileStatus (s.lane l).step.firstStep (s.lane l).step.abortedLast (!x.dmaq.isEmpty) s.img.kMod) x.stepEpoch
        (Config.freeWord s.fresh))).next := by
  subst hx
  refine ⟨_, rfl, ?_⟩
  rw [if_neg (by simp [h4, h5])]
  exact State.tileExec_retires hr rfl (badWord_pass (by simp [hz]))

theorem exec_srr_cycles_retires (hr : s.tileRuns l t.val 0x34 w = true) (hz : fld w 20 16 = 0) (h : fld w 15 0 = 4 ∨ fld w 15 0 = 5) :
    ∃ s', exec (.srr l t w) s = .next s' ∧ TileRetires l t.val { s with fresh := s.fresh + 1 } s' (s.lane l).array
      (x.setS (fld w 25 21) (Config.freeWord s.fresh)).next := by
  have hread (st : U32) : specialReg (fld w 15 0) t.val st x.stepEpoch (Config.freeWord s.fresh) = Config.freeWord s.fresh := by
    rcases h with h | h <;> rw [h] <;> rfl
  subst hx
  refine ⟨_, rfl, ?_⟩
  rw [if_pos h, hread]
  have hlane : ({ s with fresh := s.fresh + 1 } : State).lane l = s.lane l := by cases l <;> rfl
  have hr' : ({ s with fresh := s.fresh + 1 } : State).tileRuns l t.val 0x34 w = true := by rwa [State.tileRuns, hlane]
  rw [← hlane]
  exact State.tileExec_retires hr' rfl (badWord_pass (by simp [hz]))

theorem exec_flags_retires (hr : s.tileRuns l t.val 0x35 w = true) (hz : fld w 15 8 = 0) :
    ∃ s', exec (.flags l t w) s = .next s' ∧ TileRetires l t.val s s' (s.lane l).array
      { (x.setS (fld w 25 21) x.flagWord).next with flagWord := x.flagWord &&& ~~~w32 (fld w 7 0) } :=
  ⟨_, rfl, State.tileExec_retires hr hx (badWord_pass (by simp [hz]))⟩

end

/-- An unassigned special register reads 0. -/
theorem specialReg_unassigned {n : Nat} (h : 5 < n) (t : Nat) (status : U32) (epoch : U64) (cycles : U32) :
    specialReg n t status epoch cycles = 0 := by
  obtain ⟨k, rfl⟩ : ∃ k, n = k + 6 := ⟨n - 6, by omega⟩
  rfl

/-- TILE_STATUS in its three flags and each value of its low field. -/
theorem tileStatus_fields_fin : ∀ (k : Fin 16) (first aborted dma : Bool),
    (tileStatus first aborted dma k).getLsbD 7 = first ∧ (tileStatus first aborted dma k).getLsbD 6 = aborted ∧
      (tileStatus first aborted dma k).getLsbD 5 = dma ∧ (tileStatus first aborted dma k).toNat % 16 = k := by decide

/-- The fields of TILE_STATUS (05 Table 5.5): of the count only its low four bits stand there. -/
theorem tileStatus_fields (first aborted dma : Bool) (k : Nat) :
    (tileStatus first aborted dma k).getLsbD 7 = first ∧ (tileStatus first aborted dma k).getLsbD 6 = aborted ∧
      (tileStatus first aborted dma k).getLsbD 5 = dma ∧ (tileStatus first aborted dma k).toNat % 16 = k % 16 := by
  have hlow : tileStatus first aborted dma k = tileStatus first aborted dma (k % 16) := by rw [tileStatus, tileStatus, Nat.mod_mod]
  rw [hlow]
  exact tileStatus_fields_fin ⟨k % 16, Nat.mod_lt k (by decide)⟩ first aborted dma

/-! ## O37 -/

/-- Settles O37, instruction by instruction. -/
theorem tileControlAndSpecials : Obligations.TileControlAndSpecials := by
  unfold Obligations.TileControlAndSpecials
  refine ⟨?_, fun _ _ _ _ _ hr hx hc hz => ⟨exec_jal_retires hx hr hc hz, exec_jal_faults hx hr hc hz⟩,
    fun _ _ _ _ _ _ hr hx hz hs hv => exec_dbnz_retires hx hr hz hs hv, fun _ _ _ _ _ hr hx => exec_jr_retires hx hr,
    fun _ _ _ _ hr hx => exec_endBlock_retires hx hr, ?_, fun _ _ _ hr => exec_stepend_waits rfl hr, ?_,
    fun _ _ _ _ _ hr hx => exec_srr_cycles_retires hx hr, ?_⟩
  · rintro l t w s x a b c hr hx rfl rfl rfl hc ht
    obtain ⟨s', hexec, hret⟩ := exec_br_retires hx hr hc ht
    exact ⟨s', _, hexec, hret, fun h => if_pos ((brHolds_iff hc _ _).mpr h), fun h => if_neg (mt (brHolds_iff hc _ _).mp h)⟩
  · intro l t s x hr hx hq
    obtain ⟨s', hexec, hret⟩ := exec_stepend_retires hx hr hq rfl
    exact ⟨s', _, hexec, rfl, hret⟩
  · intro l t w s x hr hx hz h4 h5
    obtain ⟨s', hexec, hret⟩ := exec_srr_retires hx hr hz h4 h5
    refine ⟨s', _, hexec, hret, fun h => ?_, fun h => ?_, fun h => ?_, fun h => ?_, fun h => specialReg_unassigned h _ _ _ _⟩
    · rw [h, specialReg]
    · rw [h, specialReg]
    · rw [h, specialReg]
    · rw [h, specialReg]
      exact tileStatus_fields _ _ _ _
  · intro l t w s x hr hx hz
    obtain ⟨s', hexec, hret⟩ := exec_flags_retires hx hr hz
    exact ⟨s', _, hexec, hret, rfl⟩

end Sys2Proof.Machine
end

section
/-! SUPPORT. Accumulator moves, INT4 elements, and the tile's network and DMA instructions (06 R158, R163, R174 to R177). -/

namespace Sys2Proof.Machine

/-! ## ACC (R158) -/

section
variable {s : State} {l : LaneId} {t : Fin 1024} {w : BitVec 26} {x : Tile}

/-- What ACC does to the tile under func 0, 1 and 2. -/
def Tile.accMove (x : Tile) (w : BitVec 26) : Tile :=
  if fld w 18 16 = 0 then x.setV (fld w 22 19) (x.acc (fld w 25 23))
  else if fld w 18 16 = 1 then x.setAcc (fld w 25 23) (x.v (fld w 22 19))
  else x.setAcc (fld w 25 23) 0

theorem exec_acc_retires (hr : s.tileRuns l t.val 0x21 w = true) (hx : x = (s.lane l).array.tile t.val) (hz : fld w 15 0 = 0)
    (hf : fld w 18 16 ≤ 2) (hv : fld w 18 16 = 2 → fld w 22 19 = 0) :
    ∃ s', exec (.acc l t w) s = .next s' ∧ TileRetires l t.val s s' (s.lane l).array (x.accMove w).next :=
  ⟨_, rfl, State.tileExec_retires hr hx (badWord_pass (by simpa [hz, hf] using hv))⟩

theorem exec_acc_faults (hr : s.tileRuns l t.val 0x21 w = true) (h : 2 < fld w 18 16 ∨ fld w 18 16 = 2 ∧ fld w 22 19 ≠ 0) :
    ∃ s', exec (.acc l t w) s = .next s' ∧ TileFaults l t.val s s' 1 := by
  refine ⟨_, rfl, State.tileExec_faults hr rfl (badWord_fail ?_)⟩
  rcases h with hf | ⟨hf, hv⟩
  · simp [hf]
  · simp [hf, hv]

end

/-- Settles O39: the three moves are `Tile.accMove` at their func, and what they write is read back. -/
theorem accumulatorMoves : Obligations.AccumulatorMoves := by
  unfold Obligations.AccumulatorMoves
  refine ⟨fun l t w s x hr hx hz => ⟨fun hf => ?_, fun hf => ?_, fun hf hv => ?_, fun hf hv => exec_acc_faults hr (.inr ⟨hf, hv⟩),
    fun hf => exec_acc_faults hr (.inl hf)⟩,
    fun x i j v => ⟨x.v_setV_same i v, x.acc_setAcc_same i v, fun h => ⟨x.v_setV_other v h, x.acc_setAcc_other v h⟩⟩⟩
  · have h := exec_acc_retires hr hx hz (by omega) (by omega)
    rwa [Tile.accMove, if_pos hf] at h
  · have h := exec_acc_retires hr hx hz (by omega) (by omega)
    rwa [Tile.accMove, if_neg (by omega), if_pos hf] at h
  · have h := exec_acc_retires hr hx hz (by omega) fun _ => hv
    rwa [Tile.accMove, if_neg (by omega), if_neg (by omega)] at h

/-! ## INT4 elements (R163) -/

/-- Byte `i` of a value, low byte first. -/
theorem leBytes_getElem? {n i : Nat} (h : i < n) (v : Nat) : (leBytes n v)[i]? = some (BitVec.ofNat 8 (v / 256 ^ i)) := by
  induction n generalizing i v with
  | zero => exact absurd h (Nat.not_lt_zero i)
  | succ n ih =>
    cases i with
    | zero => simp [leBytes]
    | succ i =>
      rw [leBytes, List.getElem?_cons_succ, ih (Nat.lt_of_succ_lt_succ h), Nat.div_div_eq_div_mul, ← Nat.pow_succ']

theorem elems_getElem? {n i : Nat} (h : i < n) (w : Nat) (v : BitVec 512) : (elems w n v)[i]? = some (v.toNat / 2 ^ (w * i) % 2 ^ w) := by
  simp [elems, h, Nat.shiftRight_eq_div_pow]

theorem lowNibble_ofNat (m : Nat) : ((BitVec.ofNat 8 m).extractLsb' 0 4).toNat = m % 16 := by
  simp only [BitVec.extractLsb'_toNat, BitVec.toNat_ofNat, Nat.shiftRight_eq_div_pow]
  omega

theorem highNibble_ofNat (m : Nat) : ((BitVec.ofNat 8 m).extractLsb' 4 4).toNat = m / 16 % 16 := by
  simp only [BitVec.extractLsb'_toNat, BitVec.toNat_ofNat, Nat.shiftRight_eq_div_pow]
  omega

/-- Settles O40: two elements of four bits to a byte, the even one low. -/
theorem int4Elements : Obligations.Int4Elements := by
  unfold Obligations.Int4Elements
  refine ⟨fun v e he => ?_, rfl, fun v => ⟨by simp [elems, elCount, elWidth], leBytes_length 64 v.toNat⟩⟩
  rw [vecBytes, leBytes_getElem? (by omega), show elCount 1 = 128 from rfl, show elWidth 1 = 4 from rfl, elems_getElem? he, Option.map_some]
  have hbyte (q : Nat) : (2 : Nat) ^ (4 * (2 * q)) = 256 ^ q := by rw [← mul_assoc, pow_mul]; rfl
  rcases Nat.even_or_odd' e with ⟨q, rfl | rfl⟩
  · rw [if_pos (by omega), lowNibble_ofNat, hbyte, Nat.mul_div_cancel_left q (by decide)]
    rfl
  · rw [if_neg (by omega), highNibble_ofNat, Nat.mul_add, Nat.pow_add, hbyte, ← Nat.div_div_eq_div_mul, show (2 * q + 1) / 2 = q by omega]
    rfl

/-! ## SEND (R174) -/

/-- A message of `n` bytes at `addr` put into flight on a route. -/
def ArraySt.sendOn (a : ArraySt) (t : Nat) (rt : Route) (addr n : Nat) : ArraySt :=
  { a with flight := a.flight ++ [{ dest := rt.dest, channel := rt.channel, payload := a.read t addr n }] }

section
variable {s : State} {l : LaneId} {t : Fin 1024} {w : BitVec 26} {x : Tile} {rt : Route} {addr n : Nat}
  (hr : s.tileRuns l t.val 0x30 w = true) (hx : x = (s.lane l).array.tile t.val) (hrt : rt = Tab.get {} x.routes (fld w 25 22))
  (haddr : addr = (x.s (fld w 21 17)).toNat) (hn : n = 32 * (fld w 16 12 + 1)) (hz : fld w 11 0 = 0)
include hr hx hrt haddr hn hz

theorem exec_send_faults (h : rt.dest = .undeclared ∨ rt.maxFlits ≤ fld w 16 12 ∨ 0x2E000 < addr + n ∨ addr % 32 ≠ 0) :
    ∃ s', exec (.send l t w) s = .next s' ∧ TileFaults l t.val s s' 6 := by
  subst hrt haddr hn
  refine ⟨_, rfl, State.tileExec_faults hr hx ?_⟩
  dsimp only
  rw [badWord_pass (by simp [hz]), faultIf_fail]
  · rfl
  · simp only [Bool.or_eq_true, decide_eq_true_eq, or_assoc, Nat.lt_succ_iff]
    exact h

section
variable (hdecl : rt.dest ≠ .undeclared) (hmax : fld w 16 12 < rt.maxFlits) (hi : addr + n ≤ 0x2E000) (ha : addr % 32 = 0)
include hdecl hmax hi ha

omit hr hx hrt haddr hz in
theorem sendCheck_pass : (decide (rt.dest = .undeclared) || decide (rt.maxFlits < fld w 16 12 + 1) ||
    decide (imageTop < addr + 32 * (fld w 16 12 + 1)) || decide (addr % 32 ≠ 0)) = false := by
  subst hn
  simp only [Bool.or_eq_false_iff, decide_eq_false_iff_not]
  exact ⟨⟨⟨hdecl, by omega⟩, Nat.not_lt.mpr hi⟩, not_not_intro ha⟩

theorem exec_send_tile {d : Nat} (hd : rt.dest = .tile d) (hc : 0 < rt.credits) :
    ∃ s', exec (.send l t w) s = .next s' ∧ TileRetires l t.val s s' ((s.lane l).array.sendOn t.val rt addr n)
      ({ x with routes := Tab.set {} x.routes (fld w 25 22) { rt with credits := rt.credits - 1 } } : Tile).next := by
  have hcheck := sendCheck_pass hn hdecl hmax hi ha
  subst hrt haddr hn
  refine ⟨_, rfl, State.tileExec_retires hr hx ?_⟩
  dsimp only
  rw [badWord_pass (by simp [hz]), faultIf_pass hcheck]
  simp only [ArraySt.sendOn, hd, if_neg (Nat.ne_of_gt hc)]
  rfl

theorem exec_send_waits {d : Nat} (hd : rt.dest = .tile d) (hc : rt.credits = 0) : exec (.send l t w) s = .next s := by
  have hcheck := sendCheck_pass hn hdecl hmax hi ha
  subst hrt haddr hn
  refine congrArg Host.Outcome.next (State.tileExec_waits hr hx ?_)
  dsimp only
  rw [badWord_pass (by simp [hz]), faultIf_pass hcheck]
  simp only [hd, if_pos hc]

theorem exec_send_edge {y : Nat} (hd : rt.dest = .edge y) :
    ∃ s', exec (.send l t w) s = .next s' ∧ TileRetires l t.val s s' ((s.lane l).array.sendOn t.val rt addr n) x.next := by
  have hcheck := sendCheck_pass hn hdecl hmax hi ha
  subst hrt haddr hn
  refine ⟨_, rfl, State.tileExec_retires hr hx ?_⟩
  dsimp only
  rw [badWord_pass (by simp [hz]), faultIf_pass hcheck]
  simp only [ArraySt.sendOn, hd]
  rfl

end
end

/-! ## RELEASE and CHHEAD (R175, R176) -/

/-- The head slot of a channel given back. -/
def Channel.freeHead (c : Channel) : Channel := { c with head := (c.head + 1) % c.slotCount, tokens := c.tokens - 1 }

/-- The credit a release of channel `ch` of tile `t` returns, of a MESSAGE channel alone. -/
def ArraySt.returnCredit (a : ArraySt) (t ch : Nat) (c : Channel) : ArraySt :=
  { a with creditsDue := a.creditsDue ++ if c.kind = .message then (a.feeder t ch).toList else [] }

section
variable {s : State} {l : LaneId} {t : Fin 1024} {w : BitVec 26} {x : Tile} {ch : Nat} {c : Channel}

section
variable (hr : s.tileRuns l t.val 0x31 w = true) (hx : x = (s.lane l).array.tile t.val) (hch : ch = fld w 25 22)
  (hc : c = Tab.get {} x.channels ch) (hz : fld w 21 0 = 0)
include hr hx hch hc hz

theorem exec_release_retires (hk : c.kind ≠ .undeclared) (ht : 0 < c.tokens) :
    ∃ s', exec (.release l t w) s = .next s' ∧ TileRetires l t.val s s' ((s.lane l).array.returnCredit t.val ch c)
      ({ x with channels := Tab.set {} x.channels ch c.freeHead } : Tile).next := by
  subst hch hc
  refine ⟨_, rfl, State.tileExec_retires hr hx ?_⟩
  dsimp only
  rw [badWord_pass (by simp [hz]), faultIf_pass (by simp [hk, Nat.ne_of_gt ht])]
  rfl

theorem exec_release_faults (h : c.kind = .undeclared ∨ c.tokens = 0) :
    ∃ s', exec (.release l t w) s = .next s' ∧ TileFaults l t.val s s' 7 := by
  subst hch hc
  refine ⟨_, rfl, State.tileExec_faults hr hx ?_⟩
  dsimp only
  rw [badWord_pass (by simp [hz]), faultIf_fail (by simpa using h)]
  rfl

end

section
variable (hr : s.tileRuns l t.val 0x32 w = true) (hx : x = (s.lane l).array.tile t.val) (hc : c = Tab.get {} x.channels (fld w 25 22))
  (hz : fld w 11 0 = 0)
include hr hx hc hz

theorem exec_chhead_retires (hk : c.kind ≠ .undeclared) (ht : 0 < c.tokens) :
    ∃ s', exec (.chhead l t w) s = .next s' ∧
      TileRetires l t.val s s' (s.lane l).array (x.setS (fld w 21 17) (w32 (c.base + c.head * c.slotSize))).next := by
  subst hc
  refine ⟨_, rfl, State.tileExec_retires hr hx ?_⟩
  dsimp only
  rw [badWord_pass (by simp [hz]), faultIf_pass (by simp [hk]), if_neg (Nat.ne_of_gt ht)]
  rfl

theorem exec_chhead_waits (hk : c.kind ≠ .undeclared) (ht : c.tokens = 0) : exec (.chhead l t w) s = .next s := by
  subst hc
  refine congrArg Host.Outcome.next (State.tileExec_waits hr hx ?_)
  dsimp only
  rw [badWord_pass (by simp [hz]), faultIf_pass (by simp [hk]), if_pos ht]

theorem exec_chhead_faults (hk : c.kind = .undeclared) : ∃ s', exec (.chhead l t w) s = .next s' ∧ TileFaults l t.val s s' 7 := by
  subst hc
  refine ⟨_, rfl, State.tileExec_faults hr hx ?_⟩
  dsimp only
  rw [badWord_pass (by simp [hz]), faultIf_fail (by simp [hk])]
  rfl

end
end

/-! ## DMA (R177) -/

section
variable {s : State} {l : LaneId} {t : Fin 1024} {w : BitVec 26} {x : Tile} {ch sram off len : Nat} {c : Channel}
  (hr : s.tileRuns l t.val 0x33 w = true) (hx : x = (s.lane l).array.tile t.val) (hch : ch = fld w 24 21)
  (hc : c = Tab.get {} x.channels ch) (hsram : sram = (x.s (fld w 20 16)).toNat) (hoff : off = (x.s (fld w 15 11)).toNat)
  (hlen : len = (x.s (fld w 10 6)).toNat) (hz : fld w 5 0 = 0)
include hr hx hch hc hsram hoff hlen hz

theorem exec_dma_faults (h : c.kind ≠ .dma ∨ len = 0 ∨ len % 64 ≠ 0 ∨ sram % 64 ≠ 0 ∨ off % 64 ≠ 0) :
    ∃ s', exec (.dma l t w) s = .next s' ∧ TileFaults l t.val s s' 8 := by
  subst hch hc hsram hoff hlen
  refine ⟨_, rfl, State.tileExec_faults hr hx ?_⟩
  dsimp only
  rw [badWord_pass (by simp [hz]), faultIf_fail]
  · rfl
  · simp only [Bool.or_eq_true, decide_eq_true_eq]
    tauto

section
variable (hk : c.kind = .dma) (hpos : 0 < len) (hmax : len ≤ 65536) (hlen64 : len % 64 = 0) (hsram64 : sram % 64 = 0)
  (hoff64 : off % 64 = 0) (hi : sram + len ≤ 0x2E000) (hseg : off + len ≤ (s.lane l).array.segmentSize)
include hk hpos hmax hlen64 hsram64 hoff64 hi hseg

omit hr hx hch hc hsram hoff hlen hz in
theorem dmaCheck_pass : (decide (c.kind ≠ .dma) || decide (len = 0) || decide (65536 < len) || decide (len % 64 ≠ 0) || decide (sram % 64 ≠ 0) ||
    decide (off % 64 ≠ 0) || decide (imageTop < sram + len) || decide ((s.lane l).array.segmentSize < off + len)) = false := by
  simp only [Bool.or_eq_false_iff, decide_eq_false_iff_not, not_not]
  exact ⟨⟨⟨⟨⟨⟨⟨hk, Nat.ne_of_gt hpos⟩, Nat.not_lt.mpr hmax⟩, hlen64⟩, hsram64⟩, hoff64⟩, Nat.not_lt.mpr hi⟩, Nat.not_lt.mpr hseg⟩

theorem exec_dma_queues (hroom : x.dmaq.length < 8) (hfree : c.tokens + (x.dmaq.filter fun d => d.channel = ch).length < c.slotCount) :
    ∃ s', exec (.dma l t w) s = .next s' ∧ TileRetires l t.val s s' (s.lane l).array
      ({ x with dmaq := x.dmaq ++ [{ toSegment := fld w 25 25 = 1, channel := ch, sram := sram, offset := off, length := len }] } : Tile).next := by
  have hcheck := dmaCheck_pass hk hpos hmax hlen64 hsram64 hoff64 hi hseg
  subst hch hc hsram hoff hlen
  refine ⟨_, rfl, State.tileExec_retires hr hx ?_⟩
  dsimp only
  rw [badWord_pass (by simp [hz]), faultIf_pass hcheck, if_neg (by simp [hroom, hfree])]
  rfl

theorem exec_dma_waits (hfull : 8 ≤ x.dmaq.length) : exec (.dma l t w) s = .next s := by
  have hcheck := dmaCheck_pass hk hpos hmax hlen64 hsram64 hoff64 hi hseg
  subst hch hc hsram hoff hlen
  refine congrArg Host.Outcome.next (State.tileExec_waits hr hx ?_)
  dsimp only
  rw [badWord_pass (by simp [hz]), faultIf_pass hcheck, if_pos (by simp [hfull])]

end
end

/-! ## O41 -/

/-- Settles O41, instruction by instruction. -/
theorem tileNetworkAndDma : Obligations.TileNetworkAndDma := by
  unfold Obligations.TileNetworkAndDma
  refine ⟨?_, ?_, ?_, ?_⟩
  · intro l t w s x rt addr n hr hx hrt haddr hn hz
    exact ⟨fun hdecl hmax hi ha => ⟨fun _ => exec_send_tile hr hx hrt haddr hn hz hdecl hmax hi ha,
      fun _ => exec_send_waits hr hx hrt haddr hn hz hdecl hmax hi ha, fun _ => exec_send_edge hr hx hrt haddr hn hz hdecl hmax hi ha⟩,
      exec_send_faults hr hx hrt haddr hn hz⟩
  · intro l t w s x ch c hr hx hch hc hz
    exact ⟨exec_release_retires hr hx hch hc hz, exec_release_faults hr hx hch hc hz⟩
  · intro l t w s x c hr hx hc hz
    exact ⟨exec_chhead_retires hr hx hc hz, exec_chhead_waits hr hx hc hz, exec_chhead_faults hr hx hc hz⟩
  · intro l t w s x ch sram off len c hr hx hch hc hsram hoff hlen hz
    exact ⟨fun hk hpos hmax hlen64 hsram64 hoff64 hi hseg =>
      ⟨exec_dma_queues hr hx hch hc hsram hoff hlen hz hk hpos hmax hlen64 hsram64 hoff64 hi hseg,
        exec_dma_waits hr hx hch hc hsram hoff hlen hz hk hpos hmax hlen64 hsram64 hoff64 hi hseg⟩,
      exec_dma_faults hr hx hch hc hsram hoff hlen hz⟩

end Sys2Proof.Machine
end

section
/-! SUPPORT. Images: the end of a staging, the phases of an activation and its first grant (07 R190, R191, R198 to R201). -/

namespace Sys2Proof.Machine

/-! ## A command that ends with its reply (18 R442) -/

theorem State.finish_replies {s : State} {r : Running} {rep : Reply} (hr : s.runningCmd r.packet.id = some r)
    (ha : r.packet.async = false) (hd : s.proto.dropIds.contains r.packet.id = false) :
    s.finish r.packet.id rep =
      { s with proto := { s.proto with
          running := s.proto.running.filter (·.packet.id ≠ r.packet.id)
          ready := s.proto.ready ++ [mkCompletion r.packet r.commit rep false s.holdsBack] } } := by
  rw [State.finish, hr]
  simp only [State.conclude, ha, Bool.false_eq_true, if_false]
  exact State.ready_kept _ _ _ _ hd

/-! ## Slots -/

@[simp] theorem State.slotCode_setSlot (s : State) (n code : Nat) : (s.setSlot n code).slotCode n = code :=
  Tab.get_set_same 0 code s.img.slotState n

/-- The staging of slot `n` is over. -/
def State.stagingEnded (s : State) (n : Nat) : State :=
  { s with img := { s.img with staging := Tab.set none s.img.staging n none } }

theorem State.stagingEnded_isStaging (s : State) (n : Nat) : (s.stagingEnded n).isStaging n = false := by
  simp only [State.isStaging, State.stagingEnded, Tab.get_set_same, Option.isSome_none]

/-! ## MODEL_STAGE_DONE (07 R190, R194) -/

/-- The image takes its slot, STAGED, in place of any the slot held. -/
def State.keepImage (s : State) (n : Nat) (i : Image) : State :=
  { s.setSlot n 1 with
    img := { (s.setSlot n 1).img with images := i :: s.img.images.filter (·.slot ≠ n), actPred := Config.freeTicks s.fresh }
    fresh := s.fresh + 1 }

theorem State.keepImage_slotCode (s : State) (n : Nat) (i : Image) : (s.keepImage n i).slotCode n = 1 := s.slotCode_setSlot n 1

/-- The end of the command of a staging that is over: the checks and the fit decide the reply and the slot. -/
def State.settleStaging (s : State) (n id : Nat) : State :=
  match s.checkSlot n with
  | .error r => (s.setSlot n 0).finish id r
  | .ok i =>
    match s.fitReply i with
    | .error r => ((s.setSlot n 0).noteShortfall i).finish id r
    | .ok r => (s.keepImage n i).finish id r

theorem exec_modelStageDone {n : Fin 8} {s : State} {id e : Nat} (hs : Tab.get none s.img.staging n.val = some (id, e))
    (hl : s.anyLane = true) : exec (.modelStageDone n) s = .next ((s.stagingEnded n.val).settleStaging n.val id) := by
  have hlane : ¬ (!(s.stagingEnded n.val).anyLane) = true := by
    rw [show (s.stagingEnded n.val).anyLane = true from hl]
    decide
  show execModelStageDone n s = _
  unfold execModelStageDone
  dsimp only
  rw [hs]
  exact congrArg Host.Outcome.next (if_neg hlane)

section
variable {n : Fin 8} {s u : State} {r : Running} {e : Nat} {rep : Reply}
  (hs : Tab.get none s.img.staging n.val = some (r.packet.id, e)) (hl : s.anyLane = true) (hu : u = s.stagingEnded n.val)
  (hr : s.runningCmd r.packet.id = some r) (ha : r.packet.async = false) (hd : s.proto.dropIds.contains r.packet.id = false)
include hs hl hu hr ha hd

theorem modelStageDone_refuses (hc : u.checkSlot n.val = .error rep) :
    ∃ t, exec (.modelStageDone n) s = .next t ∧ t.slotCode n.val = 0 ∧ t.isStaging n.val = false ∧
      t.proto.ready = s.proto.ready ++ [mkCompletion r.packet r.commit rep false s.holdsBack] ∧ t.img.act = s.img.act ∧
      t.img.activeSlot = s.img.activeSlot ∧ t = { s with img := t.img, proto := t.proto } := by
  subst hu
  refine ⟨_, exec_modelStageDone hs hl, ?_⟩
  rw [State.settleStaging, hc]
  dsimp only
  rw [State.finish_replies (s := (s.stagingEnded n.val).setSlot n.val 0) hr ha hd]
  exact ⟨State.slotCode_setSlot _ _ _, s.stagingEnded_isStaging n.val, rfl, rfl, rfl, rfl⟩

theorem modelStageDone_stages {i : Image} (hc : u.checkSlot n.val = .ok i) (hf : u.fitReply i = .ok rep) :
    ∃ t, exec (.modelStageDone n) s = .next t ∧ t.slotCode n.val = 1 ∧ t.isStaging n.val = false ∧
      t.img.images = i :: s.img.images.filter (·.slot ≠ n.val) ∧
      t.proto.ready = s.proto.ready ++ [mkCompletion r.packet r.commit rep false s.holdsBack] ∧
      t = { s with img := t.img, proto := t.proto, fresh := t.fresh } := by
  subst hu
  refine ⟨_, exec_modelStageDone hs hl, ?_⟩
  rw [State.settleStaging, hc]
  dsimp only
  rw [hf]
  dsimp only
  rw [State.finish_replies (s := (s.stagingEnded n.val).keepImage n.val i) hr ha hd]
  exact ⟨(s.stagingEnded n.val).keepImage_slotCode n.val i, s.stagingEnded_isStaging n.val, rfl, rfl, rfl⟩

end

/-! ## Phases of an activation (07 Table 7.11) -/

/-- In every other phase an activation's step does nothing. -/
theorem activation_otherPhase (s : State) :
    (s.img.act ≠ .preparing → exec .activationPrepareDone s = .next s) ∧ (s.img.act ≠ .prepared → exec .activationBoundary s = .next s) ∧
    (s.img.act ≠ .boundary → exec .activationLoadDone s = .next s) ∧ (s.img.act ≠ .loaded → exec .activationStartDone s = .next s) ∧
    (s.img.act ≠ .started → exec .activationFirstGrant s = .next s) :=
  ⟨fun h => congrArg Host.Outcome.next (if_neg h), fun h => congrArg Host.Outcome.next (if_pos (by simp [h])),
    fun h => congrArg Host.Outcome.next (if_pos (by simp [h])), fun h => congrArg Host.Outcome.next (if_pos h),
    fun h => congrArg Host.Outcome.next (if_pos h)⟩

theorem exec_activationPrepareDone {s : State} (h : s.img.act = .preparing) :
    exec .activationPrepareDone s = .next { s with img := { s.img with act := .prepared, swapTicks := 0 } } :=
  congrArg Host.Outcome.next (if_pos h)

/-! ## The boundary (04 R95, R96, R114; 07 R199) -/

/-- What a step boundary leaves of mode and images: all but the operations and the parameter block that waited for it. -/
def State.pastBoundary (s : State) : ModeSt × ImgSt := (s.mode, { s.img with couplingOps := [], blockDue := none })

theorem State.couplingStep_pastBoundary (s : State) (o : CouplingOp) : (s.couplingStep o).pastBoundary = s.pastBoundary := by
  unfold State.couplingStep State.pastBoundary
  dsimp only
  rw [State.finish_mode, State.finish_img]
  -- A copy of the table reads the main lane; every other operation is one pass over the lanes.
  split
  case h_5 => split <;> simp
  all_goals rfl

theorem State.stepBoundary_pastBoundary (s : State) (u : LaneId → List (Nat × U32)) :
    (s.stepBoundary u).pastBoundary = s.pastBoundary := by
  have hc : (s.couplingBoundary u).pastBoundary = s.pastBoundary := by
    unfold State.couplingBoundary
    exact foldl_keeps State.pastBoundary State.couplingStep_pastBoundary _ _
  unfold State.stepBoundary
  dsimp only
  split
  · exact hc
  · exact hc

/-- No headroom: what the next step finds until one is complete. -/
def Lane.headroomLost (x : Lane) : Lane := { x with model := { x.model with headroomZero := true } }

/-- No running lane has headroom, and the activation is at the boundary. -/
def State.toBoundary (s : State) : State := { s.onLanes Lane.headroomLost with img := { s.img with act := .boundary } }

theorem exec_activationBoundary {s : State} (h : s.img.act = .prepared) (hs : s.stepping = false ∨ s.stepEpoch = true)
    (ha : s.mode.authority ≠ .predictive) : exec .activationBoundary s = .next (s.stepBoundary fun _ => []).toBoundary := by
  have hmode : (s.stepBoundary fun _ => []).mode = s.mode := congrArg Prod.fst (s.stepBoundary_pastBoundary _)
  have hstep : (s.stepping && !s.stepEpoch) = false := by rcases hs with hs | hs <;> simp [hs]
  show execActivationBoundary s = _
  unfold execActivationBoundary
  rw [if_neg (by simp [h, hstep])]
  extract_lets a b c g e
  have hb : b = a := if_neg (by rw [hmode]; exact ha)
  have he : e.mode = s.mode := (congrArg State.mode hb).trans hmode
  rw [if_neg fun hp => ha (he ▸ hp.1)]
  exact congrArg (fun u : State => Host.Outcome.next u.toBoundary) hb

theorem State.toBoundary_headroom (s : State) (l : LaneId) (hl : (s.toBoundary.lane l).isRunning = true) :
    (s.toBoundary.lane l).model.headroomZero = true := by
  have hlane : s.toBoundary.lane l = (s.onLanes Lane.headroomLost).lane l := State.lane_congr rfl rfl l
  rw [hlane, State.lane_onLanes] at hl ⊢
  split
  · rfl
  next hrun => exact absurd (by rwa [if_neg hrun] at hl) hrun

theorem activationBoundary_reaches {s : State} (h : s.img.act = .prepared) (hs : s.stepping = false ∨ s.stepEpoch = true)
    (ha : s.mode.authority ≠ .predictive) :
    ∃ t, exec .activationBoundary s = .next t ∧ t.img.act = .boundary ∧ t.img.activeSlot = s.img.activeSlot ∧ t.img.actSlot = s.img.actSlot ∧
      (∀ l, (t.lane l).isRunning → (t.lane l).model.headroomZero = true) ∧ t.mode = s.mode ∧ t.tick = s.tick := by
  have hpast := s.stepBoundary_pastBoundary fun _ => []
  have htick : (s.stepBoundary fun _ => []).tick = s.tick := State.tick_of_core (s.stepBoundary_core _)
  exact ⟨_, exec_activationBoundary h hs ha, rfl, congrArg (·.2.activeSlot) hpast, congrArg (·.2.actSlot) hpast,
    State.toBoundary_headroom _, congrArg Prod.fst hpast, htick⟩

/-! ## The load (07 R200) -/

/-- A lane's fit of the image being activated. -/
def ImgSt.fitOf (g : ImgSt) : LaneId → Fit
  | .A => g.fitA
  | .B => g.fitB

/-- In lane `l`, where it runs: the variant of its fit, loaded. -/
def State.loadLane (s : State) (i : Image) (keep : Bool) (l : LaneId) : State :=
  s.onLane l fun x => if x.isRunning then x.load i (i.variantOf (s.img.fitOf l)) keep else x

/-- The image loaded in the running lanes at their common fits. -/
def State.loadLanes (s : State) (i : Image) (keep : Bool) : State :=
  let u := ((s.putFits i).loadLane i keep .A).loadLane i keep .B
  { u with img := { u.img with act := .loaded } }

/-- The coupling table goes over to the new image: asked for, and both images have one. -/
def State.inheritsTable (s : State) (i : Image) : Bool := s.img.actInherit && i.hasTable && (s.image.map Image.hasTable).getD false

theorem exec_activationLoadDone {s : State} {i : Image} (h : s.img.act = .boundary) (hi : s.actImage = some i)
    (hl : ∀ l, (s.lane l).isRunning = true → (s.lane l).step.running = false) :
    exec .activationLoadDone s = .next (s.loadLanes i (s.inheritsTable i)) := by
  have hidle (l : LaneId) : ((s.lane l).isRunning && (s.lane l).step.running) = false := by
    cases hr : (s.lane l).isRunning
    · rfl
    · exact hl l hr
  have hA : (s.laneA.isRunning && s.laneA.step.running) = false := hidle .A
  have hB : (s.laneB.isRunning && s.laneB.step.running) = false := hidle .B
  show execActivationLoadDone s = _
  unfold execActivationLoadDone
  dsimp only
  rw [if_neg (by simp [h, hA, hB]), hi]
  rfl

theorem State.loadLanes_lane (s : State) (i : Image) (keep : Bool) (l : LaneId) :
    (s.loadLanes i keep).lane l =
      if (s.lane l).isRunning then (s.lane l).load i (i.variantOf ((s.loadLanes i keep).img.fitOf l)) keep else s.lane l := by
  cases l <;> rfl

theorem activationLoadDone_loads {s : State} {i : Image} (h : s.img.act = .boundary) (hi : s.actImage = some i)
    (hl : ∀ l, (s.lane l).isRunning = true → (s.lane l).step.running = false) :
    ∃ t, exec .activationLoadDone s = .next t ∧ t.img.act = .loaded ∧ (∀ l, (s.lane l).isRunning = false → t.lane l = s.lane l) ∧
      (s.img.actInherit = false → ∀ l, (s.lane l).isRunning →
        ∃ f, f = t.img.fitOf l ∧
          (t.lane l).array = loadArray ((s.lane l).dram.readBytes (i.slot * 0x80000000) i.length) (i.variantOf f) ∧ (t.lane l).dram = (s.lane l).dram) ∧
      t = { s with laneA := t.laneA, laneB := t.laneB, img := t.img } := by
  refine ⟨_, exec_activationLoadDone h hi hl, rfl, fun l hr => ?_, fun hn l hr => ?_, rfl⟩
  · rw [State.loadLanes_lane, if_neg (by simp [hr])]
  · have hkeep : s.inheritsTable i = false := by simp [State.inheritsTable, hn]
    refine ⟨(s.loadLanes i (s.inheritsTable i)).img.fitOf l, rfl, ?_⟩
    rw [State.loadLanes_lane, if_pos hr, hkeep]
    simp only [Lane.load, Bool.false_eq_true, if_false, and_self]

/-! ## The start (07 R200) -/

/-- A lane ready for its first step: empty channels, full credits. -/
def Lane.readied (x : Lane) : Lane := { x with array := x.array.refill, step := { x.step with firstStep := true, abortedLast := false } }

theorem activationStartDone_starts {s : State} (h : s.img.act = .loaded) :
    ∃ t, exec .activationStartDone s = .next t ∧ t.img = { s.img with act := .started } ∧
      (∀ l, (s.lane l).isRunning → (t.lane l).step.firstStep = true ∧ (t.lane l).step.abortedLast = false ∧ (t.lane l).array = (s.lane l).array.refill) ∧
      t = { s with laneA := t.laneA, laneB := t.laneB, img := t.img } := by
  refine ⟨{ s.onLanes Lane.readied with img := { s.img with act := .started } }, ?_, rfl, fun l hr => ?_, rfl⟩
  · show execActivationStartDone s = _
    unfold execActivationStartDone
    rw [if_neg (by simp [h])]
    rfl
  · have hlane : ({ s.onLanes Lane.readied with img := { s.img with act := .started } } : State).lane l = (s.lane l).readied := by
      refine (State.lane_congr (s := s.onLanes Lane.readied) rfl rfl l).trans ?_
      rw [State.lane_onLanes, if_pos hr]
    rw [hlane]
    exact ⟨rfl, rfl, rfl⟩

/-! ## The first grant (07 R191, R201) -/

/-- What ends an activation leaves of a lane: its run state and whether its model stands at fault. -/
def Lane.runFault (x : Lane) : LaneRun × Bool := (x.run, x.model.fault)

/-- What the parameter block, the notices and the start's end leave: the tick, the releases, the images but for the block that is
due, and each lane's run state and fault. -/
def State.grantView (s : State) : TickSt × Released × ImgSt × (LaneRun × Bool) × LaneRun × Bool :=
  (s.tick, s.rel, { s.img with actBlock := none, blockDue := none }, s.laneA.runFault, s.laneB.runFault)

theorem State.onLanes_grantView (s : State) {f : Lane → Lane} (hf : ∀ x, (f x).runFault = x.runFault) :
    (s.onLanes f).grantView = s.grantView := by
  have hlane (x : Lane) : (if x.isRunning then f x else x).runFault = x.runFault := by split <;> simp only [hf]
  simp only [State.grantView, State.onLanes, hlane]

theorem State.putThermal_grantView (s : State) (k : ThermalBlock) : (s.putThermal k).grantView = s.grantView :=
  (s.apply [.thermal k]).onLanes_grantView fun _ => rfl

theorem State.logLanes_grantView (s : State) (c y : Nat) (u : U32) (d : List U32) (o : Option Nat) :
    (s.logLanes c y u d o).grantView = s.grantView := by
  have hlane (l : LaneId) : ((s.logLanes c y u d o).lane l).runFault = (s.lane l).runFault := by rw [State.logLanes_lane]; rfl
  have hA : (s.logLanes c y u d o).laneA.runFault = s.laneA.runFault := hlane .A
  have hB : (s.logLanes c y u d o).laneB.runFault = s.laneB.runFault := hlane .B
  simp only [State.grantView, hA, hB, State.logLanes_tick, State.logLanes_rel, State.logLanes_img]

/-- The new image's slot ACTIVE, that of an image it replaces STAGED. -/
def State.replaceActive (s : State) (i : Image) : State :=
  (match s.img.activeSlot with
    | some o => if o = i.slot then s else s.setSlot o 1
    | none => s).setSlot i.slot 2

theorem State.replaceActive_eq (s : State) (i : Image) :
    s.replaceActive i = { s with img := { s.img with slotState := (s.replaceActive i).img.slotState } } := by
  unfold State.replaceActive
  split
  · split <;> rfl
  · rfl

theorem State.replaceActive_slotCode (s : State) (i : Image) : (s.replaceActive i).slotCode i.slot = 2 := State.slotCode_setSlot _ _ _

/-- The runtime and the governor of a lane as an activation leaves them. -/
def Lane.atActivation (x : Lane) (i : Image) (now : Nat) : Lane :=
  { x with model := x.model.atActivation now, gov := x.gov.atActivation i }

/-- The image in force from this epoch on: no results since the grant, and the activation over. -/
def State.putInForce (s : State) (i : Image) : State :=
  let u := s.onLanes fun x => x.atActivation i s.now
  { u with
    rel := { u.rel with sinceGrant := [] }
    img := { u.img with
      act := .idle, activeSlot := some i.slot, kMod := u.kFor i, kNext := none, phaseEpoch := u.now, firstEpoch := some u.now
      remapped := false, stepAborts := 0, actCmd := none } }

theorem State.putInForce_lane (s : State) (i : Image) (l : LaneId) :
    (s.putInForce i).lane l = if (s.lane l).isRunning then (s.lane l).atActivation i s.now else s.lane l := by
  refine (State.lane_congr (s := s.onLanes fun x => x.atActivation i s.now) rfl rfl l).trans ?_
  rw [State.lane_onLanes]

theorem State.putInForce_fault (s : State) (i : Image) (l : LaneId) (hl : ((s.putInForce i).lane l).isRunning = true) :
    ((s.putInForce i).lane l).model.fault = false := by
  rw [State.putInForce_lane] at hl ⊢
  split
  · rfl
  next hrun => exact absurd (by rwa [if_neg hrun] at hl) hrun

/-- A lane's k depends on its run state and tiles, not on its runtime or governor. -/
theorem State.putInForce_kMod (s : State) (i : Image) : (s.putInForce i).img.kMod = s.kFor i := by
  have hk (x : Lane) : (if (if x.isRunning then x.atActivation i s.now else x).isRunning
      then (i.fit (if x.isRunning then x.atActivation i s.now else x)).k else 0) = if x.isRunning then (i.fit x).k else 0 := by
    cases hr : x.isRunning <;> simp only [Bool.false_eq_true, if_false, if_true, hr]
    exact if_pos hr
  exact congrArg₂ (fun a b => max 1 (max a b)) (hk s.laneA) (hk s.laneB)

/-- The parameter block of the activation in force, a notice for each loop whose binding the image lacks, and no block due. -/
def State.takeBlock (s : State) (i : Image) : State :=
  let u := match s.img.actBlock with
    | some b => s.putThermal b
    | none => s
  let v := (unboundLoops u.cfg i).foldl (fun (s : State) n => s.logLanes Cls.notice 0x0309 (w32 n) []) u
  { v with img := { v.img with actBlock := none, blockDue := none } }

theorem State.takeBlock_grantView (s : State) (i : Image) : (s.takeBlock i).grantView = s.grantView := by
  unfold State.takeBlock
  extract_lets u v
  have hu : u.grantView = s.grantView := by
    unfold u
    split
    · exact s.putThermal_grantView _
    · rfl
  exact (foldl_keeps State.grantView (fun t n => t.logLanes_grantView _ _ _ _ _) _ u).trans hu

theorem State.takeBlock_keeps (s : State) (i : Image) :
    (s.takeBlock i).tick = s.tick ∧ (s.takeBlock i).rel = s.rel ∧
      (s.takeBlock i).img = { s.img with actBlock := none, blockDue := none } ∧
      ∀ l, ((s.takeBlock i).lane l).runFault = (s.lane l).runFault := by
  have h := s.takeBlock_grantView i
  simp only [State.grantView, Prod.mk.injEq] at h
  obtain ⟨htick, hrel, himg, hA, hB⟩ := h
  refine ⟨htick, hrel, himg, fun l => ?_⟩
  cases l
  · exact hA
  · exact hB

theorem State.grantStep_lane (s : State) (i : Image) (l : LaneId) :
    ((s.grantStep i).lane l).runFault = (s.lane l).runFault ∧
      ((s.lane l).isRunning = true → ((s.grantStep i).lane l).step.running = true ∧ ((s.grantStep i).lane l).step.epoch = s.now) := by
  have hlane : (s.grantStep i).lane l = if (s.lane l).isRunning
      then (s.lane l).startStep i s.now (s.now + s.img.kMod - 1) s.tLimit s.tick.frame.bytes else s.lane l := by cases l <;> rfl
  rw [hlane]
  split
  · simp only [Lane.startStep, Lane.runFault, and_self, implies_true]
  next hrun => exact ⟨rfl, fun hr => absurd hr hrun⟩

/-- The start over where it was settling, and the command that asked for the activation ended with `k`. -/
def State.endActivation (s : State) (cmd : Option Nat) (k : Nat) : State :=
  let u := if bit s.mode.modeCfgActive 1 then s else s.startOver
  match cmd with
  | some id =>
    let save := match u.runningCmd id with
      | some r => r.save
      | none => []
    u.finish id { status := if k = 1 then SC.ok else SC.modelDecimated, r0 := w32 k, save := save }
  | none => u

theorem State.startOver_eq (s : State) : s.startOver = { s with mode := s.startOver.mode, hif := s.startOver.hif } := by
  unfold State.startOver
  split
  · rfl
  · rw [State.setModeEvent_eq]

theorem State.endActivation_keeps (s : State) (cmd : Option Nat) (k : Nat) :
    (s.endActivation cmd k).img = s.img ∧ (s.endActivation cmd k).rel = s.rel ∧ ∀ l, (s.endActivation cmd k).lane l = s.lane l := by
  unfold State.endActivation
  extract_lets u
  have hu : u = { s with mode := u.mode, hif := u.hif } := by
    unfold u
    split
    · rfl
    · exact s.startOver_eq
  have himg : u.img = s.img := (congrArg State.img hu :)
  have hrel : u.rel = s.rel := (congrArg State.rel hu :)
  have hlane (l : LaneId) : u.lane l = s.lane l := State.lane_congr (congrArg State.laneA hu :) (congrArg State.laneB hu :) l
  split
  · refine ⟨(State.finish_img _ _ _).trans himg, (State.finish_rel _ _ _).trans hrel, fun l => ?_⟩
    exact (State.lane_congr (State.finish_laneA _ _ _) (State.finish_laneB _ _ _) l).trans (hlane l)
  · exact ⟨himg, hrel, hlane⟩

/-- The stages of a first grant: the slots, the image in force, its parameter block, the step, and the command's reply. -/
theorem exec_activationFirstGrant {s : State} {i : Image} (h : s.img.act = .started) (hi : s.actImage = some i) :
    exec .activationFirstGrant s =
      .next (((((s.replaceActive i).putInForce i).takeBlock i).grantStep i).endActivation (s.replaceActive i).img.actCmd
        ((s.replaceActive i).putInForce i).img.kMod) := by
  show execActivationFirstGrant s = _
  unfold execActivationFirstGrant
  rw [if_neg (by simp [h]), hi]
  rfl

/-- From an image in force to the end of its first grant: the images but for the block due, the releases, and the fault of a
running lane stay, and its step starts. -/
theorem State.grant_ends (a : State) (i : Image) (cmd : Option Nat) (k : Nat) :
    ∃ t, t = ((a.takeBlock i).grantStep i).endActivation cmd k ∧ t.img = { a.img with actBlock := none, blockDue := none } ∧ t.rel = a.rel ∧
      ∀ l, (t.lane l).isRunning = true → (a.lane l).isRunning = true ∧ (t.lane l).model.fault = (a.lane l).model.fault ∧
        (t.lane l).step.running = true ∧ (t.lane l).step.epoch = a.now := by
  obtain ⟨htick, hrel, himg, hfault⟩ := a.takeBlock_keeps i
  obtain ⟨himg', hrel', hlane'⟩ := ((a.takeBlock i).grantStep i).endActivation_keeps cmd k
  refine ⟨_, rfl, himg'.trans himg, hrel'.trans hrel, fun l hl => ?_⟩
  obtain ⟨hstep, hstart⟩ := (a.takeBlock i).grantStep_lane i l
  rw [hlane'] at hl ⊢
  have hrun : ((a.takeBlock i).lane l).isRunning = true := (congrArg (·.1.isRunning) hstep).symm.trans hl
  obtain ⟨hgoes, hepoch⟩ := hstart hrun
  exact ⟨(congrArg (·.1.isRunning) (hfault l)).symm.trans hrun, congrArg Prod.snd (hstep.trans (hfault l)), hgoes,
    hepoch.trans (congrArg TickSt.epoch htick)⟩

theorem activationFirstGrant_grants {s : State} {i : Image} (h : s.img.act = .started) (hi : s.actImage = some i) :
    ∃ t, exec .activationFirstGrant s = .next t ∧ t.img.act = .idle ∧ t.img.activeSlot = some i.slot ∧ t.slotCode i.slot = 2 ∧
      t.img.firstEpoch = some s.now ∧ t.img.phaseEpoch = s.now ∧ t.img.kMod = s.kFor i ∧ t.rel.sinceGrant = [] ∧
      (∀ l, (t.lane l).isRunning → (t.lane l).model.fault = false ∧ (t.lane l).step.running = true ∧ (t.lane l).step.epoch = s.now) := by
  obtain ⟨t, ht, himg, hrel, hlane⟩ := ((s.replaceActive i).putInForce i).grant_ends i (s.replaceActive i).img.actCmd
    ((s.replaceActive i).putInForce i).img.kMod
  have hrepl := s.replaceActive_eq i
  have hnow : (s.replaceActive i).now = s.now := (congrArg State.now hrepl :)
  have hk : (s.replaceActive i).kFor i = s.kFor i := (congrArg (State.kFor · i) hrepl :)
  refine ⟨t, by rw [exec_activationFirstGrant h hi, ht], ?_⟩
  rw [himg, hrel]
  refine ⟨rfl, rfl, ?_, congrArg some hnow, hnow, (State.putInForce_kMod _ i).trans hk, rfl, fun l hl => ?_⟩
  · rw [State.slotCode, himg]
    exact s.replaceActive_slotCode i
  · obtain ⟨hrun, hfault, hgoes, hepoch⟩ := hlane l hl
    exact ⟨hfault.trans (State.putInForce_fault _ i l hrun), hgoes, hepoch.trans hnow⟩

/-! ## O43 -/

/-- Settles O43, phase by phase. -/
theorem imageActivationInOrder : Obligations.ImageActivationInOrder := by
  unfold Obligations.ImageActivationInOrder
  refine ⟨?_, ?_, ?_, ?_, ?_, ?_, ?_, activation_otherPhase⟩
  · exact fun _ _ _ _ _ _ hs hl hu hc hr ha hd => modelStageDone_refuses hs hl hu hr ha hd hc
  · exact fun _ _ _ _ _ _ _ hs hl hu hc hf hr ha hd => modelStageDone_stages hs hl hu hr ha hd hc hf
  · exact fun _ h => ⟨_, exec_activationPrepareDone h, rfl⟩
  · exact fun _ => activationBoundary_reaches
  · exact fun _ _ => activationLoadDone_loads
  · exact fun _ => activationStartDone_starts
  · exact fun _ _ => activationFirstGrant_grants

end Sys2Proof.Machine
end

section
/-! SUPPORT. The governor's own rows, made in each running lane (08 R215, R221, R222, R233). -/

namespace Sys2Proof.Machine

/-! ## Rows made lane by lane -/

/-- A row of both lanes, lane A's first. -/
def State.laneByLane (s : State) (row : State → LaneId → State) : State := row (row s .A) .B

/-- In each lane the row changes that lane alone. -/
def LaneAlone (row : State → LaneId → State) : Prop := ∀ s l, ∃ x, row s l = s.setLane l x

section
variable {row : State → LaneId → State} (h : LaneAlone row) (s : State)
include h

theorem State.laneByLane_frame :
    s.laneByLane row = { s with laneA := (s.laneByLane row).laneA, laneB := (s.laneByLane row).laneB } := by
  obtain ⟨x, hx⟩ := h s .A
  obtain ⟨y, hy⟩ := h (s.setLane .A x) .B
  rw [State.laneByLane, hx, hy]
  rfl

/-- Each lane is what its own row makes of it, in a state that differs at most in the other lane. -/
theorem State.laneByLane_lane (l : LaneId) :
    ∃ u : State, u.cfg = s.cfg ∧ u.lane l = s.lane l ∧ (s.laneByLane row).lane l = (row u l).lane l := by
  obtain ⟨x, hx⟩ := h s .A
  cases l with
  | A =>
    obtain ⟨y, hy⟩ := h (row s .A) .B
    exact ⟨s, rfl, rfl, by rw [State.laneByLane, hy]; rfl⟩
  | B => exact ⟨row s .A, by rw [hx]; rfl, by rw [hx]; rfl, rfl⟩

end

/-! ## A record of the governor and its event (R215, R233) -/

/-- In lane `l`, where it runs and `due` holds of its governor: the governor becomes `f` of it, and the event is logged. -/
def State.govRow (cls ty scope : Nat) (due : GovSt → Bool) (f : GovSt → GovSt) (ws : GovSt → List U32) (s : State) (l : LaneId) : State :=
  if (s.lane l).isRunning && due (s.lane l).gov then
    (s.onLane l fun x => { x with gov := f x.gov }).logIn l cls ty (w32 scope) (ws (s.lane l).gov)
  else s

section
variable {cls ty scope : Nat} {due : GovSt → Bool} {f : GovSt → GovSt} {ws : GovSt → List U32} {s : State} {l : LaneId}

theorem State.govRow_laneAlone : LaneAlone (State.govRow cls ty scope due f ws) := by
  intro s l
  unfold State.govRow
  split
  · cases l <;> exact ⟨_, rfl⟩
  · exact ⟨s.lane l, by cases l <;> rfl⟩

theorem State.govRow_gov (hl : (s.lane l).isRunning = true) (hdue : due (s.lane l).gov = true) :
    ((s.laneByLane (State.govRow cls ty scope due f ws)).lane l).gov = f (s.lane l).gov := by
  obtain ⟨u, -, hu, hrow⟩ := s.laneByLane_lane (row := State.govRow cls ty scope due f ws) State.govRow_laneAlone l
  rw [hrow, State.govRow, hu, if_pos (by simp [hl, hdue]), ← hu]
  cases l <;> rfl

theorem State.govRow_notDue (hdue : due (s.lane l).gov = false) :
    (s.laneByLane (State.govRow cls ty scope due f ws)).lane l = s.lane l := by
  obtain ⟨u, -, hu, hrow⟩ := s.laneByLane_lane (row := State.govRow cls ty scope due f ws) State.govRow_laneAlone l
  rw [hrow, State.govRow, hu, if_neg (by simp [hdue]), hu]

end

/-! ## Shed reports (R215) -/

/-- A governor whose shed request of `scope` has become `f` of it. -/
def GovSt.onShed (g : GovSt) (scope : Nat) (f : Shed → Shed) : GovSt := { g with sheds := Tab.modify {} g.sheds scope f }

theorem State.shedRow_eq (s : State) (scope : Nat) (due : Shed → Bool) (f : Shed → Shed) (cls ty : Nat) (ws : Shed → List U32) :
    s.shedRow scope due f cls ty ws =
      s.laneByLane (State.govRow cls ty scope (fun g => due (Tab.get {} g.sheds scope)) (·.onShed scope f)
        fun g => ws (Tab.get {} g.sheds scope)) := by
  unfold State.shedRow
  extract_lets one
  have hone (u : State) (l : LaneId) : one u l = State.govRow cls ty scope (fun g => due (Tab.get {} g.sheds scope)) (·.onShed scope f)
      (fun g => ws (Tab.get {} g.sheds scope)) u l := by
    unfold one State.govRow
    dsimp only
    by_cases hdue : ((u.lane l).isRunning && due (Tab.get {} (u.lane l).gov.sheds scope)) = true
    · rw [if_pos hdue, if_neg (by simpa using hdue)]
      cases l <;> rfl
    · rw [if_neg hdue, if_pos (by rwa [← Bool.not_and, Bool.not_eq_true', ← Bool.not_eq_true])]
  rw [hone, hone]
  rfl

section
variable {k : Nat} {l : LaneId} {s : State} {d : Shed} (hl : (s.lane l).isRunning = true) (hd : d = Tab.get {} (s.lane l).gov.sheds k)
include hl hd

theorem State.shedRow_due {due : Shed → Bool} {f : Shed → Shed} {cls ty : Nat} {ws : Shed → List U32} (hdue : due d = true) :
    Tab.get {} ((s.shedRow k due f cls ty ws).lane l).gov.sheds k = f d ∧
      s.shedRow k due f cls ty ws =
        { s with laneA := (s.shedRow k due f cls ty ws).laneA, laneB := (s.shedRow k due f cls ty ws).laneB } := by
  subst hd
  rw [State.shedRow_eq]
  refine ⟨?_, s.laneByLane_frame State.govRow_laneAlone⟩
  rw [State.govRow_gov hl hdue]
  exact Tab.get_modify_same _ _ _ _

theorem shedRepeat_reports (ha : d.active = true) (hw : 0 < d.leftW) (hn : d.lastPass + 10000 ≤ s.now) :
    ∃ t, exec (.shedRepeat k) s = .next t ∧ Tab.get {} (t.lane l).gov.sheds k = { d with lastW := d.leftW, lastPass := s.now } ∧
      t = { s with laneA := t.laneA, laneB := t.laneB } :=
  ⟨_, rfl, State.shedRow_due hl hd (by simp [ha, hw, hn])⟩

theorem shedClear_clears (ha : d.active = true) (hc : 100 ≤ d.clearRun) :
    ∃ t, exec (.shedClear k) s = .next t ∧ Tab.get {} (t.lane l).gov.sheds k = { d with active := false, lastW := 0 } ∧
      t = { s with laneA := t.laneA, laneB := t.laneB } :=
  ⟨_, rfl, State.shedRow_due hl hd (by simp [ha, hc])⟩

omit hl in
theorem shedClear_tooEarly (hc : d.clearRun < 100) : ∃ t, exec (.shedClear k) s = .next t ∧ t.lane l = s.lane l := by
  subst hd
  refine ⟨_, rfl, ?_⟩
  rw [State.shedRow_eq]
  exact State.govRow_notDue (by simp [hc])

end

/-! ## OVER_CAP (R233) -/

/-- A governor whose record of chip `c` has become `f` of it. -/
def GovSt.onChip (g : GovSt) (c : Nat) (f : GovChip → GovChip) : GovSt := { g with chips := Tab.modify {} g.chips c f }

theorem GovSt.chip_onChip_same (g : GovSt) (c : Nat) (f : GovChip → GovChip) :
    Tab.get {} (g.onChip c f).chips c = f (Tab.get {} g.chips c) := Tab.get_modify_same _ _ _ _

theorem GovSt.chip_onChip_other (g : GovSt) {i c : Nat} (f : GovChip → GovChip) (h : i ≠ c) :
    Tab.get {} (g.onChip c f).chips i = Tab.get {} g.chips i := Tab.get_modify_other _ _ _ h

/-- OVER_CAP is due to a chip not marked yet, after ten passes above its cap. -/
def GovChip.overDue (g : GovChip) : Bool := !g.overCap && 10 ≤ g.overRun

theorem exec_overCap_eq (c : Fin 4096) (s : State) :
    exec (.overCap c) s = .next (s.laneByLane (State.govRow Cls.warning 0x0405 c.val (fun g => (Tab.get {} g.chips c.val : GovChip).overDue)
      (·.onChip c.val fun g => { g with overCap := true }) fun _ => [])) := by
  show execOverCap c s = _
  unfold execOverCap
  extract_lets c one
  have hone (u : State) (l : LaneId) : one u l = State.govRow Cls.warning 0x0405 c (fun g => (Tab.get {} g.chips c : GovChip).overDue)
      (·.onChip c fun g => { g with overCap := true }) (fun _ => []) u l := by
    unfold one State.govRow
    dsimp only
    by_cases hdue : ((u.lane l).isRunning && ((u.lane l).govChip c).overDue) = true
    · rw [if_neg (by simpa [GovChip.overDue, and_assoc] using hdue)]
      exact (if_pos hdue).symm
    · rw [if_pos (by simpa [GovChip.overDue, ← Bool.not_eq_true, imp_iff_not_or, or_assoc] using hdue)]
      exact (if_neg hdue).symm
  rw [hone, hone]
  rfl

section
variable {c : Fin 4096} {l : LaneId} {s : State}

theorem overCap_marks (hl : (s.lane l).isRunning = true) (ho : ((s.lane l).govChip c.val).overCap = false)
    (hr : 10 ≤ ((s.lane l).govChip c.val).overRun) :
    ∃ t, exec (.overCap c) s = .next t ∧ (t.lane l).govChip c.val = { (s.lane l).govChip c.val with overCap := true } ∧
      (∀ i, i ≠ c.val → (t.lane l).govChip i = (s.lane l).govChip i) ∧ t = { s with laneA := t.laneA, laneB := t.laneB } := by
  have hdue : ((s.lane l).govChip c.val).overDue = true := by simp [GovChip.overDue, ho, hr]
  refine ⟨_, exec_overCap_eq c s, ?_, fun i hi => ?_, s.laneByLane_frame State.govRow_laneAlone⟩
  · rw [Lane.govChip, State.govRow_gov hl hdue, GovSt.chip_onChip_same]
    rfl
  · rw [Lane.govChip, State.govRow_gov hl hdue, GovSt.chip_onChip_other _ _ hi]
    rfl

theorem overCap_tooEarly (hr : ((s.lane l).govChip c.val).overRun < 10) :
    ∃ t, exec (.overCap c) s = .next t ∧ t.lane l = s.lane l := by
  have hdue : ((s.lane l).govChip c.val).overDue = false := by simp [GovChip.overDue, hr]
  exact ⟨_, exec_overCap_eq c s, State.govRow_notDue hdue⟩

end

/-! ## SYNC_ACTIVE (R221, R222) -/

theorem Lane.govJob_onGovJob_same (x : Lane) (j : Nat) (f : GovJob → GovJob) : (x.onGovJob j f).govJob j = f (x.govJob j) :=
  Tab.get_modify_same _ _ _ _

theorem Lane.govJob_onGovJob_other (x : Lane) {i j : Nat} (f : GovJob → GovJob) (h : i ≠ j) : (x.onGovJob j f).govJob i = x.govJob i :=
  Tab.get_modify_other _ _ _ h

/-- Changes of chips leave the jobs as they were. -/
theorem Lane.jobs_foldl_onGovChip {α : Type} (ms : List α) (c : α → Nat) (f : α → GovChip → GovChip) (x : Lane) :
    (ms.foldl (fun y p => y.onGovChip (c p) (f p)) x).gov.jobs = x.gov.jobs :=
  foldl_keeps (fun y : Lane => y.gov.jobs) (f := fun y p => y.onGovChip (c p) (f p)) (fun _ _ => rfl) ms x

/-- A job that enters SYNC_ACTIVE, its run without a ceiling at 0. -/
def GovJob.syncEntered (g : GovJob) : GovJob := { g with syncActive := true, noCeilRun := 0 }

/-- SYNC_ACTIVE_ENTRY lane by lane: of a lane's jobs it changes only the one that enters. -/
theorem exec_syncActiveEntry_eq (j : Fin 256) (s : State) :
    ∃ row, exec (.syncActiveEntry j) s = .next (s.laneByLane row) ∧ LaneAlone row ∧
      ∀ (u : State) (l : LaneId) (d : Job), (u.lane l).isRunning = true → Tab.get none u.cfg.jobs j.val = some d → d.paceEnable = true →
        ((u.lane l).govJob j.val).syncActive = false → (u.cfg.paceOf j.val).confirm ≤ ((u.lane l).govJob j.val).ceilRun →
        ((row u l).lane l).gov.jobs = ((u.lane l).onGovJob j.val GovJob.syncEntered).gov.jobs := by
  show ∃ row, execSyncActiveEntry j s = _ ∧ _
  unfold execSyncActiveEntry
  extract_lets k one
  refine ⟨one, rfl, fun u l => ?_, fun u l d hl hj hp ha hr => ?_⟩
  · unfold one
    dsimp only
    split
    · exact ⟨u.lane l, by cases l <;> rfl⟩
    · exact ⟨_, rfl⟩
  · unfold one
    change Tab.get none u.cfg.jobs k = some d at hj
    change ((u.lane l).govJob k).syncActive = false at ha
    change (u.cfg.paceOf k).confirm ≤ ((u.lane l).govJob k).ceilRun at hr
    dsimp only
    rw [if_neg (by simp [hl, hj, hp, ha, hr]), State.lane_setLane_same]
    dsimp only
    rw [Lane.jobs_foldl_onGovChip]
    rfl

theorem syncActiveEntry_enters {j : Fin 256} {l : LaneId} {s : State} {d : Job} (hl : (s.lane l).isRunning = true)
    (hj : Tab.get none s.cfg.jobs j.val = some d) (hp : d.paceEnable = true) (ha : ((s.lane l).govJob j.val).syncActive = false)
    (hr : (s.cfg.paceOf j.val).confirm ≤ ((s.lane l).govJob j.val).ceilRun) :
    ∃ t, exec (.syncActiveEntry j) s = .next t ∧ (t.lane l).govJob j.val = { (s.lane l).govJob j.val with syncActive := true, noCeilRun := 0 } ∧
      (∀ i, i ≠ j.val → (t.lane l).govJob i = (s.lane l).govJob i) ∧ t = { s with laneA := t.laneA, laneB := t.laneB } := by
  obtain ⟨row, hexec, halone, hrow⟩ := exec_syncActiveEntry_eq j s
  obtain ⟨u, hcfg, hu, hlane⟩ := s.laneByLane_lane halone l
  have hjobs : ((s.laneByLane row).lane l).gov.jobs = ((s.lane l).onGovJob j.val GovJob.syncEntered).gov.jobs := by
    rw [← hu] at hl ha hr ⊢
    rw [← hcfg] at hj hr
    rw [hlane, hrow u l d hl hj hp ha hr]
  have hget (i : Nat) : ((s.laneByLane row).lane l).govJob i = ((s.lane l).onGovJob j.val GovJob.syncEntered).govJob i :=
    congrArg (Tab.get ({} : GovJob) · i) hjobs
  exact ⟨_, hexec, (hget _).trans (Lane.govJob_onGovJob_same _ _ _), fun i hi => (hget i).trans (Lane.govJob_onGovJob_other _ _ hi),
    s.laneByLane_frame halone⟩

/-- SYNC_ACTIVE_END in a running lane: the job leaves SYNC_ACTIVE after confirm passes without a ceiling, or nothing changes. -/
def Lane.syncEnded (x : Lane) (j confirm : Nat) : Lane :=
  if (x.govJob j).syncActive && confirm ≤ (x.govJob j).noCeilRun then x.onGovJob j fun g => { g with syncActive := false } else x

theorem exec_syncActiveEnd_eq (j : Fin 256) (s : State) :
    exec (.syncActiveEnd j) s = .next (s.onLanes (·.syncEnded j.val (s.cfg.paceOf j.val).confirm)) := rfl

section
variable {j : Fin 256} {l : LaneId} {s : State} (hl : (s.lane l).isRunning = true)
include hl

theorem syncActiveEnd_ends (ha : ((s.lane l).govJob j.val).syncActive = true)
    (hr : (s.cfg.paceOf j.val).confirm ≤ ((s.lane l).govJob j.val).noCeilRun) :
    ∃ t, exec (.syncActiveEnd j) s = .next t ∧ (t.lane l).govJob j.val = { (s.lane l).govJob j.val with syncActive := false } ∧
      (∀ i, i ≠ j.val → (t.lane l).govJob i = (s.lane l).govJob i) ∧ t = { s with laneA := t.laneA, laneB := t.laneB } := by
  refine ⟨_, exec_syncActiveEnd_eq j s, ?_, fun i hi => ?_, rfl⟩
  · rw [State.lane_onLanes, if_pos hl, Lane.syncEnded, if_pos (by simp [ha, hr]), Lane.govJob_onGovJob_same]
  · rw [State.lane_onLanes, if_pos hl, Lane.syncEnded, if_pos (by simp [ha, hr]), Lane.govJob_onGovJob_other _ _ hi]

theorem syncActiveEnd_tooEarly (hr : ((s.lane l).govJob j.val).noCeilRun < (s.cfg.paceOf j.val).confirm) :
    ∃ t, exec (.syncActiveEnd j) s = .next t ∧ t.lane l = s.lane l := by
  refine ⟨_, exec_syncActiveEnd_eq j s, ?_⟩
  rw [State.lane_onLanes, if_pos hl, Lane.syncEnded, if_neg (by simp [hr])]

end

/-! ## O45 -/

/-- Settles O45, row by row: SHED_REPEAT, SHED_CLEAR and OVER_CAP are `State.govRow`, the sync rows change their job alone. -/
theorem governorRows : Obligations.GovernorRows := by
  unfold Obligations.GovernorRows
  refine ⟨fun _ _ _ _ => syncActiveEntry_enters, fun _ _ _ hl ha => ⟨syncActiveEnd_ends hl ha, syncActiveEnd_tooEarly hl⟩, ?_, ?_⟩
  · exact fun _ _ _ _ hl hd ha => ⟨shedRepeat_reports hl hd ha, shedClear_clears hl hd ha, shedClear_tooEarly hd⟩
  · exact fun _ _ _ hl ho => ⟨overCap_marks hl ho, overCap_tooEarly⟩

end Sys2Proof.Machine
end

section
/-! SUPPORT. The governor's opcodes: their checks pass, and their changes wait for the next pass (08 R208, R227 to R232; 19 R472). -/

namespace Sys2Proof.Machine

/-! ## Reserved fields -/

theorem Packet.zeroRange_of_blockOk {p : Packet} {size : Nat} {res : List (Nat × Nat)} (h : p.blockOk size res = true) {r : Nat × Nat}
    (hr : r ∈ res) : zeroRange p.block r.1 r.2 = true := by
  simp only [Packet.blockOk, Bool.and_eq_true, List.all_eq_true] at h
  exact h.2 r hr

/-- A block that fits fits any lesser demand. -/
theorem Packet.blockOk_mono {p : Packet} {size n : Nat} {res : List (Nat × Nat)} (h : p.blockOk size res = true) (hn : 4 ≤ n)
    (hle : n ≤ size) : p.blockOk n [] = true := by
  simp only [Packet.blockOk, Bool.and_eq_true, decide_eq_true_eq, List.all_nil, and_true] at h ⊢
  obtain ⟨⟨⟨hver, hlen⟩, hsize⟩, hmod⟩ := h.1
  exact ⟨⟨⟨hver, hlen⟩, hn, hle.trans hsize.2⟩, hmod⟩

/-- A field whose bytes are zero reads 0. -/
theorem fieldAt_zeroRange {b : List Byte} {off n : Nat} (h : zeroRange b off n = true) : fieldAt b off n = 0 := by
  have hzero (l : List Byte) (hl : l.all (· == 0) = true) : leNat l = 0 := by
    induction l with
    | nil => rfl
    | cons x l ih =>
      obtain ⟨hx, hl⟩ := Bool.and_eq_true_iff.mp hl
      rw [leNat, ih hl, eq_of_beq hx]
      rfl
  exact hzero _ h

/-! ## A governor command that passes its checks -/

/-- The axes of the governor opcodes let a serving module's commands pass. -/
theorem govAxes_serves {s : State} (h : s.serves) (p : Packet) (q : ProtoSt) : govAxes p { s with proto := q } = .ok () := by
  obtain ⟨-, hu, hc, -, -⟩ := h
  exact axes_pass (by simp [hu, hc])

/-- The state in which a governor command has been logged, waits for the next pass and for its cap set, and runs on. -/
def State.awaitsPass (s : State) (op : Nat) (p : Packet) (items : List CfgItem) (slots : List Nat) : State :=
  { s.cfgLogged op p with
    proto := s.begun op p items, passDue := s.passDue ++ items, govWait := s.govWait ++ [{ cmd := s.proto.nextId, slots := slots }] }

section
variable {s : State} {p : Packet} {op : Nat} {shape : Packet → Except Reply Unit} {body : Nat → Packet → State → Except Reply (State × CmdEnd)}
  {o : Host.Outcome State Fault Refusal} (ho : o = .next (s.runCmd op false p shape govAxes fun _ p s => body p.id p s))
  (hp : s.accepts p) (hs : s.serves) (hshape : shape (s.taken op p) = .ok ())
include ho hp hs hshape

theorem exec_governs {items : List CfgItem} {slots : List Nat}
    (hbody : body s.proto.nextId (s.taken op p) { s with proto := s.took op p } =
      .ok (State.govCommand { s with proto := s.took op p } (s.taken op p) s.proto.nextId items slots)) :
    ∃ t, o = .next t ∧ t = s.awaitsPass op p items slots := by
  refine ⟨_, ho, (State.runCmd_later s _ op false p items _ _ _ hp hshape (.inr hs.1) (govAxes_serves hs _ _) hbody ?_).trans ?_⟩
  · simp only [State.logConfig, State.logLanes_proto]
    rfl
  · simp only [State.awaitsPass, State.cfgLogged, State.logConfig, State.logLanes_eq]
    rfl

theorem exec_governs_not {r : Reply} (hbody : body s.proto.nextId (s.taken op p) { s with proto := s.took op p } = .error r) :
    ∃ t, o = .next t ∧ t = { s with proto := s.answered op p r } :=
  ⟨_, ho, State.runCmd_error s op false p r _ _ _ hp hshape (.inr hs.1) (govAxes_serves hs _ _) hbody⟩

end

/-! ## JOB_DEFINE (R227) -/

/-- The job a JOB_DEFINE block describes. -/
def Packet.jobRec (p : Packet) : Job :=
  { priority := u8At p.block 6, paceEnable := bit (u8At p.block 7) 0, swingEnable := bit (u8At p.block 7) 1, capMax := u16At p.block 8
    capDefault := u16At p.block 10, members := memberList p.block 16 }

/-- Another job than `j` has chip `c` as a member. -/
def Cfg.memberElsewhere (g : Cfg) (j c : Nat) : Bool :=
  g.jobs.any fun e => e.1 ≠ j && (e.2.map fun d => d.members.contains c).getD false

theorem Cfg.memberElsewhere_eq_false {g : Cfg} {j c : Nat} (h : ∀ e ∈ g.jobs, e.1 ≠ j → ∀ x, e.2 = some x → c ∉ x.members) :
    g.memberElsewhere j c = false := by
  simp only [Cfg.memberElsewhere, List.any_eq_false, Bool.and_eq_true, decide_eq_true_eq]
  rintro ⟨k, _ | x⟩ he ⟨hk, hc⟩
  · exact absurd hc (by simp)
  · exact h _ he hk x rfl (by simpa using hc)

theorem Cfg.memberElsewhere_singleton {g : Cfg} {j k c : Nat} {x : Job} (hg : g.jobs = [(k, some x)]) (hk : k ≠ j) (hc : c ∈ x.members) :
    g.memberElsewhere j c = true := by
  simp [Cfg.memberElsewhere, hg, hk, hc]

section
variable {id : Nat} {p : Packet} {s : State} (h6 : u8At p.block 6 ≤ 3) (h7 : u8At p.block 7 ≤ 3) (hz : zeroRange p.block 12 4 = true)
include h6 h7 hz

theorem jobDefineBody_removes (h5 : u8At p.block 5 = 1) (hm : memberList p.block 16 = []) :
    jobDefineBody id p s = .ok (s.govCommand p id [.job (u8At p.block 4) none] []) := by
  unfold jobDefineBody
  dsimp only
  rw [refuseIf_pass (by simp [h5]), refuseIf_pass (by simp [h6]), refuseIf_pass (by simp; omega), refuseIf_pass (by simp [hz]), if_pos h5,
    refuseIf_pass (by simp [hm])]
  rfl

/-- A definition looks for a member that another job has, and then compares the caps. -/
theorem jobDefineBody_definition (h5 : u8At p.block 5 = 0) :
    jobDefineBody id p s =
      ((memberList p.block 16).find? (s.planned.memberElsewhere (u8At p.block 4))).elim
        (refuseIf (u16At p.block 8 < u16At p.block 10) .badNone >>= fun _ =>
          .ok (s.govCommand p id [.job (u8At p.block 4) (some p.jobRec)] []))
        fun c => .error (.badParam c) := by
  unfold jobDefineBody Cfg.memberElsewhere
  dsimp only
  rw [refuseIf_pass (by simp [h5]), refuseIf_pass (by simp [h6]), refuseIf_pass (by simp; omega), refuseIf_pass (by simp [hz]),
    if_neg (by simp [h5])]
  cases List.find? _ (memberList p.block 16) <;> rfl

theorem jobDefineBody_defines (h5 : u8At p.block 5 = 0) (hcap : u16At p.block 10 ≤ u16At p.block 8)
    (hfree : ∀ c ∈ memberList p.block 16, s.planned.memberElsewhere (u8At p.block 4) c = false) :
    jobDefineBody id p s = .ok (s.govCommand p id [.job (u8At p.block 4) (some p.jobRec)] []) := by
  rw [jobDefineBody_definition h6 h7 hz h5, List.find?_eq_none.mpr (by simpa using hfree), Option.elim_none, refuseIf_pass (by simp [hcap])]
  rfl

theorem jobDefineBody_refuses {c : Nat} (h5 : u8At p.block 5 = 0)
    (hfind : (memberList p.block 16).find? (s.planned.memberElsewhere (u8At p.block 4)) = some c) :
    jobDefineBody id p s = .error (.badParam c) := by
  rw [jobDefineBody_definition h6 h7 hz h5, hfind, Option.elim_some]

end

/-! ## ROW_ENVELOPE_SET (R228) -/

/-- A table filled by index reads its value at each index. -/
theorem Tab.get_foldl_range {α : Type} [DecidableEq α] (d : α) (f : Nat → α) {n k : Nat} (h : k < n) :
    Tab.get d ((List.range n).foldl (fun t i => Tab.set d t i (f i)) []) k = f k := by
  induction n with
  | zero => exact absurd h (Nat.not_lt_zero k)
  | succ n ih =>
    rw [List.range_succ, List.foldl_append, List.foldl_cons, List.foldl_nil, Tab.get_set]
    split
    next heq => rw [heq]
    next hne => exact ih (by omega)

theorem rowEnvelopeBody_sets {id : Nat} {p : Packet} {s : State} (htol : u16At p.block 0x1E ≤ 200)
    (hg : ∀ k, k < 16 → u8At p.block (0x20 + k) ≤ 15) :
    ∃ e, rowEnvelopeBody id p s = .ok (s.govCommand p id [.envelope e] []) ∧ e.accepted = true ∧ e.l1ms = limitAt p.block 4 ∧
      e.l10ms = limitAt p.block 8 ∧ e.l100ms = limitAt p.block 12 ∧ e.l1s = limitAt p.block 16 ∧ e.rampUp = u32At p.block 20 ∧
      e.rampDown = u32At p.block 24 ∧ e.defaultCap = u16At p.block 28 ∧ e.capTol = u16At p.block 30 ∧
      ∀ k, k < 16 → Tab.get 0 e.rackGroup k = u8At p.block (0x20 + k) ∧ Tab.get none e.group1ms k = limitAt p.block (0x30 + 4 * k) := by
  unfold rowEnvelopeBody
  dsimp only
  rw [refuseIf_pass (by simp [htol]), refuseFirst_pass fun k hk => decide_eq_false (Nat.not_lt.mpr (hg k (List.mem_range.mp hk)))]
  exact ⟨_, rfl, rfl, rfl, rfl, rfl, rfl, rfl, rfl, rfl, rfl, fun k hk =>
    ⟨Tab.get_foldl_range 0 _ hk, Tab.get_foldl_range none _ hk⟩⟩

/-! ## CAP_SET (R229) -/

/-- A block that passes checks 11 and 12 passes each of them. -/
theorem Packet.checks_of_checkBlock {p : Packet} {size : Nat} {res : List (Nat × Nat)} (h : p.checkBlock size res = .ok ()) :
    p.checkLength = .ok () ∧ p.checkShape { size := size, reserved := res } = .ok () := by
  unfold Packet.checkBlock at h
  cases hlen : p.checkLength with
  | error r => rw [hlen] at h; exact nomatch h
  | ok _ => rw [hlen] at h; exact ⟨rfl, h⟩

section
variable {id : Nat} {p : Packet} {s : State} (hn : u16At p.block 4 = 1) (hfl : u8At p.block 10 < 6)
include hn hfl

theorem capSetShape_single (hb : p.blockOk 16 [(11, 1), (14, 2)] = true) (hlen : p.block.length = 16) (h6 : u16At p.block 6 ≤ 3) :
    capSetShape p = .ok () := by
  have hsize : u16At p.block 2 = 16 := by
    simp only [Packet.blockOk, Bool.and_eq_true, decide_eq_true_eq] at hb
    obtain ⟨⟨⟨⟨-, h⟩, -⟩, -⟩, -⟩ := hb
    exact h.trans hlen
  have h11 : u8At p.block 11 = 0 := fieldAt_zeroRange (Packet.zeroRange_of_blockOk hb (r := (11, 1)) (by simp))
  have h14 : u16At p.block 14 = 0 := fieldAt_zeroRange (Packet.zeroRange_of_blockOk hb (r := (14, 2)) (by simp))
  obtain ⟨hlength, hshape⟩ := Packet.checks_of_checkBlock (p.checkBlock_ok 8 [] (Packet.blockOk_mono hb (by decide) (by decide)))
  unfold capSetShape
  dsimp only
  rw [hlength, hshape, hn, deny_pass (by simp [hsize]; omega), refuseFirst_pass (by simp; omega), refuseFirst_pass (by simp [h11]),
    refuseFirst_pass (by simp [h14])]
  rfl

theorem capSetBody_single (hc : u16At p.block 8 < 4096) :
    capSetBody id p s = .ok (s.govCommand p id
      ((if bit (u16At p.block 6) 0 then [CfgItem.clearHostCaps] else []) ++ capItems p.block 8 ++
        if bit (u16At p.block 6) 1 then [.releaseHalt (u16At p.block 8)] else []) [u16At p.block 8]) := by
  have hmark : bits (u8At p.block 10) 2 1 ≠ 3 := by unfold bits; omega
  unfold capSetBody
  dsimp only
  rw [hn, refuseIf_pass (by decide), refuseFirst_pass (by simp; omega), refuseFirst_pass (by simp [hmark])]
  simp only [List.range_one, List.flatMap_singleton, List.map_singleton]
  rfl

end

/-! ## Policies (R230, R231) -/

/-- The job a policy block names, or none for the default. -/
def Packet.policyJob (p : Packet) : Option Nat := if u8At p.block 5 = 1 then none else some (u8At p.block 4)

section
variable {id : Nat} {p : Packet} {s : State} (hj : u8At p.block 5 = 1 → u8At p.block 4 = 0)
include hj

theorem policyScope_ok (h5 : u8At p.block 5 ≤ 2) : policyScope p = .ok p.policyJob := by
  unfold policyScope
  dsimp only
  rw [refuseIf_pass (by simp [h5]), refuseIf_pass (by simpa using hj)]
  rfl

theorem pacePolicyBody_removes (h5 : u8At p.block 5 = 2) :
    pacePolicyBody id p s = .ok (s.govCommand p id [.paceRemove p.policyJob] []) := by
  unfold pacePolicyBody
  rw [policyScope_ok hj h5.le]
  exact if_pos h5

theorem pacePolicyBody_sets {k : PacePolicy} (h5 : u8At p.block 5 ≤ 1)
    (hk : k = { quorum := u16At p.block 6, window := u16At p.block 8, confirm := u16At p.block 10, guard := u16At p.block 12
                step := u16At p.block 14 })
    (hq : 1 ≤ k.quorum) (hw : 10 ≤ k.window) (hw' : k.window ≤ 10000) (hc : 1 ≤ k.confirm) (hc' : k.confirm ≤ 1000)
    (hg : k.guard ≤ 32768) (ht : 1 ≤ k.step) (ht' : k.step ≤ 2000) :
    pacePolicyBody id p s = .ok (s.govCommand p id [.pace p.policyJob k] []) := by
  subst hk
  unfold pacePolicyBody
  rw [policyScope_ok hj (by omega)]
  refine (if_neg (by omega)).trans ?_
  dsimp only at *
  rw [deny_pass (by simp; omega)]
  rfl

theorem pacePolicyBody_noQuorum (h5 : u8At p.block 5 ≤ 1) (hq : u16At p.block 6 = 0) :
    pacePolicyBody id p s = .error (p.badField 6) := by
  unfold pacePolicyBody
  rw [policyScope_ok hj (by omega)]
  refine (if_neg (by omega)).trans ?_
  dsimp only
  rw [decide_eq_true hq, deny_stop]
  rfl

theorem swingPolicyBody_sets {k : SwingPolicy} (h5 : u8At p.block 5 ≤ 1)
    (hk : k = { frac := u16At p.block 6, detect := u16At p.block 8, level := u16At p.block 10, decay := u32At p.block 12 })
    (hf : 1 ≤ k.frac) (hd : 1 ≤ k.detect) (hd' : k.detect ≤ 100) :
    swingPolicyBody id p s = .ok (s.govCommand p id [.swing p.policyJob k] []) := by
  subst hk
  unfold swingPolicyBody
  rw [policyScope_ok hj (by omega)]
  refine (if_neg (by omega)).trans ?_
  dsimp only at *
  rw [deny_pass (by simp; omega)]
  rfl

end

/-! ## GOVERNOR_STATUS (R232) -/

/-- A range of records and an address that fit: header and settled records go to the transfer area. -/
theorem statusReply_ok {s : State} {kind size base first count top a : Nat} (hc : 1 ≤ count) (ht : first + count ≤ top)
    (ha : addrOk a (24 + size * count) = true) :
    statusReply s kind size base first count top a = .ok
      (s.writeTransfer a (replyHeader kind size first count s.tick.settled.epoch ++
        s.tick.settled.view.readBytes (base + size * first) (size * count)), .reply .done) := by
  unfold statusReply
  rw [deny_pass (by simp [ha]; omega)]
  rfl

/-- A command whose body writes its reply to the transfer area and is done: its completion, and the bytes in the running lanes. -/
theorem State.runCmd_transfers {s : State} {p : Packet} {op : Nat} {shape : Packet → Except Reply Unit}
    {axis : Packet → State → Except Reply Unit} {body : Nat → Packet → State → Except Reply (State × CmdEnd)} {a : Nat} {bs : List Byte}
    (hp : s.accepts p) (hl : s.anyLane = true) (hshape : shape (s.taken op p) = .ok ())
    (haxis : axis (s.taken op p) { s with proto := s.took op p } = .ok ())
    (hbody : body s.now (s.taken op p) { s with proto := s.took op p } =
      .ok (State.writeTransfer { s with proto := s.took op p } a bs, .reply .done)) :
    ∃ t, s.runCmd op false p shape axis body = t ∧
      t = { s with proto := s.answered op p { status := 0 }, laneA := t.laneA, laneB := t.laneB } ∧ s.Transferred t a bs := by
  refine ⟨_, State.runCmd_reply s _ op false p .done _ _ _ hp hshape (.inr hl) haxis hbody rfl rfl, rfl, fun l => ?_⟩
  cases l <;> rfl

/-- GOVERNOR_STATUS answers by kind: each kind of record has its size, its place in the settled view and its number. -/
theorem exec_governorStatus_eq (p : Packet) (s : State) :
    ∃ body, exec (.governorStatus p) s = .next (s.runCmd 0x0406 false p (·.checkBlock 24 [(5, 3), (12, 4)]) noAxis body) ∧
      ∀ (e : Nat) (q : Packet) (u : State) (kind size base top : Nat), kind = u8At q.block 4 →
        (kind, size, base, top) ∈ [(0, 64, 0x109000, 1), (1, 64, 0x10A000, 256), (2, 16, 0x140000, 4096)] →
        body e q u = statusReply u kind size base (u16At q.block 8) (u16At q.block 10) top (u64At q.block 16) := by
  refine ⟨_, rfl, fun e q u kind size base top hkind hrow => ?_⟩
  dsimp only
  simp only [List.mem_cons, Prod.mk.injEq, List.not_mem_nil, or_false] at hrow
  rcases hrow with ⟨rfl, rfl, rfl, rfl⟩ | ⟨rfl, rfl, rfl, rfl⟩ | ⟨rfl, rfl, rfl, rfl⟩ <;> rw [← hkind] <;> rfl

theorem governorStatus_reports {p : Packet} {s : State} {kind size base top : Nat} (hp : s.accepts p) (hs : s.serves)
    (hb : p.blockOk 24 [(5, 3), (12, 4)] = true) (hkind : kind = u8At p.block 4)
    (hrow : (kind, size, base, top) ∈ [(0, 64, 0x109000, 1), (1, 64, 0x10A000, 256), (2, 16, 0x140000, 4096)])
    (hc : 1 ≤ u16At p.block 10) (ht : u16At p.block 8 + u16At p.block 10 ≤ top)
    (ha : addrOk (u64At p.block 16) (24 + size * u16At p.block 10) = true) :
    ∃ t, exec (.governorStatus p) s = .next t ∧
      t = { s with proto := s.answered 0x0406 p { status := 0 }, laneA := t.laneA, laneB := t.laneB } ∧
      s.Transferred t (u64At p.block 16) (replyHeader kind size (u16At p.block 8) (u16At p.block 10) s.tick.settled.epoch ++
        s.tick.settled.view.readBytes (base + size * u16At p.block 8) (size * u16At p.block 10)) := by
  obtain ⟨body, hexec, hbody⟩ := exec_governorStatus_eq p s
  obtain ⟨t, hrun, hframe, hbytes⟩ := State.runCmd_transfers (body := body) (axis := noAxis)
    (shape := (·.checkBlock 24 [(5, 3), (12, 4)])) hp hs.1 (s.taken_block_ok 0x0406 p _ _ hb) rfl
    ((hbody _ (s.taken 0x0406 p) { s with proto := s.took 0x0406 p } kind size base top hkind hrow).trans (statusReply_ok hc ht ha))
  exact ⟨t, hexec.trans (congrArg Host.Outcome.next hrun), hframe, hbytes⟩

/-! ## O58 -/

/-- Settles O58, opcode by opcode: each body answers the changes that wait (`exec_governs`) or its refusal (`exec_governs_not`). -/
theorem governorCommands : Obligations.GovernorCommands := by
  unfold Obligations.GovernorCommands
  refine ⟨?_, ?_, ?_, ?_, ?_⟩
  · rintro p s j hp hs hb rfl
    have hshape := s.taken_block_ok 0x0401 p 528 [] (Packet.blockOk_mono hb (by decide) le_rfl)
    have hz := Packet.zeroRange_of_blockOk hb (List.mem_singleton_self _)
    refine ⟨fun h5 h6 h7 hm => ?_, fun d h5 h6 h7 hcap hfree hd => ?_, fun c k x h5 h6 h7 hjobs hk hm hc => ?_⟩
    · exact exec_governs (body := jobDefineBody) rfl hp hs hshape (jobDefineBody_removes (p := s.taken 0x0401 p) h6 h7 hz h5 hm)
    · subst hd
      exact exec_governs (body := jobDefineBody) rfl hp hs hshape (jobDefineBody_defines (p := s.taken 0x0401 p) h6 h7 hz h5 hcap
        fun c hc => Cfg.memberElsewhere_eq_false fun e he hj x hx => hfree e he hj x hx c hc)
    · have hfind : (memberList p.block 16).find? (s.planned.memberElsewhere (u8At p.block 4)) = some c := by
        simp [hm, Cfg.memberElsewhere_singleton hjobs hk hc]
      exact exec_governs_not (body := jobDefineBody) rfl hp hs hshape (jobDefineBody_refuses (p := s.taken 0x0401 p) h6 h7 hz h5 hfind)
  · rintro p s hp hs hb htol hg
    obtain ⟨e, hbody, hacc, h1, h10, h100, h1000, hup, hdown, hdef, hcaptol, hgroups⟩ :=
      rowEnvelopeBody_sets (id := s.proto.nextId) (p := s.taken 0x0402 p) (s := { s with proto := s.took 0x0402 p }) htol hg
    obtain ⟨t, hexec, ht⟩ := exec_governs (o := exec (.rowEnvelopeSet p) s) (body := rowEnvelopeBody) rfl hp hs
      (s.taken_block_ok _ _ _ _ hb) hbody
    exact ⟨t, e, hexec, hacc, h1, h10, h100, h1000, hup, hdown, hdef, hcaptol, hgroups, ht⟩
  · rintro p s c fl items hp hs hb hlen hn h6 rfl rfl hc hfl rfl
    exact exec_governs (body := capSetBody) rfl hp hs (capSetShape_single (p := s.taken 0x0403 p) hn hfl hb hlen h6)
      (capSetBody_single (p := s.taken 0x0403 p) hn hfl hc)
  · rintro p s j hp hs hb hj rfl
    refine ⟨fun k h5 hk hq hw hw' hc hc' hg ht ht' => ?_, fun h5 hq => ?_, fun h5 => ?_, fun k h5 hk hf hd hd' => ?_⟩
    · exact exec_governs (body := pacePolicyBody) rfl hp hs (s.taken_block_ok _ _ _ _ hb)
        (pacePolicyBody_sets (p := s.taken 0x0404 p) hj h5 hk hq hw hw' hc hc' hg ht ht')
    · exact exec_governs_not (body := pacePolicyBody) rfl hp hs (s.taken_block_ok _ _ _ _ hb)
        (pacePolicyBody_noQuorum (p := s.taken 0x0404 p) hj h5 hq)
    · exact exec_governs (body := pacePolicyBody) rfl hp hs (s.taken_block_ok _ _ _ _ hb)
        (pacePolicyBody_removes (p := s.taken 0x0404 p) hj h5)
    · exact exec_governs (body := swingPolicyBody) rfl hp hs (s.taken_block_ok _ _ _ _ hb)
        (swingPolicyBody_sets (p := s.taken 0x0405 p) hj h5 hk hf hd hd')
  · rintro p s kind size base top first count a hp hs hb hkind rfl rfl rfl hrow hc ht ha
    exact governorStatus_reports hp hs hb hkind hrow hc ht ha

end Sys2Proof.Machine
end

section
/-! SUPPORT. BUS_AUTOBAUD: what an accepted one keeps for its channel (14 R359), against which the last clause of O59 fails. -/

namespace Sys2Proof.Machine

/-! ## Blocks -/

/-- A block that fits fits any lesser demand on its reserved ranges, too. -/
theorem Packet.blockOk_weaken {p : Packet} {size n : Nat} {res res' : List (Nat × Nat)} (h : p.blockOk size res = true) (hn : 4 ≤ n)
    (hle : n ≤ size) (hres : res' ⊆ res) : p.blockOk n res' = true := by
  have hbase := Packet.blockOk_mono h hn hle
  simp only [Packet.blockOk, List.all_nil, Bool.and_true] at hbase
  simp only [Packet.blockOk, hbase, Bool.true_and, List.all_eq_true]
  exact fun r hr => Packet.zeroRange_of_blockOk h (hres hr)

theorem Packet.length_of_blockOk {p : Packet} {size : Nat} {res : List (Nat × Nat)} (h : p.blockOk size res = true) :
    size ≤ p.block.length := by
  simp only [Packet.blockOk, Bool.and_eq_true, decide_eq_true_eq] at h
  obtain ⟨⟨⟨-, hsize⟩, -⟩, -⟩ := h
  exact hsize.2

/-! ## The checks of BUS_AUTOBAUD (R359) -/

/-- The structure checks of BUS_AUTOBAUD. -/
def autobaudShape (p : Packet) : Except Reply Unit := do
  p.checkBlock 16 [(12, 4)]
  let n := u8At p.block 5
  deny ((decide (p.block.length < 16 + 16 * n), p.badField 2) :: (decide (u16At p.block 6 / 2 ≠ 0), p.badField 6) ::
    (List.range n).map fun i => (!zeroRange p.block (29 + 16 * i) 3, p.badField (29 + 16 * i)))

theorem exec_busAutobaud_eq (p : Packet) (s : State) :
    exec (.busAutobaud p) s =
      .next (s.runCmd 0x0802 false p autobaudShape (fun _ s => axes (busAxes s)) fun _ => busAutobaudBody) := rfl

/-- The reserved ranges of a block of `n` candidates. -/
def autobaudReserved (n : Nat) : List (Nat × Nat) := (12, 4) :: (List.range n).map fun i => (29 + 16 * i, 3)

theorem autobaudShape_ok {p : Packet} (hb : p.blockOk (16 + 16 * u8At p.block 5) (autobaudReserved (u8At p.block 5)) = true)
    (hflags : u16At p.block 6 ≤ 1) : autobaudShape p = .ok () := by
  have hhead : p.blockOk 16 [(12, 4)] = true := Packet.blockOk_weaken hb (by decide) (by omega) (by simp [autobaudReserved])
  have hlen := Packet.length_of_blockOk hb
  unfold autobaudShape
  rw [p.checkBlock_ok _ _ hhead]
  refine deny_pass fun e he => ?_
  simp only [List.mem_cons, List.mem_map] at he
  obtain rfl | rfl | ⟨i, hi, rfl⟩ := he
  · exact decide_eq_false (by omega)
  · exact decide_eq_false (by omega)
  · have hzero := Packet.zeroRange_of_blockOk hb (List.mem_cons_of_mem _ (List.mem_map_of_mem hi))
    simp [hzero]

/-- The axes of the field opcodes let a serving module's commands pass. -/
theorem busAxes_serves {s : State} (h : s.serves) (q : ProtoSt) : axes (busAxes { s with proto := q }) = .ok () := by
  obtain ⟨-, hupdate, hlife, hnet, -⟩ := h
  have hnet' : ({ s with proto := q } : State).inNet = false := hnet
  exact axes_pass (by simp [busAxes, valveAxes, hnet', hupdate, hlife])

/-! ## The detection -/

/-- The detection a BUS_AUTOBAUD block asks for in state `s`: its dwell, and the present tick as the first candidate's start. -/
def Packet.autobaud (p : Packet) (s : State) : Autobaud :=
  { cmd := p.id, channel := u8At p.block 4, apply := bit (u16At p.block 6) 0, framesNeeded := u16At p.block 10
    candidates := (List.range (u8At p.block 5)).map fun i => canTimingAt p.block (16 + 16 * i)
    was := (s.canChan (u8At p.block 4)).state, dwell := u16At p.block 8, since := s.now }

/-- The channel of detection `a` has left the bus to detect. -/
def State.detecting (s : State) (a : Autobaud) : State :=
  { s with bus := { (s.onCan a.channel fun x => { x with state := .detecting }).bus with autobaud := s.bus.autobaud ++ [a] } }

section
variable {p : Packet} {s : State} (hc : u8At p.block 4 ≤ 15) (hn : 1 ≤ u8At p.block 5) (hn' : u8At p.block 5 ≤ 8)
  (hd : 100 ≤ u16At p.block 8) (hd' : u16At p.block 8 ≤ 10000) (hf : 1 ≤ u16At p.block 10) (hf' : u16At p.block 10 ≤ 100)
  (hcand : ∀ i, i < u8At p.block 5 → (canTimingAt p.block (16 + 16 * i)).badField = none)
  (hrun : s.canInRun (u8At p.block 4) = false) (hfree : ∀ a ∈ s.bus.autobaud, a.channel ≠ u8At p.block 4)
include hc hn hn' hd hd' hf hf' hcand hrun hfree

theorem busAutobaudBody_detects : busAutobaudBody p s = .ok (s.detecting (p.autobaud s), .later []) := by
  unfold busAutobaudBody
  extract_lets b c n dwell cands a
  have hfields : deny [(15 < c, p.badField 4), (n = 0 || 8 < n, p.badField 5), (outside 100 10000 dwell, p.badField 8),
      (outside 1 100 (u16At b 10), p.badField 10)] = .ok () :=
    deny_pass (by simp [outside, b, c, n, dwell]; omega)
  have htimings : deny (((List.range n).zip cands).map fun x =>
      (x.2.badField.isSome, p.badField (16 + 16 * x.1 + x.2.badField.getD 0))) = .ok () := by
    refine deny_pass fun e he => ?_
    obtain ⟨x, hx, rfl⟩ := List.mem_map.mp he
    obtain ⟨i, hi, htiming⟩ := List.mem_map.mp (List.of_mem_zip hx).2
    simp [← htiming, hcand i (List.mem_range.mp hi), b]
  have hchannel : deny [(s.canInRun c, Reply.notInMode), (s.bus.autobaud.any (·.channel = c), .busy 80100)] = .ok () :=
    deny_pass (by simpa [c, b, hrun] using hfree)
  rw [hfields, htimings, hchannel]
  rfl

/-- An accepted BUS_AUTOBAUD runs on, its channel detecting, and nothing else has changed. -/
theorem exec_busAutobaud_detects (hp : s.accepts p) (hs : s.serves)
    (hb : p.blockOk (16 + 16 * u8At p.block 5) (autobaudReserved (u8At p.block 5)) = true) (hflags : u16At p.block 6 ≤ 1) :
    exec (.busAutobaud p) s =
      .next { s.detecting ((s.taken 0x0802 p).autobaud s) with proto := s.begun 0x0802 p [] } := by
  have hbody := busAutobaudBody_detects (p := s.taken 0x0802 p) (s := { s with proto := s.took 0x0802 p }) hc hn hn' hd hd' hf hf' hcand
    hrun hfree
  have hshape : autobaudShape (s.taken 0x0802 p) = .ok () := autobaudShape_ok hb hflags
  rw [exec_busAutobaud_eq, State.runCmd_later s _ 0x0802 false p [] _ _ _ hp hshape (.inr hs.1) (busAxes_serves hs _) hbody rfl]
  rfl

end

/-! ## O59 -/

/-- Refutes O59: its BUS_AUTOBAUD clause keeps a detection without the block's dwell_ms, 100 to 10,000 (14 R359), so that dwell is 0.
The counterexample is a BUS_AUTOBAUD of channel 0 with one candidate, 500 kbit/s and 2 Mbit/s, and a dwell of 100 ms. -/
theorem not_fieldConfigurationCommands : ¬ Obligations.FieldConfigurationCommands := by
  unfold Obligations.FieldConfigurationCommands
  rintro ⟨-, -, -, -, -, -, -, -, -, -, -, hautobaud⟩
  let timing := le16 1 ++ le16 127 ++ le16 32 ++ le16 32 ++ le8 1 ++ le8 29 ++ le8 10 ++ le8 10 ++ le8 0
  let p : Packet := { sq := 2, tag := 9, opcode := 0, flags := 0,
                      block := le16 1 ++ le16 32 ++ le8 0 ++ le8 1 ++ le16 0 ++ le16 100 ++ le16 10 ++ zeros 4 ++ timing ++ zeros 3 }
  let s : State := { laneA := { run := .active }, laneCtl := { redundancy := .simplexOn .A }, mode := { lifeCycle := .operational } }
  have hp : s.accepts p := ⟨List.forall_mem_nil _, List.forall_mem_nil _, by decide, by decide⟩
  have hs : s.serves := by unfold State.serves; decide
  have hb : p.blockOk 32 [(12, 4), (29, 3)] = true := by decide
  obtain ⟨h4, h5, h6, h8, h10⟩ : u8At p.block 4 = 0 ∧ u8At p.block 5 = 1 ∧ u16At p.block 6 = 0 ∧ u16At p.block 8 = 100 ∧
      u16At p.block 10 = 10 := by decide
  have htiming : (canTimingAt p.block 16).badField = none := by decide
  have hcand (i : Nat) (hi : i < u8At p.block 5) : (canTimingAt p.block (16 + 16 * i)).badField = none := by
    obtain rfl : i = 0 := by omega
    exact htiming
  have hrun : s.canInRun (u8At p.block 4) = false := rfl
  have hdetects := exec_busAutobaud_detects (by omega) (by omega) (by omega) (by omega) (by omega) (by omega) (by omega) hcand hrun
    (List.forall_mem_nil _) hp hs (h5 ▸ hb) (by omega)
  obtain ⟨t, ht, -, -, -, hkept, -⟩ := hautobaud p s _ _ hp hs hb h5 (by omega) rfl (by omega) (by omega) (by omega) (by omega) (by omega)
    rfl htiming hrun rfl
  obtain rfl := Host.Outcome.next.inj (hdetects.symm.trans ht)
  have hdwell : [u16At p.block 8] = [0] := congrArg (List.map Autobaud.dwell) hkept
  simp [h8] at hdwell

end Sys2Proof.Machine
end

section
/-! SUPPORT. Lane authority: a grant, its acknowledgement and its timeout, in a gap, in a drill and in the Safety Net
(15 R373, R374, R380, R381, R385). -/

namespace Sys2Proof.Machine

/-! ## Authority taken -/

theorem LaneId.other_other (l : LaneId) : l.other.other = l := by cases l <;> rfl

@[simp] theorem State.takeAuthority_lane_same (s : State) (l : LaneId) (e : Nat) :
    (s.takeAuthority l e).lane l = { s.lane l with run := .active } := by cases l <;> rfl

@[simp] theorem State.takeAuthority_lane_other (s : State) (l : LaneId) (e : Nat) :
    (s.takeAuthority l e).lane l.other =
      if (s.lane l.other).isRunning then { s.lane l.other with run := .standby } else s.lane l.other := by cases l <;> rfl

@[simp] theorem State.takeAuthority_laneCtl (s : State) (l : LaneId) (e : Nat) :
    (s.takeAuthority l e).laneCtl =
      { s.laneCtl.setStat l { s.laneCtl.stat l with authExercised := true, ackEpoch := some s.now } with
        active := l, held := false, granting := none, grantNo := 0, drillGranted := false, switchEpoch := some e } := by
  cases l <;> rfl

theorem State.takeAuthority_eq (s : State) (l : LaneId) (e : Nat) :
    s.takeAuthority l e = { s with laneCtl := (s.takeAuthority l e).laneCtl, laneA := (s.takeAuthority l e).laneA
                                   laneB := (s.takeAuthority l e).laneB } := by cases l <;> rfl

/-- The lane that did not take the authority runs on if it ran, and is not active. -/
theorem State.takeAuthority_run_other (s : State) (l : LaneId) (e : Nat) :
    ((s.takeAuthority l e).lane l.other).isRunning = (s.lane l.other).isRunning ∧
      ((s.takeAuthority l e).lane l.other).run ≠ .active := by
  rw [State.takeAuthority_lane_other]
  split
  next hruns => exact ⟨hruns.symm, LaneRun.noConfusion⟩
  next hstill =>
    refine ⟨rfl, fun hact => hstill ?_⟩
    rw [Lane.isRunning, hact]
    rfl

/-- Two running lanes change places: the one granted is active, the one active before is standby. -/
theorem State.takeAuthority_swaps {s : State} {a : LaneId} (e : Nat) (hr : (s.lane a).isRunning = true) :
    ((s.takeAuthority a.other e).lane a.other).run = .active ∧ ((s.takeAuthority a.other e).lane a).run = .standby := by
  have hother := s.takeAuthority_lane_other a.other e
  rw [LaneId.other_other, if_pos hr] at hother
  rw [State.takeAuthority_lane_same, hother]
  exact ⟨rfl, rfl⟩

/-! ## Grants -/

theorem exec_authorityGrant_due {s : State} (hg : s.laneCtl.gap = true) (hh : s.laneCtl.held = true)
    (hn : s.laneCtl.granting = none) (hno : s.laneCtl.grantNo < 2) (hr : (s.lane s.laneCtl.active.other).isRunning = true) :
    exec .authorityGrant s = .next { s with laneCtl := { s.laneCtl with
      granting := some s.laneCtl.active.other, grantNo := s.laneCtl.grantNo + 1, grantEpoch := s.now } } := by
  show execAuthorityGrant s = _
  unfold execAuthorityGrant
  simp [hg, hh, hn, hno, hr]

theorem exec_drillGrant_due {s : State} {id : Nat} (hd : s.laneCtl.drillCmd = some id) (ha : s.laneCtl.drillAcked = false)
    (hg : s.laneCtl.drillGranted = false) (hx : s.laneCtl.redundancy = .duplex) :
    exec .drillGrant s = .next { s with laneCtl := { s.laneCtl with
      drillGranted := true, granting := some s.laneCtl.active.other, grantNo := 1, grantEpoch := s.now + 1 } } := by
  show execDrillGrant s = _
  unfold execDrillGrant
  simp [hd, ha, hg, hx]

theorem exec_laneQualified_grants {l : LaneId} {s : State} (hn : s.inNet = true) (hg : s.laneCtl.granting = none)
    (hq : s.qualified l = true) (hp : s.laneCtl.preNetActive = l ∨ s.qualified s.laneCtl.preNetActive = false) :
    exec (.laneQualified l) s = .next { s with laneCtl := { s.laneCtl with
      granting := some l, grantNo := s.laneCtl.grantNo + 1, grantEpoch := s.now + 1 } } := by
  have hto : (if s.qualified s.laneCtl.preNetActive then s.laneCtl.preNetActive else l) = l := by
    rcases hp with hpre | hpre
    · rw [hpre, ite_self]
    · simp [hpre]
  show execLaneQualified l s = _
  unfold execLaneQualified
  simp [hn, hg, hq, hto]

/-! ## The acknowledgement after a fail-over (15 R373, R374) -/

/-- Lane `l` has the authority of the gap's grant, and slots see held outputs from its epoch. -/
def State.failedOver (s : State) (l : LaneId) : State :=
  let t := s.takeAuthority l s.laneCtl.grantEpoch
  ({ t with laneCtl := { t.laneCtl with resumeEpoch := some s.laneCtl.grantEpoch } } : State).setLaneEvent 0x4

theorem State.settleOthers_none {s : State} (h : s.laneCtl.others = []) : s.settleOthers = s := by
  unfold State.settleOthers
  split
  · rfl
  · rw [h]; rfl

theorem State.failedOver_laneCtl (s : State) (l : LaneId) :
    (s.failedOver l).laneCtl =
      { (s.takeAuthority l s.laneCtl.grantEpoch).laneCtl with
        resumeEpoch := some s.laneCtl.grantEpoch
        event := (s.takeAuthority l s.laneCtl.grantEpoch).laneCtl.event ||| 0x4 } :=
  State.setLaneEvent_laneCtl _ _

theorem State.failedOver_lane (s : State) (l x : LaneId) :
    (s.failedOver l).lane x = (s.takeAuthority l s.laneCtl.grantEpoch).lane x :=
  State.lane_congr (State.setLaneEvent_laneA _ _) (State.setLaneEvent_laneB _ _) x

theorem State.failedOver_eq (s : State) (l : LaneId) :
    s.failedOver l = { s with laneCtl := (s.failedOver l).laneCtl, laneA := (s.failedOver l).laneA
                              laneB := (s.failedOver l).laneB, hif := (s.failedOver l).hif } := by
  unfold State.failedOver
  rw [State.setLaneEvent_eq, State.takeAuthority_eq]

/-! ## The acknowledgement of a drill (15 R380) -/

/-- Lane `l` has the authority of a drill's grant, and the switch-over is counted. -/
def State.drillTaken (s : State) (l : LaneId) : State :=
  let t := (s.takeAuthority l s.laneCtl.grantEpoch).setLaneEvent 0x4
  { t with laneCtl := { t.laneCtl with cntSwitchover := satTo 32 (t.laneCtl.cntSwitchover + 1) } }

theorem State.drillTaken_laneCtl (s : State) (l : LaneId) :
    (s.drillTaken l).laneCtl =
      { (s.takeAuthority l s.laneCtl.grantEpoch).laneCtl with
        event := (s.takeAuthority l s.laneCtl.grantEpoch).laneCtl.event ||| 0x4
        cntSwitchover := satTo 32 ((s.takeAuthority l s.laneCtl.grantEpoch).laneCtl.cntSwitchover + 1) } := by
  unfold State.drillTaken
  simp only [State.setLaneEvent_laneCtl]

theorem State.drillTaken_lane (s : State) (l x : LaneId) :
    (s.drillTaken l).lane x = (s.takeAuthority l s.laneCtl.grantEpoch).lane x :=
  State.lane_congr (State.setLaneEvent_laneA _ _) (State.setLaneEvent_laneB _ _) x

theorem State.drillTaken_eq (s : State) (l : LaneId) :
    s.drillTaken l = { s with laneCtl := (s.drillTaken l).laneCtl, laneA := (s.drillTaken l).laneA
                              laneB := (s.drillTaken l).laneB, hif := (s.drillTaken l).hif } := by
  unfold State.drillTaken
  rw [State.setLaneEvent_eq, State.takeAuthority_eq]

/-- A drill without RETEST ends with its command: the lanes stay as they are, DRILL_DONE is set. -/
theorem State.endDrill_noRetest {s : State} {id : Nat} (hd : s.laneCtl.drillCmd = some id) (hx : s.laneCtl.drillRetest = false) :
    s.endDrill.laneCtl = { s.laneCtl with
        drillCmd := none, drillGranted := false, drillAcked := false, drillRetest := false, retesting := none
        event := s.laneCtl.event ||| 0x200 } ∧
      s.endDrill.proto = (s.finish id .done).proto ∧ ∀ x, s.endDrill.lane x = s.lane x := by
  unfold State.endDrill
  rw [hd]
  simp only [hx, Bool.false_eq_true, if_false, State.setLaneEvent_laneCtl, State.finish_laneCtl, State.setLaneEvent_proto, true_and]
  refine fun x => State.lane_congr ?_ ?_ x
  · rw [State.setLaneEvent_laneA, State.finish_laneA]
  · rw [State.setLaneEvent_laneB, State.finish_laneB]

/-- A drill's switch-over leaves what the end of its command goes by. -/
theorem State.drillTaken_finish {s : State} {r : Running} (l : LaneId) (hr : s.runningCmd r.packet.id = some r)
    (ha : r.packet.async = false) (hd : s.proto.dropIds.contains r.packet.id = false) :
    ((s.drillTaken l).finish r.packet.id .done).proto.ready =
      s.proto.ready ++ [mkCompletion r.packet r.commit .done false s.holdsBack] := by
  have hproto : (s.drillTaken l).proto = s.proto := by rw [State.drillTaken_eq]
  have hgen : (s.drillTaken l).gen = s.gen := by rw [State.drillTaken_eq]
  have hgap : (s.drillTaken l).laneCtl.gap = s.laneCtl.gap := by
    rw [State.drillTaken_laneCtl, State.takeAuthority_laneCtl]
    cases l <;> rfl
  have hback : (s.drillTaken l).holdsBack = s.holdsBack := by rw [State.holdsBack, hgap, hgen]; rfl
  have hrun : (s.drillTaken l).runningCmd r.packet.id = some r := by rw [State.runningCmd, hproto]; exact hr
  rw [State.finish_replies hrun ha (hproto.symm ▸ hd), hback, hproto]

/-! ## The exit from the Safety Net (15 R385) -/

theorem State.autoActivate_eq (s : State) : s.autoActivate = { s with img := s.autoActivate.img } := by
  unfold State.autoActivate
  dsimp only
  split
  · split <;> rfl
  · rfl

/-- What follows the exit of the model and the start. -/
def State.modelAfterNet (s : State) : State :=
  let t := s.refitK.autoActivate
  if t.img.act = .idle && (!bit t.mode.modeCfgActive 1 || t.img.activeSlot.isNone) then t.startOver else t

theorem State.modelAfterNet_eq (s : State) :
    s.modelAfterNet = { s with img := s.modelAfterNet.img, mode := s.modelAfterNet.mode, hif := s.modelAfterNet.hif } := by
  unfold State.modelAfterNet
  dsimp only
  rw [State.autoActivate_eq, State.refitK_eq]
  split
  · rw [State.startOver_eq]
  · rfl

/-- Lane `l` has the authority of a grant in NET, and the other lane is in reset. -/
def State.aloneAfterNet (s : State) (l : LaneId) : State :=
  let t := s.capsAfterNet.takeAuthority l s.laneCtl.grantEpoch
  if (t.lane l.other).isRunning then t.resetLane l.other else t

theorem State.aloneAfterNet_run (s : State) (l : LaneId) :
    ((s.aloneAfterNet l).lane l).run = .active ∧ ((s.aloneAfterNet l).lane l.other).isRunning = false := by
  unfold State.aloneAfterNet
  extract_lets t
  have hact : (t.lane l).run = .active := congrArg Lane.run (State.takeAuthority_lane_same _ _ _)
  split
  · refine ⟨?_, ?_⟩
    · have hkept := t.resetLane_lane_other l.other
      rw [LaneId.other_other] at hkept
      rw [hkept, hact]
    · rw [State.resetLane_lane_same]; rfl
  next hstill => exact ⟨hact, Bool.eq_false_iff.mpr hstill⟩

theorem State.aloneAfterNet_active (s : State) (l : LaneId) : (s.aloneAfterNet l).laneCtl.active = l := by
  unfold State.aloneAfterNet
  extract_lets t
  have hact : t.laneCtl.active = l := congrArg LaneCtlSt.active (State.takeAuthority_laneCtl _ _ _)
  split
  · exact (State.resetLane_lossFrame t l.other).active.trans hact
  · exact hact

theorem State.not_bothQualified {s : State} {l : LaneId} (h : s.qualified l.other = false) :
    (s.qualified .A && s.qualified .B && decide (100 ≤ s.laneCtl.netAgreeRun)) = false := by
  cases l with
  | A => rw [show s.qualified .B = false from h, Bool.and_false, Bool.false_and]
  | B => rw [show s.qualified .A = false from h, Bool.false_and, Bool.false_and]

theorem State.aloneAfterNet_mode (s : State) (l : LaneId) : (s.aloneAfterNet l).mode = s.mode := by
  unfold State.aloneAfterNet
  extract_lets t
  have hmode : t.mode = s.mode := (congrArg State.mode (State.takeAuthority_eq _ _ _) :)
  split
  · rw [State.resetLane_eq, hmode]
  · exact hmode

/-- Out of NET with lane `l` alone: SIMPLEX on it, active, the other lane not running, NET_EXIT set (15 Table 15.8). -/
def State.OutOfNetOn (l : LaneId) (t : State) : Prop :=
  t.laneCtl.redundancy = .simplexOn l ∧ t.laneCtl.active = l ∧ t.laneCtl.netCause = 0 ∧ (t.lane l).run = .active ∧
    (t.lane l.other).isRunning = false ∧ t.rel.netActive = false ∧ t.laneCtl.event.getLsbD 7 = true

theorem State.OutOfNetOn.congr {l : LaneId} {s t : State} (h : s.OutOfNetOn l) (hc : t.laneCtl = s.laneCtl)
    (hl : ∀ x, t.lane x = s.lane x) (hr : t.rel = s.rel) : t.OutOfNetOn l := by
  unfold State.OutOfNetOn at *
  rwa [hc, hl, hl, hr]

theorem State.modelAfterNet_outOfNetOn {l : LaneId} {s : State} (h : s.OutOfNetOn l) : s.modelAfterNet.OutOfNetOn l := by
  refine h.congr ?_ (State.lane_congr ?_ ?_) ?_ <;> rw [State.modelAfterNet_eq]

/-- The exit from NET where the other lane has not qualified, the authority no more than INNER. -/
theorem State.exitNet_alone {s : State} {l : LaneId} (hq : s.qualified l.other = false) (hn : s.mode.authority ≠ .predictive) :
    (s.exitNet l).OutOfNetOn l := by
  unfold State.exitNet
  extract_lets both s1 s2 s3 tick mode ctl rel upd s4 s5 s6
  have hboth : both = false := State.not_bothQualified hq
  have halone : s2 = s.aloneAfterNet l := by
    simp only [s2, hboth, Bool.false_eq_true, if_false]
    rfl
  have hactive : s4.laneCtl.active = l := (LossFrame.setStat _ _ _).active.trans (halone ▸ s.aloneAfterNet_active l)
  have hauth : s5.mode.authority ≠ .predictive := by
    rw [State.setLaneEvent_mode]
    change s2.mode.authority ≠ _
    rwa [halone, State.aloneAfterNet_mode]
  have hlane (x : LaneId) : s5.lane x = (s.aloneAfterNet l).lane x :=
    halone ▸ State.lane_congr (State.setLaneEvent_laneA _ _) (State.setLaneEvent_laneB _ _) x
  have hkept : s6 = s5 := if_neg hauth
  have hout : s5.OutOfNetOn l := by
    obtain ⟨hrun, hother⟩ := s.aloneAfterNet_run l
    unfold State.OutOfNetOn
    rw [hlane, hlane, State.setLaneEvent_laneCtl, State.setLaneEvent_rel]
    refine ⟨if_neg (Bool.eq_false_iff.mp hboth), hactive, rfl, hrun, hother, rfl, ?_⟩
    simp
  exact State.modelAfterNet_outOfNetOn (hkept ▸ hout)

/-! ## AUTHORITY_ACK, by what was granted -/

/-- The acknowledgement of the lane granted, where it runs, completes a drill, the exit from NET or a fail-over. -/
theorem exec_authorityAck_granted {l : LaneId} {s : State} (hg : s.laneCtl.granting = some l) (hr : (s.lane l).isRunning = true) :
    exec (.authorityAck l) s =
      .next (if s.laneCtl.drillGranted then (s.drillTaken l).endDrill
        else if s.inNet then s.exitNet l
        else (s.failedOver l).settleOthers) := by
  have hdue : ¬ (s.laneCtl.granting ≠ some l || !(s.lane l).isRunning) = true := by simp [hg, hr]
  exact congrArg Host.Outcome.next (if_neg hdue)

theorem exec_authorityAck_failsOver {l : LaneId} {s : State} (hg : s.laneCtl.granting = some l)
    (hr : (s.lane l).isRunning = true) (hd : s.laneCtl.drillGranted = false) (hn : s.inNet = false) (ho : s.laneCtl.others = []) :
    exec (.authorityAck l) s = .next (s.failedOver l) := by
  have hothers : (s.failedOver l).laneCtl.others = [] := by
    rw [State.failedOver_laneCtl, State.takeAuthority_laneCtl]
    cases l <;> exact ho
  simp only [exec_authorityAck_granted hg hr, hd, hn, Bool.false_eq_true, if_false, State.settleOthers_none hothers]

theorem exec_authorityAck_drill {l : LaneId} {s : State} (hg : s.laneCtl.granting = some l)
    (hr : (s.lane l).isRunning = true) (hd : s.laneCtl.drillGranted = true) :
    exec (.authorityAck l) s = .next (s.drillTaken l).endDrill := by
  rw [exec_authorityAck_granted hg hr, if_pos hd]

theorem exec_authorityAck_leavesNet {l : LaneId} {s : State} (hg : s.laneCtl.granting = some l)
    (hr : (s.lane l).isRunning = true) (hd : s.laneCtl.drillGranted = false) (hn : s.inNet = true) :
    exec (.authorityAck l) s = .next (s.exitNet l) := by
  simp only [exec_authorityAck_granted hg hr, hd, hn, Bool.false_eq_true, if_false, if_true]

/-! ## A grant unacknowledged (15 R373) -/

theorem exec_authorityAckTimeout_first {l : LaneId} {s : State} (hg : s.laneCtl.granting = some l)
    (hd : s.laneCtl.drillGranted = false) (hno : s.laneCtl.grantNo < 2) :
    exec .authorityAckTimeout s = .next { s with laneCtl := { s.laneCtl with granting := none } } := by
  show execAuthorityAckTimeout s = _
  unfold execAuthorityAckTimeout
  simp only [hg, hd, hno, Bool.false_eq_true, if_false, if_true]

/-- The grant withdrawn, and lane `l` lost for leaving it unacknowledged. -/
def State.grantLost (s : State) (l : LaneId) : State :=
  (({ s with laneCtl := { s.laneCtl with granting := none } } : State).noteLoss l Loss.authAck).resetLane l

theorem exec_authorityAckTimeout_second {l : LaneId} {s : State} (hg : s.laneCtl.granting = some l)
    (hd : s.laneCtl.drillGranted = false) (hno : 2 ≤ s.laneCtl.grantNo) (hn : s.inNet = false) :
    exec .authorityAckTimeout s = .next ((s.grantLost l).enterNet 3 true) := by
  show execAuthorityAckTimeout s = _
  unfold execAuthorityAckTimeout
  extract_lets c
  rw [show c.granting = some l from hg]
  exact congrArg Host.Outcome.next ((if_neg (Bool.eq_false_iff.mp hd)).trans ((if_neg (Nat.not_lt.mpr hno)).trans
    (if_neg (Bool.eq_false_iff.mp hn))))

/-! ## O28 -/

/-- Settles O28: a grant is one update of lane control, an acknowledgement is `State.takeAuthority` with what it ends, a second grant
unacknowledged is an entry to NET. -/
theorem laneAuthority : Obligations.LaneAuthority := by
  unfold Obligations.LaneAuthority
  refine ⟨?grant, ?drillGrant, ?netGrant, ?failOver, ?drill, ?netExit, ?first, ?second⟩
  case grant =>
    intro s hgap hheld hnone hno hruns
    exact ⟨_, exec_authorityGrant_due hgap hheld hnone hno hruns, rfl⟩
  case drillGrant =>
    intro s id hcmd hacked hgranted hduplex
    exact ⟨_, exec_drillGrant_due hcmd hacked hgranted hduplex, rfl⟩
  case netGrant =>
    intro l s hnet hnone hqual hpre
    exact ⟨_, exec_laneQualified_grants hnet hnone hqual hpre, rfl⟩
  case failOver =>
    intro l s hgrant hruns hdrill hnet hothers
    obtain ⟨hkept, hpassive⟩ := s.takeAuthority_run_other l s.laneCtl.grantEpoch
    refine ⟨_, exec_authorityAck_failsOver hgrant hruns hdrill hnet hothers, s.failedOver_eq l, ?_⟩
    simp only [State.failedOver_lane, State.failedOver_laneCtl, hkept, State.takeAuthority_lane_same]
    refine ⟨trivial, trivial, hpassive, ?_⟩
    rw [State.takeAuthority_laneCtl]
    cases l <;> simp [LaneCtlSt.stat, LaneCtlSt.setStat]
  case drill =>
    intro a s r hduplex hactive hrun hstandby hgrant hdrill hcmd hretest hrunning hasync hkept
    have hruns : (s.lane a.other).isRunning = true := congrArg LaneRun.isRunning hstandby
    have hran : (s.lane a).isRunning = true := congrArg LaneRun.isRunning hrun
    obtain ⟨hnew, hold⟩ := State.takeAuthority_swaps s.laneCtl.grantEpoch hran
    have hctl := s.drillTaken_laneCtl a.other
    have hlane (x : LaneId) := s.drillTaken_lane a.other x
    have hready := State.drillTaken_finish a.other hrunning hasync hkept
    obtain ⟨hend, hproto, hlanes⟩ := State.endDrill_noRetest (s := s.drillTaken a.other) (id := r.packet.id)
      (by rw [hctl, State.takeAuthority_laneCtl]; cases a <;> exact hcmd)
      (by rw [hctl, State.takeAuthority_laneCtl]; cases a <;> exact hretest)
    refine ⟨_, exec_authorityAck_drill hgrant hruns hdrill, ?_⟩
    simp only [hend, hproto, hlanes, hlane, hctl, hready, hnew, hold, State.takeAuthority_laneCtl, true_and]
    have hstat := LossFrame.setStat s.laneCtl a.other
      { s.laneCtl.stat a.other with authExercised := true, ackEpoch := some s.now }
    exact ⟨hstat.redundancy.trans hduplex, congrArg (fun n => satTo 32 (n + 1)) hstat.cntSwitchover, by simp, rfl⟩
  case netExit =>
    intro l s hnet hgrant hruns hdrill hqual hauth
    exact ⟨_, exec_authorityAck_leavesNet hgrant hruns hdrill hnet, State.exitNet_alone hqual hauth⟩
  case first =>
    intro l s hgrant hdrill hno
    exact ⟨_, exec_authorityAckTimeout_first hgrant hdrill hno, rfl⟩
  case second =>
    intro l s hgrant hdrill hno hnet
    obtain ⟨hred, hcause, hreset, -⟩ := (s.grantLost l).enterNet_resets_spec 3
    exact ⟨_, exec_authorityAckTimeout_second hgrant hdrill hno hnet, hred, hcause, hreset⟩

end Sys2Proof.Machine
end

section
/-! SUPPORT. MODE_REQUEST to ISOLATED in the Safety Net: it drives the rack's valves at once (10 R267, 12 R304), which can settle a
VALVE_COMMAND that still runs (12 R309). Against that the second clause of O60 fails. -/

namespace Sys2Proof.Machine

/-! ## Commands still running -/

/-- A completion made ready, or dropped, ends no running command. -/
theorem State.ready_running (s : State) (p : Packet) (e : Nat) (r : Reply) : (s.ready p e r).proto.running = s.proto.running := by
  unfold State.ready
  split <;> rfl

/-- A command answered leaves the others running. -/
theorem State.conclude_running (s : State) (p : Packet) (e : Nat) (r : Reply) :
    (s.conclude p e r).proto.running = s.proto.running := by
  unfold State.conclude
  split
  · rfl
  · exact s.ready_running p e r

/-- A body that answers at once concludes its command on the state it leaves. -/
theorem State.execBody_concludes {s t : State} {p : Packet} {e : Nat} {r : Reply}
    {body : Nat → Packet → State → Except Reply (State × CmdEnd)} (hb : body e p s = .ok (t, .reply r)) :
    s.execBody p e body = t.conclude p e r := by
  unfold State.execBody
  rw [hb]

/-! ## A rack isolated in the Safety Net (16 R396, R400) -/

/-- The racks a mask with bit `k` alone names. -/
theorem filter_bit_two_pow : ∀ k < 16, ((List.range 16).filter fun j => bit (2 ^ k) j) = [k] := by decide

/-- No rule forbids a rack to enter ISOLATED. -/
theorem State.rackForbidden_isolated (s : State) (k : Nat) : s.rackForbidden k .isolated = false := by
  by_cases h : s.rackState k = .isolated <;> simp [State.rackForbidden, h]

section
variable {p : Packet} {s : State} {k : Nat} (h4 : u8At p.block 4 = 1) (h5 : u8At p.block 5 = 2)
include h4 h5

/-- In the Safety Net the axes let a request to ISOLATED pass, outside RETURN. -/
theorem modeAxes_isolatesInNet (hlife : s.mode.lifeCycle = .operational) : axes (modeAxes p s) = .ok () :=
  axes_pass (by simp [modeAxes, h4, h5, hlife])

variable (hnet : s.inNet = true) (h6 : u16At p.block 6 = 0) (hk : k < 16) (h8 : u16At p.block 8 = 2 ^ k) (hon : s.rackOn k = true)
  (hst : s.rackState k ≠ .isolated)
include hnet h6 hk h8 hon hst

theorem modeRequestBody_isolatesInNet : modeRequestBody p s = .ok (s.moveRack k .isolated, .reply .done) := by
  have hnamed : ((List.range 16).filter fun j => bit (u16At p.block 8) j) = [k] := h8 ▸ filter_bit_two_pow k hk
  have honly : bit (u16At p.block 6) 0 = false := by rw [h6]; rfl
  have hwho : u16At p.block 8 ≠ 0 := h8 ▸ (Nat.two_pow_pos k).ne'
  unfold modeRequestBody
  dsimp only
  rw [deny_pass (by simp [hnamed, h4, h5, h6, hwho, hon])]
  simp only [hnamed, honly, h4, h5, rackStateOf, List.find?_cons, List.find?_nil, State.rackForbidden_isolated]
  simp [hnet, hst, bind, Except.bind]

/-- MODE_REQUEST of ISOLATED for one rack, in the Safety Net: the rack moves at once, and the request is answered. -/
theorem exec_modeRequest_isolatesInNet (hp : s.accepts p) (hlife : s.mode.lifeCycle = .operational)
    (hb : p.blockOk 12 [(10, 2)] = true) :
    exec (.modeRequest p) s =
      .next ((({ s with proto := s.took 0x0901 p } : State).moveRack k .isolated).conclude (s.taken 0x0901 p) s.now .done) := by
  have hbody := modeRequestBody_isolatesInNet (p := s.taken 0x0901 p) (s := { s with proto := s.took 0x0901 p }) h4 h5 hnet h6 hk h8
    hon hst
  have haxis := modeAxes_isolatesInNet (p := s.taken 0x0901 p) (s := { s with proto := s.took 0x0901 p }) h4 h5 hlife
  have hfree : (decide (u8At p.block 4 = 1) && decide (u8At p.block 5 = 2) && !s.anyLane) = true ∨ s.anyLane = true := by
    cases s.anyLane <;> simp [h4, h5]
  exact congrArg Host.Outcome.next ((State.runCmd_body s 0x0901 _ p _ _ _ hp (s.taken_block_ok _ _ _ _ hb) hfree haxis).trans
    (State.execBody_concludes hbody))

end

/-! ## O60 -/

/-- Refutes O60: its clause on MODE_REQUEST in the Safety Net leaves every other command as it was, where the isolation can end one.
The counterexample isolates rack 0, in SERVICE, while a VALVE_COMMAND that opens its supply valve 0 still runs: the valve is DEFERRED
behind the pull-in of valve 32 (12 R308). The isolation closes valve 0 with nothing due, so the VALVE_COMMAND completes (12 R309) and
runs no longer. -/
theorem not_modeRecordAndUpdateCommands : ¬ Obligations.ModeRecordAndUpdateCommands := by
  unfold Obligations.ModeRecordAndUpdateCommands
  rintro ⟨-, hisolate, -⟩
  let opening : Packet := { sq := 2, tag := 7, opcode := 0x0602, flags := 0,
                            block := le16 1 ++ le16 12 ++ le16 1 ++ zeros 2 ++ le8 0 ++ le8 0 ++ zeros 2 }
  let p : Packet := { sq := 2, tag := 9, opcode := 0, flags := 0,
                      block := le16 1 ++ le16 12 ++ le8 1 ++ le8 2 ++ le16 0 ++ le16 1 ++ zeros 2 }
  let s : State := {
    laneA := { run := .running }, laneCtl := { redundancy := .net, netCause := 4 }, mode := { lifeCycle := .operational, authority := .manual }
    cfg := { topo := { accepted := true, rackEnable := 1, racks := [(0, { vReturn := 1 })] }, racks := [(0, { state := .service })]
             valves := [(0, { accepted := true, enable := true }), (32, { accepted := true, enable := true })] }
    valve := { v24 := true, chans := [(0, { phase := .deferred, due := some { since := some 0 } }), (32, { phase := .pullIn })]
               cmds := [{ cmd := 0, entries := [(0, 0)], through := [0], released := 1, applied := 1, deferred := [0] }] }
    proto := { nextId := 1, issued := [{ id := 0, sq := 2, tag := 7, opcode := 0x0602 }], running := [{ packet := opening, commit := 0 }] } }
  have hp : s.accepts p := by unfold State.accepts; decide
  have hb : p.blockOk 12 [(10, 2)] = true := by decide
  obtain ⟨h4, h5, h6, h8⟩ : u8At p.block 4 = 1 ∧ u8At p.block 5 = 2 ∧ u16At p.block 6 = 0 ∧ u16At p.block 8 = 2 ^ 0 := by decide
  have hst : s.rackState 0 ≠ .isolated := by decide
  obtain ⟨t, ht, -, -, hproto⟩ := hisolate p s 0 hp rfl rfl hb h4 h5 h6 (by decide) h8 (by decide) hst
  obtain rfl := Host.Outcome.next.inj
    ((exec_modeRequest_isolatesInNet h4 h5 rfl h6 (by decide) h8 (by decide) hst hp rfl hb).symm.trans ht)
  have hsettled : (({ s with proto := s.took 0x0901 p } : State).moveRack 0 .isolated).proto.running = [] := by decide +kernel
  have hkept : [({ packet := opening, commit := 0 } : Running)] = [] :=
    (congrArg ProtoSt.running hproto).symm.trans ((State.conclude_running _ _ _ _).trans hsettled)
  exact List.cons_ne_nil _ _ hkept

end Sys2Proof.Machine
end

section
/-! SUPPORT. The anchor of the state: what no command changes but the few that name it (20 R487, Life cycle; logs 3, 9). -/

namespace Sys2Proof.Machine

/-- The queue, host memory, the fuses (SEC_FLOOR, key 0, the serial number, each lane's fused tiles) and the life cycle. -/
structure Anchor where
  pending : List Instr
  secFloor : Nat
  key0Revoked : Bool
  serial : U64
  fusedA : List Nat
  fusedB : List Nat
  lifeCycle : LifeCycle
  hostMem : Mem

def State.anchor (s : State) : Anchor :=
  { pending := s.pending, secFloor := s.upd.secFloor, key0Revoked := s.upd.key0Revoked, serial := s.gen.serial
    fusedA := s.laneA.fused, fusedB := s.laneB.fused, lifeCycle := s.mode.lifeCycle, hostMem := s.hostMem }

theorem State.anchor_mk (pending fresh power gen hif dport spdm proto tick mode laneCtl laneA laneB cfg due passDue govWait nor rel img tray
    cool motors valve sense bus evt upd hostMem) :
    (State.mk pending fresh power gen hif dport spdm proto tick mode laneCtl laneA laneB cfg due passDue govWait nor rel img tray
      cool motors valve sense bus evt upd hostMem).anchor =
      ⟨pending, upd.secFloor, upd.key0Revoked, gen.serial, laneA.fused, laneB.fused, mode.lifeCycle, hostMem⟩ := (rfl)

theorem State.anchor_eta (s : State) :
    (⟨s.pending, s.upd.secFloor, s.upd.key0Revoked, s.gen.serial, s.laneA.fused, s.laneB.fused, s.mode.lifeCycle, s.hostMem⟩ : Anchor) =
      s.anchor := (rfl)

theorem State.anchor_ite {c : Prop} [Decidable c] (a b : State) : (if c then a else b).anchor = if c then a.anchor else b.anchor :=
  apply_ite State.anchor c a b

theorem Lane.fused_ite {c : Prop} [Decidable c] (a b : Lane) : (if c then a else b).fused = if c then a.fused else b.fused :=
  apply_ite Lane.fused c a b

/-- A fold of steps that keep the anchor keeps it. -/
theorem State.foldl_anchor {α : Type} {f : State → α → State} {l : List α} {s : State} (hf : ∀ t a, (f t a).anchor = t.anchor) :
    (l.foldl f s).anchor = s.anchor := foldl_keeps State.anchor hf l s

theorem State.setLane_anchor {s : State} {l : LaneId} {x : Lane} (h : x.fused = (s.lane l).fused) : (s.setLane l x).anchor = s.anchor := by
  cases l <;> simp only [State.lane] at h <;> simp only [State.setLane, State.anchor, h]

theorem State.onLane_anchor {s : State} {l : LaneId} {f : Lane → Lane} (h : (f (s.lane l)).fused = (s.lane l).fused) :
    (s.onLane l f).anchor = s.anchor := State.setLane_anchor h

theorem State.onLanes_anchor {s : State} {f : Lane → Lane} (h : ∀ x, (f x).fused = x.fused) : (s.onLanes f).anchor = s.anchor := by
  simp only [State.onLanes, State.anchor, Lane.fused_ite, h, ite_self]

/-- An outcome that goes on in a state with the anchor of `s`. -/
def Leaves (s : State) (o : Host.Outcome State Fault Refusal) : Prop := ∃ t, o = .next t ∧ t.anchor = s.anchor

theorem Leaves.next {s t : State} (h : t.anchor = s.anchor) : Leaves s (.next t) := ⟨t, rfl, h⟩

/-- A body of a host opcode that, where it goes on, does so in a state with the anchor of `s`. -/
def Anchored (s : State) (r : Except Reply (State × CmdEnd)) : Prop := ∀ t e, r = .ok (t, e) → t.anchor = s.anchor

theorem Anchored.error {s : State} {r : Reply} : Anchored s (.error r) := fun _ _ h => nomatch h

theorem Anchored.ok {s t : State} {e : CmdEnd} (h : t.anchor = s.anchor) : Anchored s (.ok (t, e)) := fun _ _ ht => by
  cases ht; exact h

theorem Anchored.bind {α : Type} {s : State} {x : Except Reply α} {k : α → Except Reply (State × CmdEnd)} (h : ∀ a, Anchored s (k a)) :
    Anchored s (x >>= k) := by
  cases x with
  | error r => exact .error
  | ok a => exact h a

theorem Anchored.ite {c : Prop} [Decidable c] {s : State} {a b : Except Reply (State × CmdEnd)} (ha : Anchored s a) (hb : Anchored s b) :
    Anchored s (if c then a else b) := by
  split <;> assumption

theorem Anchored.congr {s t : State} {r : Except Reply (State × CmdEnd)} (h : Anchored t r) (ht : t.anchor = s.anchor) : Anchored s r :=
  fun u e hr => (h u e hr).trans ht

/-! ## Lanes, records, events and configuration -/

theorem State.logRm_anchor (s : State) (cls ty : Nat) (subject : U32) (data : List U32) (origin : Nat) : (s.logRm cls ty subject data
  origin).anchor = s.anchor :=
  rfl

theorem State.logIn_anchor (s : State) (l : LaneId) (cls ty : Nat) (subject : U32) (data : List U32) (origin : Option Nat) : (s.logIn l cls ty
  subject data origin).anchor = s.anchor := by
  unfold State.logIn; split <;> rfl

theorem State.logLanes_anchor (s : State) (cls ty : Nat) (subject : U32) (data : List U32) (origin : Option Nat) : (s.logLanes cls ty subject data
  origin).anchor = s.anchor := by
  simp only [State.logLanes, State.logIn_anchor, State.anchor_ite, ite_self]

theorem State.logRegWrite_anchor (s : State) (off : Nat) (value before : U32) (ignored : Bool) : (s.logRegWrite off value before ignored).anchor =
  s.anchor :=
  rfl

theorem State.fire_anchor (s : State) (v : Nat) : (s.fire v).anchor = s.anchor := by
  simp only [State.fire, ↓State.anchor_mk, ↓State.anchor_eta, State.anchor_ite, ite_self]

theorem State.fireIfSet_anchor (s : State) (v : Nat) (old new : U32) : (s.fireIfSet v old new).anchor = s.anchor := by
  simp only [State.fireIfSet, State.fire_anchor, State.anchor_ite, ite_self]

theorem State.setTickEvent_anchor (s : State) (m : U32) : (s.setTickEvent m).anchor = s.anchor := by
  simp only [State.setTickEvent, State.fireIfSet_anchor, ↓State.anchor_mk, ↓State.anchor_eta]

theorem State.setLaneEvent_anchor (s : State) (m : U32) : (s.setLaneEvent m).anchor = s.anchor := by
  simp only [State.setLaneEvent, State.fireIfSet_anchor, ↓State.anchor_mk, ↓State.anchor_eta]

theorem State.setModeEvent_anchor (s : State) (m : U32) : (s.setModeEvent m).anchor = s.anchor := by
  simp only [State.setModeEvent, State.fireIfSet_anchor, ↓State.anchor_mk, ↓State.anchor_eta]

theorem State.setEvtEvent_anchor (s : State) (m : U32) : (s.setEvtEvent m).anchor = s.anchor := by
  simp only [State.setEvtEvent, State.fireIfSet_anchor, ↓State.anchor_mk, ↓State.anchor_eta]

theorem State.setUpdEvent_anchor (s : State) (m : U32) : (s.setUpdEvent m).anchor = s.anchor := by
  simp only [State.setUpdEvent, State.fireIfSet_anchor, ↓State.anchor_mk, ↓State.anchor_eta]

theorem State.setHifErr_anchor (s : State) (m : U32) : (s.setHifErr m).anchor = s.anchor := by
  simp only [State.setHifErr, State.fireIfSet_anchor, ↓State.anchor_mk, ↓State.anchor_eta]

theorem State.apply_anchor (s : State) (l : List CfgItem) : (s.apply l).anchor = s.anchor := rfl

theorem State.toCopies_anchor (s : State) (f : Cfg → Cfg) : (s.toCopies f).anchor = s.anchor := rfl

theorem State.defer_anchor (s : State) (l : List CfgItem) : (s.defer l).anchor = s.anchor := rfl

theorem State.deferPass_anchor (s : State) (l : List CfgItem) : (s.deferPass l).anchor = s.anchor := rfl

theorem State.store_anchor (s : State) (l : List CfgItem) : (s.store l).anchor = s.anchor := rfl

theorem State.applyStore_anchor (s : State) (l : List CfgItem) : (s.applyStore l).anchor = s.anchor := rfl

theorem State.cfgReg_anchor (s : State) (f : Cfg → Cfg) : (s.cfgReg f).anchor = s.anchor := rfl

/-! ## What every host opcode does -/

theorem State.ready_anchor (s : State) (p : Packet) (epoch : Nat) (r : Reply) (dup : Bool) : (s.ready p epoch r dup).anchor = s.anchor := by
  unfold State.ready; split <;> rfl

theorem State.hold_anchor (s : State) (p : Packet) (epoch : Nat) (r : Reply) : (s.hold p epoch r).anchor = s.anchor := rfl

theorem State.conclude_anchor (s : State) (p : Packet) (epoch : Nat) (r : Reply) : (s.conclude p epoch r).anchor = s.anchor := by
  simp only [State.conclude, State.hold_anchor, State.ready_anchor, State.anchor_ite, ite_self]

theorem State.finish_anchor (s : State) (id : Nat) (r : Reply) : (s.finish id r).anchor = s.anchor := by
  unfold State.finish; split <;> simp only [State.conclude_anchor, ↓State.anchor_mk, ↓State.anchor_eta]

theorem State.countRefusal_anchor (s : State) (r : Reply) : (s.countRefusal r).anchor = s.anchor := by unfold State.countRefusal; split <;> rfl

theorem State.keeps_ite {c : Prop} [Decidable c] {s a b : State} (ha : a.anchor = s.anchor) (hb : b.anchor = s.anchor) :
    (if c then a else b).anchor = s.anchor := by
  split <;> assumption

section
variable {R : State → State → Prop} (hR : ∀ {s t : State}, t.anchor = s.anchor → R s t) (hT : ∀ {s t u : State}, R s t → R t u → R s u)
include hR hT

/-- A body that goes on within a relation that only the anchor bounds: so does the command's execution. -/
theorem State.execBody_rel {s : State} {p : Packet} {e : Nat} {body : Nat → Packet → State → Except Reply (State × CmdEnd)}
    (h : ∀ t c, body e p s = .ok (t, c) → R s t) : R s (s.execBody p e body) := by
  unfold State.execBody
  split
  · exact hR (State.conclude_anchor s p e _)
  · next t r ht => exact hT (h t _ ht) (hR (State.conclude_anchor t p e r))
  · next t save ht => exact hT (h t _ ht) (hR rfl)

omit hR hT in
theorem State.claimFetched_anchor {s t : State} {p q : Packet} {free : Bool} {e : Nat} (h : s.claimFetched p free = some (t, q, e)) :
    t.anchor = s.anchor := by
  unfold State.claimFetched at h
  split at h <;> cases h
  rfl

omit hR hT in
theorem State.claim_anchor {s t : State} {p q : Packet} {free : Bool} {e : Nat} (h : s.claim p free = some (t, q, e)) :
    t.anchor = s.anchor := by
  unfold State.claim at h
  split at h
  · dsimp only at h
    split at h
    · split at h
      · cases h; rfl
      · exact State.claimFetched_anchor h
    · exact State.claimFetched_anchor h
  · cases h; rfl

theorem State.runCmd_rel {s : State} {op : Nat} {free : Bool} {p : Packet} {shape : Packet → Except Reply Unit}
    {axis : Packet → State → Except Reply Unit} {body : Nat → Packet → State → Except Reply (State × CmdEnd)}
    (hb : ∀ e p s t c, body e p s = .ok (t, c) → R s t) : R s (s.runCmd op free p shape axis body) := by
  unfold State.runCmd
  split
  · exact hR rfl
  · next t q e hc =>
    refine hT (hR (State.claim_anchor hc)) ?_
    split
    · exact hR (State.ready_anchor t q e _ _)
    · split
      · exact hR ((State.ready_anchor _ q e _ _).trans (State.countRefusal_anchor _ _))
      · split
        · split
          · exact hR (State.ready_anchor t q e _ _)
          · refine hT (hR ?_) (State.execBody_rel hR hT (hb _ _ _))
            exact State.ready_anchor { t with proto := _ } q e _ _
        · exact State.execBody_rel hR hT (hb _ _ _)

end

/-- A host opcode keeps the anchor where its body does. -/
theorem State.runCmd_anchor {s : State} {op : Nat} {free : Bool} {p : Packet} {shape : Packet → Except Reply Unit}
    {axis : Packet → State → Except Reply Unit} {body : Nat → Packet → State → Except Reply (State × CmdEnd)}
    (hb : ∀ e p s, Anchored s (body e p s)) : (s.runCmd op free p shape axis body).anchor = s.anchor :=
  State.runCmd_rel (R := fun s t => t.anchor = s.anchor) id (fun h k => k.trans h) hb

theorem State.logConfig_anchor (s : State) (p : Packet) (status : Nat) : (s.logConfig p status).anchor = s.anchor := by
  simp only [State.logConfig, State.logLanes_anchor]

theorem State.writeTransfer_anchor (s : State) (a : Nat) (bs : List Byte) : (s.writeTransfer a bs).anchor = s.anchor := by
  simp only [State.writeTransfer, State.onLanes_anchor, implies_true]

/-- Nothing of the anchor but host memory, which stays canonical. -/
def Near (s t : State) : Prop := ∃ m, t.anchor = { s.anchor with hostMem := m } ∧ (Mem.wf s.hostMem → Mem.wf m)

theorem Near.of_anchor {s t : State} (h : t.anchor = s.anchor) : Near s t := ⟨s.hostMem, h, id⟩

theorem Near.trans {s t u : State} (h : Near s t) (k : Near t u) : Near s u := by
  obtain ⟨m, hm, hwm⟩ := h
  obtain ⟨n, hn, hwn⟩ := k
  have ht : t.hostMem = m := congrArg Anchor.hostMem hm
  exact ⟨n, by rw [hn, hm], fun hs => hwn (ht ▸ hwm hs)⟩

theorem State.writeHost_near (s : State) (a : Nat) (bs : List Byte) : Near s (s.writeHost a bs) := ⟨_, rfl, fun h => Mem.wf_writeBytes _ _ _ h⟩

theorem State.runCmd_near {s : State} {op : Nat} {free : Bool} {p : Packet} {shape : Packet → Except Reply Unit}
    {axis : Packet → State → Except Reply Unit} {body : Nat → Packet → State → Except Reply (State × CmdEnd)}
    (hb : ∀ e p s t c, body e p s = .ok (t, c) → Near s t) : Near s (s.runCmd op free p shape axis body) :=
  State.runCmd_rel Near.of_anchor Near.trans hb

theorem State.stopQueue_anchor (s : State) (q : Nat) : (s.stopQueue q).anchor = s.anchor := rfl

theorem State.dmaFault_anchor (s : State) (q : Nat) : (s.dmaFault q).anchor = s.anchor := by
  simp only [State.dmaFault, State.setHifErr_anchor, State.stopQueue_anchor]

theorem statusReply_anchored (s : State) (kind size base first count top addr : Nat) :
    Anchored s (statusReply s kind size base first count top addr) :=
  .bind fun _ => .ok (State.writeTransfer_anchor s _ _)

/-! ## Lanes lost and wiped -/

theorem State.onStat_anchor (s : State) (l : LaneId) (f : LaneStat → LaneStat) : (s.onStat l f).anchor = s.anchor := rfl

theorem Lane.wiped_fused (x : Lane) (r : LaneRun) : (x.wiped r).fused = x.fused := rfl

theorem State.refitK_anchor (s : State) : s.refitK.anchor = s.anchor := by
  simp only [State.refitK, ↓State.anchor_mk, ↓State.anchor_eta, State.anchor_ite, ite_self]

theorem State.resetLane_anchor (s : State) (l : LaneId) : (s.resetLane l).anchor = s.anchor := by
  unfold State.resetLane; dsimp only
  rw [State.onStat_anchor, State.onLane_anchor (Lane.wiped_fused _ _)]

theorem State.noteLoss_anchor (s : State) (l : LaneId) (reason : Nat) : (s.noteLoss l reason).anchor = s.anchor := by
  simp only [State.noteLoss, State.logRm_anchor, State.onStat_anchor, State.setLaneEvent_anchor, ↓State.anchor_mk, ↓State.anchor_eta,
    State.anchor_ite, ite_self]

theorem State.abandonDrill_anchor (s : State) : s.abandonDrill.anchor = s.anchor := by
  unfold State.abandonDrill; split <;> simp only [State.finish_anchor, ↓State.anchor_mk, ↓State.anchor_eta]

theorem State.notExecuted_anchor (s : State) : s.notExecuted.anchor = s.anchor := by
  simp only [State.notExecuted, State.conclude_anchor, State.ready_anchor, State.setModeEvent_anchor, ↓State.anchor_mk, ↓State.anchor_eta,
    State.anchor_ite, State.foldl_anchor, ite_self, implies_true]

theorem State.failUpdateInNet_anchor (s : State) : s.failUpdateInNet.anchor = s.anchor := by
  simp only [State.failUpdateInNet, State.logRm_anchor, State.setModeEvent_anchor, ↓State.anchor_mk, ↓State.anchor_eta, State.anchor_ite, ite_self]

theorem State.dropRequests_anchor (s : State) : s.dropRequests.anchor = s.anchor :=
  State.foldl_anchor (s := { s with mode := { s.mode with pendingModes := [] } }) fun t m => by
    cases m <;> simp only [State.finish_anchor]

theorem State.reloadLanes_anchor (s : State) : s.reloadLanes.anchor = s.anchor := by
  simp only [State.reloadLanes, State.notExecuted_anchor, State.resetLane_anchor, ↓State.anchor_mk, ↓State.anchor_eta, State.anchor_ite, ite_self]

theorem State.restartRm_anchor (s : State) : s.restartRm.anchor = s.anchor := by
  simp only [State.restartRm, State.setLaneEvent_anchor, ↓State.anchor_mk, ↓State.anchor_eta]

theorem State.enterNet_anchor (s : State) (cause : Nat) (resets : Bool) : (s.enterNet cause resets).anchor = s.anchor := by
  simp only [State.enterNet, State.abandonDrill_anchor, State.dropRequests_anchor, State.failUpdateInNet_anchor, State.logRm_anchor,
    State.onLanes_anchor, State.reloadLanes_anchor, State.restartRm_anchor, State.setLaneEvent_anchor, ↓State.anchor_mk, ↓State.anchor_eta,
    State.anchor_ite, ite_self, implies_true]

theorem State.loseLane_anchor (s : State) (l : LaneId) (reason : Nat) : (s.loseLane l reason).anchor = s.anchor := by
  simp only [State.loseLane, State.abandonDrill_anchor, State.enterNet_anchor, State.logRm_anchor, State.noteLoss_anchor, State.refitK_anchor,
    State.resetLane_anchor, ↓State.anchor_mk, ↓State.anchor_eta, State.anchor_ite, ite_self]

theorem State.failRejoin_anchor (s : State) (l : LaneId) (reason : Nat) : (s.failRejoin l reason).anchor = s.anchor := by
  simp only [State.failRejoin, State.enterNet_anchor, State.noteLoss_anchor, State.resetLane_anchor, ↓State.anchor_mk, ↓State.anchor_eta,
    State.anchor_ite, ite_self]

/-! ## Fit -/

theorem State.putFits_anchor (s : State) (i : Image) : (s.putFits i).anchor = s.anchor := rfl

theorem State.stageReference_anchor (s : State) : s.stageReference.anchor = s.anchor := by
  simp only [State.stageReference, State.onLanes_anchor, ↓State.anchor_mk, ↓State.anchor_eta, State.anchor_ite, ite_self, implies_true]

theorem State.restageReference_anchor (s : State) (before : Cfg) : (s.restageReference before).anchor = s.anchor := by
  simp only [State.restageReference, State.stageReference_anchor, State.anchor_ite, ite_self]

/-! ## The command protocol -/

theorem doNopEcho_anchor (p : Packet) (s : State) : (doNopEcho p s).anchor = s.anchor := State.runCmd_anchor fun _ _ _ => .ok rfl

theorem doGetIdentity_anchor (p : Packet) (s : State) : (doGetIdentity p s).anchor = s.anchor := State.runCmd_anchor fun _ _ _ => .ok rfl

theorem Near.of_bind {α : Type} {s t : State} {c : CmdEnd} {x : Except Reply α} {k : α → Except Reply (State × CmdEnd)}
    (h : ∀ a, k a = .ok (t, c) → Near s t) (hx : (x >>= k) = .ok (t, c)) : Near s t := by
  cases x with
  | error r => cases hx
  | ok a => exact h a hx

theorem doSnapshotRead_near (p : Packet) (dmaOk : Bool) (s : State) : Near s (doSnapshotRead p dmaOk s) :=
  State.runCmd_near fun _ p s t c => Near.of_bind fun _ h => by
    dsimp only at h
    split at h
    · cases h
    · split at h <;> cases h
      · exact State.writeHost_near s _ _
      · exact Near.of_anchor (State.dmaFault_anchor s _)

theorem doResultFetch_anchor (p : Packet) (s : State) : (doResultFetch p s).anchor = s.anchor :=
  State.runCmd_anchor fun _ p s => by
    dsimp only
    split
    · exact .error
    · split <;> exact .ok rfl

theorem doQueueBarrier_anchor (p : Packet) (s : State) : (doQueueBarrier p s).anchor = s.anchor := by
  unfold doQueueBarrier
  exact State.runCmd_anchor fun _ _ _ => .ok rfl

theorem State.setHostAxis_anchor (s : State) (present : Bool) : (s.setHostAxis present).anchor = s.anchor := by
  simp only [State.setHostAxis, State.logRm_anchor, State.setModeEvent_anchor, ↓State.anchor_mk, ↓State.anchor_eta, State.anchor_ite, ite_self]

theorem doHostHeartbeat_anchor (p : Packet) (s : State) : (doHostHeartbeat p s).anchor = s.anchor :=
  State.runCmd_anchor fun _ _ _ => .ok (State.setHostAxis_anchor _ _)

theorem State.logRefused_anchor (s : State) (q check : Nat) (tag : U32) : (s.logRefused q check tag).anchor = s.anchor := by
  simp only [State.logRefused, State.logRm_anchor, ↓State.anchor_mk, ↓State.anchor_eta, State.anchor_ite, ite_self]

theorem State.moveHead_anchor (s : State) (q n : Nat) : (s.moveHead q n).anchor = s.anchor := rfl

theorem doFaultyPacket_anchor (q : Fin 8) (bs : List Byte) (dmaOk : Bool) (s : State) : (doFaultyPacket q bs dmaOk s).anchor = s.anchor := by
  unfold doFaultyPacket; dsimp only
  repeat' split
  all_goals simp only [State.dmaFault_anchor, State.logRefused_anchor, State.logRm_anchor, State.moveHead_anchor, State.ready_anchor,
    State.stopQueue_anchor, ↓State.anchor_mk, ↓State.anchor_eta]

theorem doCommandDelivery_anchor (s : State) : (doCommandDelivery s).anchor = s.anchor := by unfold doCommandDelivery; split <;> rfl

theorem doDeliveryCommit_anchor (ackA ackB : Bool) (s : State) : (doDeliveryCommit ackA ackB s).anchor = s.anchor := by
  simp only [doDeliveryCommit, State.loseLane_anchor, ↓State.anchor_mk, ↓State.anchor_eta, State.anchor_ite, ite_self]

theorem State.coalesce_anchor (s : State) (noIrq : Bool) : (s.coalesce noIrq).anchor = s.anchor := by
  simp only [State.coalesce, State.fire_anchor, ↓State.anchor_mk, ↓State.anchor_eta, State.anchor_ite, ite_self]

theorem State.retire_anchor (s : State) (c : Completion) : (s.retire c).anchor = s.anchor := rfl

theorem doCompletionWrite_near (sq : Fin 8) (dmaOk : Bool) (s : State) : Near s (doCompletionWrite sq dmaOk s) := by
  unfold doCompletionWrite
  split
  · exact Near.of_anchor rfl
  · split
    · exact Near.of_anchor rfl
    · split
      · exact Near.of_anchor (State.dmaFault_anchor s _)
      · next c _ _ =>
        refine (State.writeHost_near s (s.hif.cqBase.toNat + 32 * s.hif.cqTail) (c.bytes s.hif.cqPhase)).trans (Near.of_anchor ?_)
        dsimp only
        rw [State.coalesce_anchor, State.retire_anchor]; rfl

theorem doHeldResultReady_anchor (tag : U32) (s : State) : (doHeldResultReady tag s).anchor = s.anchor := by unfold doHeldResultReady; split <;> rfl

theorem doCqCoalesceTimeout_anchor (us : Nat) (s : State) : (doCqCoalesceTimeout us s).anchor = s.anchor := by
  simp only [doCqCoalesceTimeout, State.fire_anchor, ↓State.anchor_mk, ↓State.anchor_eta, State.anchor_ite, ite_self]

end Sys2Proof.Machine
end

section
/-! SUPPORT. The anchor in the field: mode axes, loops, motors, valves and the coolant network keep it. -/

namespace Sys2Proof.Machine

/-! ## Mode axes -/

theorem State.putAuthority_anchor (s : State) (a : Authority) (epoch : Nat) : (s.putAuthority a epoch).anchor = s.anchor := rfl

theorem State.changeAuthority_anchor (s : State) (a : Authority) (epoch : Nat) : (s.changeAuthority a epoch).anchor = s.anchor := by
  simp only [State.changeAuthority, State.logRm_anchor, State.putAuthority_anchor, State.setModeEvent_anchor, State.anchor_ite, ite_self]

theorem State.forceAuthority_anchor (s : State) (a : Authority) (epoch cause : Nat) : (s.forceAuthority a epoch cause).anchor = s.anchor := by
  simp only [State.forceAuthority, State.logRm_anchor, State.putAuthority_anchor, State.setModeEvent_anchor, State.anchor_ite, ite_self]

theorem State.putRack_anchor (s : State) (k : Nat) (st : RackState) : (s.putRack k st).anchor = s.anchor := by
  simp only [State.putRack, State.applyStore_anchor, State.logRm_anchor, State.setModeEvent_anchor, State.anchor_ite, ite_self]

theorem State.putUpdate_anchor (s : State) (u : UpdatePhase) : (s.putUpdate u).anchor = s.anchor := by
  simp only [State.putUpdate, State.setModeEvent_anchor, ↓State.anchor_mk, ↓State.anchor_eta, State.anchor_ite, ite_self]

theorem State.startOver_anchor (s : State) : s.startOver.anchor = s.anchor := by
  simp only [State.startOver, State.setModeEvent_anchor, ↓State.anchor_mk, ↓State.anchor_eta, State.anchor_ite, ite_self]

/-! ## Loops -/

theorem State.runPass_anchor (s : State) (l : LaneId) : (s.runPass l).anchor = s.anchor := by
  simp only [State.runPass, State.logIn_anchor, State.onLane_anchor, State.foldl_anchor, implies_true]

theorem State.loadHostRegisters_anchor (s : State) : s.loadHostRegisters.anchor = s.anchor := by
  simp only [State.loadHostRegisters, State.applyStore_anchor, State.onLanes_anchor, State.foldl_anchor, implies_true]

theorem loopConfigureBody_anchored (p : Packet) (s : State) : Anchored s (loopConfigureBody p s) := .bind fun _ => by
  dsimp only
  split
  · exact .error
  · refine .ite (.ok rfl) (.ok ?_)
    rw [State.logConfig_anchor, State.restageReference_anchor, State.apply_anchor]
    simp only [State.anchor_mk, State.anchor_eta]
    exact State.onLanes_anchor (s := s) fun _ => rfl

theorem loopSetModeBody_anchored (p : Packet) (s : State) : Anchored s (loopSetModeBody p s) := .bind fun _ => .ok (by
  rw [State.logConfig_anchor, State.apply_anchor]
  exact State.onLanes_anchor fun _ => rfl)

theorem loopSetPointBody_anchored (p : Packet) (s : State) : Anchored s (loopSetPointBody p s) := .bind fun _ => .bind fun _ => .ok (by
  rw [State.logConfig_anchor, State.apply_anchor]
  exact State.onLanes_anchor fun _ => rfl)

/-! ## Motors -/

theorem State.onMotor_anchor (s : State) (n : Nat) (f : Motor → Motor) : (s.onMotor n f).anchor = s.anchor := rfl

theorem State.setPermit_anchor (s : State) (n : Nat) (on : Bool) : (s.setPermit n on).anchor = s.anchor := rfl

theorem State.swapFailedLead_anchor (s : State) (n : Nat) : (s.swapFailedLead n).anchor = s.anchor := by
  unfold State.swapFailedLead; dsimp only
  repeat' split
  all_goals simp only [State.setPermit_anchor, ↓State.anchor_mk, ↓State.anchor_eta]

theorem State.groupFull_anchor (s : State) (n : Nat) : (s.groupFull n).anchor = s.anchor := by
  unfold State.groupFull; dsimp only
  rw [State.anchor_ite, State.logRm_anchor, ite_self]
  exact State.foldl_anchor fun _ _ => rfl

theorem State.failMotor_anchor (s : State) (n : Nat) (st : MotorState) (code : Nat) : (s.failMotor n st code).anchor = s.anchor := by
  simp only [State.failMotor, State.groupFull_anchor, State.logRm_anchor, State.onMotor_anchor, State.swapFailedLead_anchor]

theorem State.failAttempt_anchor (s : State) (n code : Nat) : (s.failAttempt n code).anchor = s.anchor := by
  simp only [State.failAttempt, State.failMotor_anchor, State.onMotor_anchor, State.anchor_ite, ite_self]

theorem State.tripMotor_anchor (s : State) (n code : Nat) : (s.tripMotor n code).anchor = s.anchor := by
  simp only [State.tripMotor, State.failMotor_anchor, State.logRm_anchor, State.onMotor_anchor, State.anchor_ite, ite_self]

theorem State.beginAttempt_anchor (s : State) (n : Nat) : (s.beginAttempt n).anchor = s.anchor := by
  simp only [State.beginAttempt, State.onMotor_anchor, State.anchor_ite, ite_self]

theorem State.endWait_anchor (s : State) (n : Nat) (w : MotorWait) (done : Motor → Bool) : (s.endWait n w done).anchor = s.anchor := by
  simp only [State.endWait, State.beginAttempt_anchor, State.onMotor_anchor, State.anchor_ite, ite_self]

theorem execAlignEnd_leaves (m : Fin 56) (s : State) : Leaves s (execAlignEnd m s) := ⟨_, rfl, by split <;> rfl⟩

theorem execRampEnd_leaves (m : Fin 56) (s : State) : Leaves s (execRampEnd m s) := ⟨_, rfl, by split <;> rfl⟩

theorem execVerifyEnd_leaves (m : Fin 56) (emfOk : Bool) (s : State) : Leaves s (execVerifyEnd m emfOk s) :=
  ⟨_, rfl, by simp only [State.failAttempt_anchor, State.onMotor_anchor, State.anchor_ite, ite_self]⟩

theorem execRotorSpinTimeout_leaves (m : Fin 56) (s : State) : Leaves s (execRotorSpinTimeout m s) :=
  ⟨_, rfl, by simp only [State.failAttempt_anchor, State.anchor_ite, ite_self]⟩

theorem execAttemptCountClear_leaves (m : Fin 56) (s : State) : Leaves s (execAttemptCountClear m s) := ⟨_, rfl, by split <;> rfl⟩

theorem execInverterFault_leaves (m : Fin 56) (s : State) : Leaves s (execInverterFault m s) :=
  ⟨_, rfl, by simp only [State.tripMotor_anchor, State.anchor_ite, ite_self]⟩

theorem execOvercurrentTrip_leaves (m : Fin 56) (s : State) : Leaves s (execOvercurrentTrip m s) :=
  ⟨_, rfl, by simp only [State.failAttempt_anchor, State.tripMotor_anchor, State.anchor_ite, ite_self]⟩

theorem execMotorOverspeed_leaves (m : Fin 56) (s : State) : Leaves s (execMotorOverspeed m s) :=
  ⟨_, rfl, by simp only [State.failMotor_anchor, State.anchor_ite, ite_self]⟩

theorem execRunningStall_leaves (m : Fin 56) (s : State) : Leaves s (execRunningStall m s) :=
  ⟨_, rfl, by simp only [State.failAttempt_anchor, State.groupFull_anchor, State.onMotor_anchor, State.anchor_ite, ite_self]⟩

theorem execGroupOverrideEnd_leaves (m : Fin 56) (s : State) : Leaves s (execGroupOverrideEnd m s) := ⟨_, rfl, by
  split
  · rfl
  · exact State.foldl_anchor fun _ _ => rfl⟩

theorem State.busVoltage_anchor (s : State) (n code : Nat) : (s.busVoltage n code).anchor = s.anchor := by unfold State.busVoltage; split <;> rfl

theorem execTachFault_leaves (m : Fin 56) (s : State) : Leaves s (execTachFault m s) := ⟨_, rfl, by split <;> rfl⟩

theorem execTachClear_leaves (m : Fin 56) (s : State) : Leaves s (execTachClear m s) := ⟨_, rfl, by split <;> rfl⟩

theorem execTachMismatch_leaves (m : Fin 56) (s : State) : Leaves s (execTachMismatch m s) := ⟨_, rfl, by split <;> rfl⟩

theorem execCurrentLoopPeriod_leaves (inp : List MotorIn) (s : State) : Leaves s (execCurrentLoopPeriod inp s) :=
  ⟨_, rfl, by simp only [State.onMotor_anchor, State.anchor_ite, State.foldl_anchor, ite_self, implies_true]⟩

theorem motorConfigureBody_anchored (lo hi : Nat) (p : Packet) (s : State) : Anchored s (motorConfigureBody lo hi p s) :=
  .bind fun _ => .bind fun _ => .ite (.ok rfl) (.ok (State.logConfig_anchor _ _ _))

theorem State.putMotor_anchor (s : State) (n : Nat) (r : MotorRec) : (s.putMotor n r).anchor = s.anchor := by
  simp only [State.putMotor, State.apply_anchor, State.onMotor_anchor, State.setPermit_anchor, State.anchor_ite, ite_self]

theorem State.clearMotorFault_anchor (s : State) (n : Nat) : (s.clearMotorFault n).anchor = s.anchor := by
  unfold State.clearMotorFault; dsimp only
  split <;> simp only [State.beginAttempt_anchor, State.onMotor_anchor, ↓State.anchor_mk, ↓State.anchor_eta]

theorem motorCommandBody_anchored (p : Packet) (s : State) : Anchored s (motorCommandBody p s) :=
  .bind fun _ => .ite (.ok (State.clearMotorFault_anchor s _)) (.bind fun _ => .ok (by
    rw [State.anchor_ite, State.beginAttempt_anchor, ite_self]; exact State.setPermit_anchor s _ _))

theorem skipBandsBody_anchored (p : Packet) (s : State) : Anchored s (skipBandsBody p s) :=
  .bind fun _ => .bind fun _ => .ok (State.logConfig_anchor _ _ _)

/-! ## Valves -/

theorem State.onValve_anchor (s : State) (v : Nat) (f : Valve → Valve) : (s.onValve v f).anchor = s.anchor := rfl

theorem State.onSupply_anchor (s : State) (q : Nat) (f : Supply → Supply) : (s.onSupply q f).anchor = s.anchor := rfl

theorem State.startPullIn_anchor (s : State) (v : Nat) (degraded : Bool) : (s.startPullIn v degraded).anchor = s.anchor := rfl

theorem State.deferValve_anchor (s : State) (v : Nat) : (s.deferValve v).anchor = s.anchor := rfl

theorem State.cutToHold_anchor (s : State) (p v : Nat) : (s.cutToHold p v).anchor = s.anchor := rfl

theorem State.startOnRail_anchor (s : State) (v : Nat) (d : ValveDue) : (s.startOnRail v d).anchor = s.anchor := by
  simp only [State.startOnRail, State.onValve_anchor, State.startPullIn_anchor, State.anchor_ite, ite_self]

theorem State.tryStart_anchor (s : State) (v : Nat) : (s.tryStart v).anchor = s.anchor := by
  unfold State.tryStart; dsimp only
  split
  · rfl
  · split
    · rfl
    · split
      · exact State.startOnRail_anchor s v _
      · split
        · rw [State.startOnRail_anchor]; exact State.foldl_anchor fun t p => State.cutToHold_anchor t p v
        · rfl

theorem State.onValveCmds_anchor (s : State) (f : ValveCmd → ValveCmd) : (s.onValveCmds f).anchor = s.anchor := rfl

theorem State.advanceValves_anchor (s : State) : s.advanceValves.anchor = s.anchor := by unfold State.advanceValves; split <;> rfl

theorem State.wakeValves_anchor (s : State) : s.wakeValves.anchor = s.anchor := by
  unfold State.wakeValves; dsimp only
  rw [State.advanceValves_anchor, State.onValveCmds_anchor]
  refine State.foldl_anchor fun t v => ?_
  split
  · split
    · exact State.tryStart_anchor t v
    · rfl
  · rfl

theorem State.finishValveCmds_anchor (s : State) : s.finishValveCmds.anchor = s.anchor := by
  simp only [State.finishValveCmds, State.finish_anchor, ↓State.anchor_mk, ↓State.anchor_eta, State.foldl_anchor, implies_true]

theorem State.settleValves_anchor (s : State) : s.settleValves.anchor = s.anchor := by
  simp only [State.settleValves, State.finishValveCmds_anchor, State.wakeValves_anchor]

theorem State.driveValve_anchor (s : State) (v : Nat) (energise : Bool) (action : Nat) : (s.driveValve v energise action).anchor = s.anchor := by
  simp only [State.driveValve, State.onValve_anchor, State.tryStart_anchor, State.anchor_ite, ite_self]

theorem State.drivePosition_anchor (s : State) (k role : Nat) : (s.drivePosition k role).anchor = s.anchor := by
  unfold State.drivePosition; split <;> simp only [State.driveValve_anchor]

theorem State.driveRack_anchor (s : State) (k : Nat) : (s.driveRack k).anchor = s.anchor := by
  simp only [State.driveRack, State.drivePosition_anchor, State.settleValves_anchor, State.foldl_anchor, implies_true]

theorem State.driveRacks_anchor (s : State) : s.driveRacks.anchor = s.anchor := by
  simp only [State.driveRacks, State.driveRack_anchor, State.foldl_anchor, implies_true]

theorem State.clearValve_anchor (s : State) (v : Nat) : (s.clearValve v).anchor = s.anchor := by
  unfold State.clearValve; dsimp only
  split <;> simp only [State.drivePosition_anchor, State.onValve_anchor, State.anchor_ite, ite_self]

theorem State.applyEntry_anchor (s : State) (v op : Nat) : (s.applyEntry v op).anchor = s.anchor := by
  unfold State.applyEntry; split <;> simp only [State.clearValve_anchor, State.onValve_anchor, State.anchor_ite, ite_self]

theorem execValveEntryApply_leaves (s : State) : Leaves s (execValveEntryApply s) := ⟨_, rfl, by
  simp only [State.applyEntry_anchor, State.onValveCmds_anchor, State.settleValves_anchor, State.tryStart_anchor, State.foldl_anchor, implies_true]⟩

theorem execPullInEnd_leaves (v : Fin 64) (s : State) : Leaves s (execPullInEnd v s) :=
  ⟨_, rfl, by simp only [State.onValve_anchor, State.settleValves_anchor, State.anchor_ite, ite_self]⟩

theorem execDecayEnd_leaves (v : Fin 64) (s : State) : Leaves s (execDecayEnd v s) :=
  ⟨_, rfl, by simp only [State.onValve_anchor, State.settleValves_anchor, State.anchor_ite, ite_self]⟩

theorem execDeferredStart_leaves (v : Fin 64) (s : State) : Leaves s (execDeferredStart v s) :=
  ⟨_, rfl, by simp only [State.settleValves_anchor, State.tryStart_anchor, State.foldl_anchor, implies_true]⟩

theorem execValveDeferFault_leaves (v : Fin 64) (s : State) : Leaves s (execValveDeferFault v s) := ⟨_, rfl, by
  split
  · split
    · rfl
    · rw [State.settleValves_anchor, State.tryStart_anchor, State.onValve_anchor, State.logRm_anchor, State.onValve_anchor]
      exact State.foldl_anchor fun t p => State.cutToHold_anchor t p _
  · rfl⟩

theorem execBoostWaitExpiry_leaves (s : State) : Leaves s (execBoostWaitExpiry s) := ⟨_, rfl, by
  dsimp only
  repeat' split
  all_goals simp only [State.finish_anchor, State.onSupply_anchor, State.settleValves_anchor, ↓State.anchor_mk, ↓State.anchor_eta]⟩

theorem execValveDegradedPullin_leaves (v : Fin 64) (s : State) : Leaves s (execValveDegradedPullin v s) := ⟨_, rfl, by
  split <;> simp only [State.logRm_anchor, State.onSupply_anchor, State.settleValves_anchor, State.startPullIn_anchor, State.tryStart_anchor,
    State.anchor_ite, ite_self]⟩

theorem State.faultValve_anchor (s : State) (v code : Nat) (mark : Valve → Valve) : (s.faultValve v code mark).anchor = s.anchor := by
  simp only [State.faultValve, State.logRm_anchor, State.onValve_anchor, State.settleValves_anchor]

theorem execPeakCurrentReached_leaves (v : Fin 64) (us : Nat) (boosted : Bool) (s : State) : Leaves s (execPeakCurrentReached v us boosted s) :=
  ⟨_, rfl, by simp only [State.faultValve_anchor, State.onValve_anchor, State.anchor_ite, ite_self]⟩

theorem execValveOpenCoil_leaves (v : Fin 64) (s : State) : Leaves s (execValveOpenCoil v s) :=
  ⟨_, rfl, by simp only [State.faultValve_anchor, State.anchor_ite, ite_self]⟩

theorem execValveShortedCoil_leaves (v : Fin 64) (mA : Nat) (s : State) : Leaves s (execValveShortedCoil v mA s) :=
  ⟨_, rfl, by simp only [State.faultValve_anchor, State.anchor_ite, ite_self]⟩

theorem execValveStuckOn_leaves (v : Fin 64) (s : State) : Leaves s (execValveStuckOn v s) :=
  ⟨_, rfl, by simp only [State.faultValve_anchor, State.anchor_ite, ite_self]⟩

theorem execHighSideSwitchFault_leaves (v : Fin 64) (s : State) : Leaves s (execHighSideSwitchFault v s) :=
  ⟨_, rfl, by simp only [State.faultValve_anchor, State.anchor_ite, State.foldl_anchor, ite_self, implies_true]⟩

theorem execValveHoldLow_leaves (v : Fin 64) (s : State) : Leaves s (execValveHoldLow v s) := ⟨_, rfl, by split <;> rfl⟩

theorem execDecayTooSlow_leaves (v : Fin 64) (s : State) : Leaves s (execDecayTooSlow v s) :=
  ⟨_, rfl, by simp only [State.faultValve_anchor, State.anchor_ite, ite_self]⟩

theorem execPairImbalance_leaves (v : Fin 64) (s : State) : Leaves s (execPairImbalance v s) :=
  ⟨_, rfl, by simp only [State.faultValve_anchor, State.anchor_ite, ite_self]⟩

theorem State.countCoil_anchor (s : State) (v : Nat) : (s.countCoil v).anchor = s.anchor := by
  simp only [State.countCoil, State.onValve_anchor, State.anchor_ite, ite_self]

theorem State.sampleValves_anchor (s : State) (coils boost : List (Nat × Nat)) : (s.sampleValves coils boost).anchor = s.anchor := by
  unfold State.sampleValves
  exact Eq.trans (State.foldl_anchor fun t e => State.countCoil_anchor t e.1)
    (Eq.trans (State.foldl_anchor fun _ _ => rfl) (State.foldl_anchor fun _ _ => rfl))

theorem execStrongmanReady_leaves (supply : Fin 2) (s : State) : Leaves s (execStrongmanReady supply s) :=
  ⟨_, rfl, by simp only [State.onSupply_anchor, State.settleValves_anchor, State.anchor_ite, ite_self]⟩

theorem execStrongmanFault_leaves (supply : Fin 2) (s : State) : Leaves s (execStrongmanFault supply s) := ⟨_, rfl, by split <;> rfl⟩

theorem execStrongmanRetry_leaves (supply : Fin 2) (s : State) : Leaves s (execStrongmanRetry supply s) := ⟨_, rfl, by split <;> rfl⟩

theorem State.stagesOff_anchor (s : State) : s.stagesOff.anchor = s.anchor := State.foldl_anchor fun _ _ => rfl

theorem execActuatorSupplyLost_leaves (s : State) : Leaves s (execActuatorSupplyLost s) := by
  have hsup (t : State) :
      ([0, 1].foldl (fun (s : State) q => s.onSupply q fun x => { x with state := .off, since := s.now }) t).anchor = t.anchor :=
    State.foldl_anchor fun _ _ => rfl
  have hv (t : State) (v : ValveSt) : ({ t with valve := v } : State).anchor = t.anchor := rfl
  unfold execActuatorSupplyLost
  refine ⟨_, rfl, ?_⟩
  split
  · rfl
  · rw [State.settleValves_anchor, State.logRm_anchor, hv, hsup, State.stagesOff_anchor]

theorem execActuatorSupplyReturn_leaves (s : State) : Leaves s (execActuatorSupplyReturn s) := ⟨_, rfl, by
  split
  · rfl
  · rw [State.anchor_ite, State.driveRacks_anchor, ite_self]
    rfl⟩

theorem valveConfigureBody_anchored (p : Packet) (s : State) : Anchored s (valveConfigureBody p s) :=
  .bind fun _ => .bind fun _ => .bind fun _ => .bind fun _ => .ite (.ok rfl) (.ok (State.logConfig_anchor _ _ _))

theorem valveCommandBody_anchored (p : Packet) (s : State) : Anchored s (valveCommandBody p s) :=
  .bind fun _ => .bind fun _ => .bind fun _ => by
    dsimp only
    split
    · exact .ite (.ok rfl) (.ok rfl)
    · exact .ok rfl

theorem execValveStatus_leaves (p : Packet) (s : State) : Leaves s (execValveStatus p s) :=
  ⟨_, rfl, State.runCmd_anchor fun _ _ s => .bind fun _ => .ok (State.writeTransfer_anchor s _ _)⟩

/-! ## Racks and authority -/

theorem State.setCause_anchor (s : State) (k cause : Nat) (on : Bool) : (s.setCause k cause on).anchor = s.anchor := rfl

theorem State.onRack_anchor (s : State) (k : Nat) (f : RackDyn → RackDyn) : (s.onRack k f).anchor = s.anchor := rfl

theorem State.grantFans_anchor (s : State) (k : Nat) : (s.grantFans k).anchor = s.anchor := by
  simp only [State.grantFans, State.setPermit_anchor, State.anchor_ite, State.foldl_anchor, ite_self, implies_true]

theorem State.moveRack_anchor (s : State) (k : Nat) (st : RackState) : (s.moveRack k st).anchor = s.anchor := by
  simp only [State.moveRack, State.driveRack_anchor, State.grantFans_anchor, State.onRack_anchor, State.putRack_anchor, State.setCause_anchor,
    State.anchor_ite, ite_self]

theorem State.leakIsolate_anchor (s : State) (k chan : Nat) : (s.leakIsolate k chan).anchor = s.anchor := by
  simp only [State.leakIsolate, State.driveRack_anchor, State.logRm_anchor, State.moveRack_anchor, State.onRack_anchor, State.anchor_ite, ite_self]

theorem State.leaveAuthority_anchor (s : State) (a : Authority) : (s.leaveAuthority a).anchor = s.anchor := by
  simp only [State.leaveAuthority, State.grantFans_anchor, State.loadHostRegisters_anchor, State.anchor_ite, State.foldl_anchor, ite_self,
    implies_true]

theorem State.moveAuthority_anchor (s : State) (a : Authority) (epoch : Nat) : (s.moveAuthority a epoch).anchor = s.anchor := by
  simp only [State.moveAuthority, State.changeAuthority_anchor, State.leaveAuthority_anchor]

theorem State.dropAuthority_anchor (s : State) (a : Authority) (epoch cause : Nat) : (s.dropAuthority a epoch cause).anchor = s.anchor := by
  simp only [State.dropAuthority, State.forceAuthority_anchor, State.leaveAuthority_anchor]

/-! ## Coolant network -/

theorem State.onGroup_anchor (s : State) (g : Nat) (f : GroupDyn → GroupDyn) : (s.onGroup g f).anchor = s.anchor := rfl

theorem execLagStageUp_leaves (group : Fin 4) (s : State) : Leaves s (execLagStageUp group s) :=
  ⟨_, rfl, by split <;> simp only [State.setPermit_anchor, State.anchor_ite, ite_self]⟩

theorem execLagStageDown_leaves (group : Fin 4) (s : State) : Leaves s (execLagStageDown group s) :=
  ⟨_, rfl, by split <;> simp only [State.setPermit_anchor, State.anchor_ite, ite_self]⟩

theorem execLeadRotation_leaves (group : Fin 4) (steadyS : Nat) (s : State) : Leaves s (execLeadRotation group steadyS s) :=
  ⟨_, rfl, by split <;> simp only [State.onGroup_anchor, State.setPermit_anchor, State.anchor_ite, ite_self]⟩

theorem execHxApproach_leaves (s : State) : Leaves s (execHxApproach s) :=
  ⟨_, rfl, by simp only [State.logLanes_anchor, ↓State.anchor_mk, ↓State.anchor_eta, State.anchor_ite, ite_self]⟩

theorem execHxSupplyHigh_leaves (s : State) : Leaves s (execHxSupplyHigh s) :=
  ⟨_, rfl, by simp only [State.logLanes_anchor, ↓State.anchor_mk, ↓State.anchor_eta, State.anchor_ite, ite_self]⟩

theorem execHxClear_leaves (supply : Bool) (s : State) : Leaves s (execHxClear supply s) :=
  ⟨_, rfl, by simp only [State.logLanes_anchor, ↓State.anchor_mk, ↓State.anchor_eta, State.anchor_ite, ite_self]⟩

theorem State.logDegraded_anchor (s : State) (d : Detector) : (s.logDegraded d).anchor = s.anchor := rfl

theorem State.degradeDetectors_anchor (s : State) (hit : Option Nat × Nat → Bool) : (s.degradeDetectors hit).anchor = s.anchor :=
  State.foldl_anchor State.logDegraded_anchor

theorem execDetectorArmed_leaves (d : Detector) (i : DetectorIn) (s : State) : Leaves s (execDetectorArmed d i s) := ⟨_, rfl, by
  dsimp only
  repeat' split
  all_goals simp only [State.logDegraded_anchor, State.onGroup_anchor, State.onRack_anchor]⟩

theorem State.flowStopDrive_anchor (s : State) (g : Nat) : (s.flowStopDrive g).anchor = s.anchor := by
  simp only [State.flowStopDrive, State.beginAttempt_anchor, State.onMotor_anchor, State.setPermit_anchor, State.foldl_anchor, implies_true]

theorem execFlowStop_leaves (d : Detector) (i : DetectorIn) (s : State) : Leaves s (execFlowStop d i s) := ⟨_, rfl, by
  split
  · rfl
  · cases d with
    | group g =>
      dsimp only
      split
      · rfl
      · rw [State.logRm_anchor, State.flowStopDrive_anchor, State.onGroup_anchor]
        exact State.foldl_anchor fun t k => State.setCause_anchor t k _ _
    | rack k =>
      dsimp only
      split
      · rfl
      · rw [State.logRm_anchor, State.flowStopDrive_anchor, State.onRack_anchor, State.setCause_anchor]⟩

theorem State.endFlowStopDrive_anchor (s : State) (g : Nat) : (s.endFlowStopDrive g).anchor = s.anchor := by
  unfold State.endFlowStopDrive
  split
  · rfl
  · exact State.foldl_anchor fun _ _ => rfl

theorem State.clearFlowStop_anchor (s : State) (d : Detector) : (s.clearFlowStop d).anchor = s.anchor := by
  cases d with
  | group g =>
    simp only [State.clearFlowStop]
    split
    · rfl
    · rw [State.endFlowStopDrive_anchor, State.onGroup_anchor]
      exact State.foldl_anchor fun t k => by rw [State.anchor_ite, State.setCause_anchor, ite_self]
  | rack k =>
    simp only [State.clearFlowStop]
    split
    · rfl
    · rw [State.endFlowStopDrive_anchor, State.onRack_anchor, State.setCause_anchor]

theorem execFlowStopClear_leaves (d : Detector) (i : DetectorIn) (s : State) : Leaves s (execFlowStopClear d i s) :=
  ⟨_, rfl, by rw [State.anchor_ite, State.clearFlowStop_anchor, ite_self]⟩

theorem State.disarmGroups_anchor (s : State) : s.disarmGroups.anchor = s.anchor := by
  simp only [State.disarmGroups, State.onGroup_anchor, State.anchor_ite, State.foldl_anchor, ite_self, implies_true]

theorem execIsolationExitBypass_leaves (rack : Fin 16) (s : State) : Leaves s (execIsolationExitBypass rack s) :=
  ⟨_, rfl, by simp only [State.drivePosition_anchor, State.onRack_anchor, State.settleValves_anchor, State.anchor_ite, ite_self]⟩

theorem State.countDeficit_anchor (s : State) (k : Nat) : (s.countDeficit k).anchor = s.anchor := rfl

theorem State.netFail_anchor (s : State) (g : Nat) : (s.netFail g).anchor = s.anchor := by
  unfold State.netFail; dsimp only
  repeat' split
  all_goals simp only [State.logLanes_anchor, State.onGroup_anchor, State.setPermit_anchor]

theorem State.leadPermit_anchor (s : State) (g : Nat) : (s.leadPermit g).anchor = s.anchor := by
  simp only [State.leadPermit, State.setPermit_anchor, State.swapFailedLead_anchor, State.anchor_ite, ite_self]

theorem State.countHx_anchor (s : State) : s.countHx.anchor = s.anchor := rfl

theorem State.evalGroup_anchor (s : State) (g : Nat) : (s.evalGroup g).anchor = s.anchor := by
  simp only [State.evalGroup, State.logLanes_anchor, State.onGroup_anchor, State.anchor_ite, ite_self]
  split <;> simp only [State.leadPermit_anchor, State.logLanes_anchor, State.netFail_anchor, State.onGroup_anchor, State.anchor_ite, ite_self]

theorem execFlowSupervisorEval_leaves (s : State) : Leaves s (execFlowSupervisorEval s) := ⟨_, rfl, by
  split
  · rfl
  · rw [State.disarmGroups_anchor, State.countHx_anchor, State.foldl_anchor State.evalGroup_anchor, State.foldl_anchor State.countDeficit_anchor]⟩

end Sys2Proof.Machine
end

section
/-! SUPPORT. The anchor under the host interface and the tile array. -/

namespace Sys2Proof.Machine

/-! ## Host interface -/

theorem State.answer_anchor (s : State) (v : Nat) : (s.answer v).anchor = s.anchor := rfl

theorem execLoRegisterRead_leaves (off : Nat) (s : State) : Leaves s (execLoRegisterRead off s) := ⟨_, rfl, by split <;> rfl⟩

theorem execHiRegisterRead_leaves (off : Nat) (s : State) : Leaves s (execHiRegisterRead off s) := ⟨_, rfl, by
  dsimp only
  repeat' split
  all_goals simp only [State.answer_anchor, ↓State.anchor_mk, ↓State.anchor_eta]⟩

/-- A register that clears as it is read is a count of the tick, the lanes, the modes or the recorder. -/
theorem State.clearRc_anchor {s t : State} {off : Nat} (h : s.clearRc off = some t) : t.anchor = s.anchor := by
  unfold State.clearRc at h
  iterate 18 (rcases ite_eq_iff.mp h with ⟨-, h⟩ | ⟨-, h⟩; · cases h; rfl)
  cases h

theorem execRcRegisterRead_leaves (off : Nat) (s : State) : Leaves s (execRcRegisterRead off s) := ⟨_, rfl, by
  split
  · next t h => rw [State.answer_anchor, State.clearRc_anchor h]
  · rfl⟩

theorem State.releaseHold_anchor (s : State) : s.releaseHold.anchor = s.anchor := rfl

theorem State.writeHold_anchor (s : State) (hold : Bool) : (s.writeHold hold).anchor = s.anchor := by
  simp only [State.writeHold, State.releaseHold_anchor, ↓State.anchor_mk, ↓State.anchor_eta, State.anchor_ite, ite_self]

theorem State.writeSqTail_anchor (s : State) (q : Nat) (v : U32) : (s.writeSqTail q v).anchor = s.anchor := by
  simp only [State.writeSqTail, State.setHifErr_anchor, State.stopQueue_anchor, ↓State.anchor_mk, ↓State.anchor_eta, State.anchor_ite, ite_self]

theorem State.writeCqHead_anchor (s : State) (v : U32) : (s.writeCqHead v).anchor = s.anchor := by
  simp only [State.writeCqHead, State.setHifErr_anchor, ↓State.anchor_mk, ↓State.anchor_eta, State.anchor_ite, ite_self]

theorem State.writeSqCfg_anchor (s : State) (q : Nat) (v : U32) : (s.writeSqCfg q v).anchor = s.anchor := by
  simp only [State.writeSqCfg, ↓State.anchor_mk, ↓State.anchor_eta, State.anchor_ite, ite_self]

theorem State.writeCqCfg_anchor (s : State) (v : U32) : (s.writeCqCfg v).anchor = s.anchor := by
  simp only [State.writeCqCfg, ↓State.anchor_mk, ↓State.anchor_eta, State.anchor_ite, ite_self]

theorem State.writeHoldBit_anchor (s : State) (l : LaneId) (b : Bool) : (s.writeHoldBit l b).anchor = s.anchor := by
  simp only [State.writeHoldBit, State.enterNet_anchor, State.loseLane_anchor, State.resetLane_anchor, ↓State.anchor_mk, ↓State.anchor_eta,
    State.anchor_ite, ite_self]

theorem State.writeLaneCtrl_anchor (s : State) (v : U32) : (s.writeLaneCtrl v).anchor = s.anchor := by
  simp only [State.writeLaneCtrl, State.logRegWrite_anchor, State.writeHoldBit_anchor]

theorem State.cfgWrite_anchor (s : State) (off : Nat) (v : U32) (ok : Bool) (f : Cfg → Cfg) : (s.cfgWrite off v ok f).anchor = s.anchor := by
  unfold State.cfgWrite; split <;> rfl

theorem State.writeHif_anchor (s : State) (off : Nat) (v : U32) : (s.writeHif off v).anchor = s.anchor := by
  have hh (h : HifSt) : ({ s with hif := h } : State).anchor = s.anchor := rfl
  unfold State.writeHif
  refine State.keeps_ite (State.keeps_ite rfl (hh _)) <| State.keeps_ite (State.keeps_ite rfl (hh _)) <|
    State.keeps_ite (State.writeCqCfg_anchor s v) <| State.keeps_ite (State.writeCqHead_anchor s v) <| State.keeps_ite (hh _) <|
    State.keeps_ite (State.cfgWrite_anchor s _ v _ _) <| State.keeps_ite (hh _) <| State.keeps_ite (hh _) <| State.keeps_ite (hh _) <|
    State.keeps_ite ?_ <| State.keeps_ite ?_ rfl
  · exact State.keeps_ite (State.keeps_ite rfl (hh _)) <| State.keeps_ite (State.keeps_ite rfl (hh _)) <|
      State.keeps_ite (State.writeSqCfg_anchor s _ v) <| State.keeps_ite (State.writeSqTail_anchor s _ v) rfl
  · exact State.keeps_ite ((State.fire_anchor _ _).trans (hh _)) (hh _)

theorem State.writeDport_anchor (s : State) (off : Nat) (v : U32) : (s.writeDport off v).anchor = s.anchor := by
  have hd (d : DportSt) : ({ s with dport := d } : State).anchor = s.anchor := rfl
  unfold State.writeDport
  simp only [State.anchor_ite, hd, ite_self]

theorem State.writeTick_anchor (s : State) (off : Nat) (v : U32) : (s.writeTick off v).anchor = s.anchor := by
  simp only [State.writeTick, State.cfgWrite_anchor, State.logRegWrite_anchor, State.writeHold_anchor, ↓State.anchor_mk, ↓State.anchor_eta,
    State.anchor_ite, ite_self]

theorem State.writeLane_anchor (s : State) (off : Nat) (v : U32) : (s.writeLane off v).anchor = s.anchor := by
  simp only [State.writeLane, State.cfgWrite_anchor, State.writeLaneCtrl_anchor, ↓State.anchor_mk, ↓State.anchor_eta, State.anchor_ite, ite_self]

theorem State.writeMode_anchor (s : State) (off : Nat) (v : U32) : (s.writeMode off v).anchor = s.anchor := by
  simp only [State.writeMode, State.cfgWrite_anchor, ↓State.anchor_mk, ↓State.anchor_eta, State.anchor_ite, ite_self]

theorem State.writeEvt_anchor (s : State) (off : Nat) (v : U32) : (s.writeEvt off v).anchor = s.anchor := by
  simp only [State.writeEvt, State.cfgWrite_anchor, ↓State.anchor_mk, ↓State.anchor_eta, State.anchor_ite, ite_self]

theorem State.writeUpd_anchor (s : State) (off : Nat) (v : U32) : (s.writeUpd off v).anchor = s.anchor := by
  simp only [State.writeUpd, State.cfgWrite_anchor, ↓State.anchor_mk, ↓State.anchor_eta, State.anchor_ite, ite_self]

theorem State.writeReg_anchor (s : State) (off : Nat) (v : U32) : (s.writeReg off v).anchor = s.anchor := by
  simp only [State.writeReg, State.writeDport_anchor, State.writeEvt_anchor, State.writeHif_anchor, State.writeLane_anchor, State.writeMode_anchor,
    State.writeTick_anchor, State.writeUpd_anchor, ↓State.anchor_mk, ↓State.anchor_eta, State.anchor_ite, ite_self]

theorem State.hostWrite_anchor (s : State) (off : Nat) (v : U32) : (s.hostWrite off v).anchor = s.anchor := by
  simp only [State.hostWrite, State.writeReg_anchor, ↓State.anchor_mk, ↓State.anchor_eta, State.anchor_ite, ite_self]

theorem execRegisterWrite_leaves (off : Nat) (value : U32) (whole : Bool) (s : State) : Leaves s (execRegisterWrite off value whole s) :=
  ⟨_, rfl, by simp only [State.hostWrite_anchor, State.setHifErr_anchor, State.anchor_ite, ite_self]⟩

theorem execLatchedWritesApply_leaves (s : State) : Leaves s (execLatchedWritesApply s) :=
  ⟨_, rfl, by simp only [State.writeReg_anchor, ↓State.anchor_mk, ↓State.anchor_eta, State.anchor_ite, State.foldl_anchor, ite_self, implies_true]⟩

theorem Lane.putEntry_fused (x : Lane) (i : Nat) (w : U32) : (x.putEntry i w).fused = x.fused := by unfold Lane.putEntry; split <;> rfl

theorem State.touchSlot_anchor (s : State) (a : Nat) : (s.touchSlot a).anchor = s.anchor := by
  simp only [State.touchSlot, ↓State.anchor_mk, ↓State.anchor_eta, State.anchor_ite, ite_self]

theorem State.writeDevice_anchor (s : State) (a : Nat) (w : U32) : (s.writeDevice a w).anchor = s.anchor := by
  simp only [State.writeDevice, State.onLanes_anchor, State.touchSlot_anchor, implies_true]

theorem State.dpWord_anchor (s : State) (a : Nat) (write : Bool) (w : U32) : (s.dpWord a write w).1.anchor = s.anchor := by
  unfold State.dpWord; dsimp only
  repeat' split
  all_goals simp only [State.fire_anchor, State.writeDevice_anchor, ↓State.anchor_mk, ↓State.anchor_eta]

theorem State.dpAccess_anchor (s : State) (a : Nat) (write wide : Bool) (data : U64) : (s.dpAccess a write wide data).anchor = s.anchor := by
  simp only [State.dpAccess, State.answer_anchor, State.dpWord_anchor, State.anchor_ite, ite_self]

theorem State.advanceDp_anchor (s : State) (n : Nat) : (s.advanceDp n).anchor = s.anchor := rfl

theorem execDpDataAccess_leaves (write wide : Bool) (data : U64) (s : State) : Leaves s (execDpDataAccess write wide data s) :=
  ⟨_, rfl, by simp only [State.advanceDp_anchor, State.dpAccess_anchor]⟩

theorem execDpApertureAccess_leaves (off : Fin 4096) (write wide : Bool) (data : U64) (s : State) : Leaves s (execDpApertureAccess off write wide
  data s) :=
  ⟨_, rfl, by simp only [State.advanceDp_anchor, State.dpAccess_anchor, State.anchor_ite, ite_self]⟩

theorem State.bar2Word_anchor (s : State) (a : Nat) (write : Bool) (w : U32) : (s.bar2Word a write w).1.anchor = s.anchor := by
  simp only [State.bar2Word]
  repeat' split
  all_goals simp only [State.setHifErr_anchor, State.writeDevice_anchor]

theorem execBar2Access_leaves (off : Fin 0x40000000) (write wide : Bool) (data : U64) (s : State) :
    Leaves s (execBar2Access off write wide data s) := by
  unfold execBar2Access
  refine ⟨_, rfl, ?_⟩
  rw [State.anchor_ite, State.answer_anchor, ite_self]
  cases wide
  · exact State.bar2Word_anchor s _ _ _
  · exact (State.bar2Word_anchor _ _ _ _).trans (State.bar2Word_anchor s _ _ _)

theorem State.hostReset_anchor (s : State) : s.hostReset.anchor = s.anchor := by
  unfold State.hostReset; dsimp only
  rw [State.anchor_ite, State.releaseHold_anchor, ite_self]
  exact State.foldl_anchor fun t c => (State.logRm_anchor _ _ _ _ _ _).trans (State.store_anchor t c.save)

theorem execPerstN_leaves (s : State) : Leaves s (execPerstN s) := by
  have h := State.hostReset_anchor s
  simp only [State.anchor, Anchor.mk.injEq] at h
  exact ⟨_, rfl, by simp only [State.anchor, h]⟩

/-! ## Tiles -/

theorem State.tileExec_anchor (s : State) (l : LaneId) (t op : Nat) (w : BitVec 26) (f : ArraySt → Tile → Except Nat TileEnd) : (s.tileExec l t op
  w f).anchor = s.anchor := by
  simp only [State.tileExec, State.onLane_anchor, State.anchor_ite, ite_self]

/-! ## Tile instructions -/

theorem execSrr_leaves (l : LaneId) (t : Fin 1024) (w : BitVec 26) (s : State) : Leaves s (execSrr l t w s) :=
  ⟨_, rfl, by simp only [State.tileExec_anchor, ↓State.anchor_mk, ↓State.anchor_eta, State.anchor_ite, ite_self]⟩

/-! ## Tile array -/

theorem State.onArray_anchor (s : State) (l : LaneId) (f : ArraySt → ArraySt) : (s.onArray l f).anchor = s.anchor := by
  simp only [State.onArray, State.onLane_anchor]

theorem execTileBlockFire_leaves (l : LaneId) (t : Fin 1024) (s : State) : Leaves s (execTileBlockFire l t s) := ⟨_, rfl, by
  simp only [State.anchor_ite]
  repeat' split
  all_goals simp only [State.onArray_anchor]⟩

theorem execMessageArrival_leaves (l : LaneId) (t : Fin 1024) (s : State) : Leaves s (execMessageArrival l t s) := ⟨_, rfl, by
  simp only [State.anchor_ite]
  repeat' split
  all_goals simp only [State.onArray_anchor]⟩

theorem execCreditArrival_leaves (l : LaneId) (t : Fin 1024) (route : Fin 16) (s : State) : Leaves s (execCreditArrival l t route s) :=
  ⟨_, rfl, by split <;> simp only [State.onArray_anchor]⟩

theorem execDmaCompletion_leaves (l : LaneId) (t : Fin 1024) (s : State) : Leaves s (execDmaCompletion l t s) :=
  ⟨_, rfl, by split <;> simp only [State.onArray_anchor]⟩

theorem execRowWakeComplete_leaves (l : LaneId) (y : Fin 32) (s : State) : Leaves s (execRowWakeComplete l y s) :=
  ⟨_, rfl, by simp only [State.onArray_anchor, State.anchor_ite, ite_self]⟩

theorem execOutputCollect_leaves (l : LaneId) (y : Fin 32) (s : State) : Leaves s (execOutputCollect l y s) := ⟨_, rfl, by
  dsimp only
  repeat' split
  all_goals simp only [State.onLane_anchor]⟩

theorem Lane.startStep_fused (x : Lane) (img : Image) (epoch due : Nat) (tLimit : Nat → Option U16) (fb : List Byte) : (x.startStep img epoch due
  tLimit fb).fused = x.fused := by
  simp only [Lane.startStep]

theorem Lane.abortStep_fused (x : Lane) : x.abortStep.fused = x.fused := rfl

end Sys2Proof.Machine
end

section
/-! SUPPORT. The anchor under the coupling table, the tray link, sensing and the fieldbus. -/

namespace Sys2Proof.Machine

/-! ## Coupling table -/

theorem Lane.changeEntry_fused (x : Lane) (i : Nat) (w : U32) : (x.changeEntry i w).fused = x.fused := by
  simp only [Lane.changeEntry, Lane.putEntry_fused, Lane.fused_ite, ite_self]

theorem Lane.writeEntry_fused (x : Lane) (i : Nat) (w : U32) : (x.writeEntry i w).fused = x.fused := by
  simp only [Lane.writeEntry, Lane.putEntry_fused]

theorem Lane.adapt_fused (x : Lane) (b : ThermalBlock) (now i : Nat) (w : U32) : (x.adapt b now i w).fused = x.fused := by
  simp only [Lane.adapt, Lane.changeEntry_fused, Lane.fused_ite, ite_self]

theorem Lane.foldl_fused {α : Type} {f : Lane → α → Lane} {l : List α} {x : Lane} (hf : ∀ y a, (f y a).fused = y.fused) :
    (l.foldl f x).fused = x.fused := foldl_keeps Lane.fused hf l x

theorem Lane.widen_fused (x : Lane) (priors : U32 × U32) (absent : Nat → Bool) (now : Nat) (r : Rect) :
    (x.widen priors absent now r).fused = x.fused := by
  unfold Lane.widen
  exact Lane.foldl_fused fun y i => by rw [Lane.fused_ite, Lane.changeEntry_fused, ite_self]

theorem Lane.slotChanged_fused (x : Lane) (priors : U32 × U32) (rackSlots : List Nat) (absent : Nat → Bool) (now c : Nat) :
    (x.slotChanged priors rackSlots absent now c).fused = x.fused := by
  unfold Lane.slotChanged; dsimp only
  rw [Lane.foldl_fused fun y i => Lane.widen_fused y _ _ _ _,
    Lane.foldl_fused fun y j => (Lane.changeEntry_fused _ _ _).trans (Lane.changeEntry_fused y _ _)]

theorem copyTable_fused (src dst : Lane) : (copyTable src dst).fused = dst.fused :=
  Lane.foldl_fused fun y i => Lane.changeEntry_fused y i _

theorem State.couplingStep_anchor (s : State) (o : CouplingOp) : (s.couplingStep o).anchor = s.anchor := by
  unfold State.couplingStep; dsimp only
  rw [State.finish_anchor]
  split
  · exact State.writeTransfer_anchor s _ _
  · exact State.onLanes_anchor fun x => Lane.foldl_fused fun y e => Lane.writeEntry_fused y e.1 e.2
  · exact State.onLanes_anchor fun _ => rfl
  · exact State.onLanes_anchor fun _ => rfl
  · split
    · exact Eq.trans (State.onLanes_anchor fun _ => rfl) (State.onLane_anchor (by rw [Lane.fused_ite, copyTable_fused, ite_self]))
    · rfl
  · exact State.onLanes_anchor fun x => Lane.widen_fused x _ _ _ _

theorem State.tableUpdates_anchor (s : State) (written : Nat → Bool) (updates : LaneId → List (Nat × U32)) :
    (s.tableUpdates written updates).anchor = s.anchor := by
  have hrun (x : Lane) (l : List (Nat × U32)) (g : Nat × U32 → Lane → Bool) :
      (l.foldl (fun (x : Lane) e => if g e x then x else x.adapt s.cfg.thermal s.now e.1 e.2) x).fused = x.fused :=
    Lane.foldl_fused fun y e => by rw [Lane.fused_ite, Lane.adapt_fused, ite_self]
  unfold State.tableUpdates; dsimp only
  rw [State.anchor_mk, Lane.fused_ite, Lane.fused_ite, hrun, hrun, ite_self, ite_self]; rfl

theorem State.couplingBoundary_anchor (s : State) (updates : LaneId → List (Nat × U32)) : (s.couplingBoundary updates).anchor = s.anchor := by
  unfold State.couplingBoundary; dsimp only
  rw [State.tableUpdates_anchor, State.foldl_anchor State.couplingStep_anchor]
  simp only [↓State.anchor_mk, ↓State.anchor_eta]
  exact State.onLanes_anchor fun x => Lane.foldl_fused fun y e => Lane.slotChanged_fused y _ _ _ _ _

theorem State.baselineReset_anchor (s : State) (mask : Nat) : (s.baselineReset mask).1.anchor = s.anchor := by
  simp only [State.baselineReset, State.apply_anchor, State.onLanes_anchor, implies_true]

theorem couplingBody_anchored (id : Nat) (p : Packet) (s : State) : Anchored s (couplingBody id p s) :=
  .bind fun _ => .ite (.ok (State.baselineReset_anchor s _)) (.bind fun _ => .bind fun _ => .ite (.bind fun _ => by
    dsimp only
    split
    · exact .error
    · exact .ok rfl) (.ok rfl))

theorem execCouplingAccess_leaves (p : Packet) (s : State) : Leaves s (execCouplingAccess p s) :=
  ⟨_, rfl, State.runCmd_anchor fun _ p s => couplingBody_anchored p.id p s⟩

theorem State.checkpointRain_anchor (s : State) : s.checkpointRain.anchor = s.anchor := rfl

theorem execHourWindowStart_leaves (s : State) : Leaves s (execHourWindowStart s) :=
  ⟨_, rfl, by simp only [State.checkpointRain_anchor, State.onLanes_anchor, State.anchor_ite, ite_self, implies_true]⟩

theorem execSweepDigest_leaves (s : State) : Leaves s (execSweepDigest s) :=
  ⟨_, rfl, by simp only [State.logLanes_anchor, State.onLanes_anchor, State.anchor_ite, ite_self, implies_true]⟩

/-! ## Tray link -/

theorem State.onTray_anchor (s : State) (t : Nat) (f : Tray → Tray) : (s.onTray t f).anchor = s.anchor := rfl

theorem State.onPort_anchor (s : State) (p : Nat) (f : Port → Port) : (s.onPort p f).anchor = s.anchor := rfl

theorem State.logTray_anchor (s : State) (cls ty t : Nat) : (s.logTray cls ty t).anchor = s.anchor := rfl

theorem State.sendTray_anchor (s : State) (t : Nat) (net repeated reply : Bool) : (s.sendTray t net repeated reply).anchor = s.anchor := by
  unfold State.sendTray
  exact Eq.trans (State.foldl_anchor fun _ _ => rfl) rfl

theorem State.sendCaps_anchor (s : State) (net repeated : Bool) : (s.sendCaps net repeated).anchor = s.anchor := by
  refine State.foldl_anchor fun t n => ?_
  split
  · exact State.sendTray_anchor t n _ _ _
  · rw [State.anchor_ite, State.sendTray_anchor, ite_self]
  · rfl

theorem State.discardFrame_anchor (s : State) (port : Nat) (f : UpFrame) (row : Nat) : (s.discardFrame port f row).anchor = s.anchor := by
  simp only [State.discardFrame, State.logRm_anchor, State.onPort_anchor, State.onTray_anchor, State.anchor_ite, ite_self]

theorem State.startResync_anchor (s : State) (t : Nat) (inc : U32) : (s.startResync t inc).anchor = s.anchor := by
  simp only [State.startResync, State.logTray_anchor, State.onTray_anchor, State.sendTray_anchor, State.anchor_ite, ite_self]

theorem State.receiveFrame_anchor (s : State) (port : Nat) (f : UpFrame) : (s.receiveFrame port f).anchor = s.anchor := by
  unfold State.receiveFrame; dsimp only
  split
  · rfl
  · split
    · exact State.discardFrame_anchor s port f _
    · simp only [State.anchor_ite, State.discardFrame_anchor, State.onTray_anchor, State.onPort_anchor, State.logTray_anchor,
        State.startResync_anchor, ite_self]

theorem execTelemetry_leaves (port : Fin 4) (frame : UpFrame) (s : State) : Leaves s (execTelemetry port frame s) :=
  ⟨_, rfl, State.receiveFrame_anchor s _ _⟩

theorem execResync_leaves (port : Fin 4) (frame : UpFrame) (s : State) : Leaves s (execResync port frame s) :=
  ⟨_, rfl, State.receiveFrame_anchor s _ _⟩

theorem execTrayMissing_leaves (tray : Fin 512) (s : State) : Leaves s (execTrayMissing tray s) := ⟨_, rfl, by split <;> rfl⟩

theorem execTrayLost_leaves (tray : Fin 512) (s : State) : Leaves s (execTrayLost tray s) := ⟨_, rfl, by split <;> rfl⟩

theorem State.changeTray_anchor (s : State) (t : Nat) : (s.changeTray t).anchor = s.anchor := by
  simp only [State.changeTray, State.logTray_anchor, State.onTray_anchor, State.anchor_ite, ite_self]

theorem State.latchTrays_anchor (s : State) : s.latchTrays.anchor = s.anchor := State.foldl_anchor fun _ _ => rfl

theorem execPortDown_leaves (port : Fin 4) (s : State) : Leaves s (execPortDown port s) := ⟨_, rfl, by split <;> rfl⟩

theorem execPortUp_leaves (port : Fin 4) (s : State) : Leaves s (execPortUp port s) := ⟨_, rfl, by split <;> rfl⟩

theorem execFlowLoss_leaves (rack : Fin 16) (us : Nat) (s : State) : Leaves s (execFlowLoss rack us s) :=
  ⟨_, rfl, by simp only [State.logRm_anchor, State.setCause_anchor, ↓State.anchor_mk, ↓State.anchor_eta, State.anchor_ite, ite_self]⟩

theorem execFlowLossRelease_leaves (rack : Fin 16) (us : Nat) (s : State) : Leaves s (execFlowLossRelease rack us s) := ⟨_, rfl, by split <;> rfl⟩

theorem execCoolFaultRelease_leaves (rack : Fin 16) (s : State) : Leaves s (execCoolFaultRelease rack s) := ⟨_, rfl, by split <;> rfl⟩

theorem networkConfigureBody_anchored (p : Packet) (s : State) : Anchored s (networkConfigureBody p s) :=
  .bind fun _ => .bind fun _ => .bind fun _ => .ok (State.logConfig_anchor _ _ _)

theorem State.freshGroups_anchor (s : State) (old : Topology) : (s.freshGroups old).anchor = s.anchor := by
  refine State.foldl_anchor fun t g => ?_
  dsimp only
  split
  · rw [State.onGroup_anchor, State.anchor_ite, State.clearFlowStop_anchor, ite_self]
  · rfl

theorem State.putTopology_anchor (s : State) (t : Topology) : (s.putTopology t).anchor = s.anchor := by
  have hgone (u : State) (ks : List Nat) : (ks.foldl (fun (s : State) k =>
      let s := s.clearFlowStop (.rack (Fin.ofNat 16 k))
      ((s.setCause k Cause.groupStop false).setCause k Cause.isolated false).onRack k fun _ => {}) u).anchor = u.anchor :=
    State.foldl_anchor fun v k => by
      dsimp only
      rw [State.onRack_anchor, State.setCause_anchor, State.setCause_anchor, State.clearFlowStop_anchor]
  have htrays (u : State) (ks : List Nat) :
      (ks.foldl (fun (s : State) i => s.onTray i fun x => { x with changed := true }) u).anchor = u.anchor :=
    State.foldl_anchor fun _ _ => rfl
  unfold State.putTopology
  extract_lets before old wasOn gone s1 changed s2 s3 s4 s5
  have h1 : s1.anchor = s.anchor := hgone s gone
  have h2 : s2.anchor = s.anchor := (State.freshGroups_anchor _ _).trans h1
  have h3 : s3.anchor = s.anchor := (htrays s2 changed).trans h2
  have h4 : s4.anchor = s.anchor := (State.foldl_anchor fun u k => by
    dsimp only; split <;> simp only [State.anchor_ite, State.moveRack_anchor, State.onRack_anchor, ite_self]).trans h3
  have h5 : s5.anchor = s.anchor := (State.restageReference_anchor _ _).trans h4
  clear_value s5
  split <;> exact h5

/-! ## Sensing -/

theorem State.onAnalog_anchor (s : State) (n : Nat) (f : AnalogDyn → AnalogDyn) : (s.onAnalog n f).anchor = s.anchor := rfl

theorem State.onPulse_anchor (s : State) (n : Nat) (f : PulseDyn → PulseDyn) : (s.onPulse n f).anchor = s.anchor := rfl

theorem State.onHarness_anchor (s : State) (k : Nat) (f : Harness → Harness) : (s.onHarness k f).anchor = s.anchor := rfl

theorem State.sampleAnalog_anchor (s : State) (i : AnalogIn) : (s.sampleAnalog i).anchor = s.anchor := by
  simp only [State.sampleAnalog, State.onAnalog_anchor, State.anchor_ite, ite_self]

theorem execInputFault_leaves (chan : Fin 256) (which : Fin 4) (s : State) : Leaves s (execInputFault chan which s) :=
  ⟨_, rfl, by simp only [State.degradeDetectors_anchor, State.logRm_anchor, State.onAnalog_anchor, State.anchor_ite, ite_self]⟩

theorem execInputClear_leaves (chan : Fin 256) (which : Fin 4) (s : State) : Leaves s (execInputClear chan which s) :=
  ⟨_, rfl, by simp only [State.logRm_anchor, State.onAnalog_anchor, State.anchor_ite, ite_self]⟩

theorem execInputSuspect_leaves (chan : Fin 256) (on : Bool) (lo hi : Int) (ticks : Nat) (s : State) : Leaves s (execInputSuspect chan on lo hi
  ticks s) :=
  ⟨_, rfl, by simp only [State.logLanes_anchor, State.onAnalog_anchor, State.anchor_ite, ite_self]⟩

theorem execSysShdn_leaves (chan : Fin 16) (us : Nat) (s : State) : Leaves s (execSysShdn chan us s) :=
  ⟨_, rfl, by simp only [State.logRm_anchor, State.onAnalog_anchor, ↓State.anchor_mk, ↓State.anchor_eta, State.anchor_ite, ite_self]⟩

theorem execTcritStrapChanged_leaves (tcritSel : Fin 8) (netSpd : Fin 4) (s : State) : Leaves s (execTcritStrapChanged tcritSel netSpd s) :=
  ⟨_, rfl, by simp only [State.logRm_anchor, ↓State.anchor_mk, ↓State.anchor_eta, State.anchor_ite, ite_self]⟩

theorem State.setLeak_anchor (s : State) (n : Nat) (f : LeakDyn → LeakDyn) : (s.setLeak n f).anchor = s.anchor := by
  simp only [State.setLeak, State.leakIsolate_anchor, State.logRm_anchor, ↓State.anchor_mk, ↓State.anchor_eta, State.anchor_ite,
    State.foldl_anchor, ite_self, implies_true]

theorem execLeakWet_leaves (chan : Fin 64) (mohm : Option Nat) (s : State) : Leaves s (execLeakWet chan mohm s) :=
  ⟨_, rfl, by simp only [State.setLeak_anchor, State.anchor_ite, ite_self]⟩

theorem execLeakBreak_leaves (chan : Fin 64) (s : State) : Leaves s (execLeakBreak chan s) :=
  ⟨_, rfl, by simp only [State.setLeak_anchor, State.anchor_ite, ite_self]⟩

theorem execLeakDry_leaves (chan : Fin 64) (s : State) : Leaves s (execLeakDry chan s) :=
  ⟨_, rfl, by simp only [State.setLeak_anchor, State.anchor_ite, ite_self]⟩

theorem State.sampleLeak_anchor (s : State) (i : LeakIn) : (s.sampleLeak i).anchor = s.anchor := rfl

theorem State.samplePulse_anchor (s : State) (i : PulseIn) : (s.samplePulse i).anchor = s.anchor := by unfold State.samplePulse; split <;> rfl

theorem execPulseFloating_leaves (chan : Fin 64) (s : State) : Leaves s (execPulseFloating chan s) :=
  ⟨_, rfl, by simp only [State.degradeDetectors_anchor, State.onPulse_anchor, State.anchor_ite, ite_self]⟩

theorem execPulseZero_leaves (chan : Fin 64) (s : State) : Leaves s (execPulseZero chan s) := ⟨_, rfl, by split <;> rfl⟩

theorem State.harnessAlarm_anchor (s : State) (k : Nat) : (s.harnessAlarm k).anchor = s.anchor := by
  simp only [State.harnessAlarm, State.logRm_anchor, State.moveRack_anchor, State.anchor_ite, ite_self]

theorem execHarnessPresenceGain_leaves (rack : Fin 16) (s : State) : Leaves s (execHarnessPresenceGain rack s) := ⟨_, rfl, by split <;> rfl⟩

theorem execHarnessRemoved_leaves (rack : Fin 16) (s : State) : Leaves s (execHarnessRemoved rack s) := ⟨_, rfl, by
  dsimp only
  repeat' split
  all_goals simp only [State.finish_anchor, State.logRm_anchor, State.onHarness_anchor]⟩

theorem execHarnessReadDone_leaves (rack : Fin 16) (mem : List Byte) (s : State) : Leaves s (execHarnessReadDone rack mem s) := ⟨_, rfl, by
  dsimp only
  repeat' split
  all_goals simp only [State.apply_anchor, State.finish_anchor, State.harnessAlarm_anchor, State.logConfig_anchor, State.onHarness_anchor,
    State.writeTransfer_anchor]⟩

theorem harnessReadBody_anchored (id : Nat) (p : Packet) (s : State) : Anchored s (harnessReadBody id p s) :=
  .bind fun _ => .ite (.ok (State.logConfig_anchor _ _ _)) (.ok rfl)

theorem inputConfigureBody_anchored (p : Packet) (s : State) : Anchored s (inputConfigureBody p s) :=
  .bind fun _ => .bind fun _ => .bind fun _ => .bind fun _ => .ite (.ok rfl) (.ok (by
    rw [State.logConfig_anchor, State.defer_anchor]; split <;> rfl))

theorem leakConfigureBody_anchored (p : Packet) (s : State) : Anchored s (leakConfigureBody p s) :=
  .bind fun _ => .bind fun _ => .bind fun _ => .ite (.ok rfl) (.ok (State.logConfig_anchor _ _ _))

theorem State.putAnalog_anchor (s : State) (n : Nat) (r : AnalogRec) : (s.putAnalog n r).anchor = s.anchor := by
  simp only [State.putAnalog, State.apply_anchor, State.onAnalog_anchor, State.anchor_ite, ite_self]

theorem State.putPulse_anchor (s : State) (n : Nat) (r : PulseRec) : (s.putPulse n r).anchor = s.anchor := by
  simp only [State.putPulse, State.apply_anchor, State.onPulse_anchor, State.anchor_ite, ite_self]

theorem State.putLeak_anchor (s : State) (n : Nat) (r : LeakRec) : (s.putLeak n r).anchor = s.anchor := by
  simp only [State.putLeak, State.apply_anchor, ↓State.anchor_mk, ↓State.anchor_eta, State.anchor_ite, ite_self]

/-! ## Fieldbus -/

theorem State.onCan_anchor (s : State) (c : Nat) (f : CanChan → CanChan) : (s.onCan c f).anchor = s.anchor := rfl

theorem State.onEntry_anchor (s : State) (e : Nat) (f : EntryDyn → EntryDyn) : (s.onEntry e f).anchor = s.anchor := rfl

theorem State.logBusDiscard_anchor (s : State) (c : Nat) : (s.logBusDiscard c).anchor = s.anchor := by
  simp only [State.logBusDiscard, State.logRm_anchor, State.onCan_anchor, State.anchor_ite, ite_self]

theorem State.canUnmatched_anchor (s : State) (c : Nat) : (s.canUnmatched c).anchor = s.anchor := by
  simp only [State.canUnmatched, State.logBusDiscard_anchor, State.onCan_anchor]

theorem State.canIgnored_anchor (s : State) (c : Nat) : (s.canIgnored c).anchor = s.anchor := by
  simp only [State.canIgnored, State.logBusDiscard_anchor, State.onCan_anchor]

theorem execCanBufferLock_leaves (chan : Fin 16) (buf : Fin 64) (s : State) : Leaves s (execCanBufferLock chan buf s) := by
  have hh (t : State) (h : HifSt) : ({ t with hif := h } : State).anchor = t.anchor := rfl
  unfold execCanBufferLock
  exact ⟨_, rfl, by rw [hh, State.onCan_anchor]⟩

theorem execCanLockExpiry_leaves (chan : Fin 16) (buf : Fin 64) (s : State) : Leaves s (execCanLockExpiry chan buf s) := ⟨_, rfl, by split <;> rfl⟩

theorem State.logEntry_anchor (s : State) (e : Nat) (was : Bool) : (s.logEntry e was).anchor = s.anchor := by unfold State.logEntry; split <;> rfl

theorem State.mapFrame_anchor (s : State) (c : Nat) (f : CanFrame) : (s.mapFrame c f).anchor = s.anchor := by
  simp only [State.mapFrame, State.logEntry_anchor, State.onEntry_anchor, State.foldl_anchor, implies_true]

theorem execCanFrameReceived_leaves (chan : Fin 16) (f : CanFrame) (s : State) : Leaves s (execCanFrameReceived chan f s) := ⟨_, rfl, by
  dsimp only
  repeat' split
  all_goals simp only [State.canIgnored_anchor, State.canUnmatched_anchor, State.mapFrame_anchor, State.onCan_anchor, ↓State.anchor_mk,
    ↓State.anchor_eta]⟩

theorem execCanFdIgnored_leaves (chan : Fin 16) (s : State) : Leaves s (execCanFdIgnored chan s) :=
  ⟨_, rfl, by simp only [State.canIgnored_anchor, State.anchor_ite, ite_self]⟩

theorem execCanEntryStale_leaves (entry : Nat) (s : State) : Leaves s (execCanEntryStale entry s) :=
  ⟨_, rfl, by simp only [State.logEntry_anchor, State.onEntry_anchor, State.anchor_ite, ite_self]⟩

theorem execCanOutSend_leaves (entry : Nat) (s : State) : Leaves s (execCanOutSend entry s) := by
  unfold execCanOutSend
  refine ⟨_, rfl, ?_⟩
  split
  · rfl
  · dsimp only
    simp only [State.anchor_ite, ↓State.anchor_mk, ↓State.anchor_eta, ite_self]
    exact State.foldl_anchor fun _ _ => rfl

theorem execCanFrameSent_leaves (entry : Nat) (s : State) : Leaves s (execCanFrameSent entry s) := by
  unfold execCanFrameSent
  refine ⟨_, rfl, ?_⟩
  split
  · rfl
  · split
    · rfl
    · exact Eq.trans (State.foldl_anchor fun _ _ => rfl) rfl

theorem execBusErrorPassive_leaves (chan : Fin 16) (tec recc : Nat) (s : State) : Leaves s (execBusErrorPassive chan tec recc s) :=
  ⟨_, rfl, by split <;> rfl⟩

theorem State.failOut_anchor (s : State) (c : Nat) : (s.failOut c).anchor = s.anchor := State.foldl_anchor fun _ _ => rfl

theorem execBusOff_leaves (chan : Fin 16) (s : State) : Leaves s (execBusOff chan s) :=
  ⟨_, rfl, by simp only [State.failOut_anchor, State.logRm_anchor, State.onCan_anchor, State.anchor_ite, ite_self]⟩

theorem execBusRecovered_leaves (chan : Fin 16) (s : State) : Leaves s (execBusRecovered chan s) := ⟨_, rfl, by split <;> rfl⟩

theorem execBusHoldOffEnd_leaves (chan : Fin 16) (s : State) : Leaves s (execBusHoldOffEnd chan s) := ⟨_, rfl, by split <;> rfl⟩

theorem busConfigureBody_anchored (p : Packet) (s : State) : Anchored s (busConfigureBody p s) :=
  .bind fun _ => .bind fun _ => .bind fun _ => .bind fun _ => .ite (.ok rfl) (.ok (State.logConfig_anchor _ _ _))

theorem State.putCan_anchor (s : State) (c : Nat) (r : CanRec) : (s.putCan c r).anchor = s.anchor := rfl

theorem State.putEntry_anchor (s : State) (e : Nat) (r : EntryRec) : (s.putEntry e r).anchor = s.anchor := by
  simp only [State.putEntry, State.apply_anchor, State.onEntry_anchor, State.anchor_ite, ite_self]

theorem busAutobaudBody_anchored (p : Packet) (s : State) : Anchored s (busAutobaudBody p s) :=
  .bind fun _ => .bind fun _ => .bind fun _ => .ok rfl

theorem State.endAutobaud_anchor (s : State) (a : Autobaud) (r0 : Nat) (items : List CfgItem) : (s.endAutobaud a r0 items).anchor = s.anchor := by
  unfold State.endAutobaud; dsimp only
  split <;> simp only [State.apply_anchor, State.finish_anchor, State.logConfig_anchor, State.onCan_anchor, ↓State.anchor_mk, ↓State.anchor_eta]

theorem execAutobaudCandidateEnd_leaves (chan : Fin 16) (error : Bool) (s : State) : Leaves s (execAutobaudCandidateEnd chan error s) :=
  ⟨_, rfl, by split <;> simp only [State.endAutobaud_anchor, ↓State.anchor_mk, ↓State.anchor_eta, State.anchor_ite, ite_self]⟩

end Sys2Proof.Machine
end

section
/-! SUPPORT. The anchor under the thermal runtime, images and the governor. -/

namespace Sys2Proof.Machine

/-! ## Thermal runtime and steps -/

theorem Lane.sumCapacity_fused (x : Lane) (s : State) : (x.sumCapacity s).fused = x.fused := rfl

theorem Lane.frameChip_fused (x : Lane) (b : ThermalBlock) (now c : Nat) (absent : Bool) (i : ChipIn) :
    (x.frameChip b now c absent i).1.fused = x.fused := rfl

theorem State.thermalFrame_anchor (s : State) (l : LaneId) : (s.thermalFrame l).anchor = s.anchor := by
  unfold State.thermalFrame
  split
  · rfl
  · dsimp only
    refine Eq.trans (State.onLane_anchor (Lane.sumCapacity_fused _ _)) (State.foldl_anchor fun t c => ?_)
    refine Eq.trans (State.foldl_anchor fun u e => State.logIn_anchor u _ _ _ _ _ _) (State.setLane_anchor ?_)
    exact Lane.frameChip_fused _ _ _ _ _ _

theorem execSensorSuspect_leaves (chip : Fin 4096) (s : State) : Leaves s (execSensorSuspect chip s) := ⟨_, rfl, by
  dsimp only
  repeat' split
  all_goals simp only [State.logIn_anchor, State.onLane_anchor]⟩

theorem execSensorClear_leaves (chip : Fin 4096) (s : State) : Leaves s (execSensorClear chip s) :=
  ⟨_, rfl, by simp only [State.logIn_anchor, State.onLane_anchor, State.anchor_ite, ite_self]⟩

theorem State.modelFault_anchor (s : State) (cause : Nat) : (s.modelFault cause).anchor = s.anchor := by
  simp only [State.modelFault, State.dropAuthority_anchor, State.logLanes_anchor, State.onLanes_anchor, State.anchor_ite, ite_self, implies_true]

theorem Lane.takeForecasts_fused (x : Lane) (img : Image) (data : OutBinding → List Byte) : (x.takeForecasts img data).fused = x.fused := rfl

theorem Lane.sampleRain_fused (x : Lane) (k : ThermalBlock) : (x.sampleRain k).fused = x.fused := rfl

theorem Lane.markFiltered_fused (x : Lane) (cs : List Nat) : (x.markFiltered cs).fused = x.fused := rfl

theorem State.putThermal_anchor (s : State) (k : ThermalBlock) : (s.putThermal k).anchor = s.anchor := by
  simp only [State.putThermal, State.apply_anchor, State.onLanes_anchor, implies_true]

theorem State.stepBoundary_anchor (s : State) (updates : LaneId → List (Nat × U32)) : (s.stepBoundary updates).anchor = s.anchor := by
  unfold State.stepBoundary; dsimp only
  split <;> simp only [State.couplingBoundary_anchor, State.putThermal_anchor, ↓State.anchor_mk, ↓State.anchor_eta]

theorem State.settleBoundary_anchor (s : State) : s.settleBoundary.anchor = s.anchor := by
  unfold State.settleBoundary; split <;> simp only [State.onLanes_anchor, State.stepBoundary_anchor, State.anchor_ite, ite_self, implies_true]

theorem State.filterLoop_fused (s : State) (x : Lane) (k : ResultKind) (b : OutBinding) (n : Nat) (v : F32) :
    (s.filterLoop x k b n v).1.fused = x.fused := by
  unfold State.filterLoop
  extract_lets
  split <;> rfl

theorem State.filterCap_fused (s : State) (x : Lane) (c v : Nat) : (s.filterCap x c v).1.fused = x.fused := by
  unfold State.filterCap
  extract_lets
  split <;> rfl

theorem State.putOutput_fused (s : State) (img : Image) (b : OutBinding) (d : List Byte) (x : Lane) (i : Nat) :
    (s.putOutput img b d x i).fused = x.fused := by
  unfold State.putOutput
  extract_lets n due w m y result propose
  have hy : y.fused = x.fused := by simp only [y]; split <;> rfl
  split
  · exact hy
  · split
    · exact (State.filterLoop_fused s y .loopSp b n w).trans hy
    · exact (State.filterLoop_fused s y .loopFf b n w).trans hy
    · have hcap := State.filterCap_fused s y n (capUnits w)
      split <;> rename_i heq <;> rw [heq] at hcap
      · exact hcap.trans hy
      · exact hcap.trans hy
    · exact hy
    · exact hy

theorem State.completeLane_anchor (s : State) (l : LaneId) (img : Image) : (s.completeLane l img).anchor = s.anchor := by
  unfold State.completeLane
  extract_lets x data bad badFc x1 m x2 x3 st x4 t
  have h1 : x1.fused = x.fused := (Lane.sampleRain_fused _ _).trans (Lane.takeForecasts_fused x img data)
  have h3 : x3.fused = x2.fused := Lane.foldl_fused fun y b => Lane.foldl_fused fun y i => State.putOutput_fused s img b (data b) y i
  have ht : t.anchor = s.anchor := State.setLane_anchor (h3.trans h1)
  rw [State.anchor_ite, State.modelFault_anchor, ite_self, ht]

theorem execStepComplete_leaves (l : LaneId) (s : State) : Leaves s (execStepComplete l s) :=
  ⟨_, rfl, by split <;> simp only [State.completeLane_anchor, State.settleBoundary_anchor, State.anchor_ite, ite_self]⟩

theorem State.countTick_anchor (s : State) (i : Nat) (event : U32) : (s.countTick i event).anchor = s.anchor := by
  simp only [State.countTick, State.setTickEvent_anchor, ↓State.anchor_mk, ↓State.anchor_eta]

theorem execStepAbort_leaves (s : State) : Leaves s (execStepAbort s) := by
  unfold execStepAbort
  refine ⟨_, rfl, ?_⟩
  split
  · rfl
  · extract_lets clean u s1 s2 s3 tk im s4 s5
    have h1 : s1.anchor = s.anchor := by simp only [s1]; split <;> rfl
    have h3 : s3.anchor = s.anchor :=
      Eq.trans (State.onLanes_anchor fun _ => rfl) (Eq.trans (State.onLanes_anchor Lane.abortStep_fused) h1)
    have h5 : s5.anchor = s.anchor := by
      simp only [s5, s4, State.settleBoundary_anchor, State.countTick_anchor, State.anchor_mk, State.anchor_eta, h3]
    rw [State.anchor_ite, State.modelFault_anchor, ite_self, h5]

theorem State.sampleUnit_anchor (s : State) (u : Nat) : (s.sampleUnit u).anchor = s.anchor := by
  unfold State.sampleUnit; dsimp only
  repeat' split
  all_goals simp only [State.applyStore_anchor, State.logLanes_anchor, State.onLanes_anchor, implies_true]

theorem execCapacitySample_leaves (s : State) : Leaves s (execCapacitySample s) := ⟨_, rfl, by
  simp only [State.onLanes_anchor, State.sampleUnit_anchor, ↓State.anchor_mk, ↓State.anchor_eta, State.anchor_ite, State.foldl_anchor, ite_self,
    implies_true]⟩

theorem forecastReadBody_anchored (p : Packet) (s : State) : Anchored s (forecastReadBody p s) :=
  .bind fun _ => .bind fun _ => .bind fun _ => .ok (by
    split
    · exact Eq.trans (State.onLanes_anchor fun _ => rfl) (State.writeTransfer_anchor s _ _)
    · exact State.writeTransfer_anchor s _ _)

/-! ## Images -/

theorem State.setSlot_anchor (s : State) (n code : Nat) : (s.setSlot n code).anchor = s.anchor := rfl

theorem modelStageBody_anchored (id : Nat) (p : Packet) (s : State) : Anchored s (modelStageBody id p s) :=
  .bind fun _ => .bind fun _ => .ok (by
    simp only [State.anchor_mk, State.anchor_eta]
    exact State.setSlot_anchor s _ 4)

theorem State.noteShortfall_anchor (s : State) (i : Image) : (s.noteShortfall i).anchor = s.anchor := rfl

theorem execModelStageDone_leaves (slot : Fin 8) (s : State) : Leaves s (execModelStageDone slot s) := ⟨_, rfl, by
  dsimp only
  repeat' split
  all_goals simp only [State.finish_anchor, State.noteShortfall_anchor, State.setSlot_anchor, ↓State.anchor_mk, ↓State.anchor_eta]⟩

theorem State.startActivation_anchor (s : State) (i : Image) (inherit : Bool) (block : Option ThermalBlock) (cmd : Option Nat) : (s.startActivation
  i inherit block cmd).anchor = s.anchor :=
  rfl

theorem modelActivateBody_anchored (id : Nat) (p : Packet) (s : State) : Anchored s (modelActivateBody id p s) :=
  .bind fun _ => .bind fun _ => .bind fun _ => .bind fun _ => by
    dsimp only
    split
    · exact .error
    · exact .ite (.ok (State.logConfig_anchor _ _ _)) (.bind fun _ => .bind fun _ => .ok
        ((State.startActivation_anchor _ _ _ _ _).trans (State.logConfig_anchor _ _ _)))

theorem execActivationPrepareDone_leaves (s : State) : Leaves s (execActivationPrepareDone s) := ⟨_, rfl, by split <;> rfl⟩

theorem execActivationBoundary_leaves (s : State) : Leaves s (execActivationBoundary s) := ⟨_, rfl, by
  simp only [State.dropAuthority_anchor, State.loadHostRegisters_anchor, State.onLanes_anchor, State.stepBoundary_anchor, ↓State.anchor_mk,
    ↓State.anchor_eta, State.anchor_ite, ite_self, implies_true]⟩

theorem Lane.load_fused (x : Lane) (i : Image) (v : Variant) (inherit : Bool) : (x.load i v inherit).fused = x.fused := by
  unfold Lane.load; dsimp only
  split
  · exact Lane.foldl_fused (x := { x with array := _, model := _ }) fun y e => Lane.putEntry_fused y e _
  · rfl

theorem execActivationLoadDone_leaves (s : State) : Leaves s (execActivationLoadDone s) := by
  have hone (t : State) (l : LaneId) (i : Image) (v : Variant) (k : Bool) :
      (t.onLane l fun x => if x.isRunning then x.load i v k else x).anchor = t.anchor :=
    State.onLane_anchor (by rw [Lane.fused_ite, Lane.load_fused, ite_self])
  unfold execActivationLoadDone
  refine ⟨_, rfl, ?_⟩
  split
  · rfl
  · split
    · rfl
    · simp only [State.anchor_mk, State.anchor_eta]
      rw [hone, hone, State.putFits_anchor]

theorem execActivationStartDone_leaves (s : State) : Leaves s (execActivationStartDone s) :=
  ⟨_, rfl, by simp only [State.onLanes_anchor, ↓State.anchor_mk, ↓State.anchor_eta, State.anchor_ite, ite_self, implies_true]⟩

theorem State.grantStep_anchor (s : State) (i : Image) : (s.grantStep i).anchor = s.anchor := by
  simp only [State.grantStep, Lane.startStep_fused, State.onLanes_anchor, ↓State.anchor_mk, ↓State.anchor_eta, implies_true]

theorem execActivationFirstGrant_leaves (s : State) : Leaves s (execActivationFirstGrant s) := ⟨_, rfl, by
  dsimp only
  repeat' split
  all_goals simp only [State.finish_anchor, State.grantStep_anchor, State.logLanes_anchor, State.onLanes_anchor, State.putThermal_anchor,
    State.setSlot_anchor, State.startOver_anchor, ↓State.anchor_mk, ↓State.anchor_eta, State.foldl_anchor, implies_true]⟩

theorem execModelStatus_leaves (p : Packet) (s : State) : Leaves s (execModelStatus p s) :=
  ⟨_, rfl, State.runCmd_anchor fun _ _ s => .bind fun _ => .ok (State.writeTransfer_anchor s _ _)⟩

/-! ## Governor -/

theorem Lane.onGovChip_fused (x : Lane) (c : Nat) (f : GovChip → GovChip) : (x.onGovChip c f).fused = x.fused := rfl

theorem Lane.onGovJob_fused (x : Lane) (j : Nat) (f : GovJob → GovJob) : (x.onGovJob j f).fused = x.fused := rfl

theorem State.haltTrays_anchor (s : State) (l : LaneId) (ts : List Nat) : (s.haltTrays l ts).anchor = s.anchor := by
  unfold State.haltTrays
  split
  · rfl
  · rw [State.logIn_anchor]; exact State.foldl_anchor fun _ _ => rfl

theorem Lane.fused_of_noGov {x y : Lane} (h : y.noGov = x.noGov) : y.fused = x.fused := by
  have hf : y.noGov.fused = x.noGov.fused := congrArg Lane.fused h
  exact hf

theorem State.passStages_fused (s : State) (x : Lane) : (s.passStages x).1.fused = x.fused :=
  Lane.fused_of_noGov (s.passStages_noGov x)

theorem State.lanePass_anchor (s : State) (l : LaneId) : (s.lanePass l).1.anchor = s.anchor := by
  have hlog (t : State) (ev : List (Nat × Nat × Nat × List U32)) :
      (ev.foldl (fun (s : State) e => s.logIn l e.1 e.2.1 (w32 e.2.2.1) e.2.2.2) t).anchor = t.anchor :=
    State.foldl_anchor fun u e => State.logIn_anchor u _ _ _ _ _ _
  unfold State.lanePass
  split
  · rfl
  · have hx := State.passStages_fused s (s.lane l)
    split
    rename_i x caps ev halts heq
    rw [heq] at hx
    exact (hlog _ ev).trans (State.setLane_anchor hx)

theorem State.passItem_anchor (s : State) (i : CfgItem) : (s.passItem i).anchor = s.anchor := by
  have gov (f : Lane → Lane) (hf : ∀ x, (f x).fused = x.fused) : ((s.apply [i]).onLanes f).anchor = s.anchor :=
    (State.onLanes_anchor hf).trans (State.apply_anchor s [i])
  unfold State.passItem
  dsimp only
  split
  case h_1 => exact State.putTopology_anchor s _
  case h_2 =>
    refine Eq.trans (State.onLanes_anchor fun x => ?_) (gov _ fun _ => ?_)
    · exact Lane.foldl_fused fun _ _ => rfl
    · rfl
  case h_14 => split <;> rfl
  case h_15 => rfl
  all_goals (refine gov _ fun _ => ?_); rfl

theorem State.passStart_anchor (s : State) : s.passStart.anchor = s.anchor := by
  simp only [State.passStart, State.passItem_anchor, ↓State.anchor_mk, ↓State.anchor_eta, State.foldl_anchor, implies_true]

theorem State.endGov_anchor (s : State) (w : GovWait) : (s.endGov w).anchor = s.anchor := by simp only [State.endGov, State.finish_anchor]

theorem State.endGovs_anchor (s : State) (due : Nat) : (s.endGovs due).anchor = s.anchor := by
  simp only [State.endGovs, State.endGov_anchor, ↓State.anchor_mk, ↓State.anchor_eta, State.foldl_anchor, implies_true]

theorem State.governorPass_anchor (s : State) : s.governorPass.anchor = s.anchor := by
  unfold State.governorPass; dsimp only
  split <;> simp only [State.endGovs_anchor, State.haltTrays_anchor, State.lanePass_anchor, ↓State.anchor_mk, ↓State.anchor_eta, State.anchor_ite,
    ite_self]

theorem execSyncActiveEntry_leaves (j : Fin 256) (s : State) : Leaves s (execSyncActiveEntry j s) := by
  unfold execSyncActiveEntry
  extract_lets k one
  have hone (t : State) (l : LaneId) : (one t l).anchor = t.anchor := by
    simp only [one]
    split
    · rfl
    · refine State.setLane_anchor ?_
      dsimp only
      rw [Lane.foldl_fused fun y p => Lane.onGovChip_fused y _ _]
      exact Lane.onGovJob_fused _ _ _
  exact ⟨_, rfl, (hone _ .B).trans (hone s .A)⟩

theorem execSyncActiveEnd_leaves (job : Fin 256) (s : State) : Leaves s (execSyncActiveEnd job s) :=
  ⟨_, rfl, by simp only [Lane.onGovJob_fused, State.onLanes_anchor, Lane.fused_ite, ite_self, implies_true]⟩

theorem State.shedRow_anchor (s : State) (scope : Nat) (due : Shed → Bool) (f : Shed → Shed) (cls ty : Nat) (ws : Shed → List U32) : (s.shedRow
  scope due f cls ty ws).anchor = s.anchor := by
  simp only [State.shedRow, State.logIn_anchor, State.onLane_anchor, State.anchor_ite, ite_self]

theorem execOverCap_leaves (c : Fin 4096) (s : State) : Leaves s (execOverCap c s) := by
  have hone (t : State) (l : LaneId) : (t.onLane l fun x => x.onGovChip c.val fun g => { g with overCap := true }).anchor = t.anchor :=
    State.onLane_anchor (Lane.onGovChip_fused _ _ _)
  unfold execOverCap
  refine ⟨_, rfl, ?_⟩
  simp only [State.anchor_ite, State.logIn_anchor, hone, ite_self]

theorem State.govCommand_anchor (s : State) (p : Packet) (id : Nat) (items : List CfgItem) (slots : List Nat) : (s.govCommand p id items
  slots).1.anchor = s.anchor := by
  simp only [State.govCommand, State.deferPass_anchor, State.logConfig_anchor, ↓State.anchor_mk, ↓State.anchor_eta]

theorem jobDefineBody_anchored (id : Nat) (p : Packet) (s : State) : Anchored s (jobDefineBody id p s) :=
  .bind fun _ => .bind fun _ => .bind fun _ => .bind fun _ => .ite (.bind fun _ => .ok (State.govCommand_anchor s p id _ _)) (by
    dsimp only
    split
    · exact .error
    · exact .bind fun _ => .ok (State.govCommand_anchor s p id _ _))

theorem rowEnvelopeBody_anchored (id : Nat) (p : Packet) (s : State) : Anchored s (rowEnvelopeBody id p s) :=
  .bind fun _ => .bind fun _ => .ok (State.govCommand_anchor s p id _ _)

theorem capSetBody_anchored (id : Nat) (p : Packet) (s : State) : Anchored s (capSetBody id p s) :=
  .bind fun _ => .bind fun _ => .bind fun _ => .ok (State.govCommand_anchor s p id _ _)

theorem pacePolicyBody_anchored (id : Nat) (p : Packet) (s : State) : Anchored s (pacePolicyBody id p s) :=
  .bind fun _ => .ite (.ok (State.govCommand_anchor s p id _ _)) (.bind fun _ => .ok (State.govCommand_anchor s p id _ _))

theorem swingPolicyBody_anchored (id : Nat) (p : Packet) (s : State) : Anchored s (swingPolicyBody id p s) :=
  .bind fun _ => .ite (.ok (State.govCommand_anchor s p id _ _)) (.bind fun _ => .ok (State.govCommand_anchor s p id _ _))

theorem execGovernorStatus_leaves (p : Packet) (s : State) : Leaves s (execGovernorStatus p s) :=
  ⟨_, rfl, State.runCmd_anchor fun _ _ s => .bind fun _ => .ite (statusReply_anchored s _ _ _ _ _ _ _)
    (.ite (statusReply_anchored s _ _ _ _ _ _ _) (statusReply_anchored s _ _ _ _ _ _ _))⟩

end Sys2Proof.Machine
end

section
/-! SUPPORT. The anchor under the Hall of Mirrors, lane authority, the recorder, resets, update and the tick. -/

namespace Sys2Proof.Machine

/-! ## Hall of Mirrors -/

theorem State.onMirror_anchor (s : State) (n : Nat) (f : MirrorSlot → MirrorSlot) : (s.onMirror n f).anchor = s.anchor := rfl

theorem State.markFailed_anchor (s : State) (l : LaneId) : (s.markFailed l).anchor = s.anchor := rfl

theorem State.startMerge_anchor (s : State) : s.startMerge.anchor = s.anchor := by
  simp only [State.startMerge, State.logRm_anchor, State.setLaneEvent_anchor, ↓State.anchor_mk, ↓State.anchor_eta, State.anchor_ite, ite_self]

theorem State.arbitrate_anchor (s : State) : s.arbitrate.anchor = s.anchor := by
  unfold State.arbitrate; dsimp only
  repeat' split
  all_goals simp only [State.abandonDrill_anchor, State.enterNet_anchor, State.loseLane_anchor, State.setLaneEvent_anchor, State.startMerge_anchor,
    ↓State.anchor_mk, ↓State.anchor_eta]

theorem State.noteCompare_anchor (s : State) (k : OutKey) (agree : Bool) : (s.noteCompare k agree).anchor = s.anchor := by
  simp only [State.noteCompare, State.arbitrate_anchor, State.setLaneEvent_anchor, ↓State.anchor_mk, ↓State.anchor_eta, State.anchor_ite, ite_self]

theorem State.releaseLoop_anchor (s : State) (n : Nat) (o : LoopOut) (ns : Nat) : (s.releaseLoop n o ns).anchor = s.anchor := by
  simp only [State.releaseLoop, State.onEntry_anchor, State.onMirror_anchor, State.onMotor_anchor, ↓State.anchor_mk, ↓State.anchor_eta,
    State.anchor_ite, ite_self]

theorem State.crossCheck_anchor (s : State) (n : Nat) (eff : EffMode) (o : LoopOut) : (s.crossCheck n eff o).anchor = s.anchor := rfl

theorem State.compareLoop_anchor (s : State) (n ns : Nat) (a b : LoopOut) : (s.compareLoop n ns a b).anchor = s.anchor := by
  simp only [State.compareLoop, State.noteCompare_anchor, State.onMirror_anchor, State.releaseLoop_anchor, State.anchor_ite, ite_self]

theorem State.deliverLoop_anchor (s : State) (l : LaneId) (ns n : Nat) (o : Option LoopOut) : (s.deliverLoop l ns n o).anchor = s.anchor := by
  unfold State.deliverLoop; dsimp only
  repeat' split
  all_goals simp only [State.compareLoop_anchor, State.crossCheck_anchor, State.markFailed_anchor, State.onMirror_anchor, State.releaseLoop_anchor,
    ↓State.anchor_mk, ↓State.anchor_eta]

theorem State.closeResult_anchor (s : State) (k : ResultKey) : (s.closeResult k).anchor = s.anchor := rfl

theorem State.discardResult_anchor (s : State) (r : HeldResult) (superseded : Bool) : (s.discardResult r superseded).anchor = s.anchor := by
  simp only [State.discardResult, State.closeResult_anchor, State.countTick_anchor, ↓State.anchor_mk, ↓State.anchor_eta, State.anchor_ite, ite_self]

theorem State.noteReleased_anchor (s : State) (r : HeldResult) : (s.noteReleased r).anchor = s.anchor := rfl

theorem State.releaseResult_anchor (s : State) (r : HeldResult) (v : ResultVal) (ns : Nat) : (s.releaseResult r v ns).anchor = s.anchor := by
  unfold State.releaseResult; split <;> simp only [State.closeResult_anchor, State.endGovs_anchor, State.noteReleased_anchor,
    State.sendCaps_anchor, ↓State.anchor_mk, ↓State.anchor_eta, State.anchor_ite, ite_self]

theorem State.compareResult_anchor (s : State) (r : HeldResult) (act other : ResultVal) : (s.compareResult r act other).1.anchor = s.anchor := by
  unfold State.compareResult; split <;> simp only [State.noteCompare_anchor, State.anchor_ite, State.foldl_anchor, ite_self, implies_true]

theorem State.settleResult_anchor (s : State) (k : ResultKey) (ns : Nat) (alone : Bool) : (s.settleResult k ns alone).anchor = s.anchor := by
  unfold State.settleResult; dsimp only
  repeat' split
  all_goals simp only [State.compareResult_anchor, State.discardResult_anchor, State.releaseResult_anchor]

theorem State.dropInNet_anchor (s : State) (k : ResultKey) : (s.dropInNet k).anchor = s.anchor := by
  unfold State.dropInNet; split <;> simp only [State.closeResult_anchor, State.compareResult_anchor]

theorem State.deliverResult_anchor (s : State) (l : LaneId) (ns : Nat) (k : ResultKind) (t source due : Nat) (v : Option ResultVal) :
  (s.deliverResult l ns k t source due v).anchor = s.anchor := by
  unfold State.deliverResult; dsimp only
  split <;> simp only [State.dropInNet_anchor, State.markFailed_anchor, State.onLane_anchor, State.settleResult_anchor, ↓State.anchor_mk,
    ↓State.anchor_eta, State.anchor_ite, ite_self]

theorem State.releaseOther_anchor (s : State) (k : OutKey) (v : Nat) : (s.releaseOther k v).anchor = s.anchor := by
  unfold State.releaseOther; split <;> simp only [State.advanceValves_anchor, State.onGroup_anchor, State.onValveCmds_anchor,
    State.setPermit_anchor]

theorem State.deliverOther_anchor (s : State) (l : LaneId) (k : OutKey) (v : Nat) : (s.deliverOther l k v).anchor = s.anchor := by
  unfold State.deliverOther; dsimp only
  repeat' split
  all_goals simp only [State.noteCompare_anchor, State.releaseOther_anchor, ↓State.anchor_mk, ↓State.anchor_eta]

theorem State.settleOthers_anchor (s : State) : s.settleOthers.anchor = s.anchor := by
  unfold State.settleOthers
  split
  · rfl
  · refine State.foldl_anchor fun t o => ?_
    split
    · exact State.releaseOther_anchor t _ _
    · rfl

theorem State.deliverCompletion_anchor (s : State) (l : LaneId) (tag : U32) : (s.deliverCompletion l tag).anchor = s.anchor := by
  unfold State.deliverCompletion; split <;> rfl

theorem execLaneOutputDelivery_leaves (l : LaneId) (ns : Nat) (d : Delivery) (s : State) : Leaves s (execLaneOutputDelivery l ns d s) := ⟨_, rfl, by
  simp only [State.anchor_ite]
  repeat' split
  all_goals simp only [State.deliverCompletion_anchor, State.deliverLoop_anchor, State.deliverOther_anchor, State.deliverResult_anchor]⟩

theorem State.countSilence_anchor (s : State) (l : LaneId) : (s.countSilence l).anchor = s.anchor := by
  unfold State.countSilence; dsimp only
  repeat' split
  all_goals simp only [State.countTick_anchor, State.onStat_anchor, ↓State.anchor_mk, ↓State.anchor_eta]

theorem State.loopDue_anchor (s : State) (n : Nat) : (s.loopDue n).anchor = s.anchor := by
  unfold State.loopDue; dsimp only
  repeat' split
  all_goals simp only [State.onMirror_anchor, State.releaseLoop_anchor, ↓State.anchor_mk, ↓State.anchor_eta]

theorem execLoopReleaseDeadline_leaves (loop : Fin 256) (s : State) : Leaves s (execLoopReleaseDeadline loop s) :=
  ⟨_, rfl, by simp only [State.countSilence_anchor, State.loopDue_anchor, ↓State.anchor_mk, ↓State.anchor_eta, State.anchor_ite, ite_self]⟩

theorem execReleaseWindowOpen_leaves (s : State) : Leaves s (execReleaseWindowOpen s) := ⟨_, rfl, by
  simp only [State.discardResult_anchor, State.sendCaps_anchor, State.settleResult_anchor, ↓State.anchor_mk, ↓State.anchor_eta, State.anchor_ite,
    State.foldl_anchor, ite_self, implies_true]⟩

theorem execReleaseWindowClose_leaves (s : State) : Leaves s (execReleaseWindowClose s) := ⟨_, rfl, by
  simp only [State.countTick_anchor, State.sendCaps_anchor, State.settleOthers_anchor, State.settleResult_anchor, ↓State.anchor_mk,
    ↓State.anchor_eta, State.anchor_ite, State.foldl_anchor, ite_self, implies_true]⟩

theorem execFlitLost_leaves (l : LaneId) (frame : Bool) (s : State) : Leaves s (execFlitLost l frame s) := ⟨_, rfl, by split <;> rfl⟩

theorem execLaneSilentLost_leaves (l : LaneId) (s : State) : Leaves s (execLaneSilentLost l s) :=
  ⟨_, rfl, by simp only [State.enterNet_anchor, State.loseLane_anchor, State.onStat_anchor, State.anchor_ite, ite_self]⟩

theorem State.noteParity_anchor (s : State) (l : LaneId) (tile : Nat) : (s.noteParity l tile).anchor = s.anchor := by
  simp only [State.noteParity, State.cfgReg_anchor, State.onStat_anchor, State.anchor_ite, ite_self]

theorem execSelfCheckFailure_leaves (l : LaneId) (tile : Option Nat) (s : State) : Leaves s (execSelfCheckFailure l tile s) := ⟨_, rfl, by
  dsimp only
  repeat' split
  all_goals simp only [State.enterNet_anchor, State.failRejoin_anchor, State.loseLane_anchor, State.markFailed_anchor, State.noteLoss_anchor,
    State.noteParity_anchor, ↓State.anchor_mk, ↓State.anchor_eta]⟩

theorem execMergeLimitReached_leaves (s : State) : Leaves s (execMergeLimitReached s) :=
  ⟨_, rfl, by simp only [State.loseLane_anchor, State.anchor_ite, ite_self]⟩

theorem execRefereeCrossCheckFail_leaves (s : State) : Leaves s (execRefereeCrossCheckFail s) :=
  ⟨_, rfl, by simp only [State.loseLane_anchor, State.anchor_ite, ite_self]⟩

/-! ## Lane authority and resynchronisation -/

theorem State.takeAuthority_anchor (s : State) (l : LaneId) (epoch : Nat) : (s.takeAuthority l epoch).anchor = s.anchor := by
  simp only [State.takeAuthority, State.onLane_anchor, State.onStat_anchor, ↓State.anchor_mk, ↓State.anchor_eta, Lane.fused_ite, ite_self]

theorem execAuthorityGrant_leaves (s : State) : Leaves s (execAuthorityGrant s) := ⟨_, rfl, by split <;> rfl⟩

theorem execDrillGrant_leaves (s : State) : Leaves s (execDrillGrant s) := ⟨_, rfl, by split <;> rfl⟩

theorem State.endDrill_anchor (s : State) : s.endDrill.anchor = s.anchor := by
  unfold State.endDrill; split <;> simp only [State.finish_anchor, State.refitK_anchor, State.resetLane_anchor, State.setLaneEvent_anchor,
    ↓State.anchor_mk, ↓State.anchor_eta, State.anchor_ite, ite_self]

theorem execLaneQualified_leaves (l : LaneId) (s : State) : Leaves s (execLaneQualified l s) := ⟨_, rfl, by split <;> rfl⟩

theorem State.autoActivate_anchor (s : State) : s.autoActivate.anchor = s.anchor := by
  unfold State.autoActivate; split <;> simp only [State.startActivation_anchor, State.anchor_ite, ite_self]

theorem State.capsAfterNet_anchor (s : State) : s.capsAfterNet.anchor = s.anchor := by
  unfold State.capsAfterNet; dsimp only
  rw [State.onLanes_anchor fun x => Lane.foldl_fused fun y c => Lane.onGovChip_fused y c _]; rfl

theorem State.exitNet_anchor (s : State) (l : LaneId) : (s.exitNet l).anchor = s.anchor := by
  simp only [State.exitNet, State.autoActivate_anchor, State.capsAfterNet_anchor, State.dropAuthority_anchor, State.logRm_anchor,
    State.onStat_anchor, State.refitK_anchor, State.resetLane_anchor, State.setLaneEvent_anchor, State.startOver_anchor,
    State.takeAuthority_anchor, ↓State.anchor_mk, ↓State.anchor_eta, State.anchor_ite, ite_self]

theorem execAuthorityAck_leaves (l : LaneId) (s : State) : Leaves s (execAuthorityAck l s) := ⟨_, rfl, by
  simp only [State.endDrill_anchor, State.exitNet_anchor, State.setLaneEvent_anchor, State.settleOthers_anchor, State.takeAuthority_anchor,
    ↓State.anchor_mk, ↓State.anchor_eta, State.anchor_ite, ite_self]⟩

theorem execAuthorityAckTimeout_leaves (s : State) : Leaves s (execAuthorityAckTimeout s) := ⟨_, rfl, by
  split <;> simp only [State.enterNet_anchor, State.loseLane_anchor, State.noteLoss_anchor, State.resetLane_anchor, State.setLaneEvent_anchor,
    ↓State.anchor_mk, ↓State.anchor_eta, State.anchor_ite, ite_self]⟩

theorem execTrapezeDrill_leaves (p : Packet) (s : State) : Leaves s (execTrapezeDrill p s) :=
  ⟨_, rfl, State.runCmd_anchor fun _ _ _ => .bind fun _ => .ok rfl⟩

theorem State.releaseLanes_anchor (s : State) : s.releaseLanes.anchor = s.anchor := by
  simp only [State.releaseLanes, State.onLane_anchor, State.onStat_anchor, State.anchor_ite, State.foldl_anchor, ite_self, implies_true]

theorem execLaneWipeDone_leaves (l : LaneId) (s : State) : Leaves s (execLaneWipeDone l s) :=
  ⟨_, rfl, by rw [State.anchor_ite, State.onLane_anchor (Lane.wiped_fused _ _), ite_self]⟩

theorem execLaneSelfTestDone_leaves (l : LaneId) (failed : List Nat) (linkFault : Bool) (s : State) : Leaves s (execLaneSelfTestDone l failed
  linkFault s) := ⟨_, rfl, by
  simp only [State.failRejoin_anchor, State.onLane_anchor, State.onStat_anchor, ↓State.anchor_mk, ↓State.anchor_eta, State.anchor_ite, ite_self]⟩

theorem State.startedLane_fused (s : State) (x : Lane) : (s.startedLane x).fused = x.fused := rfl

theorem execLaneReady_leaves (l : LaneId) (s : State) : Leaves s (execLaneReady l s) := by
  unfold execLaneReady
  refine ⟨_, rfl, ?_⟩
  split
  · exact State.onLane_anchor (s := s) (State.startedLane_fused s _)
  · rfl

theorem execStartWaitExpiry_leaves (s : State) : Leaves s (execStartWaitExpiry s) :=
  ⟨_, rfl, by split <;> simp only [↓State.anchor_mk, ↓State.anchor_eta, State.anchor_ite, ite_self]⟩

theorem State.inStepStart_anchor (s : State) : s.inStepStart.anchor = s.anchor := by
  simp only [State.inStepStart, State.stageReference_anchor, ↓State.anchor_mk, ↓State.anchor_eta, State.anchor_ite, Lane.fused_ite, ite_self]

theorem State.putFit_anchor (s : State) (l : LaneId) (f : Fit) : (s.putFit l f).anchor = s.anchor := by unfold State.putFit; split <;> rfl

theorem execResyncCopyDone_leaves (l : LaneId) (s : State) : Leaves s (execResyncCopyDone l s) := ⟨_, rfl, by
  dsimp only
  repeat' split
  all_goals simp only [State.logRm_anchor, State.onLane_anchor, State.onStat_anchor, State.putFit_anchor, ↓State.anchor_mk, ↓State.anchor_eta]⟩

theorem Lane.copyOf_fused (own act : Lane) : (own.copyOf act).fused = own.fused := rfl

theorem execResyncJoin_leaves (l : LaneId) (s : State) : Leaves s (execResyncJoin l s) := by
  have hload (x : Lane) (i : Image) (v : Variant) (b : Bool) (a : ArraySt → ArraySt) :
      ({ x.load i v b with array := a (x.load i v b).array } : Lane).fused = x.fused := Lane.load_fused x i v b
  unfold execResyncJoin
  refine ⟨_, rfl, ?_⟩
  split
  · rfl
  · extract_lets fOwn fAct x0 x s1 s2 test c m u s3
    have hx : x.fused = (s.lane l).fused := by
      simp only [x]
      split
      · next i _ =>
        rw [Lane.fused_ite]
        split
        · exact Lane.copyOf_fused _ _
        · exact (hload x0 i (i.variantOf fOwn) true fun a => a.carryState (s.lane l.other).array).trans (Lane.copyOf_fused _ _)
      · exact Lane.copyOf_fused _ _
    have h1 : s1.anchor = s.anchor := State.setLane_anchor hx
    have h3 : s3.anchor = s.anchor := by
      simp only [s3, c, m, u, State.anchor_mk, State.anchor_eta, s2, State.onStat_anchor, h1]
    clear_value s3
    rw [State.refitK_anchor, State.setLaneEvent_anchor, State.logRm_anchor, h3]

theorem execResyncTimeout_leaves (l : LaneId) (s : State) : Leaves s (execResyncTimeout l s) :=
  ⟨_, rfl, by simp only [State.failRejoin_anchor, ↓State.anchor_mk, ↓State.anchor_eta, State.anchor_ite, ite_self]⟩

theorem execLaneLinkFailure_leaves (s : State) : Leaves s (execLaneLinkFailure s) :=
  ⟨_, rfl, by simp only [State.setLaneEvent_anchor, ↓State.anchor_mk, ↓State.anchor_eta, State.anchor_ite, Lane.fused_ite, ite_self]⟩

theorem execLaneLinkReturn_leaves (s : State) : Leaves s (execLaneLinkReturn s) := ⟨_, rfl, by
  simp only [State.onLane_anchor, State.onStat_anchor, ↓State.anchor_mk, ↓State.anchor_eta, State.anchor_ite, State.foldl_anchor, ite_self,
    implies_true]⟩

theorem execLaneStatus_leaves (p : Packet) (s : State) : Leaves s (execLaneStatus p s) :=
  ⟨_, rfl, State.runCmd_anchor fun _ _ s => .bind fun _ => .ok (State.writeTransfer_anchor s _ _)⟩

/-! ## Event recorder -/

theorem doEventStage_anchor (l : Option LaneId) (e : Event) (s : State) : (doEventStage l e s).anchor = s.anchor := by
  unfold doEventStage; split <;> simp only [State.onLane_anchor, ↓State.anchor_mk, ↓State.anchor_eta, State.anchor_ite, ite_self]

theorem State.assignRecords_anchor (s : State) : s.assignRecords.anchor = s.anchor := by
  simp only [State.assignRecords, State.onLanes_anchor, ↓State.anchor_mk, ↓State.anchor_eta, implies_true]

theorem doEventSeqAssign_anchor (s : State) : (doEventSeqAssign s).anchor = s.anchor := by
  simp only [doEventSeqAssign, State.assignRecords_anchor, State.anchor_ite, ite_self]

theorem State.logRestart_anchor (s : State) : s.logRestart.anchor = s.anchor := rfl

theorem doGap_anchor (l : Option LaneId) (s : State) : (doGap l s).anchor = s.anchor := by
  unfold doGap; split <;> simp only [State.onLane_anchor, ↓State.anchor_mk, ↓State.anchor_eta, State.anchor_ite, ite_self]

theorem doEventRingWrite_anchor (s : State) : (doEventRingWrite s).anchor = s.anchor := by
  unfold doEventRingWrite
  split
  · rfl
  · extract_lets l hit gap e u s1
    have h1 : s1.anchor = s.anchor := by simp only [s1, u, State.anchor_mk, State.anchor_eta]
    clear_value s1
    exact (State.setEvtEvent_anchor s1 _).trans h1

theorem doEmmcWriteFault_anchor (s : State) : (doEmmcWriteFault s).anchor = s.anchor := by unfold doEmmcWriteFault; split <;> rfl

theorem doCountRecord_anchor (i : Fin 7) (s : State) : (doCountRecord i s).anchor = s.anchor := by
  simp only [doCountRecord, State.logRm_anchor, ↓State.anchor_mk, ↓State.anchor_eta, State.anchor_ite, ite_self]

theorem doCaptureWriteStart_anchor (s : State) : (doCaptureWriteStart s).anchor = s.anchor := by
  unfold doCaptureWriteStart; dsimp only
  repeat' split
  all_goals simp only [↓State.anchor_mk, ↓State.anchor_eta]

theorem doCaptureDone_anchor (s : State) : (doCaptureDone s).anchor = s.anchor := by
  unfold doCaptureDone; split <;> simp only [State.logRm_anchor, State.setEvtEvent_anchor, ↓State.anchor_mk, ↓State.anchor_eta, State.anchor_ite,
    ite_self]

theorem doEventRead_near (p : Packet) (dmaOk : Bool) (s : State) : Near s (doEventRead p dmaOk s) :=
  State.runCmd_near fun _ p s t c => Near.of_bind fun _ h => by
    extract_lets all start0 start older x hdr s1 ev s2 s3 at h
    have h1 : Near s s1 := State.writeHost_near s _ _
    have h3 : Near s s3 := by
      refine h1.trans (Near.of_anchor ?_)
      simp only [s3, s2, State.anchor_ite, State.setEvtEvent_anchor, ite_self]; rfl
    split at h
    · obtain ⟨rfl, -⟩ := Prod.mk.inj (Except.ok.inj h)
      exact h3
    · obtain ⟨rfl, -⟩ := Prod.mk.inj (Except.ok.inj h)
      exact Near.of_anchor (State.dmaFault_anchor s _)

theorem doCaptureRequest_anchor (p : Packet) (s : State) : (doCaptureRequest p s).anchor = s.anchor :=
  State.runCmd_anchor fun _ p s => by
    dsimp only
    refine .ite (.ite .error (.ok (State.logLanes_anchor _ _ _ _ _ _))) (.ite (.ite .error (.ok rfl)) (.ite (.ite .error (.ok rfl)) .error))

theorem doCaptureRead_anchor (p : Packet) (s : State) : (doCaptureRead p s).anchor = s.anchor :=
  State.runCmd_anchor fun _ p s => by
    dsimp only
    refine .ite (.bind fun _ => .ok (State.writeTransfer_anchor s _ _)) (.ite ?_ .error)
    split
    · exact .error
    · exact .bind fun _ => .ok (State.writeTransfer_anchor s _ _)

/-! ## Mode commands -/

theorem modeRequestBody_anchored (p : Packet) (s : State) : Anchored s (modeRequestBody p s) :=
  .bind fun _ => .ite (.bind fun _ => .ite (.ok (by split <;> rfl)) (.ok rfl)) (by
    dsimp only
    split
    · exact .error
    · exact .ite (.ok rfl) (.ite (.ok (State.foldl_anchor fun t k => State.moveRack_anchor t k _)) (.ok rfl)))

theorem State.applyMode_anchor (s : State) (m : ModeChange) : (s.applyMode m).anchor = s.anchor := by
  cases m with
  | authority a cmd =>
    simp only [State.applyMode]
    split
    · exact State.finish_anchor s _ _
    · rw [State.finish_anchor]; exact State.moveAuthority_anchor s a _
  | rack racks value cmd =>
    simp only [State.applyMode]
    split
    · exact State.finish_anchor s _ _
    · rw [State.finish_anchor]; exact State.foldl_anchor fun t k => State.moveRack_anchor t k _
  | autoPredictive =>
    simp only [State.applyMode, State.anchor_ite, State.startOver_anchor, State.setModeEvent_anchor, State.moveAuthority_anchor, ite_self]

theorem State.passModes_anchor (s : State) : s.passModes.anchor = s.anchor :=
  State.foldl_anchor (s := { s with mode := { s.mode with pendingModes := [] } }) State.applyMode_anchor

theorem execAutoPredictiveEntry_leaves (s : State) : Leaves s (execAutoPredictiveEntry s) := ⟨_, rfl, by split <;> rfl⟩

theorem State.expireWatchdog_anchor (s : State) : s.expireWatchdog.anchor = s.anchor := by
  simp only [State.expireWatchdog, State.logRm_anchor, State.setHifErr_anchor, State.setHostAxis_anchor, ↓State.anchor_mk, ↓State.anchor_eta]

theorem execHostWatchdogExpiry_leaves (s : State) : Leaves s (execHostWatchdogExpiry s) :=
  ⟨_, rfl, by simp only [State.expireWatchdog_anchor, ↓State.anchor_mk, ↓State.anchor_eta, State.anchor_ite, ite_self]⟩

theorem execDeferredWatchdogExpiry_leaves (s : State) : Leaves s (execDeferredWatchdogExpiry s) :=
  ⟨_, rfl, by simp only [State.expireWatchdog_anchor, State.anchor_ite, ite_self]⟩

theorem State.loadEngines_anchor (s : State) (c : Cfg) : (s.loadEngines c).anchor = s.anchor := by
  unfold State.loadEngines
  exact Eq.trans (State.foldl_anchor fun t e => State.putCan_anchor t e.1 e.2)
    (Eq.trans (State.foldl_anchor fun _ _ => rfl) (State.freshGroups_anchor _ _))

theorem State.bootPermits_anchor (s : State) : s.bootPermits.anchor = s.anchor := by
  unfold State.bootPermits; dsimp only
  rw [State.foldl_anchor fun t f => State.setPermit_anchor t _ _, State.foldl_anchor fun t g => State.setPermit_anchor t _ _]

theorem execRmBootComplete_leaves (s : State) : Leaves s (execRmBootComplete s) := by
  unfold execRmBootComplete
  refine ⟨_, rfl, ?_⟩
  split
  · rfl
  · dsimp only
    rw [State.releaseLanes_anchor, State.logRestart_anchor,
      State.foldl_anchor fun t k => by rw [State.anchor_ite, State.harnessAlarm_anchor, ite_self],
      State.bootPermits_anchor, State.driveRacks_anchor, State.foldl_anchor fun t k => State.setCause_anchor t k _ _,
      State.foldl_anchor fun t k => State.setCause_anchor t k _ _]
    exact State.loadEngines_anchor s _

/-! ## Resets -/

theorem State.moduleReset_anchor (s : State) (tcrit netSpd : Nat) : (s.moduleReset tcrit netSpd).anchor = s.anchor := by
  unfold State.moduleReset; split <;> rfl

theorem State.flushLog_anchor (s : State) : s.flushLog.anchor = s.anchor := by
  simp only [State.flushLog, doEventRingWrite_anchor, doEventSeqAssign_anchor]

theorem execGenReset_leaves (value : U32) (s : State) : Leaves s (execGenReset value s) :=
  ⟨_, rfl, by simp only [State.flushLog_anchor, State.logRegWrite_anchor, State.moduleReset_anchor, State.anchor_ite, ite_self]⟩

theorem execPowerFail_leaves (s : State) : Leaves s (execPowerFail s) := by
  unfold execPowerFail
  refine ⟨_, rfl, ?_⟩
  rw [State.stagesOff_anchor]
  simp only [↓State.anchor_mk, ↓State.anchor_eta]
  exact State.foldl_anchor fun t k => State.setCause_anchor t k _ _

/-! ## Update and life cycle -/

theorem State.stageFailed_anchor (s : State) (version : Nat) (r : Reply) : (s.stageFailed version r).anchor = s.anchor := by
  simp only [State.stageFailed, State.logRm_anchor, State.setUpdEvent_anchor, ↓State.anchor_mk, ↓State.anchor_eta]

theorem State.unstage_anchor (s : State) : s.unstage.anchor = s.anchor := by
  simp only [State.unstage, State.putUpdate_anchor, ↓State.anchor_mk, ↓State.anchor_eta, State.anchor_ite, ite_self]

theorem State.stagePackage_anchored (s : State) (p : Packet) (norOk : Bool) : Anchored s (s.stagePackage p norOk) :=
  .bind fun _ => .bind fun _ => .bind fun _ => by
    dsimp only
    split
    · exact .ok (State.stageFailed_anchor s _ _)
    · refine .ite (.ok ?_) (.ok ?_)
      · rw [State.logRm_anchor, State.setUpdEvent_anchor, State.putUpdate_anchor]; rfl
      · rw [State.logRm_anchor, State.stageFailed_anchor, State.unstage_anchor]; rfl

theorem updateStageBody_anchored (norOk : Bool) (p : Packet) (s : State) : Anchored s (updateStageBody norOk p s) :=
  .bind fun _ => .ite (.ok (State.unstage_anchor s)) (State.stagePackage_anchored s p norOk)

theorem State.setStep_anchor (s : State) (n : Nat) : (s.setStep n).anchor = s.anchor := by
  simp only [State.setStep, State.logRm_anchor, State.setUpdEvent_anchor, ↓State.anchor_mk, ↓State.anchor_eta]

theorem State.takeDown_anchor (s : State) (l : LaneId) : (s.takeDown l).anchor = s.anchor := by
  simp only [State.takeDown, State.refitK_anchor, State.resetLane_anchor, ↓State.anchor_mk, ↓State.anchor_eta, State.anchor_ite, ite_self]

theorem updateActivateBody_anchored (p : Packet) (s : State) : Anchored s (updateActivateBody p s) := .bind fun _ => .ok (by
  rw [State.setStep_anchor, State.takeDown_anchor]
  simp only [State.anchor_mk, State.anchor_eta, State.putUpdate_anchor, State.checkpointRain_anchor])

theorem execHandoverStep_leaves (s : State) : Leaves s (execHandoverStep s) := ⟨_, rfl, by
  simp only [State.anchor_ite]
  repeat' split
  all_goals simp only [State.onStat_anchor, State.setStep_anchor, State.takeDown_anchor, ↓State.anchor_mk, ↓State.anchor_eta]⟩

theorem execRmSwap_leaves (s : State) : Leaves s (execRmSwap s) := ⟨_, rfl, by split <;> rfl⟩

theorem State.logDiscarded_anchor (s : State) : s.logDiscarded.anchor = s.anchor := State.foldl_anchor fun _ _ => rfl

theorem State.failActivate_anchor (s : State) : s.failActivate.anchor = s.anchor := by
  unfold State.failActivate; split <;> simp only [State.finish_anchor, ↓State.anchor_mk, ↓State.anchor_eta]

theorem State.deferRollback_anchor (s : State) (reason : Nat) : (s.deferRollback reason).anchor = s.anchor := by
  simp only [State.deferRollback, State.failActivate_anchor, State.logRm_anchor, State.putUpdate_anchor, State.setUpdEvent_anchor,
    ↓State.anchor_mk, ↓State.anchor_eta]

theorem State.endRollback_anchor (s : State) : s.endRollback.anchor = s.anchor := by
  simp only [State.endRollback, State.logDiscarded_anchor, State.logRm_anchor, State.putUpdate_anchor, State.setUpdEvent_anchor, ↓State.anchor_mk,
    ↓State.anchor_eta]

theorem State.rollNext_anchor (s : State) : s.rollNext.anchor = s.anchor := by
  unfold State.rollNext; dsimp only
  split <;> simp only [State.endRollback_anchor, State.setStep_anchor, State.takeDown_anchor, ↓State.anchor_mk, ↓State.anchor_eta,
    State.anchor_ite, ite_self]

theorem State.startRollback_anchor (s : State) (reason : Nat) : (s.startRollback reason).anchor = s.anchor := by
  simp only [State.startRollback, State.deferRollback_anchor, State.failActivate_anchor, State.logRm_anchor, State.putUpdate_anchor,
    State.rollNext_anchor, ↓State.anchor_mk, ↓State.anchor_eta, State.anchor_ite, ite_self]

theorem State.rollOn_anchor (s : State) : s.rollOn.anchor = s.anchor := by
  unfold State.rollOn; split <;> simp only [State.onStat_anchor, State.rollNext_anchor, State.setStep_anchor, State.anchor_ite, ite_self]

theorem execUpdateRollback_leaves (s : State) : Leaves s (execUpdateRollback s) := ⟨_, rfl, by
  simp only [State.deferRollback_anchor, State.rollOn_anchor, State.anchor_ite, ite_self]
  repeat' split
  all_goals simp only [State.startRollback_anchor]⟩

theorem State.beginTrial_anchor (s : State) : s.beginTrial.anchor = s.anchor := by
  unfold State.beginTrial; dsimp only
  split <;> simp only [State.finish_anchor, State.logRm_anchor, State.putUpdate_anchor, ↓State.anchor_mk, ↓State.anchor_eta]

theorem execRmRestartComplete_leaves (s : State) : Leaves s (execRmRestartComplete s) :=
  ⟨_, rfl, by simp only [State.beginTrial_anchor, State.endRollback_anchor, ↓State.anchor_mk, ↓State.anchor_eta, State.anchor_ite, ite_self]⟩

theorem execPartConfirmed_leaves (part : Nat) (s : State) : Leaves s (execPartConfirmed part s) :=
  ⟨_, rfl, by simp only [State.logRm_anchor, State.setUpdEvent_anchor, ↓State.anchor_mk, ↓State.anchor_eta, State.anchor_ite, ite_self]⟩

theorem execPartFailed_leaves (part : Nat) (s : State) : Leaves s (execPartFailed part s) :=
  ⟨_, rfl, by simp only [State.startRollback_anchor, State.anchor_ite, ite_self]⟩

theorem execTrialExpired_leaves (s : State) : Leaves s (execTrialExpired s) :=
  ⟨_, rfl, by simp only [State.startRollback_anchor, State.anchor_ite, ite_self]⟩

theorem execUpdateConfirm_leaves (p : Packet) (s : State) : Leaves s (execUpdateConfirm p s) :=
  ⟨_, rfl, State.runCmd_anchor fun _ _ s => .bind fun _ => .ite (.ok rfl) (.ok (State.startRollback_anchor s 1))⟩

theorem State.reportHost_near {s t : State} {p : Packet} {dmaOk : Bool} {addr : Nat} {bs : List Byte} {r : Reply} {c : CmdEnd}
    (h : Except.ok (ε := Reply) (s.reportHost p dmaOk addr bs r) = .ok (t, c)) : Near s t := by
  unfold State.reportHost at h
  split at h <;> cases h
  · exact State.writeHost_near s _ _
  · exact Near.of_anchor (State.dmaFault_anchor s _)

theorem execUpdateStatus_near (p : Packet) (dmaOk : Bool) (s : State) : ∃ t, execUpdateStatus p dmaOk s = .next t ∧ Near s t :=
  ⟨_, rfl, State.runCmd_near fun _ _ _ _ _ h => State.reportHost_near h⟩

theorem execAttest_near (p : Packet) (dmaOk : Bool) (s : State) : ∃ t, execAttest p dmaOk s = .next t ∧ Near s t :=
  ⟨_, rfl, State.runCmd_near fun _ _ _ _ _ => Near.of_bind fun _ h => State.reportHost_near h⟩

theorem State.eraseLog_anchor (s : State) : s.eraseLog.anchor = s.anchor := by
  simp only [State.eraseLog, State.flushLog_anchor, State.logRm_anchor, State.setUpdEvent_anchor, ↓State.anchor_mk, ↓State.anchor_eta]

theorem lifecycleBody_anchored (p : Packet) (s : State) : Anchored s (lifecycleBody p s) :=
  .bind fun _ => .ite (.bind fun _ => .ok (State.eraseLog_anchor s)) (.ite (.ok rfl) (.bind fun _ => .ok rfl))

/-! ## Attestation -/

theorem State.serve_leaves (s : State) (f : SpdmSt → SpdmSt) : Leaves s (s.serve f) := ⟨_, rfl, by split <;> rfl⟩

theorem execDoeDiscovery_leaves (index : Byte) (s : State) : Leaves s (execDoeDiscovery index s) := ⟨_, rfl, by split <;> rfl⟩

theorem execGetVersion_leaves (s : State) : Leaves s (execGetVersion s) := ⟨_, rfl, by split <;> rfl⟩

theorem execGetCapabilities_leaves (version : Nat) (s : State) : Leaves s (execGetCapabilities version s) := ⟨_, rfl, by split <;> rfl⟩

theorem execNegotiateAlgorithms_leaves (ed25519 sha512 measSha512 : Bool) (s : State) : Leaves s (execNegotiateAlgorithms ed25519 sha512 measSha512
  s) :=
  ⟨_, rfl, by split <;> rfl⟩

theorem execGetDigests_leaves (s : State) : Leaves s (execGetDigests s) := ⟨_, rfl, by split <;> rfl⟩

theorem execGetCertificate_leaves (slot offset length : Nat) (s : State) : Leaves s (execGetCertificate slot offset length s) :=
  ⟨_, rfl, by split <;> rfl⟩

theorem execChallenge_leaves (slot : Nat) (nonce : List Byte) (s : State) : Leaves s (execChallenge slot nonce s) := ⟨_, rfl, by split <;> rfl⟩

theorem execGetMeasurements_leaves (ask : MeasAsk) (sign : Bool) (nonce : List Byte) (s : State) : Leaves s (execGetMeasurements ask sign nonce s)
  :=
  ⟨_, rfl, by split <;> rfl⟩

/-! ## The tick -/

theorem State.updateLock_anchor (s : State) : s.updateLock.anchor = s.anchor := by
  simp only [State.updateLock, State.logRm_anchor, State.setTickEvent_anchor, ↓State.anchor_mk, ↓State.anchor_eta, State.anchor_ite, ite_self]

theorem execGptpSyncReceived_leaves (port : Fin 4) (time : U64) (phaseErr : Int) (s : State) : Leaves s (execGptpSyncReceived port time phaseErr s)
  :=
  ⟨_, rfl, by simp only [State.onPort_anchor, State.updateLock_anchor, ↓State.anchor_mk, ↓State.anchor_eta, State.anchor_ite, ite_self]⟩

theorem execSyncTimeout_leaves (port : Fin 4) (s : State) : Leaves s (execSyncTimeout port s) := ⟨_, rfl, by
  simp only [State.logRm_anchor, State.onPort_anchor, State.setTickEvent_anchor, ↓State.anchor_mk, ↓State.anchor_eta, State.anchor_ite, ite_self]⟩

theorem State.restoreAll_anchor (s : State) (c : Cfg) : (s.restoreAll c).anchor = s.anchor := by
  unfold State.restoreAll
  extract_lets old s1 s2 s3 s4 s5 s6 s7 s8 s9
  have h1 : s1.anchor = s.anchor := State.foldl_anchor fun u n => State.onLanes_anchor fun _ => rfl
  have h2 : s2.anchor = s.anchor := by
    simp only [s2, State.anchor_ite, State.putTopology_anchor, ite_self, h1]
  have h3 : s3.anchor = s.anchor := (State.foldl_anchor fun u n => State.putMotor_anchor u n _).trans h2
  have h4 : s4.anchor = s.anchor := (State.foldl_anchor fun u n => State.putAnalog_anchor u n _).trans h3
  have h5 : s5.anchor = s.anchor := (State.foldl_anchor fun u n => State.putPulse_anchor u n _).trans h4
  have h6 : s6.anchor = s.anchor := (State.foldl_anchor fun u n => State.putLeak_anchor u n _).trans h5
  have h7 : s7.anchor = s.anchor := (State.foldl_anchor fun u n => State.putCan_anchor u n _).trans h6
  have h8 : s8.anchor = s.anchor := (State.foldl_anchor fun u n => State.putEntry_anchor u n _).trans h7
  have h9 : s9.anchor = s.anchor := by simp only [s9, State.anchor_ite, State.putThermal_anchor, ite_self, h8]
  rw [State.restageReference_anchor]
  exact h9

theorem State.putItem_anchor (s : State) (i : CfgItem) : (s.putItem i).anchor = s.anchor := by
  unfold State.putItem; split <;> simp only [State.apply_anchor, State.putAnalog_anchor, State.putCan_anchor, State.putEntry_anchor,
    State.putLeak_anchor, State.putMotor_anchor, State.putPulse_anchor, State.restoreAll_anchor]

theorem State.freshTick_anchor (s : State) : s.freshTick.anchor = s.anchor := rfl

theorem State.sample_anchor (s : State) (i : TickInputs) : (s.sample i).anchor = s.anchor := by
  unfold State.sample; dsimp only
  rw [State.sampleValves_anchor, State.foldl_anchor State.samplePulse_anchor, State.foldl_anchor State.sampleLeak_anchor,
    State.foldl_anchor State.sampleAnalog_anchor]

theorem State.countTickTimes_anchor (s : State) : s.countTickTimes.anchor = s.anchor := rfl

theorem execTickStart_leaves (inp : TickInputs) (s : State) : Leaves s (execTickStart inp s) := ⟨_, rfl, by
  simp only [State.countTickTimes_anchor, State.disarmGroups_anchor, State.freshTick_anchor, State.inStepStart_anchor, State.latchTrays_anchor,
    State.putItem_anchor, State.releaseLanes_anchor, State.sample_anchor, State.stepBoundary_anchor, State.updateLock_anchor, ↓State.anchor_mk,
    ↓State.anchor_eta, State.anchor_ite, State.foldl_anchor, ite_self, implies_true]⟩

theorem State.keepFrame_anchor (s : State) : s.keepFrame.anchor = s.anchor := by
  simp only [State.keepFrame, ↓State.anchor_mk, ↓State.anchor_eta, Lane.fused_ite, ite_self]

theorem State.phaseStep_anchor (s : State) : s.phaseStep.anchor = s.anchor := by
  unfold State.phaseStep; split <;> simp only [↓State.anchor_mk, ↓State.anchor_eta, State.anchor_ite, ite_self]

theorem State.swapTick_anchor (s : State) : s.swapTick.anchor = s.anchor := rfl

theorem State.grantTick_anchor (s : State) : s.grantTick.anchor = s.anchor := by
  unfold State.grantTick; split <;> simp only [State.countTick_anchor, State.grantStep_anchor, State.swapTick_anchor, ↓State.anchor_mk,
    ↓State.anchor_eta, State.anchor_ite, ite_self]

theorem execFrameReady_leaves (s : State) : Leaves s (execFrameReady s) := ⟨_, rfl, by
  simp only [State.governorPass_anchor, State.grantTick_anchor, State.keepFrame_anchor, State.passModes_anchor, State.passStart_anchor,
    State.phaseStep_anchor, State.runPass_anchor, State.settleBoundary_anchor, State.thermalFrame_anchor, State.anchor_ite, ite_self]⟩

theorem execViewPublish_leaves (s : State) : Leaves s (execViewPublish s) := ⟨_, rfl, by split <;> rfl⟩

theorem execViewHoldExpiry_leaves (s : State) : Leaves s (execViewHoldExpiry s) := ⟨_, rfl, by split <;> rfl⟩

end Sys2Proof.Machine
end

section
/-! SUPPORT. The anchor under every command: what the seven rows that change it do, and that all others keep it (20 R487, Life cycle). -/

namespace Sys2Proof.Machine

/-! ## The rows that change the anchor -/

/-- LIFECYCLE_RESET leaves the fuses, wipes both copies of the store and puts the recorded target in place (20 Life cycle). -/
theorem execLifecycleReset_anchor (s : State) : ∃ t, execLifecycleReset s = .next t ∧
    t.anchor = { s.anchor with lifeCycle := s.upd.lifeTarget.getD s.mode.lifeCycle } := by
  unfold execLifecycleReset
  refine ⟨_, rfl, ?_⟩
  split
  · next h => rw [h]; rfl
  · next x h =>
    extract_lets s1 m s2 e s3 s4
    have h1 : s1.anchor = s.anchor := State.flushLog_anchor s
    have h2 : s2.anchor = { s.anchor with lifeCycle := x } := by rw [← h1]; rfl
    have h3 : s3.anchor = s2.anchor := by simp only [s3, State.anchor_ite, e, State.anchor_mk, State.anchor_eta, ite_self]
    rw [State.logRm_anchor, State.moduleReset_anchor, h3, h2, h]; rfl

theorem NorSt.carryState_empty : ({} : NorSt).carryState = {} := by decide

theorem State.moduleReset_nor {s : State} (h : s.nor = {}) (tcrit netSpd : Nat) : (s.moduleReset tcrit netSpd).nor = {} := by
  have hn : s.norAfter = {} := by
    unfold State.norAfter
    split
    · rw [h]; exact NorSt.carryState_empty
    · exact h
  unfold State.moduleReset; dsimp only
  split
  · exact hn
  · exact hn

theorem execLifecycleReset_nor {s : State} {x : LifeCycle} (h : s.upd.lifeTarget = some x) :
    ∃ t, execLifecycleReset s = .next t ∧ t.nor = {} := by
  unfold execLifecycleReset
  refine ⟨_, rfl, ?_⟩
  rw [h]
  dsimp only
  rw [State.logRm_nor]
  refine State.moduleReset_nor ?_ _ _
  split <;> rfl

/-- UPDATE_CONFIRMED never lowers SEC_FLOOR and never takes back a revocation of key 0; of the anchor it changes these two alone. -/
theorem execUpdateConfirmed_anchor (s : State) : ∃ t, execUpdateConfirmed s = .next t ∧ s.upd.secFloor ≤ t.upd.secFloor ∧
    (s.upd.key0Revoked = true → t.upd.key0Revoked = true) ∧
    t.anchor = { s.anchor with secFloor := t.upd.secFloor, key0Revoked := t.upd.key0Revoked } := by
  unfold execUpdateConfirmed
  refine ⟨_, rfl, ?_⟩
  split
  · exact ⟨le_refl _, id, rfl⟩
  · extract_lets u set oper revoke n g s1 s2
    have hend : (if revoke then s2.logRm Cls.notice 0x0B0C set.version [] 1 else s2).anchor = s1.anchor := by
      rw [State.anchor_ite, State.logRm_anchor, ite_self]
      simp only [s2, State.logRm_anchor, State.setUpdEvent_anchor, State.putUpdate_anchor]
    generalize (if revoke then s2.logRm Cls.notice 0x0B0C set.version [] 1 else s2) = t at hend
    have hfloor : t.upd.secFloor = s1.upd.secFloor := congrArg Anchor.secFloor hend
    have hkey : t.upd.key0Revoked = s1.upd.key0Revoked := congrArg Anchor.key0Revoked hend
    rw [hfloor, hkey]
    refine ⟨?_, fun h => ?_, hend⟩
    · simp only [s1, u]
      split
      · exact le_max_left _ _
      · exact le_refl _
    · simp only [s1, u, h, Bool.true_or]

/-! ## Every command -/

/-- The commands that write completions, records or replies into host memory. -/
def writesHost : Instr → Bool
  | .completionWrite .. | .eventRead .. | .snapshotRead .. | .updateStatus .. | .attest .. => true
  | _ => false

/-- Every command but those that write host memory and the two that change fuses or life cycle keeps the anchor. -/
theorem exec_leaves {c : Instr} (s : State) (hw : writesHost c = false) (hl : c ≠ .lifecycleReset) (hu : c ≠ .updateConfirmed) :
    Leaves s (exec c s) := by
  cases c with
  | nopEcho p => exact .next (doNopEcho_anchor ..)
  | getIdentity p => exact .next (doGetIdentity_anchor ..)
  | snapshotRead p dmaOk => exact nomatch hw
  | resultFetch p => exact .next (doResultFetch_anchor ..)
  | queueBarrier p => exact .next (doQueueBarrier_anchor ..)
  | hostHeartbeat p => exact .next (doHostHeartbeat_anchor ..)
  | loopConfigure p => exact .next (State.runCmd_anchor fun _ _ _ => loopConfigureBody_anchored _ _)
  | loopSetMode p => exact .next (State.runCmd_anchor fun _ _ _ => loopSetModeBody_anchored _ _)
  | loopSetPoint p => exact .next (State.runCmd_anchor fun _ _ _ => loopSetPointBody_anchored _ _)
  | loopStatus p => exact .next (State.runCmd_anchor fun _ _ _ => statusReply_anchored _ _ _ _ _ _ _ _)
  | modelStage p => exact .next (State.runCmd_anchor fun _ _ _ => modelStageBody_anchored _ _ _)
  | modelActivate p => exact .next (State.runCmd_anchor fun _ _ _ => modelActivateBody_anchored _ _ _)
  | modelStatus p => exact execModelStatus_leaves p s
  | couplingAccess p => exact execCouplingAccess_leaves p s
  | forecastRead p => exact .next (State.runCmd_anchor fun _ _ _ => forecastReadBody_anchored _ _)
  | jobDefine p => exact .next (State.runCmd_anchor fun _ _ _ => jobDefineBody_anchored _ _ _)
  | rowEnvelopeSet p => exact .next (State.runCmd_anchor fun _ _ _ => rowEnvelopeBody_anchored _ _ _)
  | capSet p => exact .next (State.runCmd_anchor fun _ _ _ => capSetBody_anchored _ _ _)
  | pacePolicySet p => exact .next (State.runCmd_anchor fun _ _ _ => pacePolicyBody_anchored _ _ _)
  | swingPolicySet p => exact .next (State.runCmd_anchor fun _ _ _ => swingPolicyBody_anchored _ _ _)
  | governorStatus p => exact execGovernorStatus_leaves p s
  | pumpConfigure p => exact .next (State.runCmd_anchor fun _ _ _ => motorConfigureBody_anchored _ _ _ _)
  | fanConfigure p => exact .next (State.runCmd_anchor fun _ _ _ => motorConfigureBody_anchored _ _ _ _)
  | motorCommand p => exact .next (State.runCmd_anchor fun _ _ _ => motorCommandBody_anchored _ _)
  | skipBandsSet p => exact .next (State.runCmd_anchor fun _ _ _ => skipBandsBody_anchored _ _)
  | networkConfigure p => exact .next (State.runCmd_anchor fun _ _ _ => networkConfigureBody_anchored _ _)
  | valveConfigure p => exact .next (State.runCmd_anchor fun _ _ _ => valveConfigureBody_anchored _ _)
  | valveCommand p => exact .next (State.runCmd_anchor fun _ _ _ => valveCommandBody_anchored _ _)
  | valveStatus p => exact execValveStatus_leaves p s
  | inputConfigure p => exact .next (State.runCmd_anchor fun _ _ _ => inputConfigureBody_anchored _ _)
  | leakConfigure p => exact .next (State.runCmd_anchor fun _ _ _ => leakConfigureBody_anchored _ _)
  | harnessRead p => exact .next (State.runCmd_anchor fun _ _ _ => harnessReadBody_anchored _ _ _)
  | busConfigure p => exact .next (State.runCmd_anchor fun _ _ _ => busConfigureBody_anchored _ _)
  | busAutobaud p => exact .next (State.runCmd_anchor fun _ _ _ => busAutobaudBody_anchored _ _)
  | modeRequest p => exact .next (State.runCmd_anchor fun _ _ _ => modeRequestBody_anchored _ _)
  | trapezeDrill p => exact execTrapezeDrill_leaves p s
  | laneStatus p => exact execLaneStatus_leaves p s
  | eventRead p dmaOk => exact nomatch hw
  | captureRequest p => exact .next (doCaptureRequest_anchor ..)
  | captureRead p => exact .next (doCaptureRead_anchor ..)
  | updateStage p norOk => exact .next (State.runCmd_anchor fun _ _ _ => updateStageBody_anchored _ _ _)
  | updateActivate p => exact .next (State.runCmd_anchor fun _ _ _ => updateActivateBody_anchored _ _)
  | updateConfirm p => exact execUpdateConfirm_leaves p s
  | updateStatus p dmaOk => exact nomatch hw
  | attest p dmaOk => exact nomatch hw
  | lifecycleSet p => exact .next (State.runCmd_anchor fun _ _ _ => lifecycleBody_anchored _ _)
  | commandDelivery => exact .next (doCommandDelivery_anchor ..)
  | deliveryCommit ackA ackB => exact .next (doDeliveryCommit_anchor ..)
  | completionWrite sq dmaOk => exact nomatch hw
  | heldResultReady tag => exact .next (doHeldResultReady_anchor ..)
  | cqCoalesceTimeout us => exact .next (doCqCoalesceTimeout_anchor ..)
  | genReset value => exact execGenReset_leaves value s
  | viewHoldWrite hold => exact .next (State.hostWrite_anchor ..)
  | loRegisterRead off => exact execLoRegisterRead_leaves off s
  | hiRegisterRead off => exact execHiRegisterRead_leaves off s
  | rcRegisterRead off => exact execRcRegisterRead_leaves off s
  | sqTailDoorbell q value => exact .next (State.hostWrite_anchor ..)
  | cqHeadDoorbell value => exact .next (State.hostWrite_anchor ..)
  | sqEnableWrite q value => exact .next (State.hostWrite_anchor ..)
  | cqEnableWrite value => exact .next (State.hostWrite_anchor ..)
  | dpDataAccess write wide data => exact execDpDataAccess_leaves write wide data s
  | dpApertureAccess off write wide data => exact execDpApertureAccess_leaves off write wide data s
  | bar2Access off write wide data => exact execBar2Access_leaves off write wide data s
  | laneHoldWrite value => exact .next (State.hostWrite_anchor ..)
  | canBufferLock chan buf => exact execCanBufferLock_leaves chan buf s
  | canBufferRelease chan buf => exact .next rfl
  | registerWrite off value whole => exact execRegisterWrite_leaves off value whole s
  | latchedWritesApply => exact execLatchedWritesApply_leaves s
  | doeDiscovery index => exact execDoeDiscovery_leaves index s
  | doeAbort => exact .next rfl
  | getVersion => exact execGetVersion_leaves s
  | getCapabilities version => exact execGetCapabilities_leaves version s
  | negotiateAlgorithms ed25519 sha512 measSha512 => exact execNegotiateAlgorithms_leaves ed25519 sha512 measSha512 s
  | getDigests => exact execGetDigests_leaves s
  | getCertificate slot offset length => exact execGetCertificate_leaves slot offset length s
  | challenge slot nonce => exact execChallenge_leaves slot nonce s
  | getMeasurements ask sign nonce => exact execGetMeasurements_leaves ask sign nonce s
  | perstN => exact execPerstN_leaves s
  | hotReset => exact .next (State.hostReset_anchor ..)
  | functionLevelReset => exact .next (State.hostReset_anchor ..)
  | d3hotEntry => exact .next rfl
  | d0Return => exact .next rfl
  | powerOnReset tcritSel netSpd => exact .next (State.moduleReset_anchor ..)
  | powerFail => exact execPowerFail_leaves s
  | actuatorSupplyLost => exact execActuatorSupplyLost_leaves s
  | actuatorSupplyReturn => exact execActuatorSupplyReturn_leaves s
  | strongmanReady supply => exact execStrongmanReady_leaves supply s
  | strongmanFault supply => exact execStrongmanFault_leaves supply s
  | strongmanRetry supply => exact execStrongmanRetry_leaves supply s
  | rmBootComplete => exact execRmBootComplete_leaves s
  | tickStart inp => exact execTickStart_leaves inp s
  | frameReady => exact execFrameReady_leaves s
  | laneOutputDelivery l ns d => exact execLaneOutputDelivery_leaves l ns d s
  | loopReleaseDeadline loop => exact execLoopReleaseDeadline_leaves loop s
  | releaseWindowOpen => exact execReleaseWindowOpen_leaves s
  | releaseWindowClose => exact execReleaseWindowClose_leaves s
  | stepComplete l => exact execStepComplete_leaves l s
  | stepAbort => exact execStepAbort_leaves s
  | viewPublish => exact execViewPublish_leaves s
  | viewHoldExpiry => exact execViewHoldExpiry_leaves s
  | gptpSyncReceived port time phaseErr => exact execGptpSyncReceived_leaves port time phaseErr s
  | syncTimeout port => exact execSyncTimeout_leaves port s
  | tileBlockFire l t => exact execTileBlockFire_leaves l t s
  | messageArrival l t => exact execMessageArrival_leaves l t s
  | creditArrival l t route => exact execCreditArrival_leaves l t route s
  | dmaCompletion l t => exact execDmaCompletion_leaves l t s
  | outputCollect l y => exact execOutputCollect_leaves l y s
  | alu l t w => exact .next (State.tileExec_anchor ..)
  | addi l t w => exact .next (State.tileExec_anchor ..)
  | andi l t w => exact .next (State.tileExec_anchor ..)
  | ori l t w => exact .next (State.tileExec_anchor ..)
  | xori l t w => exact .next (State.tileExec_anchor ..)
  | lui l t w => exact .next (State.tileExec_anchor ..)
  | shi l t w => exact .next (State.tileExec_anchor ..)
  | falu l t w => exact .next (State.tileExec_anchor ..)
  | fcmp l t w => exact .next (State.tileExec_anchor ..)
  | fcvt l t w => exact .next (State.tileExec_anchor ..)
  | ld l t w => exact .next (State.tileExec_anchor ..)
  | st l t w => exact .next (State.tileExec_anchor ..)
  | ldv l t w => exact .next (State.tileExec_anchor ..)
  | stv l t w => exact .next (State.tileExec_anchor ..)
  | ldacc l t w => exact .next (State.tileExec_anchor ..)
  | stacc l t w => exact .next (State.tileExec_anchor ..)
  | br l t w => exact .next (State.tileExec_anchor ..)
  | dbnz l t w => exact .next (State.tileExec_anchor ..)
  | jr l t w => exact .next (State.tileExec_anchor ..)
  | endBlock l t w => exact .next (State.tileExec_anchor ..)
  | stepend l t w => exact .next (State.tileExec_anchor ..)
  | mma l t w => exact .next (State.tileExec_anchor ..)
  | acc l t w => exact .next (State.tileExec_anchor ..)
  | vop l t w => exact .next (State.tileExec_anchor ..)
  | vcvt l t w => exact .next (State.tileExec_anchor ..)
  | vmisc l t w => exact .next (State.tileExec_anchor ..)
  | ivop l t w => exact .next (State.tileExec_anchor ..)
  | ivcvt l t w => exact .next (State.tileExec_anchor ..)
  | send l t w => exact .next (State.tileExec_anchor ..)
  | release l t w => exact .next (State.tileExec_anchor ..)
  | chhead l t w => exact .next (State.tileExec_anchor ..)
  | dma l t w => exact .next (State.tileExec_anchor ..)
  | srr l t w => exact execSrr_leaves l t w s
  | flags l t w => exact .next (State.tileExec_anchor ..)
  | flitLost l frame => exact execFlitLost_leaves l frame s
  | laneSilentLost l => exact execLaneSilentLost_leaves l s
  | selfCheckFailure l tile => exact execSelfCheckFailure_leaves l tile s
  | mergeLimitReached => exact execMergeLimitReached_leaves s
  | authorityGrant => exact execAuthorityGrant_leaves s
  | authorityAck l => exact execAuthorityAck_leaves l s
  | authorityAckTimeout => exact execAuthorityAckTimeout_leaves s
  | drillGrant => exact execDrillGrant_leaves s
  | refereeCrossCheckFail => exact execRefereeCrossCheckFail_leaves s
  | laneWipeDone l => exact execLaneWipeDone_leaves l s
  | laneSelfTestDone l failed linkFault => exact execLaneSelfTestDone_leaves l failed linkFault s
  | resyncCopyDone l => exact execResyncCopyDone_leaves l s
  | resyncJoin l => exact execResyncJoin_leaves l s
  | resyncTimeout l => exact execResyncTimeout_leaves l s
  | laneLinkFailure => exact execLaneLinkFailure_leaves s
  | lockstepDisagree => exact .next (State.enterNet_anchor ..)
  | rmWatchdogExpiry => exact .next (State.enterNet_anchor ..)
  | rmRestartComplete => exact execRmRestartComplete_leaves s
  | laneQualified l => exact execLaneQualified_leaves l s
  | laneReady l => exact execLaneReady_leaves l s
  | startWaitExpiry => exact execStartWaitExpiry_leaves s
  | autoPredictiveEntry => exact execAutoPredictiveEntry_leaves s
  | hostWatchdogExpiry => exact execHostWatchdogExpiry_leaves s
  | deferredWatchdogExpiry => exact execDeferredWatchdogExpiry_leaves s
  | modelStageDone slot => exact execModelStageDone_leaves slot s
  | activationPrepareDone => exact execActivationPrepareDone_leaves s
  | activationBoundary => exact execActivationBoundary_leaves s
  | activationLoadDone => exact execActivationLoadDone_leaves s
  | activationStartDone => exact execActivationStartDone_leaves s
  | activationFirstGrant => exact execActivationFirstGrant_leaves s
  | hourWindowStart => exact execHourWindowStart_leaves s
  | sweepDigest => exact execSweepDigest_leaves s
  | sensorSuspect chip => exact execSensorSuspect_leaves chip s
  | sensorClear chip => exact execSensorClear_leaves chip s
  | capacitySample => exact execCapacitySample_leaves s
  | syncActiveEntry job => exact execSyncActiveEntry_leaves job s
  | syncActiveEnd job => exact execSyncActiveEnd_leaves job s
  | shedRepeat scope => exact .next (State.shedRow_anchor ..)
  | shedClear scope => exact .next (State.shedRow_anchor ..)
  | overCap chip => exact execOverCap_leaves chip s
  | telemetry port frame => exact execTelemetry_leaves port frame s
  | resync port frame => exact execResync_leaves port frame s
  | trayMissing tray => exact execTrayMissing_leaves tray s
  | trayLost tray => exact execTrayLost_leaves tray s
  | trayRecordChange tray => exact .next (State.changeTray_anchor ..)
  | portDown port => exact execPortDown_leaves port s
  | portUp port => exact execPortUp_leaves port s
  | neighbourSolicitation port => exact .next rfl
  | flowLoss rack us => exact execFlowLoss_leaves rack us s
  | flowLossRelease rack us => exact execFlowLossRelease_leaves rack us s
  | coolFaultRelease rack => exact execCoolFaultRelease_leaves rack s
  | flowSupervisorEval => exact execFlowSupervisorEval_leaves s
  | lagStageUp group => exact execLagStageUp_leaves group s
  | lagStageDown group => exact execLagStageDown_leaves group s
  | leadRotation group steadyS => exact execLeadRotation_leaves group steadyS s
  | hxApproach => exact execHxApproach_leaves s
  | hxSupplyHigh => exact execHxSupplyHigh_leaves s
  | hxClear supply => exact execHxClear_leaves supply s
  | detectorArmed d inp => exact execDetectorArmed_leaves d inp s
  | flowStop d inp => exact execFlowStop_leaves d inp s
  | flowStopClear d inp => exact execFlowStopClear_leaves d inp s
  | isolationExitBypass rack => exact execIsolationExitBypass_leaves rack s
  | currentLoopPeriod inp => exact execCurrentLoopPeriod_leaves inp s
  | startAttempt m => exact .next (State.beginAttempt_anchor ..)
  | alignEnd m => exact execAlignEnd_leaves m s
  | rampEnd m => exact execRampEnd_leaves m s
  | verifyEnd m emfOk => exact execVerifyEnd_leaves m emfOk s
  | rotorSpinTimeout m => exact execRotorSpinTimeout_leaves m s
  | startRetry m => exact .next (State.endWait_anchor ..)
  | attemptCountClear m => exact execAttemptCountClear_leaves m s
  | inverterFault m => exact execInverterFault_leaves m s
  | overcurrentTrip m => exact execOvercurrentTrip_leaves m s
  | motorTripRestart m => exact .next (State.endWait_anchor ..)
  | motorOverspeed m => exact execMotorOverspeed_leaves m s
  | runningStall m => exact execRunningStall_leaves m s
  | groupOverrideEnd m => exact execGroupOverrideEnd_leaves m s
  | busUndervoltage m => exact .next (State.busVoltage_anchor ..)
  | busOvervoltage m => exact .next (State.busVoltage_anchor ..)
  | busVoltageRestored m => exact .next (State.endWait_anchor ..)
  | tachFault m => exact execTachFault_leaves m s
  | tachClear m => exact execTachClear_leaves m s
  | tachMismatch m => exact execTachMismatch_leaves m s
  | valveEntryApply => exact execValveEntryApply_leaves s
  | pullInEnd v => exact execPullInEnd_leaves v s
  | decayEnd v => exact execDecayEnd_leaves v s
  | deferredStart v => exact execDeferredStart_leaves v s
  | valveDeferFault v => exact execValveDeferFault_leaves v s
  | boostWaitExpiry => exact execBoostWaitExpiry_leaves s
  | valveDegradedPullin v => exact execValveDegradedPullin_leaves v s
  | valveOpenCoil v => exact execValveOpenCoil_leaves v s
  | valveShortedCoil v mA => exact execValveShortedCoil_leaves v mA s
  | valveStuckOn v => exact execValveStuckOn_leaves v s
  | highSideSwitchFault v => exact execHighSideSwitchFault_leaves v s
  | valveHoldLow v => exact execValveHoldLow_leaves v s
  | decayTooSlow v => exact execDecayTooSlow_leaves v s
  | pairImbalance v => exact execPairImbalance_leaves v s
  | inputFault chan which => exact execInputFault_leaves chan which s
  | inputClear chan which => exact execInputClear_leaves chan which s
  | settlingEnd chan => exact .next rfl
  | inputSuspect chan on lo hi ticks => exact execInputSuspect_leaves chan on lo hi ticks s
  | sysShdn chan us => exact execSysShdn_leaves chan us s
  | tcritStrapChanged tcritSel netSpd => exact execTcritStrapChanged_leaves tcritSel netSpd s
  | leakWet chan mohm => exact execLeakWet_leaves chan mohm s
  | leakBreak chan => exact execLeakBreak_leaves chan s
  | leakDry chan => exact execLeakDry_leaves chan s
  | leakFault chan => exact .next (State.setLeak_anchor ..)
  | pulseFloating chan => exact execPulseFloating_leaves chan s
  | pulseZero chan => exact execPulseZero_leaves chan s
  | harnessPresenceGain rack => exact execHarnessPresenceGain_leaves rack s
  | harnessRemoved rack => exact execHarnessRemoved_leaves rack s
  | harnessReadDone rack mem => exact execHarnessReadDone_leaves rack mem s
  | canFrameReceived chan f => exact execCanFrameReceived_leaves chan f s
  | canFdIgnored chan => exact execCanFdIgnored_leaves chan s
  | canOutSend entry => exact execCanOutSend_leaves entry s
  | canEntryStale entry => exact execCanEntryStale_leaves entry s
  | busErrorPassive chan tec recc => exact execBusErrorPassive_leaves chan tec recc s
  | busOff chan => exact execBusOff_leaves chan s
  | busRecovered chan => exact execBusRecovered_leaves chan s
  | busHoldOffEnd chan => exact execBusHoldOffEnd_leaves chan s
  | canLockExpiry chan buf => exact execCanLockExpiry_leaves chan buf s
  | autobaudCandidateEnd chan error => exact execAutobaudCandidateEnd_leaves chan error s
  | eventStage l e => exact .next (doEventStage_anchor ..)
  | eventSeqAssign => exact .next (doEventSeqAssign_anchor ..)
  | gap l => exact .next (doGap_anchor ..)
  | eventRingWrite => exact .next (doEventRingWrite_anchor ..)
  | emmcWriteFault => exact .next (doEmmcWriteFault_anchor ..)
  | countRecord counter => exact .next (doCountRecord_anchor ..)
  | captureWriteStart => exact .next (doCaptureWriteStart_anchor ..)
  | captureDone => exact .next (doCaptureDone_anchor ..)
  | handoverStep => exact execHandoverStep_leaves s
  | rmSwap => exact execRmSwap_leaves s
  | partConfirmed part => exact execPartConfirmed_leaves part s
  | partFailed part => exact execPartFailed_leaves part s
  | trialExpired => exact execTrialExpired_leaves s
  | updateConfirmed => exact absurd rfl hu
  | updateRollback => exact execUpdateRollback_leaves s
  | lifecycleReset => exact absurd rfl hl
  | laneLinkReturn => exact execLaneLinkReturn_leaves s
  | leakBreakClear chan => exact .next (State.setLeak_anchor ..)
  | rowWakeComplete l y => exact execRowWakeComplete_leaves l y s
  | canFrameSent entry => exact execCanFrameSent_leaves entry s
  | peakCurrentReached v us boosted => exact execPeakCurrentReached_leaves v us boosted s
  | faultyPacket q bs dmaOk => exact .next (doFaultyPacket_anchor ..)

theorem exec_near {c : Instr} (s : State) (hw : writesHost c = true) : ∃ t, exec c s = .next t ∧ Near s t := by
  cases c with
  | snapshotRead p ok => exact ⟨_, rfl, doSnapshotRead_near p ok s⟩
  | eventRead p ok => exact ⟨_, rfl, doEventRead_near p ok s⟩
  | updateStatus p ok => exact execUpdateStatus_near p ok s
  | attest p ok => exact execAttest_near p ok s
  | completionWrite q ok => exact ⟨_, rfl, doCompletionWrite_near q ok s⟩
  | _ => exact nomatch hw

end Sys2Proof.Machine
end

section
/-! SUPPORT. The queue, host memory, the fuses and the life cycle over every command and step (O22, O24, O25, O26). -/

namespace Sys2Proof.Machine

/-! ## What every command does to the anchor -/

theorem Near.pending {s t : State} (h : Near s t) : t.pending = s.pending := by
  obtain ⟨m, hm, -⟩ := h
  exact congrArg Anchor.pending hm

theorem Near.hostMem_wf {s t : State} (h : Near s t) (hs : Mem.wf s.hostMem) : Mem.wf t.hostMem := by
  obtain ⟨m, hm, hwf⟩ := h
  have ht : t.hostMem = m := congrArg Anchor.hostMem hm
  exact ht ▸ hwf hs

/-- A command that does not write host memory leaves it and the queue as they were. -/
theorem exec_hostMem {c : Instr} (s : State) (hw : writesHost c = false) :
    ∃ t, exec c s = .next t ∧ t.pending = s.pending ∧ t.hostMem = s.hostMem := by
  by_cases hl : c = .lifecycleReset
  · subst hl
    obtain ⟨t, ht, ha⟩ := execLifecycleReset_anchor s
    exact ⟨t, ht, congrArg Anchor.pending ha, congrArg Anchor.hostMem ha⟩
  · by_cases hu : c = .updateConfirmed
    · subst hu
      obtain ⟨t, ht, -, -, ha⟩ := execUpdateConfirmed_anchor s
      exact ⟨t, ht, congrArg Anchor.pending ha, congrArg Anchor.hostMem ha⟩
    · obtain ⟨t, ht, ha⟩ := exec_leaves s hw hl hu
      exact ⟨t, ht, congrArg Anchor.pending ha, congrArg Anchor.hostMem ha⟩

/-- Every command answers a next state, with the queue it was given and with canonical host memory where it was canonical. -/
theorem exec_next (c : Instr) (s : State) :
    ∃ t, exec c s = .next t ∧ t.pending = s.pending ∧ (Mem.wf s.hostMem → Mem.wf t.hostMem) := by
  cases hw : writesHost c with
  | true =>
    obtain ⟨t, ht, hn⟩ := exec_near s hw
    exact ⟨t, ht, hn.pending, hn.hostMem_wf⟩
  | false =>
    obtain ⟨t, ht, hp, hm⟩ := exec_hostMem s hw
    exact ⟨t, ht, hp, fun h => by rw [hm]; exact h⟩

/-- The next state of a command is its only outcome. -/
theorem next_unique {o : Host.Outcome State Fault Refusal} {t u : State} (ht : o = .next t) (hu : o = .next u) : t = u := by
  rw [ht] at hu
  exact Host.Outcome.next.inj hu

/-- What an anchor that differs at most in SEC_FLOOR, key 0, the life cycle and host memory says of the fuses. -/
theorem fuses_of_anchor {s t : State} {n : Nat} {k : Bool} {x : LifeCycle} {m : Mem}
    (h : t.anchor = { s.anchor with secFloor := n, key0Revoked := k, lifeCycle := x, hostMem := m }) :
    t.upd.secFloor = n ∧ t.upd.key0Revoked = k ∧ t.gen.serial = s.gen.serial ∧ (∀ l, (t.lane l).fused = (s.lane l).fused) ∧
      t.mode.lifeCycle = x := by
  refine ⟨congrArg Anchor.secFloor h, congrArg Anchor.key0Revoked h, congrArg Anchor.serial h, fun l => ?_, congrArg Anchor.lifeCycle h⟩
  cases l
  · exact congrArg Anchor.fusedA h
  · exact congrArg Anchor.fusedB h

/-- What no command does to the fuses and the life cycle (20 R487, Life cycle). -/
def FusesKept (c : Instr) (s t : State) : Prop :=
  s.upd.secFloor ≤ t.upd.secFloor ∧ (s.upd.key0Revoked → t.upd.key0Revoked) ∧ t.gen.serial = s.gen.serial ∧
    (∀ l, (t.lane l).fused = (s.lane l).fused) ∧ (c ≠ .lifecycleReset → t.mode.lifeCycle = s.mode.lifeCycle) ∧
    (c ≠ .updateConfirmed → t.upd.secFloor = s.upd.secFloor ∧ t.upd.key0Revoked = s.upd.key0Revoked)

/-- A command that changes of the anchor the life cycle and host memory alone keeps the fuses. -/
theorem FusesKept.of_anchor {c : Instr} {s t : State} {x : LifeCycle} {m : Mem} (h : t.anchor = { s.anchor with lifeCycle := x, hostMem := m })
    (hx : c ≠ .lifecycleReset → x = s.mode.lifeCycle) : FusesKept c s t := by
  obtain ⟨hfloor, hkey, hserial, hfused, hlife⟩ := fuses_of_anchor (s := s) (n := s.upd.secFloor) (k := s.upd.key0Revoked) h
  exact ⟨hfloor.ge, hkey.trans, hserial, hfused, fun hc => hlife.trans (hx hc), fun _ => ⟨hfloor, hkey⟩⟩

theorem exec_fusesKept (c : Instr) (s : State) : ∃ t, exec c s = .next t ∧ FusesKept c s t := by
  cases hw : writesHost c with
  | true =>
    obtain ⟨t, ht, m, hm, -⟩ := exec_near s hw
    exact ⟨t, ht, .of_anchor (x := s.mode.lifeCycle) hm fun _ => rfl⟩
  | false =>
    by_cases hl : c = .lifecycleReset
    · subst hl
      obtain ⟨t, ht, ha⟩ := execLifecycleReset_anchor s
      exact ⟨t, ht, .of_anchor (m := s.hostMem) ha fun hn => absurd rfl hn⟩
    · by_cases hu : c = .updateConfirmed
      · subst hu
        obtain ⟨t, ht, hfloor, hkey, ha⟩ := execUpdateConfirmed_anchor s
        obtain ⟨-, -, hserial, hfused, hlife⟩ := fuses_of_anchor (s := s) (x := s.mode.lifeCycle) (m := s.hostMem) ha
        exact ⟨t, ht, hfloor, hkey, hserial, hfused, fun _ => hlife, fun hn => absurd rfl hn⟩
      · obtain ⟨t, ht, ha⟩ := exec_leaves s hw hl hu
        exact ⟨t, ht, .of_anchor (x := s.mode.lifeCycle) (m := s.hostMem) ha fun _ => rfl⟩

/-! ## Steps -/

/-- A step is no change, or a command on the state with the rest of the queue. -/
theorem step_cases (s : State) :
    (s.pending = [] ∧ step s = .next s) ∨ ∃ c rest, s.pending = c :: rest ∧ step s = exec c { s with pending := rest } := by
  unfold step
  cases h : s.pending with
  | nil => exact .inl ⟨rfl, rfl⟩
  | cons c rest => exact .inr ⟨c, rest, rfl, rfl⟩

theorem step_of_queue {s : State} {c : Instr} {rest : List Instr} (h : s.pending = c :: rest) : step s = exec c { s with pending := rest } := by
  unfold step; rw [h]

theorem step_of_empty {s : State} (h : s.pending = []) : step s = .next s := by
  unfold step; rw [h]

/-! ## O22, O24, O25, O26 -/

/-- Settles O22: a step of a queue is `exec` of its front on the rest. -/
theorem stepRunsFrontCommand : Obligations.StepRunsFrontCommand := by
  unfold Obligations.StepRunsFrontCommand
  exact ⟨fun c rest s => rfl, fun c d rest s t _ hp => step_of_queue hp, fun s => step_of_empty⟩

/-- Settles O24, from `exec_next`. -/
theorem queueUntouched : Obligations.QueueUntouched := by
  have hexec (c : Instr) (s : State) : ∃ t, exec c s = .next t ∧ t.pending = s.pending := by
    obtain ⟨t, ht, hp, -⟩ := exec_next c s
    exact ⟨t, ht, hp⟩
  have hqueue (c : Instr) (rest : List Instr) (s : State) (h : s.pending = c :: rest) : ∃ t, step s = .next t ∧ t.pending = rest :=
    step_of_queue h ▸ hexec c { s with pending := rest }
  unfold Obligations.QueueUntouched
  refine ⟨hexec, hqueue, fun s => ?_⟩
  rcases step_cases s with ⟨hp, hs⟩ | ⟨c, rest, hp, -⟩
  · exact ⟨s, hs, by rw [hp]; rfl⟩
  · rw [hp]
    exact hqueue c rest s hp

/-- Settles O25: the five commands that write host memory go through `State.writeHost`, which keeps it canonical, and every other
command keeps the anchor's host memory. -/
theorem hostMemoryCanonical : Obligations.HostMemoryCanonical := by
  have hexec (c : Instr) (s t : State) (hs : Mem.wf s.hostMem) (ht : exec c s = .next t) : Mem.wf t.hostMem := by
    obtain ⟨u, hu, -, hwf⟩ := exec_next c s
    cases next_unique hu ht
    exact hwf hs
  unfold Obligations.HostMemoryCanonical
  refine ⟨hexec, fun s t hs ht => ?_, fun c s t hcw her hsr hus hat ht => ?_⟩
  · rcases step_cases s with ⟨-, hn⟩ | ⟨c, rest, -, hn⟩
    · cases next_unique hn ht
      exact hs
    · exact hexec c { s with pending := rest } t hs (hn ▸ ht)
  · have hw : writesHost c = false := by
      cases c with
      | completionWrite q ok => exact absurd rfl (hcw q ok)
      | eventRead p ok => exact absurd rfl (her p ok)
      | snapshotRead p ok => exact absurd rfl (hsr p ok)
      | updateStatus p ok => exact absurd rfl (hus p ok)
      | attest p ok => exact absurd rfl (hat p ok)
      | _ => rfl
    obtain ⟨u, hu, -, hmem⟩ := exec_hostMem s hw
    cases next_unique hu ht
    exact fun a => by rw [hmem]

/-- Settles O26: of the anchor, LIFECYCLE_RESET changes the life cycle and UPDATE_CONFIRMED SEC_FLOOR and key 0, upwards. -/
theorem fusesAndLifeCycle : Obligations.FusesAndLifeCycle := by
  have hexec (c : Instr) (s t : State) (ht : exec c s = .next t) : FusesKept c s t := by
    obtain ⟨u, hu, hk⟩ := exec_fusesKept c s
    cases next_unique hu ht
    exact hk
  unfold Obligations.FusesAndLifeCycle
  refine ⟨hexec, fun s x hx => ?_, fun s t ht => ?_⟩
  · obtain ⟨t, ht, ha⟩ := execLifecycleReset_anchor s
    obtain ⟨u, hu, hnor⟩ := execLifecycleReset_nor hx
    cases next_unique ht hu
    obtain ⟨hfloor, -, -, -, hlife⟩ := fuses_of_anchor (s := s) (n := s.upd.secFloor) (k := s.upd.key0Revoked) (m := s.hostMem) ha
    exact ⟨t, ht, by rw [hlife, hx]; rfl, hfloor, by rw [hnor], by rw [hnor]⟩
  · rcases step_cases s with ⟨-, hn⟩ | ⟨c, rest, -, hn⟩
    · cases next_unique hn ht
      exact ⟨le_refl _, id⟩
    · obtain ⟨hfloor, hkey, -⟩ := hexec c { s with pending := rest } t (hn ▸ ht)
      exact ⟨hfloor, hkey⟩

end Sys2Proof.Machine
end

section
/-! SUPPORT. What reset leaves (02 Table 2.7, 15 Table 15.6, 16 Table 16.5, 17 Table 17.5). -/

namespace Sys2Proof.Machine

/-- Every vector's control dword resets to masked. -/
theorem HifSt.msixDword_reset (v : Nat) : (({} : HifSt).msixDword (4 * v + 3)).getLsbD 0 = true := by
  have h : (4 * v + 3) % 4 = 3 := by omega
  simp [HifSt.msixDword, h]

/-- Settles O23: the named fields of `State.reset` by their default values, the tables by what an empty one reads as. -/
theorem resetLeaves : Obligations.ResetLeaves := by
  unfold Obligations.ResetLeaves
  refine ⟨⟨rfl, rfl, fun l => ?_⟩, ⟨rfl, rfl, rfl, rfl, rfl⟩, ⟨rfl, rfl, rfl, rfl, rfl, rfl⟩, ⟨rfl, rfl, fun q => rfl, fun v _ => ?_⟩,
    ⟨fun m => rfl, fun v => rfl⟩, ⟨rfl, rfl, rfl⟩, rfl, fun l => ?_, rfl⟩
  · cases l <;> exact ⟨rfl, rfl⟩
  · exact HifSt.msixDword_reset v
  · cases l <;> rfl

end Sys2Proof.Machine
end

section
/-! SUPPORT. The tray link: frames, tray states, ports and the hard-wired lines (09). -/

namespace Sys2Proof.Machine

/-! ### Trays and ports as tables -/

@[simp] theorem State.onTray_trayDyn_same (s : State) (n : Nat) (f : Tray → Tray) : (s.onTray n f).trayDyn n = f (s.trayDyn n) :=
  Tab.get_modify_same _ _ _ _

@[simp] theorem State.onTray_trayDyn_other (s : State) {n i : Nat} (h : i ≠ n) (f : Tray → Tray) :
    (s.onTray n f).trayDyn i = s.trayDyn i := Tab.get_modify_other _ _ _ h

@[simp] theorem State.onPort_trayDyn (s : State) (p i : Nat) (f : Port → Port) : (s.onPort p f).trayDyn i = s.trayDyn i := rfl

@[simp] theorem State.logRm_trayDyn (s : State) (c ty i : Nat) (x : U32) (d : List U32) (o : Nat) :
    (s.logRm c ty x d o).trayDyn i = s.trayDyn i := rfl

@[simp] theorem State.onTray_trayRec (s : State) (n i : Nat) (f : Tray → Tray) : (s.onTray n f).trayRec i = s.trayRec i := rfl
@[simp] theorem State.onTray_tick (s : State) (n : Nat) (f : Tray → Tray) : (s.onTray n f).tick = s.tick := rfl
@[simp] theorem State.onTray_evt (s : State) (n : Nat) (f : Tray → Tray) : (s.onTray n f).evt = s.evt := rfl
@[simp] theorem State.onTray_ports (s : State) (n : Nat) (f : Tray → Tray) : (s.onTray n f).tray.ports = s.tray.ports := rfl
@[simp] theorem State.onTray_sent (s : State) (n : Nat) (f : Tray → Tray) : (s.onTray n f).tray.sent = s.tray.sent := rfl
@[simp] theorem State.onPort_evt (s : State) (p : Nat) (f : Port → Port) : (s.onPort p f).evt = s.evt := rfl
@[simp] theorem State.onPort_sent (s : State) (p : Nat) (f : Port → Port) : (s.onPort p f).tray.sent = s.tray.sent := rfl

@[simp] theorem State.onPort_ports_same (s : State) (p : Nat) (f : Port → Port) :
    Tab.get {} (s.onPort p f).tray.ports p = f (Tab.get {} s.tray.ports p) := Tab.get_modify_same _ _ _ _

theorem State.onPort_ports_other (s : State) {p i : Nat} (h : i ≠ p) (f : Port → Port) :
    Tab.get {} (s.onPort p f).tray.ports i = Tab.get {} s.tray.ports i := Tab.get_modify_other _ _ _ h

/-- Nothing but the tray link differs. -/
def State.OnlyTray (s t : State) : Prop := t = { s with tray := t.tray }

theorem State.OnlyTray.trans {s t u : State} (h : s.OnlyTray t) (h' : t.OnlyTray u) : s.OnlyTray u :=
  Eq.trans h' (congrArg (fun x : State => { x with tray := u.tray }) h)

theorem State.OnlyTray.evt_eq {s t : State} (h : s.OnlyTray t) : t.evt = s.evt := by rw [State.OnlyTray] at h; rw [h]

theorem State.onlyTray_onTray (s : State) (n : Nat) (f : Tray → Tray) : s.OnlyTray (s.onTray n f) := rfl
theorem State.onlyTray_onPort (s : State) (p : Nat) (f : Port → Port) : s.OnlyTray (s.onPort p f) := rfl

/-! ### A frame that no row of Table 9.6 discards -/

/-- The plane a frame of this port was seen on, noted (09, Upward frames). -/
def Tray.seenOn (port now : Nat) (x : Tray) : Tray :=
  if port < 2 then { x with planeA := some now } else { x with planeB := some now }

theorem Tray.seenOn_eq (port now : Nat) :
    (fun x : Tray => if port < 2 then { x with planeA := some now } else { x with planeB := some now }) = Tray.seenOn port now := rfl

@[simp] theorem Tray.seenOn_state (port now : Nat) (x : Tray) : (x.seenOn port now).state = x.state := by unfold Tray.seenOn; split <;> rfl
@[simp] theorem Tray.seenOn_incarnation (port now : Nat) (x : Tray) : (x.seenOn port now).incarnation = x.incarnation := by
  unfold Tray.seenOn; split <;> rfl
@[simp] theorem Tray.seenOn_seqs (port now : Nat) (x : Tray) : (x.seenOn port now).seqs = x.seqs := by unfold Tray.seenOn; split <;> rfl

/-- The frame's flags and sequence number, noted. -/
def Tray.noted (flags : Nat) (seq : U32) (x : Tray) : Tray :=
  { x with flags := flags, seqs := seq :: x.seqs.filter fun y => 0 < seqDiff seq y }

/-- One more frame received on a port. -/
def Port.received (x : Port) : Port := { x with rxFrames := satTo 32 (x.rxFrames + 1) }

theorem not_contains_of_newer {seq : U32} {l : List U32} (h : ∀ x ∈ l, 0 < seqDiff seq x) : l.contains seq = false := by
  refine Bool.eq_false_iff.mpr fun hc => ?_
  have := h seq (List.contains_iff_mem.mp hc)
  simp [seqDiff] at this

theorem not_older_of_newer {seq : U32} {l : List U32} (h : ∀ x ∈ l, 0 < seqDiff seq x) : l.any (fun x => seqDiff seq x ≤ 0) = false := by
  simpa using fun x hx => by have := h x hx; omega

/-- A TELEMETRY frame of a LIVE tray, newer than what it has accepted: counted, noted and latched. -/
theorem State.receiveFrame_live {s : State} {p : Nat} {f : UpFrame} {n : Nat} {seq inc : U32} (hf : f.formOk) (hr : s.frameFault p f = none)
    (hty : u8At f.payload 4 = 1) (hn : n = u16At f.payload 6) (hinc : inc = BitVec.ofNat 32 (u32At f.payload 8))
    (hseq : seq = BitVec.ofNat 32 (u32At f.payload 0x0C)) (hlive : (s.trayDyn n).state = .live)
    (hsame : (s.trayDyn n).incarnation = some inc) (hnew : ∀ x ∈ (s.trayDyn n).seqs, 0 < seqDiff seq x) :
    s.receiveFrame p f =
      (((s.onTray n (Tray.seenOn p s.now)).onPort p Port.received).onTray n (Tray.noted (u8At f.payload 5) seq)).onTray n fun x =>
        { x with newLatch := some (seq, (List.range (u8At f.payload 0x20)).map fun i => chipRecAt f.payload (40 + 16 * i)) } := by
  unfold State.receiveFrame
  rw [hf, hr]
  simp only [← hn, ← hinc, ← hseq, Tray.seenOn_eq]
  simp only [State.onTray_trayDyn_same, Tray.seenOn_incarnation, Tray.seenOn_seqs, Tray.seenOn_state, not_contains_of_newer hnew,
    not_older_of_newer hnew, hty, hsame, hlive]
  rfl

/-- A RESYNC frame of a tray: answered at once, counted and noted. -/
theorem State.receiveFrame_started {s : State} {p : Nat} {f : UpFrame} {n : Nat} {seq inc : U32} (hf : f.formOk)
    (hr : s.frameFault p f = none) (hty : u8At f.payload 4 = 2) (hn : n = u16At f.payload 6)
    (hinc : inc = BitVec.ofNat 32 (u32At f.payload 8)) (hseq : seq = BitVec.ofNat 32 (u32At f.payload 0x0C))
    (hnew : (s.trayDyn n).incarnation = some inc → ∀ x ∈ (s.trayDyn n).seqs, 0 < seqDiff seq x) :
    s.receiveFrame p f =
      (((s.onTray n (Tray.seenOn p s.now)).startResync n inc).onPort p Port.received).onTray n (Tray.noted (u8At f.payload 5) seq) := by
  have hd : ((s.trayDyn n).incarnation = some inc && (s.trayDyn n).seqs.contains seq) = false := by
    by_cases h : (s.trayDyn n).incarnation = some inc
    · simp only [not_contains_of_newer (hnew h), Bool.and_false]
    · simp [h]
  have ho : ((s.trayDyn n).incarnation = some inc && (s.trayDyn n).seqs.any (fun x => seqDiff seq x ≤ 0)) = false := by
    by_cases h : (s.trayDyn n).incarnation = some inc
    · simp only [not_older_of_newer (hnew h), Bool.and_false]
    · simp [h]
  unfold State.receiveFrame
  rw [hf, hr]
  simp only [← hn, ← hinc, ← hseq, Tray.seenOn_eq]
  simp only [State.onTray_trayDyn_same, Tray.seenOn_incarnation, Tray.seenOn_seqs, hd, ho, hty]
  rfl

/-! ### The resync and its answer -/

/-- What a resync makes of the tray's entry. -/
def Tray.resynced (inc : U32) (x : Tray) : Tray :=
  { x with
    state := .resync, seqs := if x.incarnation = some inc then x.seqs else [], incarnation := some inc
    newLatch := none, replyEpoch := none }

theorem State.foldl_onPort_frame (f : Port → Port) (l : List Nat) (s : State) :
    l.foldl (fun (s : State) p => s.onPort p f) s =
      { s with tray := { s.tray with ports := (l.foldl (fun (s : State) p => s.onPort p f) s).tray.ports } } := by
  induction l generalizing s with
  | nil => rfl
  | cons p l ih => simp only [List.foldl_cons]; rw [ih]; rfl

/-- What a frame sent to a tray leaves: its own entry but for the epoch of the reply, and everything outside the tray link. -/
theorem State.onlyTray_sendTray (s : State) (n : Nat) (net rep reply : Bool) :
    s.OnlyTray (s.sendTray n net rep reply) := by
  unfold State.OnlyTray State.sendTray
  extract_lets
  rw [State.foldl_onPort_frame]
  rfl

theorem State.sendTray_trays (s : State) (n : Nat) (net rep reply : Bool) :
    ∃ e : Tray → Option Nat, (s.sendTray n net rep reply).tray.trays = (s.onTray n fun x => { x with replyEpoch := e x }).tray.trays := by
  unfold State.sendTray
  extract_lets d r halt epoch
  rw [State.foldl_onPort_frame]
  exact ⟨fun x => if reply then x.replyEpoch <|> some epoch else x.replyEpoch, rfl⟩

/-- A reply carries REPLY, is a CAP frame and names the tray's incarnation. -/
theorem State.sendTray_reply (s : State) (n : Nat) (net rep : Bool) :
    ∃ r, Tab.get none (s.sendTray n net rep true).tray.sent n = some r ∧ r.ty = 0x11 ∧ bit r.flags 1 = true ∧
      r.incarnation = (s.trayDyn n).incarnation.getD none32 := by
  unfold State.sendTray
  extract_lets d r halt epoch seq fr s1 s2
  rw [State.foldl_onPort_frame]
  refine ⟨fr, (by exact Tab.get_set_same none (some fr) s.tray.sent n), ?_, ?_, rfl⟩
  · simp [fr, halt]
  · cases net <;> cases rep <;> simp [fr, packFlags, bit] <;> cases s.tick.holdover <;> decide

theorem State.sendTray_trayDyn_other (s : State) {n i : Nat} (h : i ≠ n) (net rep reply : Bool) :
    (s.sendTray n net rep reply).trayDyn i = s.trayDyn i := by
  obtain ⟨e, he⟩ := s.sendTray_trays n net rep reply
  unfold State.trayDyn
  rw [he]
  exact State.onTray_trayDyn_other s h _

theorem State.sendTray_trayDyn_same (s : State) (n : Nat) (net rep reply : Bool) :
    ∃ e, (s.sendTray n net rep reply).trayDyn n = { s.trayDyn n with replyEpoch := e } := by
  obtain ⟨e, he⟩ := s.sendTray_trays n net rep reply
  refine ⟨e (s.trayDyn n), ?_⟩
  unfold State.trayDyn
  rw [he]
  exact State.onTray_trayDyn_same s n _

/-- A tray not yet in RESYNC: its entry restarts, the record is logged and the answer sent. -/
theorem State.startResync_of_ne {s : State} {n : Nat} {inc : U32} (h : (s.trayDyn n).state ≠ .resync) :
    s.startResync n inc =
      ((s.onTray n (Tray.resynced inc)).logRm 1 0x0D03 (w32 n) [w32 (s.trayRec n).rack, inc]).sendTray n s.inNet false true := by
  unfold State.startResync
  simp only [if_neg h, State.logTray, State.onTray_trayDyn_same]
  rfl

/-- Settles O1: the accepted frame's equation, then the reads of the tray and port tables. -/
theorem trayFrames : Obligations.TrayFrames := by
  unfold Obligations.TrayFrames
  refine ⟨fun port f s n seq inc hf hr hty hn hinc hseq hlive hsame hnew => ?_,
    fun port f s n seq inc hf hr hty hn hinc hseq hlive hnew => ?_⟩
  · have heq := State.receiveFrame_live hf hr hty hn hinc hseq hlive hsame hnew
    refine ⟨_, congrArg Host.Outcome.next heq, ?_, fun i hi => ?_, ?_, ?_, ?_, ?_⟩
    · exact (((s.onlyTray_onTray _ _).trans (State.onlyTray_onPort _ _ _)).trans (State.onlyTray_onTray _ _ _)).trans
        (State.onlyTray_onTray _ _ _)
    · simp [hi]
    · simp [Tray.noted, hlive]
    · simp [Tray.noted]
    · simp [Tray.noted]
    · simp [Port.received]
  · have hne : ((s.onTray n (Tray.seenOn port.val s.now)).trayDyn n).state ≠ .resync := by simp [hlive]
    have heq := State.receiveFrame_started hf hr hty hn hinc hseq hnew
    rw [State.startResync_of_ne hne] at heq
    generalize hu : ((s.onTray n (Tray.seenOn port.val s.now)).onTray n (Tray.resynced inc)).logRm 1 0x0D03 (w32 n)
      [w32 ((s.onTray n (Tray.seenOn port.val s.now)).trayRec n).rack, inc] = u at heq
    have hun : u.trayDyn n = Tray.resynced inc (Tray.seenOn port.val s.now (s.trayDyn n)) := by simp [← hu]
    have hui (i : Nat) (h : i ≠ n) : u.trayDyn i = s.trayDyn i := by simp [← hu, h]
    have huf : u = { s with tray := u.tray, evt := u.evt } := by rw [← hu]; rfl
    have hue : u.evt = (s.logRm 1 0x0D03 (w32 n) [w32 (s.trayRec n).rack, inc]).evt := by rw [← hu]; rfl
    have hv := u.onlyTray_sendTray n (s.onTray n (Tray.seenOn port.val s.now)).inNet false true
    obtain ⟨e, he⟩ := u.sendTray_trayDyn_same n (s.onTray n (Tray.seenOn port.val s.now)).inNet false true
    obtain ⟨r, hs, hrty, hrf, hri⟩ := u.sendTray_reply n (s.onTray n (Tray.seenOn port.val s.now)).inNet false
    have ho (i : Nat) (h : i ≠ n) := u.sendTray_trayDyn_other h (s.onTray n (Tray.seenOn port.val s.now)).inNet false true
    generalize u.sendTray n (s.onTray n (Tray.seenOn port.val s.now)).inNet false true = v at *
    refine ⟨_, congrArg Host.Outcome.next heq, ?_, fun i hi => ?_, ?_, ?_, ?_, ?_, r, hs, hrty, hrf, ?_⟩
    · have hw : u.OnlyTray ((v.onPort port.val Port.received).onTray n (Tray.noted (u8At f.payload 5) seq)) :=
        (hv.trans (v.onlyTray_onPort _ _)).trans (State.onlyTray_onTray _ _ _)
      generalize (v.onPort port.val Port.received).onTray n (Tray.noted (u8At f.payload 5) seq) = w at *
      rw [hw, huf]
    · simp [hi, ho i hi, hui i hi]
    · simp [Tray.noted, he, hun, Tray.resynced]
    · simp [Tray.noted, he, hun, Tray.resynced]
    · simp [Tray.noted, he, hun, Tray.resynced]
    · rw [← hue]
      exact hv.evt_eq
    · rw [hri, hun]; rfl

end Sys2Proof.Machine
end

section
/-! SUPPORT. Tray states, ports and the hard-wired lines (09). -/

namespace Sys2Proof.Machine

/-! ### The bits of a cause word -/

/-- Taking a set bit from a word clears that bit and no other. -/
theorem testBit_sub_shiftLeft {c k : Nat} (h : c.testBit k = true) (i : Nat) : (c - 1 <<< k).testBit i = (c.testBit i && decide (i ≠ k)) := by
  obtain ⟨a, ha⟩ : ∃ a, c / 2 ^ k = 2 * a + 1 := by
    rw [Nat.testBit_eq_decide_div_mod_eq, decide_eq_true_eq] at h
    exact ⟨c / 2 ^ k / 2, by omega⟩
  have hb : c % 2 ^ k < 2 ^ k := Nat.mod_lt _ (by positivity)
  have hc : c = 2 ^ k * (2 * a + 1) + c % 2 ^ k := by rw [← ha, Nat.div_add_mod]
  have hs : c - 1 <<< k = 2 ^ k * (2 * a) + c % 2 ^ k := by
    rw [Nat.shiftLeft_eq, one_mul]
    generalize c % 2 ^ k = b at *
    rw [hc, Nat.mul_add]
    omega
  rw [hs, Nat.testBit_two_pow_mul_add _ hb]
  conv_rhs => rw [hc]
  rw [Nat.testBit_two_pow_mul_add _ hb]
  obtain hi | rfl | hi := Nat.lt_trichotomy i k
  · simp [hi, hi.ne]
  · simp
  · obtain ⟨m, rfl⟩ : ∃ m, i = k + 1 + m := ⟨i - (k + 1), by omega⟩
    have : k + 1 + m - k = m + 1 := by omega
    simp [this, Nat.testBit_succ, show ¬ k + 1 + m < k by omega, show k + 1 + m ≠ k by omega, show (2 * a + 1) / 2 = a by omega]

theorem State.setCause_causes_other (s : State) {k i : Nat} (h : i ≠ k) (c : Nat) (on : Bool) :
    Tab.get 0 (s.setCause k c on).tray.causes i = Tab.get 0 s.tray.causes i := Tab.get_set_other _ _ _ h

theorem State.setCause_causes_on (s : State) (k c : Nat) :
    Tab.get 0 (s.setCause k c true).tray.causes k = Tab.get 0 s.tray.causes k ||| 1 <<< c := Tab.get_set_same _ _ _ _

/-- A cause that ends leaves every other cause of its rack. -/
theorem State.setCause_off_testBit (s : State) (k c i : Nat) :
    (Tab.get 0 (s.setCause k c false).tray.causes k).testBit i = ((Tab.get 0 s.tray.causes k).testBit i && decide (i ≠ c)) := by
  have h : Tab.get 0 (s.setCause k c false).tray.causes k =
      if bit (Tab.get 0 s.tray.causes k) c then Tab.get 0 s.tray.causes k - 1 <<< c else Tab.get 0 s.tray.causes k :=
    Tab.get_set_same _ _ _ _
  rw [h]
  unfold bit
  split
  next hc => exact testBit_sub_shiftLeft hc i
  next hc =>
    by_cases hi : i = c
    · subst hi; simpa using hc
    · simp [hi]

theorem State.setCause_coolFault_on (s : State) (k c : Nat) : Tab.get false (s.setCause k c true).tray.coolFault k = true :=
  Tab.get_set_same false true s.tray.coolFault k

theorem State.setCause_coolFault_other (s : State) {k i : Nat} (h : i ≠ k) (c : Nat) (on : Bool) :
    Tab.get false (s.setCause k c on).tray.coolFault i = Tab.get false s.tray.coolFault i := by
  cases on
  · rfl
  · exact Tab.get_set_other false true s.tray.coolFault h

theorem State.setCause_coolFault_off (s : State) (k c : Nat) : (s.setCause k c false).tray.coolFault = s.tray.coolFault := rfl

theorem State.onlyTray_setCause (s : State) (k c : Nat) (on : Bool) : s.OnlyTray (s.setCause k c on) := rfl

/-! ### The rows -/

/-- What a changed record of an enabled tray makes of the tray's entry. -/
def Tray.reopened (x : Tray) : Tray :=
  { x with
    changed := false, state := .resync, replyEpoch := none, newLatch := none
    age := if x.state = .disabled then 0 else x.age }

/-- The FLOW_LOSS_N latch of a rack, set or ended. -/
def State.latchFlowLoss (s : State) (k : Nat) (on : Bool) : State :=
  { s with tray := { s.tray with flowLoss := Tab.set false s.tray.flowLoss k on } }

theorem exec_flowLoss_of_new {k : Fin 16} {us : Nat} {s : State} (hf : Tab.get false s.tray.flowLoss k.val = false) (hu : 10 ≤ us) :
    exec (.flowLoss k us) s = .next (if s.rackTrays k.val
      then ((s.latchFlowLoss k.val true).setCause k.val Cause.flowLoss true).logRm Cls.prot 0x0D05 (w32 k.val) []
      else (s.latchFlowLoss k.val true).logRm Cls.notice 0x0D05 (w32 k.val) []) := by
  have hg : (Tab.get false s.tray.flowLoss k.val || decide (us < 10)) = false := by simp [hf, hu]
  simp only [exec, execFlowLoss, hg]
  rfl

/-- Settles O2: each row's guard met, its one write to the tray or port table. -/
theorem trayStatesAndPorts : Obligations.TrayStatesAndPorts := by
  unfold Obligations.TrayStatesAndPorts
  refine ⟨fun n s hs ha hl => ?_, fun n s hs ha => ?_, fun n s hc he => ?_, fun n s hc he => ?_, fun p s hu => ?_, fun p s hu => ?_,
    fun p s => ?_⟩
  · have h : exec (.trayMissing n) s = .next ((s.onTray n.val fun x => { x with state := .missing }).logTray Cls.warning 0x0D01 n.val) := by
      simp [exec, execTrayMissing, hs, ha, hl]
    refine ⟨_, h, ?_, ?_, fun i hi => ?_⟩
    · simp [State.logTray]
      rfl
    · simp [State.logTray]
    · simp [State.logTray, hi]
  · have h : exec (.trayLost n) s = .next ((s.onTray n.val fun x => { x with state := .lost }).logTray Cls.alarm 0x0D02 n.val) := by
      simp [exec, execTrayLost, hs, ha]
    refine ⟨_, h, ?_, ?_, fun i hi => ?_⟩
    · simp [State.logTray]
      rfl
    · simp [State.logTray]
    · simp [State.logTray, hi]
  · have h : exec (.trayRecordChange n) s = .next (s.onTray n.val fun x =>
        { x with changed := false, state := .disabled, age := 0, newLatch := none, latched := [], halted := false }) := by
      simp [exec, execTrayRecordChange, State.changeTray, hc, he]
    refine ⟨_, h, rfl, ?_, ?_, ?_, ?_, ?_, fun i hi => ?_⟩ <;> simp [*]
  · refine ⟨_, rfl, ?_⟩
    have h : s.changeTray n.val = s.onTray n.val Tray.reopened ∨
        s.changeTray n.val = (s.onTray n.val Tray.reopened).logTray Cls.notice 0x0D03 n.val := by
      have h : s.changeTray n.val = if (s.trayDyn n.val).state = .resync then s.onTray n.val Tray.reopened
          else (s.onTray n.val Tray.reopened).logTray Cls.notice 0x0D03 n.val := by
        unfold State.changeTray
        simp only [hc, he, Bool.not_true]
        rfl
      rw [h]
      exact ite_eq_or_eq _ _ _
    obtain h | h := h <;> rw [h]
    · exact ⟨rfl, by simp [Tray.reopened], by simp [Tray.reopened], by simp [Tray.reopened], fun i hi => by simp [hi]⟩
    · exact ⟨rfl, by simp [Tray.reopened, State.logTray], by simp [Tray.reopened, State.logTray], by simp [Tray.reopened, State.logTray],
        fun i hi => by simp [hi, State.logTray]⟩
  · have h : exec (.portDown p) s = .next ((s.onPort p.val fun x =>
        { x with up := false, ptp := 0, syncMisses := 3, linkDowns := satTo 32 (x.linkDowns + 1) }).logRm Cls.warning 0x0D06 (w32 p.val) []) := by
      simp [exec, execPortDown, hu]
    refine ⟨_, h, rfl, ?_, ?_, ?_, fun i hi => State.onPort_ports_other s hi _⟩ <;> simp
  · have h : exec (.portUp p) s = .next ((s.onPort p.val fun x => { x with up := true, ptp := 1 }).logRm Cls.notice 0x0D07 (w32 p.val) []) := by
      simp [exec, execPortUp, hu]
    exact ⟨_, h, rfl, by simp, fun i hi => State.onPort_ports_other s hi _⟩
  · exact ⟨_, rfl, rfl, Tab.get_modify_same 0 s.tray.neighbourAnswers p.val (· + 1)⟩

/-- Settles O3: the cause word and the line through `setCause`. -/
theorem hardWiredLines : Obligations.HardWiredLines := by
  unfold Obligations.HardWiredLines
  refine ⟨fun k us s hf hr hu => ?_, fun k us s hf hr hu => ?_, fun k us s hu => ?_, fun k s he => ?_, fun k s hc he => ?_⟩
  · have h : exec (.flowLoss k us) s =
        .next (((s.latchFlowLoss k.val true).setCause k.val Cause.flowLoss true).logRm Cls.prot 0x0D05 (w32 k.val) []) := by
      rw [exec_flowLoss_of_new hf hu, if_pos hr]
    refine ⟨_, h, rfl, Tab.get_set_same false true s.tray.flowLoss k.val, ?_, ?_, fun i hi => ⟨?_, ?_⟩⟩
    · exact State.setCause_coolFault_on _ _ _
    · exact State.setCause_causes_on _ _ _
    · exact State.setCause_coolFault_other _ hi _ _
    · exact State.setCause_causes_other _ hi _ _
  · have h : exec (.flowLoss k us) s = .next ((s.latchFlowLoss k.val true).logRm Cls.notice 0x0D05 (w32 k.val) []) := by
      rw [exec_flowLoss_of_new hf hu, if_neg (Bool.eq_false_iff.mp hr)]
    exact ⟨_, h, rfl⟩
  · have h : exec (.flowLossRelease k us) s = .next ((s.latchFlowLoss k.val false).setCause k.val Cause.flowLoss false) := by
      simp only [exec, execFlowLossRelease, Nat.not_lt.mpr hu, if_false]
      rfl
    refine ⟨_, h, rfl, Tab.get_set_same false false s.tray.flowLoss k.val, rfl, ?_, fun j _ => ?_, fun i hi => ?_⟩
    · rw [bit, State.setCause_off_testBit]; simp [Cause.flowLoss]
    · rw [bit, State.setCause_off_testBit]; simp [Cause.flowLoss, bit, State.latchFlowLoss]
    · exact State.setCause_causes_other _ hi _ _
  · have h : ¬ (Tab.get 0 s.tray.causeEnd k.val + 10000 ≤ s.now) := Nat.not_le.mpr he
    simp [exec, execCoolFaultRelease, h]
  · have h : exec (.coolFaultRelease k) s =
        .next { s with tray := { s.tray with coolFault := Tab.set false s.tray.coolFault k.val false } } := by
      have h : Tab.get 0 s.tray.causeEnd k.val + 10000 ≤ s.now := he
      simp [exec, execCoolFaultRelease, hc, h]
    exact ⟨_, h, rfl, Tab.get_set_same false false s.tray.coolFault k.val,
      fun i hi => Tab.get_set_other false false s.tray.coolFault hi⟩

end Sys2Proof.Machine
end

section
/-! SUPPORT. Pump staging and rotation, and the heat exchanger's warnings (10). -/

namespace Sys2Proof.Machine

/-! ### Permits and groups -/

theorem Motor.setPermit_permit (m : Motor) (on : Bool) : (m.setPermit on).permit = on := by
  unfold Motor.setPermit
  dsimp only
  split
  · rfl
  · split <;> rfl

theorem Motor.setPermit_off_of_driven {m : Motor} (h : m.state.driven) : m.setPermit false = { m with permit := false }.toCoast .none := by
  unfold Motor.setPermit
  exact if_pos h

theorem State.setPermit_permit_same (s : State) (n : Nat) (on : Bool) : ((s.setPermit n on).motor n).permit = on := by
  rw [State.setPermit, motor_onMotor_same, Motor.setPermit_permit]

theorem State.onGroup_groupDyn_same (s : State) (g : Nat) (f : GroupDyn → GroupDyn) : (s.onGroup g f).groupDyn g = f (s.groupDyn g) :=
  Tab.get_modify_same _ _ _ _

theorem State.onGroup_groupDyn_other (s : State) {g i : Nat} (h : i ≠ g) (f : GroupDyn → GroupDyn) :
    (s.onGroup g f).groupDyn i = s.groupDyn i := Tab.get_modify_other _ _ _ h

@[simp] theorem State.onGroup_motor (s : State) (g i : Nat) (f : GroupDyn → GroupDyn) : (s.onGroup g f).motor i = s.motor i := rfl

@[simp] theorem State.setPermit_groupDyn (s : State) (n g : Nat) (on : Bool) : (s.setPermit n on).groupDyn g = s.groupDyn g := rfl

/-- Settles O4: each guard is met, so the row is its one change of the permit and of the group. -/
theorem pumpStagingAndRotation : Obligations.PumpStagingAndRotation := by
  unfold Obligations.PumpStagingAndRotation
  refine ⟨fun g s lag hl hs hg hp hu => ?_, fun g s lag hl hs hg hr hf hd => ?_, fun g n s lag hl hs hg ht hr hh hu hp => ?_,
    fun g n s lag hl hs hg ht hr hn => ?_⟩
  · have h : exec (.lagStageUp g) s = .next (s.setPermit lag true) := by simp [exec, execLagStageUp, hl, hs, hg, hp, hu]
    exact ⟨_, h, onlyMotor_onMotor _ _ _, s.setPermit_permit_same lag true⟩
  · have h : exec (.lagStageDown g) s = .next (s.setPermit lag false) := by simp [exec, execLagStageDown, hl, hs, hg, hr, hf, hd]
    refine ⟨_, h, onlyMotor_onMotor _ _ _, s.setPermit_permit_same lag false, fun hv => ?_⟩
    rw [State.setPermit, motor_onMotor_same, Motor.setPermit_off_of_driven hv]
    exact ⟨rfl, rfl⟩
  · have h : exec (.leadRotation g n) s = .next ((s.setPermit lag true).onGroup g.val fun d =>
        { d with lead := lag, lag := some d.lead, rotating := true, leadRun := 0 }) := by
      simp [exec, execLeadRotation, hl, hs, hg, ht, hr, hh, hu, hp]
    exact ⟨_, h, rfl, State.onGroup_groupDyn_same _ _ _, s.setPermit_permit_same lag true, fun i hi => setPermit_motor_other s true hi⟩
  · have h : exec (.leadRotation g n) s = .next ((s.setPermit lag false).onGroup g.val fun d => { d with rotating := false }) := by
      simp [exec, execLeadRotation, hl, hs, hg, ht, hr, Nat.not_lt.mpr hn]
    exact ⟨_, h, rfl, State.onGroup_groupDyn_same _ _ _, s.setPermit_permit_same lag false, fun i hi => setPermit_motor_other s false hi⟩

/-- A mark whose period is over ends with one record. -/
theorem exec_hxClear_of_ended {s : State} {supply : Bool} (h : (if supply then s.cool.hxHigh && decide (10 ≤ s.cool.outletBelow)
    else s.cool.hxApproach && decide (10 * s.cfg.topo.hx.deficitS ≤ s.cool.approachBelow)) = true) (hl : s.anyLane) :
    exec (.hxClear supply) s = .next (({ s with cool := { s.cool with
      hxHigh := s.cool.hxHigh && !supply, hxApproach := s.cool.hxApproach && supply } } : State).logLanes Cls.notice 0x0503 none32 []) := by
  refine congrArg Host.Outcome.next (if_pos ?_)
  rw [h, hl]
  rfl

/-- Settles O5: each guard, met or not met. -/
theorem heatExchangerWarnings : Obligations.HeatExchangerWarnings := by
  unfold Obligations.HeatExchangerWarnings
  refine ⟨fun s ha hl hm hn => ?_, fun s ha hl hm hn => ?_, fun s hl hm hn => ?_, fun s hn => ?_, fun s hn => ?_, fun s hl hm hn => ?_⟩
  · refine ⟨_, congrArg Host.Outcome.next (if_pos ?_), rfl⟩
    simp [ha, hl, hm, hn]
  · refine ⟨_, congrArg Host.Outcome.next (if_pos ?_), rfl⟩
    simp [ha, hl, hm, hn]
  · refine ⟨_, exec_hxClear_of_ended (by simp [hm, hn]) hl, ?_⟩
    simp only [Bool.not_true, Bool.and_true, Bool.and_false]
    rfl
  · refine congrArg Host.Outcome.next (if_neg ?_)
    simp [hn]
  · refine congrArg Host.Outcome.next (if_neg ?_)
    simp [hn]
  · refine ⟨_, exec_hxClear_of_ended (by simp [hm, hn]) hl, ?_⟩
    simp only [Bool.not_false, Bool.and_true, Bool.and_false]
    rfl

end Sys2Proof.Machine
end

section
/-! SUPPORT. Motor channels: the start sequence, failed attempts, failures that drive the group, tach marks and the current-loop
period (11). -/

namespace Sys2Proof.Machine

theorem onlyMotor_refl (n : Nat) (s : State) : OnlyMotor n s s := ⟨fun _ _ => rfl, rfl⟩

/-! ### The start of an attempt -/

theorem State.beginAttempt_cases (s : State) (n : Nat) : s.beginAttempt n = s ∨ ∃ f, s.beginAttempt n = s.onMotor n f := by
  unfold State.beginAttempt
  dsimp only
  split
  · exact .inl rfl
  · split
    · exact .inr ⟨_, rfl⟩
    · split
      · split
        · exact .inl rfl
        · exact .inr ⟨_, rfl⟩
      · exact .inr ⟨_, rfl⟩

theorem onlyMotor_beginAttempt (s : State) (n : Nat) : OnlyMotor n s (s.beginAttempt n) := by
  obtain h | ⟨f, h⟩ := s.beginAttempt_cases n <;> rw [h]
  · exact onlyMotor_refl n s
  · exact onlyMotor_onMotor s n f

/-- A permitted channel that stands or coasts, and waits for nothing but its rotor, starts by where the rotor is. -/
theorem State.beginAttempt_of_ready {s : State} {n : Nat} (hr : (s.motorRec n).on) (hp : (s.motor n).permit)
    (hs : (s.motor n).state = .stopped ∨ (s.motor n).state = .coast) (hw : (s.motor n).wait = .none ∨ (s.motor n).wait = .spin) :
    s.beginAttempt n =
      if ((s.motorRec n).handoff : Int) ≤ (s.motor n).omega then s.onMotor n fun m => m.enter .run .none
      else if (s.motor n).omega ≠ 0 then
        (if (s.motor n).state = .coast ∧ (s.motor n).wait = .spin then s else s.onMotor n fun m => m.toCoast .spin)
      else s.onMotor n fun m => { m.enter .align .none with iqApplied := (s.motorRec n).iStart } := by
  have hv : (s.motor n).state.driven = false ∧ (s.motor n).state.failedOrLocked = false := by
    obtain h | h := hs <;> rw [h] <;> exact ⟨rfl, rfl⟩
  have hg : (!(s.motorRec n).on || !(s.motor n).permit || (s.motor n).state.driven || (s.motor n).state.failedOrLocked ||
      !((s.motor n).wait = .none || (s.motor n).wait = .spin)) = false := by
    simpa [hr, hp, hv, or_iff_not_imp_left] using hw
  unfold State.beginAttempt
  simp only [hg]
  rfl

/-- Settles O8: each guard met, so the row is its one change of the channel. -/
theorem motorStartSequence : Obligations.MotorStartSequence := by
  unfold Obligations.MotorStartSequence
  refine ⟨fun m s hr hp hs hw => ⟨_, rfl, onlyMotor_beginAttempt _ _, fun ho => ?_, fun ho hz => ?_, fun hh hz => ?_⟩, fun m s hc => ?_,
    fun m s hs hc => ?_, fun m s hc => ?_, fun m s hs hc => ?_, fun m s hs hl hu => ?_, fun m s hs hc => ?_⟩
  · rw [State.beginAttempt_of_ready hr hp hs hw, if_pos ho, motor_onMotor_same]
    rfl
  · rw [State.beginAttempt_of_ready hr hp hs hw, if_neg (by omega), if_pos hz]
    split
    next h => exact h
    next => rw [motor_onMotor_same]; exact ⟨rfl, rfl⟩
  · rw [State.beginAttempt_of_ready hr hp hs hw, if_neg (by omega), if_neg (not_not.mpr hz), motor_onMotor_same]
    exact ⟨rfl, rfl⟩
  · exact congrArg Host.Outcome.next (if_neg fun h => Nat.not_le.mpr hc h.2)
  · exact ⟨_, congrArg Host.Outcome.next (if_pos ⟨hs, hc⟩), onlyMotor_onMotor _ _ _, by rw [motor_onMotor_same]; rfl⟩
  · exact congrArg Host.Outcome.next (if_neg fun h => Nat.not_le.mpr hc h.2)
  · exact ⟨_, congrArg Host.Outcome.next (if_pos ⟨hs, hc⟩), onlyMotor_onMotor _ _ _, by rw [motor_onMotor_same]; rfl⟩
  · have h : exec (.verifyEnd m true) s = .next (s.onMotor m.val fun x => x.enter .run .none) := by
      simp [exec, execVerifyEnd, hs, hl, hu]
    exact ⟨_, h, onlyMotor_onMotor _ _ _, by rw [motor_onMotor_same]; rfl⟩
  · exact ⟨_, congrArg Host.Outcome.next (if_pos ⟨hs, hc⟩), onlyMotor_onMotor _ _ _, by simpa using hs⟩

/-! ### Failed attempts -/

theorem State.failAttempt_of_lt {s : State} {n : Nat} (h : (s.motor n).attempts < 2) (code : Nat) :
    s.failAttempt n code = s.onMotor n fun m =>
      { m.toCoast .retry with attempts := (s.motor n).attempts + 1, lastFault := code, faults := satTo 32 (m.faults + 1) } := by
  unfold State.failAttempt
  exact if_neg (by omega)

theorem State.failAttempt_of_le {s : State} {n : Nat} (h : 2 ≤ (s.motor n).attempts) (code : Nat) :
    s.failAttempt n code = (s.onMotor n fun m => { m with attempts := (s.motor n).attempts + 1 }).failMotor n .locked code := by
  unfold State.failAttempt
  exact if_pos (by omega)

/-- What a failed attempt with fewer than two before it comes to. -/
theorem failAttempt_retries {s : State} {n code : Nat} (h : (s.motor n).attempts < 2) :
    OnlyMotor n s (s.failAttempt n code) ∧ ((s.failAttempt n code).motor n).state = .coast ∧ ((s.failAttempt n code).motor n).wait = .retry ∧
      ((s.failAttempt n code).motor n).attempts = (s.motor n).attempts + 1 ∧ ((s.failAttempt n code).motor n).lastFault = code := by
  rw [State.failAttempt_of_lt h, motor_onMotor_same]
  exact ⟨onlyMotor_onMotor _ _ _, rfl, rfl, rfl, rfl⟩

theorem failAttempt_locks {s : State} {n code : Nat} (h : 2 ≤ (s.motor n).attempts) :
    ((s.failAttempt n code).motor n).state = .locked ∧ ((s.failAttempt n code).motor n).lastFault = code := by
  rw [State.failAttempt_of_le h]
  exact failMotor_motor _ n .locked code rfl

theorem exec_verifyEnd_of_late {m : Fin 56} {s : State} (hs : (s.motor m.val).state = .verify) (hc : 10000 ≤ (s.motor m.val).clk.phase) :
    exec (.verifyEnd m false) s = .next (s.failAttempt m.val 4) := by
  have hc : ¬ (s.motor m.val).clk.phase < periods 500 := Nat.not_lt.mpr hc
  simp [exec, execVerifyEnd, hs, hc]

theorem exec_overcurrentTrip_of_start {m : Fin 56} {s : State} (hs : (s.motor m.val).state = .align ∨ (s.motor m.val).state = .ramp) :
    exec (.overcurrentTrip m) s = .next (s.failAttempt m.val 2) := congrArg Host.Outcome.next (if_pos hs)

/-- Settles O9: all three rows fail the attempt, which coasts for its retry or locks by the attempts counted. -/
theorem motorFailedAttempt : Obligations.MotorFailedAttempt := by
  unfold Obligations.MotorFailedAttempt
  refine ⟨fun m s hs hc ha => ⟨_, exec_verifyEnd_of_late hs hc, failAttempt_retries ha⟩, fun m s hs hw hc ha => ?_,
    fun m s hs ha => ⟨_, exec_overcurrentTrip_of_start hs, failAttempt_retries ha⟩,
    fun m s hs hc ha => ⟨_, exec_verifyEnd_of_late hs hc, failAttempt_locks ha⟩, fun m s hs hw hc ha => ?_,
    fun m s hs ha => ⟨_, exec_overcurrentTrip_of_start hs, failAttempt_locks ha⟩⟩
  · exact ⟨_, congrArg Host.Outcome.next (if_pos ⟨hs, hw, hc⟩), failAttempt_retries ha⟩
  · exact ⟨_, congrArg Host.Outcome.next (if_pos ⟨hs, hw, hc⟩), failAttempt_locks ha⟩

theorem State.motorGroup_congr {s t : State} (h : t.cfg = s.cfg) (n : Nat) : t.motorGroup n = s.motorGroup n := by
  simp only [State.motorGroup, State.pumpGroupOf, State.fanRack, State.rackOn, h]

/-! ### Failures that drive the group -/

/-- The override ended on each channel of a list. -/
theorem foldl_endOverride_motor (l : List Nat) (s : State) (i : Nat) :
    (l.foldl (fun (s : State) i => s.onMotor i fun x => { x with groupFull := false }) s).motor i =
      if i ∈ l then { s.motor i with groupFull := false } else s.motor i := by
  induction l generalizing s with
  | nil => simp
  | cons n l ih =>
    rw [List.foldl_cons, ih]
    by_cases h : i = n
    · subst h; simp
    · simp [motor_onMotor_other _ _ h, h]

/-- The attempt a running stall fails, with its mark. -/
def State.stallAttempt (s : State) (n : Nat) : State := (s.onMotor n fun x => { x with stalled := true }).failAttempt n 5

/-- A running stall with an attempt left coasts its channel for a retry and leaves every other. -/
theorem stallAttempt_retries {s : State} {n : Nat} (h : (s.motor n).attempts < 2) :
    ((s.stallAttempt n).motor n).state = .coast ∧ ((s.stallAttempt n).motor n).wait = .retry ∧
      ((s.stallAttempt n).motor n).attempts = (s.motor n).attempts + 1 ∧ ((s.stallAttempt n).motor n).lastFault = 5 ∧
      ((s.stallAttempt n).motor n).stalled = true ∧ (∀ i, i ≠ n → (s.stallAttempt n).motor i = s.motor i) ∧
      (s.stallAttempt n).cfg = s.cfg := by
  have h' : ((s.onMotor n fun x => { x with stalled := true }).motor n).attempts < 2 := by simpa using h
  rw [State.stallAttempt, State.failAttempt_of_lt h', motor_onMotor_same, motor_onMotor_same]
  exact ⟨rfl, rfl, rfl, rfl, rfl, fun i hi => by rw [motor_onMotor_other _ _ hi, motor_onMotor_other _ _ hi], rfl⟩

theorem exec_runningStall_of_lt {m : Fin 56} {s : State} (hs : (s.motor m.val).state = .run)
    (hc : 20 * (s.motorRec m.val).stallMs ≤ (s.motor m.val).clk.stall) (ha : (s.motor m.val).attempts < 2) :
    exec (.runningStall m) s = .next (if (s.motor m.val).stalled then s.stallAttempt m.val else (s.stallAttempt m.val).groupFull m.val) := by
  have hg : ¬ ((s.motor m.val).state ≠ .run ∨ (s.motor m.val).clk.stall < periods (s.motorRec m.val).stallMs) := by
    simp [hs, periods, hc]
  have hf : ((s.stallAttempt m.val).motor m.val).state.failedOrLocked = false := by rw [(stallAttempt_retries ha).1]; rfl
  refine congrArg Host.Outcome.next ((if_neg hg).trans ?_)
  change (if (!(s.motor m.val).stalled && !((s.stallAttempt m.val).motor m.val).state.failedOrLocked) = true then _ else _) = _
  rw [hf]
  cases (s.motor m.val).stalled <;> rfl

/-- Settles O11: `failMotor`, `failAttempt` and `groupFull` by their lemmas; the override ends channel by channel. -/
theorem motorFailureDrivesTheGroup : Obligations.MotorFailureDrivesTheGroup := by
  unfold Obligations.MotorFailureDrivesTheGroup
  refine ⟨fun m s hr hs hc => ?_, fun m s hs hc ha => ?_, fun m s hg => ?_⟩
  · have h : exec (.motorOverspeed m) s = .next (s.failMotor m.val .failed 3) := congrArg Host.Outcome.next (if_pos (by simp [hr, hs, periods, hc]))
    obtain ⟨hst, hlf⟩ := failMotor_motor s m.val .failed 3 rfl
    exact ⟨_, h, hst, hlf, fun i hi h1 h2 => failMotor_group s m.val .failed 3 i hi h1 h2⟩
  · obtain ⟨hst, hw, hat, hlf, hsd, ho, hcfg⟩ := stallAttempt_retries ha
    refine ⟨_, exec_runningStall_of_lt hs hc ha, ?_⟩
    cases hd : (s.motor m.val).stalled
    · simp only [Bool.false_eq_true, if_false, groupFull_same]
      refine ⟨hst, hw, hat, hlf, hsd, fun _ i hi h1 h2 => ?_⟩
      have hne : i ≠ m.val := by simpa using (List.mem_filter.1 hi).2
      refine groupFull_group _ _ _ ?_ ?_ (by rw [ho i hne]; exact h2)
      · rw [State.motorGroup_congr hcfg]; exact hi
      · rw [State.motorRec, hcfg]; exact h1
    · exact ⟨hst, hw, hat, hlf, hsd, fun h => absurd h (by simp)⟩
  · have h : (m.val :: s.motorGroup m.val).any (fun i => (s.motor i).state.failedOrLocked || (s.motor i).stalled) = false := by
      simpa using hg
    refine ⟨_, congrArg Host.Outcome.next (if_neg (Bool.eq_false_iff.mp h)), ?_, fun i hi => ?_, fun i hi => ?_⟩
    · exact foldl_onMotor_frame _ _ _
    · rw [foldl_endOverride_motor, if_pos hi]
    · rw [foldl_endOverride_motor, if_neg hi]
end Sys2Proof.Machine
end

section
/-! SUPPORT. Tach marks of a motor channel, and the current-loop period (11). -/

namespace Sys2Proof.Machine

/-! ### A pass over the channels -/

/-- A pass whose steps change one channel each changes the motor channels alone. -/
theorem foldl_onlyMotor_frame {step : State → Nat → State} (h : ∀ s n, OnlyMotor n s (step s n)) (l : List Nat) (s : State) :
    l.foldl step s = { s with motors := (l.foldl step s).motors } := by
  induction l generalizing s with
  | nil => rfl
  | cons n l ih =>
    rw [List.foldl_cons]
    exact (ih _).trans (congrArg (fun x : State => { x with motors := (l.foldl step (step s n)).motors }) (h s n).2)

theorem foldl_onlyMotor_other {step : State → Nat → State} (h : ∀ s n, OnlyMotor n s (step s n)) {l : List Nat} {i : Nat} (hi : i ∉ l)
    (s : State) : (l.foldl step s).motor i = s.motor i := by
  induction l generalizing s with
  | nil => rfl
  | cons n l ih =>
    simp only [List.mem_cons, not_or] at hi
    rw [List.foldl_cons, ih hi.2, (h s n).1 i hi.1]

/-- A channel that comes up once in the pass is as its own step leaves it, in a state that differs in other channels alone. -/
theorem foldl_onlyMotor_at {step : State → Nat → State} (h : ∀ s n, OnlyMotor n s (step s n)) {l : List Nat} (hl : l.Nodup) {i : Nat}
    (hi : i ∈ l) (s : State) :
    ∃ u : State, u = { s with motors := u.motors } ∧ u.motor i = s.motor i ∧ (l.foldl step s).motor i = (step u i).motor i := by
  obtain ⟨a, b, rfl⟩ := List.append_of_mem hi
  have ha : i ∉ a := fun hm => (List.nodup_append.mp hl).2.2 i hm i (by simp) rfl
  have hb : i ∉ b := (List.nodup_cons.mp (List.nodup_append.mp hl).2.1).1
  refine ⟨a.foldl step s, foldl_onlyMotor_frame h a s, foldl_onlyMotor_other h ha s, ?_⟩
  rw [List.foldl_append, List.foldl_cons, foldl_onlyMotor_other h hb]

/-! ### One period -/

/-- The sampling of one channel's inputs. -/
def State.sampleMotor (s : State) (i : MotorIn) : State :=
  if (s.motorRec i.chan).accepted then s.onMotor i.chan fun m => m.sampled i else s

/-- The period of one channel. -/
def State.motorPeriod (s : State) (n : Nat) : State :=
  if (s.motorRec n).accepted then
    s.onMotor n fun m => (m.count (s.motorRec n)).period (s.motorRec n) (Tab.get [] s.cfg.skipBands n) (s.overrideTarget n) s.gen.rmRestartSwap
  else s

theorem execCurrentLoopPeriod_eq (inp : List MotorIn) (s : State) :
    exec (.currentLoopPeriod inp) s = .next ((List.range 56).foldl State.motorPeriod (inp.foldl State.sampleMotor s)) := rfl

theorem onlyMotor_motorPeriod (s : State) (n : Nat) : OnlyMotor n s (s.motorPeriod n) := by
  unfold State.motorPeriod
  split
  · exact onlyMotor_onMotor _ _ _
  · exact onlyMotor_refl n s

theorem State.motorPeriod_of_not_accepted {s : State} {n : Nat} (h : (s.motorRec n).accepted = false) : s.motorPeriod n = s :=
  if_neg (by simp [h])

theorem State.motorPeriod_of_accepted {s : State} {n : Nat} (h : (s.motorRec n).accepted) :
    (s.motorPeriod n).motor n = ((s.motor n).count (s.motorRec n)).period (s.motorRec n) (Tab.get [] s.cfg.skipBands n) (s.overrideTarget n)
      s.gen.rmRestartSwap := by
  unfold State.motorPeriod
  rw [if_pos h, motor_onMotor_same]

/-- Samples change the motor channels alone: of each its inputs and the time without an edge, of one without a record nothing. -/
theorem foldl_sampleMotor (inp : List MotorIn) (s : State) :
    inp.foldl State.sampleMotor s = { s with motors := (inp.foldl State.sampleMotor s).motors } ∧
      ∀ n, ((s.motorRec n).accepted = false → (inp.foldl State.sampleMotor s).motor n = s.motor n) ∧
        ((inp.foldl State.sampleMotor s).motor n).state = (s.motor n).state ∧
        ((inp.foldl State.sampleMotor s).motor n).permit = (s.motor n).permit ∧
        ((inp.foldl State.sampleMotor s).motor n).clk.phase = (s.motor n).clk.phase := by
  induction inp generalizing s with
  | nil => exact ⟨rfl, fun n => ⟨fun _ => rfl, rfl, rfl, rfl⟩⟩
  | cons i inp ih =>
    obtain ⟨hf, hm⟩ := ih (s.sampleMotor i)
    have ho : OnlyMotor i.chan s (s.sampleMotor i) := by
      unfold State.sampleMotor
      split
      · exact onlyMotor_onMotor _ _ _
      · exact onlyMotor_refl _ s
    have hrec (n : Nat) : (s.sampleMotor i).motorRec n = s.motorRec n := by rw [ho.2]; rfl
    have h1 (n : Nat) : ((s.motorRec n).accepted = false → (s.sampleMotor i).motor n = s.motor n) ∧
        ((s.sampleMotor i).motor n).state = (s.motor n).state ∧ ((s.sampleMotor i).motor n).permit = (s.motor n).permit ∧
        ((s.sampleMotor i).motor n).clk.phase = (s.motor n).clk.phase := by
      by_cases hn : n = i.chan
      · subst hn
        unfold State.sampleMotor
        split
        next ha => exact ⟨fun h => by simp [h] at ha, by simp [Motor.sampled]⟩
        next ha => exact ⟨fun _ => rfl, rfl, rfl, rfl⟩
      · rw [ho.1 n hn]; exact ⟨fun _ => rfl, rfl, rfl, rfl⟩
    rw [List.foldl_cons]
    refine ⟨hf.trans (congrArg (fun x : State => { x with motors := (inp.foldl State.sampleMotor (s.sampleMotor i)).motors }) ho.2), fun n => ?_⟩
    obtain ⟨ha, hs, hp, hc⟩ := hm n
    obtain ⟨ha', hs', hp', hc'⟩ := h1 n
    exact ⟨fun h => (ha (by rw [hrec]; exact h)).trans (ha' h), hs.trans hs', hp.trans hp', hc.trans hc'⟩

@[simp] theorem Motor.count_state (m : Motor) (r : MotorRec) : (m.count r).state = m.state := rfl
@[simp] theorem Motor.count_permit (m : Motor) (r : MotorRec) : (m.count r).permit = m.permit := rfl

/-- A channel in its start keeps its state with the start current applied. -/
theorem Motor.period_of_start {m : Motor} (h : m.state = .align ∨ m.state = .ramp ∨ m.state = .verify) (r : MotorRec)
    (b : List (Nat × Nat)) (t : Option Nat) (hold : Bool) :
    (m.period r b t hold).iqApplied = r.iStart ∧ (m.period r b t hold).state = m.state ∧ (m.period r b t hold).clk = m.clk := by
  have hg : (m.state = .align || m.state = .ramp || m.state = .verify) = true := by simpa [or_assoc] using h
  unfold Motor.period
  simp only [hg]
  exact ⟨rfl, rfl, rfl⟩

/-- A channel neither in its start nor in RUN has zero applied, and one in COAST without a permit stops with its rotor. -/
theorem Motor.period_of_undriven {m : Motor} (h : m.state.driven = false) (r : MotorRec)
    (b : List (Nat × Nat)) (t : Option Nat) (hold : Bool) :
    (m.period r b t hold).iqApplied = 0 ∧ (m.period r b t hold).omega = m.omega ∧
      (m.period r b t hold).state = if m.state = .coast && !m.permit && decide (m.omega = 0) then .stopped else m.state := by
  have hg : (m.state = .align || m.state = .ramp || m.state = .verify) = false ∧ m.state ≠ .run := by
    cases hs : m.state <;> simp_all [MotorState.driven]
  unfold Motor.period
  simp only [hg.1]
  cases m.pendingRef <;> cases hold <;> simp [hg.2]

/-- Settles O12: the tach rows by their guards; the period channel by channel. -/
theorem motorTachAndPeriod : Obligations.MotorTachAndPeriod := by
  unfold Obligations.MotorTachAndPeriod
  refine ⟨fun m s hr ht hs ho hf hc => ?_, fun m s hf hc => ?_, fun m s hr ht hf hc => ?_, fun inp s => ?_⟩
  · have h : exec (.tachFault m) s =
        .next ((s.onMotor m.val fun x => { x with tachFault := true, lastFault := 8 }).logRm Cls.warning 0x050E (w32 m.val) []) :=
      congrArg Host.Outcome.next (if_pos (by simp [hr, ht, hs, ho, hf, periods, hc]))
    exact ⟨_, h, onlyMotorLog_onMotor _ _ _ _ _ _, by simp⟩
  · have h : exec (.tachClear m) s =
        .next ((s.onMotor m.val fun x => { x with tachFault := false }).logRm Cls.notice 0x050F (w32 m.val) []) :=
      congrArg Host.Outcome.next (if_pos (by simp [hf, periods, hc]))
    exact ⟨_, h, onlyMotorLog_onMotor _ _ _ _ _ _, by simp⟩
  · have h : exec (.tachMismatch m) s =
        .next ((s.onMotor m.val fun x => { x with clk := { x.clk with differ := 0 } }).logRm Cls.warning 0x0510 (w32 m.val) []) :=
      congrArg Host.Outcome.next (if_pos (by simp [hr, ht, hf, periods, hc]))
    exact ⟨_, h, onlyMotorLog_onMotor _ _ _ _ _ _, by simp⟩
  · obtain ⟨hsf, hsm⟩ := foldl_sampleMotor inp s
    refine ⟨_, execCurrentLoopPeriod_eq inp s, ?_, fun m => ?_⟩
    · exact (foldl_onlyMotor_frame onlyMotor_motorPeriod _ _).trans
        (congrArg (fun x : State => { x with motors := ((List.range 56).foldl State.motorPeriod (inp.foldl State.sampleMotor s)).motors }) hsf)
    · obtain ⟨hn, hst, hpm, hph⟩ := hsm m.val
      obtain ⟨u, huf, hum, hu⟩ := foldl_onlyMotor_at onlyMotor_motorPeriod List.nodup_range (List.mem_range.mpr m.isLt)
        (inp.foldl State.sampleMotor s)
      have hrec : u.motorRec m.val = s.motorRec m.val := by rw [huf, hsf]; rfl
      rw [hu, ← hph]
      refine ⟨fun ha => ?_, fun ha hs => ?_, fun ha hs => ?_, fun ha hs hp => ?_⟩
      · rw [State.motorPeriod_of_not_accepted (by rw [hrec]; exact ha), hum, hn ha]
      all_goals
        rw [State.motorPeriod_of_accepted (by rw [hrec]; exact ha), hum, hrec]
        generalize (inp.foldl State.sampleMotor s).motor m.val = x at hst hpm ⊢
        rw [← hst] at hs
      · have h : (x.count (s.motorRec m.val)).state = .align ∨ _ := hs
        rw [(Motor.period_of_start h _ _ _ _).1, (Motor.period_of_start h _ _ _ _).2.1, (Motor.period_of_start h _ _ _ _).2.2]
        exact ⟨rfl, hst, rfl⟩
      · have h : x.state.driven = false ∧ x.state ≠ .coast := by
          obtain h | h | h := hs <;> rw [h] <;> exact ⟨rfl, by decide⟩
        obtain ⟨hi, -, hx⟩ := Motor.period_of_undriven (m := x.count (s.motorRec m.val)) h.1 (s.motorRec m.val)
          (Tab.get [] u.cfg.skipBands m.val) (u.overrideTarget m.val) u.gen.rmRestartSwap
        exact ⟨hi, hx.trans ((if_neg (by simp [h.2])).trans hst)⟩
      · rw [← hpm] at hp
        obtain ⟨hi, ho, hx⟩ := Motor.period_of_undriven (m := x.count (s.motorRec m.val)) (by rw [Motor.count_state, hs]; rfl)
          (s.motorRec m.val) (Tab.get [] u.cfg.skipBands m.val) (u.overrideTarget m.val) u.gen.rmRestartSwap
        refine ⟨hi, fun hz => hx.trans (if_pos ?_)⟩
        rw [ho] at hz
        simp [hs, hp, hz]

end Sys2Proof.Machine
end

section
/-! SUPPORT. The flow supervisor: its count of low evaluations, and what the rest of an evaluation leaves (10). -/

namespace Sys2Proof.Machine

/-! ### Racks as a table -/

@[simp] theorem State.onRack_rackDyn_same (s : State) (k : Nat) (f : RackDyn → RackDyn) : (s.onRack k f).rackDyn k = f (s.rackDyn k) :=
  Tab.get_modify_same _ _ _ _

theorem State.onRack_rackDyn_other (s : State) {k i : Nat} (h : i ≠ k) (f : RackDyn → RackDyn) :
    (s.onRack k f).rackDyn i = s.rackDyn i := Tab.get_modify_other _ _ _ h

/-! ### The count of low evaluations -/

/-- Whether the rack counts a low evaluation: in RUN with its flow source below flow_min. -/
def State.readsLow (s : State) (k : Nat) : Bool :=
  s.rackState k = .run && match flowReading s.cfg s.tick.frame (s.cfg.topo.rack k).flowSrc (s.cfg.topo.rack k).flowIdx with
    | some q => decide (milliLitres q < (s.cfg.topo.rack k).flowMin)
    | none => false

/-- A rack's entry after one evaluation. -/
def State.counted (s : State) (k : Nat) (d : RackDyn) : RackDyn :=
  let n := if s.readsLow k then d.lowRun + 1 else 0
  { d with lowRun := n, deficit := decide (evals s.cfg.topo.hx.deficitS ≤ n ∧ 0 < n) }

theorem State.countDeficit_eq (s : State) (k : Nat) : s.countDeficit k = s.onRack k (s.counted k) := rfl

theorem State.counted_onRack (s : State) (k : Nat) (f : RackDyn → RackDyn) : (s.onRack k f).counted = s.counted := rfl

/-- The pass over the racks: each rack in the list is counted once, by the state before the pass. -/
theorem foldl_countDeficit (l : List Nat) (s : State) :
    l.foldl State.countDeficit s = { s with cool := { s.cool with racks := (l.foldl State.countDeficit s).cool.racks } } ∧
      (l.foldl State.countDeficit s).counted = s.counted ∧
      ∀ k, k ∉ l → (l.foldl State.countDeficit s).rackDyn k = s.rackDyn k := by
  induction l generalizing s with
  | nil => exact ⟨rfl, rfl, fun _ _ => rfl⟩
  | cons n l ih =>
    obtain ⟨hf, hc, ho⟩ := ih (s.countDeficit n)
    rw [List.foldl_cons]
    refine ⟨hf, hc, fun k hk => ?_⟩
    simp only [List.mem_cons, not_or] at hk
    rw [ho k hk.2, State.countDeficit_eq, State.onRack_rackDyn_other s hk.1]

theorem foldl_countDeficit_mem {l : List Nat} (hl : l.Nodup) {k : Nat} (hk : k ∈ l) (s : State) :
    (l.foldl State.countDeficit s).rackDyn k = s.counted k (s.rackDyn k) := by
  obtain ⟨a, b, rfl⟩ := List.append_of_mem hk
  have ha : k ∉ a := fun hm => (List.nodup_append.mp hl).2.2 k hm k (by simp) rfl
  have hb : k ∉ b := (List.nodup_cons.mp (List.nodup_append.mp hl).2.1).1
  obtain ⟨-, hc, ho⟩ := foldl_countDeficit a s
  rw [List.foldl_append, List.foldl_cons, (foldl_countDeficit b _).2.2 k hb, State.countDeficit_eq, State.onRack_rackDyn_same, hc, ho k ha]

/-! ### What the rest of an evaluation leaves -/

/-- The state but for the pump groups and the heat exchanger's counts, the motor channels and the lanes. -/
def State.offFlow (s : State) : State := { s with cool := { racks := s.cool.racks }, motors := [], laneA := {}, laneB := {} }

theorem State.eq_of_offFlow {s t : State} (h : t.offFlow = s.offFlow) :
    t = { s with cool := t.cool, motors := t.motors, laneA := t.laneA, laneB := t.laneB } ∧ t.cool.racks = s.cool.racks :=
  ⟨congrArg (fun x : State => { x with cool := t.cool, motors := t.motors, laneA := t.laneA, laneB := t.laneB }) h,
    (congrArg (fun x : State => x.cool.racks) h : t.offFlow.cool.racks = s.offFlow.cool.racks)⟩

theorem State.offFlow_ite {c : Prop} [Decidable c] (a b : State) : (if c then a else b).offFlow = if c then a.offFlow else b.offFlow :=
  apply_ite State.offFlow c a b

theorem State.onGroup_offFlow (s : State) (g : Nat) (f : GroupDyn → GroupDyn) : (s.onGroup g f).offFlow = s.offFlow := rfl
theorem State.setPermit_offFlow (s : State) (n : Nat) (on : Bool) : (s.setPermit n on).offFlow = s.offFlow := rfl
theorem State.countHx_offFlow (s : State) : s.countHx.offFlow = s.offFlow := rfl

theorem State.logLanes_offFlow (s : State) (c y : Nat) (u : U32) (d : List U32) (o : Option Nat) :
    (s.logLanes c y u d o).offFlow = s.offFlow := by rw [State.logLanes_eq]; rfl

theorem State.swapFailedLead_offFlow (s : State) (n : Nat) : (s.swapFailedLead n).offFlow = s.offFlow := by
  unfold State.swapFailedLead
  split
  · rfl
  · dsimp only
    split
    · rfl
    · split
      · rfl
      · rw [State.setPermit_offFlow, State.setPermit_offFlow]; rfl

theorem State.netFail_offFlow (s : State) (g : Nat) : (s.netFail g).offFlow = s.offFlow := by
  unfold State.netFail
  dsimp only
  split
  · rfl
  · split <;> simp only [State.offFlow_ite, State.setPermit_offFlow, State.onGroup_offFlow, State.logLanes_offFlow, ite_self]

theorem State.leadPermit_offFlow (s : State) (g : Nat) : (s.leadPermit g).offFlow = s.offFlow := by
  simp only [State.leadPermit, State.offFlow_ite, State.setPermit_offFlow, State.swapFailedLead_offFlow, ite_self]

theorem State.evalGroup_offFlow (s : State) (g : Nat) : (s.evalGroup g).offFlow = s.offFlow := by
  simp only [State.evalGroup, State.logLanes_offFlow, State.onGroup_offFlow, State.offFlow_ite, ite_self]
  split <;> simp only [State.logLanes_offFlow, State.onGroup_offFlow, State.offFlow_ite, State.netFail_offFlow, State.leadPermit_offFlow, ite_self]

theorem State.disarmGroups_offFlow (s : State) : s.disarmGroups.offFlow = s.offFlow :=
  foldl_keeps State.offFlow (fun t e => by simp only [State.offFlow_ite, State.onGroup_offFlow, ite_self]) _ s

/-- Settles O7: the racks are counted first, each by itself, and the rest of the evaluation leaves their entries. -/
theorem flowSupervisorCountsDeficit : Obligations.FlowSupervisorCountsDeficit := by
  unfold Obligations.FlowSupervisorCountsDeficit
  intro s hl hn ha
  obtain ⟨hf, -, -⟩ := foldl_countDeficit ((List.range 16).filter s.rackOn) s
  have hm (k : Fin 16) (hk : s.rackOn k.val) := foldl_countDeficit_mem (List.nodup_range.filter s.rackOn)
    (List.mem_filter.mpr ⟨List.mem_range.mpr k.isLt, hk⟩) s
  have hx : exec .flowSupervisorEval s = .next (((List.range 4).filter ((((List.range 16).filter s.rackOn).foldl State.countDeficit s).groupOn)).foldl
      State.evalGroup (((List.range 16).filter s.rackOn).foldl State.countDeficit s)).countHx.disarmGroups :=
    congrArg Host.Outcome.next (if_neg (by simp [hl, hn, ha]))
  generalize ((List.range 16).filter s.rackOn).foldl State.countDeficit s = u at *
  have ho : (((List.range 4).filter u.groupOn).foldl State.evalGroup u).countHx.disarmGroups.offFlow = u.offFlow := by
    rw [State.disarmGroups_offFlow, State.countHx_offFlow, foldl_keeps State.offFlow State.evalGroup_offFlow]
  generalize (((List.range 4).filter u.groupOn).foldl State.evalGroup u).countHx.disarmGroups = t at *
  obtain ⟨ht, hr⟩ := State.eq_of_offFlow ho
  refine ⟨t, hx, ?_, fun k q hk hq => ?_⟩
  · exact ht.trans (congrArg (fun x : State => { x with cool := t.cool, motors := t.motors, laneA := t.laneA, laneB := t.laneB }) hf)
  · have hd : t.rackDyn k.val = s.counted k.val (s.rackDyn k.val) := by rw [← hm k hk, State.rackDyn, hr]; rfl
    rw [hd]
    refine ⟨fun hrun hlow => ?_, fun hge => ?_⟩
    · have h : s.readsLow k.val = true := by simp [State.readsLow, hrun, hq, hlow]
      simp [State.counted, h, evals]
    · have h : s.readsLow k.val = false := by simp [State.readsLow, hq, hge]
      simp [State.counted, h]

end Sys2Proof.Machine
end

section
/-! SUPPORT. The fieldbus: message buffers, mapped entries and error states (14). -/

namespace Sys2Proof.Machine

/-! ### Channels, buffers and entries as tables -/

@[simp] theorem State.onCan_canChan_same (s : State) (c : Nat) (f : CanChan → CanChan) : (s.onCan c f).canChan c = f (s.canChan c) :=
  Tab.get_modify_same _ _ _ _

@[simp] theorem State.onCan_canChan_other (s : State) {c i : Nat} (h : i ≠ c) (f : CanChan → CanChan) :
    (s.onCan c f).canChan i = s.canChan i := Tab.get_modify_other _ _ _ h

@[simp] theorem State.onEntry_canChan (s : State) (e i : Nat) (f : EntryDyn → EntryDyn) : (s.onEntry e f).canChan i = s.canChan i := rfl
@[simp] theorem State.onCan_entryDyn (s : State) (c i : Nat) (f : CanChan → CanChan) : (s.onCan c f).entryDyn i = s.entryDyn i := rfl

@[simp] theorem State.onEntry_entryDyn_same (s : State) (e : Nat) (f : EntryDyn → EntryDyn) : (s.onEntry e f).entryDyn e = f (s.entryDyn e) :=
  Tab.get_modify_same _ _ _ _

@[simp] theorem State.onEntry_entryDyn_other (s : State) {e i : Nat} (h : i ≠ e) (f : EntryDyn → EntryDyn) :
    (s.onEntry e f).entryDyn i = s.entryDyn i := Tab.get_modify_other _ _ _ h

@[simp] theorem State.logRm_canChan (s : State) (c ty i : Nat) (x : U32) (d : List U32) (o : Nat) :
    (s.logRm c ty x d o).canChan i = s.canChan i := rfl

@[simp] theorem State.logRm_entryDyn (s : State) (c ty i : Nat) (x : U32) (d : List U32) (o : Nat) :
    (s.logRm c ty x d o).entryDyn i = s.entryDyn i := rfl

theorem CanChan.onBuf_same (x : CanChan) (b : Nat) (f : CanBuf → CanBuf) :
    Tab.get ({} : CanBuf) (x.onBuf b f).bufs b = f (Tab.get {} x.bufs b) := Tab.get_modify_same _ _ _ _

theorem CanChan.onBuf_other (x : CanChan) {b i : Nat} (h : i ≠ b) (f : CanBuf → CanBuf) :
    Tab.get ({} : CanBuf) (x.onBuf b f).bufs i = Tab.get {} x.bufs i := Tab.get_modify_other _ _ _ h

/-- A change of a channel whose buffers differ by a change of one. -/
theorem State.onCan_buf (s : State) (c b : Nat) (f : CanChan → CanChan) (g : CanBuf → CanBuf)
    (h : (f (s.canChan c)).bufs = ((s.canChan c).onBuf b g).bufs) :
    Tab.get ({} : CanBuf) ((s.onCan c f).canChan c).bufs b = g (Tab.get {} (s.canChan c).bufs b) := by
  rw [State.onCan_canChan_same, h]
  exact CanChan.onBuf_same _ _ _

/-! ### Only the fieldbus and the log -/

/-- Nothing but the fieldbus and Ringmaster records differs. -/
def State.BusLog (s t : State) : Prop := t = { s with bus := t.bus, evt := t.evt }

theorem State.BusLog.refl (s : State) : s.BusLog s := rfl

theorem State.BusLog.trans {s t u : State} (h : s.BusLog t) (h' : t.BusLog u) : s.BusLog u :=
  Eq.trans h' (congrArg (fun x : State => { x with bus := u.bus, evt := u.evt }) h)

theorem State.busLog_onCan (s : State) (c : Nat) (f : CanChan → CanChan) : s.BusLog (s.onCan c f) := rfl
theorem State.busLog_onEntry (s : State) (e : Nat) (f : EntryDyn → EntryDyn) : s.BusLog (s.onEntry e f) := rfl
theorem State.busLog_logRm (s : State) (c ty : Nat) (x : U32) (d : List U32) (o : Nat) : s.BusLog (s.logRm c ty x d o) := rfl

theorem State.logEntry_cases (s : State) (e : Nat) (was : Bool) :
    s.logEntry e was = if !was && (s.entryDyn e).fault then s.logRm Cls.warning 0x0805 (w32 e) [] else s := rfl

theorem State.busLog_logEntry (s : State) (e : Nat) (was : Bool) : s.BusLog (s.logEntry e was) := by
  rw [State.logEntry_cases]; split
  · exact s.busLog_logRm _ _ _ _ _
  · exact .refl s

@[simp] theorem State.logEntry_canChan (s : State) (e i : Nat) (was : Bool) : (s.logEntry e was).canChan i = s.canChan i := by
  rw [State.logEntry_cases]; split <;> rfl

@[simp] theorem State.logEntry_entryDyn (s : State) (e i : Nat) (was : Bool) : (s.logEntry e was).entryDyn i = s.entryDyn i := by
  rw [State.logEntry_cases]; split <;> rfl

/-- The mapping engine leaves every channel, and changes entries and the log alone. -/
theorem State.mapFrame_frame (s : State) (c : Nat) (f : CanFrame) :
    s.BusLog (s.mapFrame c f) ∧ ∀ i, (s.mapFrame c f).canChan i = s.canChan i := by
  unfold State.mapFrame
  generalize s.cfg.entries.filter _ = l
  induction l generalizing s with
  | nil => exact ⟨.refl s, fun _ => rfl⟩
  | cons e l ih =>
    obtain ⟨hf, hc⟩ := ih ((s.onEntry e.1 fun d => e.2.receive d f).logEntry e.1 (s.entryDyn e.1).fault)
    rw [List.foldl_cons]
    exact ⟨((s.busLog_onEntry _ _).trans (State.busLog_logEntry _ _ _)).trans hf, fun i => (hc i).trans (by simp)⟩

/-! ### Reception and the lock -/

/-- The channel after one more good reception. -/
def CanChan.receivedOne (x : CanChan) : CanChan := { x.good true with rxFrames := satTo 32 (x.rxFrames + 1) }

theorem CanChan.receivedOne_bufs (x : CanChan) : x.receivedOne.bufs = x.bufs := by
  unfold CanChan.receivedOne CanChan.good
  rw [apply_ite CanChan.bufs]
  exact ite_self x.bufs

/-- The channel with what a frame makes of buffer `b`, and whether it overran it. -/
def CanChan.putBuf (b : Nat) (y : CanBuf × Bool) (x : CanChan) : CanChan :=
  { x.onBuf b (fun _ => y.1) with overruns := if y.2 then satTo 32 (x.overruns + 1) else x.overruns }

theorem CanChan.putBuf_same (b : Nat) (y : CanBuf × Bool) (x : CanChan) : Tab.get ({} : CanBuf) (x.putBuf b y).bufs b = y.1 :=
  CanChan.onBuf_same x b fun _ => y.1

theorem CanChan.putBuf_other {b i : Nat} (h : i ≠ b) (y : CanBuf × Bool) (x : CanChan) :
    Tab.get ({} : CanBuf) (x.putBuf b y).bufs i = Tab.get {} x.bufs i := CanChan.onBuf_other x h fun _ => y.1

/-- A data frame that a live channel takes and whose first matching filter is that of buffer `b`. -/
theorem exec_canFrameReceived_match {c : Fin 16} {f : CanFrame} {s : State} {b : Nat} (hl : (s.canChan c.val).state.live)
    (hfd : f.fdf = true → (s.canRec c.val).fd = true) (hr : f.rtr = false)
    (hb : (List.range 64).find? (fun i => (Tab.get ({} : CanFilter) (s.canRec c.val).filters i).matchesFrame f) = some b) :
    exec (.canFrameReceived c f) s =
      .next (((s.onCan c.val CanChan.receivedOne).onCan c.val (CanChan.putBuf b
        ((Tab.get ({} : CanBuf) ((s.onCan c.val CanChan.receivedOne).canChan c.val).bufs b).take f))).mapFrame c.val f) := by
  have hd : (s.canChan c.val).state ≠ .detecting := by intro h; rw [h] at hl; exact absurd hl (by decide)
  have hf : ¬ (f.fdf ∧ !(s.canRec c.val).fd) := by simpa using hfd
  simp only [exec, execCanFrameReceived, hd, hl, hf, hr, hb]
  rfl

/-- Its effect on the channel: the frame taken into that buffer. -/
theorem canFrameReceived_match {c : Fin 16} {f : CanFrame} {s : State} {b : Nat} (hl : (s.canChan c.val).state.live)
    (hfd : f.fdf = true → (s.canRec c.val).fd = true) (hr : f.rtr = false)
    (hb : (List.range 64).find? (fun i => (Tab.get ({} : CanFilter) (s.canRec c.val).filters i).matchesFrame f) = some b) :
    ∃ t, exec (.canFrameReceived c f) s = .next t ∧ s.BusLog t ∧ (∀ i, i ≠ c.val → t.canChan i = s.canChan i) ∧
      (t.canChan c.val).rxFrames = satTo 32 ((s.canChan c.val).rxFrames + 1) ∧
      Tab.get ({} : CanBuf) (t.canChan c.val).bufs b = ((Tab.get ({} : CanBuf) (s.canChan c.val).bufs b).take f).1 ∧
      ∀ i, i ≠ b → Tab.get ({} : CanBuf) (t.canChan c.val).bufs i = Tab.get ({} : CanBuf) (s.canChan c.val).bufs i := by
  refine ⟨_, exec_canFrameReceived_match hl hfd hr hb, ?_, fun i hi => ?_, ?_, ?_, fun i hi => ?_⟩
  · exact ((s.busLog_onCan _ _).trans (State.busLog_onCan _ _ _)).trans (State.mapFrame_frame _ _ _).1
  · rw [(State.mapFrame_frame _ _ _).2]; simp [hi]
  · rw [(State.mapFrame_frame _ _ _).2, State.onCan_canChan_same, State.onCan_canChan_same]
    rfl
  · rw [(State.mapFrame_frame _ _ _).2, State.onCan_canChan_same, State.onCan_canChan_same, CanChan.putBuf_same, CanChan.receivedOne_bufs]
  · rw [(State.mapFrame_frame _ _ _).2, State.onCan_canChan_same, State.onCan_canChan_same, CanChan.putBuf_other hi, CanChan.receivedOne_bufs]

theorem CanBuf.take_of_unlocked {x : CanBuf} (h : x.locked = false) (f : CanFrame) :
    (x.take f).1 = { x with count := x.count + 1, content := some (x.count + 1, f) } := by
  unfold CanBuf.take
  simp only [h]
  rfl

theorem CanBuf.take_of_locked {x : CanBuf} (h : x.locked = true) (hs : x.shadow = none) (f : CanFrame) :
    (x.take f).1 = { x with count := x.count + 1, shadow := some (x.count + 1, f) } := by
  unfold CanBuf.take
  simp only [h, hs]
  rfl

theorem CanBuf.unlock_of_locked {x : CanBuf} (h : x.locked = true) :
    x.unlock = { x with locked := false, content := if x.shadow.isSome then x.shadow else x.content, shadow := none
                        droppedSeen := x.dropped, dropped := 0 } := by
  have hs : (x.shadow <|> x.content) = if x.shadow.isSome then x.shadow else x.content := by cases x.shadow <;> rfl
  rw [← hs]
  exact if_neg (by simp [h])

/-- A read of a buffer's word: the channel as `f` leaves it, the word on the read data lines. -/
def State.readBuf (s : State) (c : Nat) (f : CanChan → CanChan) (r : U64) : State :=
  { s.onCan c f with hif := { s.hif with rdata := r } }

theorem State.readBuf_frame (s : State) (c : Nat) (f : CanChan → CanChan) (r : U64) :
    s.readBuf c f r = { s with bus := (s.readBuf c f r).bus, hif := { s.hif with rdata := (s.readBuf c f r).hif.rdata } } := rfl

theorem State.readBuf_canChan (s : State) (c i : Nat) (f : CanChan → CanChan) (r : U64) :
    (s.readBuf c f r).canChan i = (s.onCan c f).canChan i := rfl

theorem State.readBuf_rdata (s : State) (c : Nat) (f : CanChan → CanChan) (r : U64) : (s.readBuf c f r).hif.rdata = r := rfl

theorem exec_canBufferLock (c : Fin 16) (b : Fin 64) (s : State) :
    exec (.canBufferLock c b) s =
      .next (s.readBuf c.val (fun x => x.onBuf b.val fun y => { y with locked := true, lockAt := s.now })
        (((Tab.get ({} : CanBuf) (s.canChan c.val).bufs b.val).words.getD 0 0).setWidth 64)) := rfl

theorem exec_canBufferRelease (c : Fin 16) (b : Fin 64) (s : State) :
    exec (.canBufferRelease c b) s =
      .next (s.readBuf c.val (fun x => x.onBuf b.val fun y => { y.unlock with expired := false })
        (((Tab.get ({} : CanBuf) (s.canChan c.val).bufs b.val).words.getD 20 0).setWidth 64)) := rfl

/-- Settles O19: reception by `canFrameReceived_match`, the lock and its two ends on the one buffer. -/
theorem canMessageBuffers : Obligations.CanMessageBuffers := by
  unfold Obligations.CanMessageBuffers
  refine ⟨fun c f s b hl hfd hr hb hk => ?_, fun c f s b hl hfd hr hb hk hsh => ?_, fun c b s => ?_, fun c b s x hx hk => ?_,
    fun c b s x hx hk hat => ?_⟩
  · obtain ⟨t, h, hf, ho, hn, hbuf, hob⟩ := canFrameReceived_match hl hfd hr hb
    exact ⟨t, h, hf, by rw [hbuf, CanBuf.take_of_unlocked hk], hob, hn, ho⟩
  · obtain ⟨t, h, -, -, -, hbuf, -⟩ := canFrameReceived_match hl hfd hr hb
    rw [CanBuf.take_of_locked hk hsh] at hbuf
    exact ⟨t, h, by rw [hbuf], by rw [hbuf]⟩
  · refine ⟨_, exec_canBufferLock c b s, State.readBuf_frame _ _ _ _, ?_, State.readBuf_rdata _ _ _ _, fun i hi => ?_⟩
    · rw [State.readBuf_canChan]
      exact State.onCan_buf s c.val b.val _ (fun y => { y with locked := true, lockAt := s.now }) (by rfl)
    · rw [State.readBuf_canChan, State.onCan_canChan_other s hi]
  · subst hx
    have h := State.onCan_buf s c.val b.val (fun x => x.onBuf b.val fun y => { y.unlock with expired := false })
      (fun y => { y.unlock with expired := false }) rfl
    rw [CanBuf.unlock_of_locked hk] at h
    refine ⟨_, exec_canBufferRelease c b s, State.readBuf_frame _ _ _ _, ?_, ?_, ?_, ?_, State.readBuf_rdata _ _ _ _, fun i hi => ?_⟩
    · exact congrArg CanBuf.locked h
    · exact congrArg CanBuf.expired h
    · exact congrArg CanBuf.content h
    · exact congrArg CanBuf.droppedSeen h
    · rw [State.readBuf_canChan, State.onCan_canChan_other s hi]
  · have h := State.onCan_buf s c.val b.val (fun x => { x.onBuf b.val (fun y => { y.unlock with expired := true }) with
        lockExpiries := satTo 16 (x.lockExpiries + 1) }) (fun y => { y.unlock with expired := true }) rfl
    rw [← hx, CanBuf.unlock_of_locked hk] at h
    exact ⟨_, congrArg Host.Outcome.next (if_pos (by rw [← hx]; simp [hk, hat])), rfl, congrArg CanBuf.locked h,
      congrArg CanBuf.expired h, congrArg CanBuf.content h, congrArg CanChan.lockExpiries (State.onCan_canChan_same s c.val _),
      fun i hi => State.onCan_canChan_other s hi _⟩

end Sys2Proof.Machine
end

section
/-! SUPPORT. Mapped entries, error states and rate detection of the fieldbus (14). -/

namespace Sys2Proof.Machine

/-! ### A pass over mapped entries -/

/-- A pass that changes entries leaves everything but the entries. -/
theorem foldl_onEntry_frame {α : Type} (e : α → Nat) (f : State → α → EntryDyn → EntryDyn) (l : List α) (s : State) :
    l.foldl (fun (s : State) x => s.onEntry (e x) (f s x)) s =
      { s with bus := { s.bus with entries := (l.foldl (fun (s : State) x => s.onEntry (e x) (f s x)) s).bus.entries } } := by
  induction l generalizing s with
  | nil => rfl
  | cons x l ih => rw [List.foldl_cons, ih]; rfl

/-- What every change of a pass sets, an entry of the pass has afterwards. -/
theorem foldl_onEntry_sets {α : Type} (e : α → Nat) (f : State → α → EntryDyn → EntryDyn) {P : EntryDyn → Prop}
    (hP : ∀ s x d, P (f s x d))
    {l : List α} {n : Nat} (s : State) (h : P (s.entryDyn n) ∨ ∃ x ∈ l, e x = n) :
    P ((l.foldl (fun (s : State) x => s.onEntry (e x) (f s x)) s).entryDyn n) := by
  induction l generalizing s with
  | nil => simpa using h
  | cons x l ih =>
    rw [List.foldl_cons]
    refine ih _ ?_
    by_cases hx : n = e x
    · exact .inl (by rw [hx, State.onEntry_entryDyn_same]; exact hP _ _ _)
    · rw [State.onEntry_entryDyn_other _ hx]
      obtain h | ⟨y, hy, hn⟩ := h
      · exact .inl h
      · obtain rfl | hy := List.mem_cons.mp hy
        · exact absurd hn.symm hx
        · exact .inr ⟨y, hy, hn⟩

/-- What every change of a pass keeps, it keeps. -/
theorem foldl_onEntry_keeps {α β : Type} (e : α → Nat) (f : State → α → EntryDyn → EntryDyn) (g : EntryDyn → β)
    (hg : ∀ s x d, g (f s x d) = g d)
    (l : List α) (n : Nat) (s : State) :
    g ((l.foldl (fun (s : State) x => s.onEntry (e x) (f s x)) s).entryDyn n) = g (s.entryDyn n) :=
  foldl_keeps (fun s : State => g (s.entryDyn n)) (fun t x => by
    by_cases hx : n = e x
    · subst hx; simp [hg]
    · simp [hx]) l s

/-- An OUT entry is part of its own frame. -/
theorem State.mem_frameMates {s : State} {e : Nat} (h : (s.entryRec e).dir = 2) : (e, s.entryRec e) ∈ s.frameMates e := by
  have hm : (e, s.entryRec e) ∈ s.cfg.entries := Tab.mem_of_get_ne fun h0 => by
    rw [show s.entryRec e = {} from h0] at h; exact absurd h (by decide)
  exact List.mem_filter.mpr ⟨hm, by simp [h]⟩

/-! ### The rows of mapped entries -/

/-- An OUT frame handed to its controller. -/
def State.handOver (s : State) (e : Nat) : State :=
  (s.frameMates e).foldl (fun (s : State) x => s.onEntry x.1 fun d => { d with txFail := true, handed := some s.now }) s

theorem State.handOver_frame (s : State) (e : Nat) : s.handOver e = { s with bus := { s.bus with entries := (s.handOver e).bus.entries } } :=
  foldl_onEntry_frame (fun x : Nat × EntryRec => x.1) (fun s _ d => { d with txFail := true, handed := some s.now }) (s.frameMates e) s

theorem State.handOver_frameData (s : State) (e i : Nat) : (s.handOver e).frameData i = s.frameData i := by
  have ho (n : Nat) : ((s.handOver e).entryDyn n).outVal = (s.entryDyn n).outVal :=
    foldl_onEntry_keeps (fun x : Nat × EntryRec => x.1) (fun s _ d => { d with txFail := true, handed := some s.now }) EntryDyn.outVal
      (fun _ _ _ => rfl) (s.frameMates e) n s
  have he (n : Nat) : (s.handOver e).entryOut n = s.entryOut n := by
    unfold State.entryOut
    rw [ho n, s.handOver_frame e]
    rfl
  unfold State.frameData
  simp only [he]
  rw [s.handOver_frame e]
  rfl

/-- The frames handed over: `rest`, and that of an entry of record `r` with `data`. -/
def State.sendOut (s : State) (r : EntryRec) (rest : List (Nat × Bool × Nat × List Byte)) (data : List Byte) : State :=
  { s with bus := { s.bus with sent := rest ++ [(r.channel, r.ide, r.ident, data)] } }

theorem State.sendOut_frame (s : State) (r : EntryRec) (rest : List (Nat × Bool × Nat × List Byte)) (data : List Byte) :
    s.sendOut r rest data = { s with bus := { s.bus with sent := (s.sendOut r rest data).bus.sent } } := rfl

theorem exec_canOutSend_of_due {e : Nat} {s : State} (hd : (s.entryRec e).dir = 2) (ho : (s.entryOut e).isSome)
    (hh : ∀ h, (s.entryDyn e).handed = some h → h + (s.entryRec e).timing ≤ s.now) (hl : (s.canChan (s.entryRec e).channel).state.live) :
    exec (.canOutSend e) s = .next ((s.handOver e).sendOut (s.entryRec e) (s.bus.sent.filter fun (x : Nat × Bool × Nat × List Byte) =>
      !(x.1 = (s.entryRec e).channel && x.2.1 = (s.entryRec e).ide && x.2.2.1 = (s.entryRec e).ident)) (s.frameData e)) := by
  have hn : ¬ ((s.entryRec e).dir ≠ 2 ∨ (s.frameMates e).all (fun x => (s.entryOut x.1).isNone) ∨
      (s.entryDyn e).handed.any (fun x => decide (s.now < x + (s.entryRec e).timing))) := by
    rintro (h | h | h)
    · exact h hd
    · have := List.all_eq_true.mp h _ (State.mem_frameMates hd)
      simp [Option.isNone_iff_eq_none] at this
      simp [this] at ho
    · obtain ⟨x, hx, hlt⟩ := (Option.any_eq_true _ _).mp h
      exact absurd (of_decide_eq_true hlt) (Nat.not_lt.mpr (hh x hx))
  have hlive : (!((s.handOver e).canChan (s.entryRec e).channel).state.live) = false := by
    rw [s.handOver_frame e]; exact congrArg (!·) hl
  refine congrArg Host.Outcome.next ((if_neg hn).trans ?_)
  refine (if_neg (c := (!((s.handOver e).canChan (s.entryRec e).channel).state.live) = true) (by simp [hlive])).trans ?_
  change (s.handOver e).sendOut (s.entryRec e) ((s.handOver e).bus.sent.filter _) ((s.handOver e).frameData e) = _
  rw [s.handOver_frameData, show (s.handOver e).bus.sent = s.bus.sent by rw [s.handOver_frame e]]

/-- A frame that has gone out: no longer handed over, and counted on its channel. -/
def State.sentOut (s : State) (c : Nat) (x : Nat × Bool × Nat × List Byte) : State :=
  ({ s with bus := { s.bus with sent := s.bus.sent.filter fun y => y ≠ x } } : State).onCan c fun y =>
    { y.good false with txFrames := satTo 32 (y.txFrames + 1) }

theorem State.sentOut_txFrames (s : State) (c : Nat) (x : Nat × Bool × Nat × List Byte) :
    ((s.sentOut c x).canChan c).txFrames = satTo 32 ((s.canChan c).txFrames + 1) := by
  rw [State.sentOut, State.onCan_canChan_same]
  rfl

theorem exec_canFrameSent_of_sent {e : Nat} {s : State} {x : Nat × Bool × Nat × List Byte} (hd : (s.entryRec e).dir = 2)
    (hl : (s.canChan (s.entryRec e).channel).state.live)
    (hx : s.bus.sent.find? (fun x => x.1 = (s.entryRec e).channel && x.2.1 = (s.entryRec e).ide && x.2.2.1 = (s.entryRec e).ident) = some x) :
    exec (.canFrameSent e) s = .next ((s.frameMates e).foldl (fun (s : State) m => s.onEntry m.1 fun d =>
      { d with txFail := false, age := 0, value := m.2.value (m.2.rawAt x.2.2.2) }) (s.sentOut (s.entryRec e).channel x)) := by
  have hn : ¬ ((s.entryRec e).dir ≠ 2 ∨ !(s.canChan (s.entryRec e).channel).state.live) := by simp [hd, hl]
  simp only [exec, execCanFrameSent, hx, if_neg hn]
  rfl

/-- The record of discards leaves the count of ignored frames and every other channel. -/
theorem State.logBusDiscard_frame (s : State) (c : Nat) :
    s.BusLog (s.logBusDiscard c) ∧ ((s.logBusDiscard c).canChan c).fdIgnored = (s.canChan c).fdIgnored ∧
      ∀ i, i ≠ c → (s.logBusDiscard c).canChan i = s.canChan i := by
  unfold State.logBusDiscard
  dsimp only
  split
  · exact ⟨.refl s, rfl, fun _ _ => rfl⟩
  · refine ⟨(s.busLog_onCan _ _).trans (State.busLog_logRm _ _ _ _ _ _), ?_, fun i hi => ?_⟩
    · rw [State.logRm_canChan, State.onCan_canChan_same]
    · rw [State.logRm_canChan, State.onCan_canChan_other s hi]

/-- Settles O20: the entry's own change, then the reads of the tables. -/
theorem canMappedEntries : Obligations.CanMappedEntries := by
  unfold Obligations.CanMappedEntries
  refine ⟨fun e s hd ha => ?_, fun e s hd ho hh hl => ?_, fun e s x hd hl hx => ?_, fun c s hl hfd => ?_⟩
  · refine ⟨_, congrArg Host.Outcome.next (if_pos ⟨hd, ha⟩), (s.busLog_onEntry _ _).trans (State.busLog_logEntry _ _ _), by simp,
      fun i hi => by simp [hi], ?_⟩
    rw [State.logEntry_cases]
    cases (s.entryDyn e).fault <;> simp [EntryDyn.fault] <;> rfl
  · refine ⟨_, exec_canOutSend_of_due hd ho hh hl, ?_, ?_, ?_, ?_⟩
    · rw [State.sendOut_frame, s.handOver_frame e]
    · exact foldl_onEntry_sets (fun x : Nat × EntryRec => x.1) (fun s _ d => { d with txFail := true, handed := some s.now })
        (P := fun d => d.txFail = true) (fun _ _ _ => rfl) s (.inr ⟨_, State.mem_frameMates hd, rfl⟩)
    · exact List.mem_append_right _ (List.mem_singleton.mpr rfl)
    · rw [State.sendOut_frame, s.handOver_frame e]
  · refine ⟨_, exec_canFrameSent_of_sent hd hl hx, ?_, ?_, ?_, ?_, ?_⟩
    · rw [foldl_onEntry_frame (fun m : Nat × EntryRec => m.1)]; rfl
    · exact foldl_onEntry_sets (fun m : Nat × EntryRec => m.1) _ (P := fun d => d.txFail = false) (fun _ _ _ => rfl) _
        (.inr ⟨_, State.mem_frameMates hd, rfl⟩)
    · exact foldl_onEntry_sets (fun m : Nat × EntryRec => m.1) _ (P := fun d => d.age = 0) (fun _ _ _ => rfl) _
        (.inr ⟨_, State.mem_frameMates hd, rfl⟩)
    · rw [foldl_onEntry_frame (fun m : Nat × EntryRec => m.1)]
      exact fun h => absurd rfl (of_decide_eq_true (List.mem_filter.mp h).2)
    · rw [foldl_onEntry_frame (fun m : Nat × EntryRec => m.1)]
      exact s.sentOut_txFrames (s.entryRec e).channel x
  · refine ⟨_, congrArg Host.Outcome.next (if_pos (by simp [hl, hfd])), ?_⟩
    obtain ⟨hb, hn, ho⟩ := (s.onCan c.val fun x => { x with fdIgnored := satTo 16 (x.fdIgnored + 1) }).logBusDiscard_frame c.val
    refine ⟨(s.busLog_onCan _ _).trans hb, hn.trans ?_, fun i hi => (ho i hi).trans (State.onCan_canChan_other s hi _)⟩
    rw [State.onCan_canChan_same]

/-! ### Error states and rate detection -/

theorem State.failOut_frame (s : State) (c : Nat) :
    s.failOut c = { s with bus := { s.bus with entries := (s.failOut c).bus.entries } } :=
  foldl_onEntry_frame (fun e : Nat × EntryRec => e.1) (fun _ _ d => { d with txFail := true }) _ s

theorem State.failOut_canChan (s : State) (c i : Nat) : (s.failOut c).canChan i = s.canChan i := by rw [s.failOut_frame c]; rfl

/-- The times of a channel's BUS_OFFs within the last 10 s, with one now. -/
def State.busOffTimes (s : State) (c : Nat) : List Nat := s.now :: (s.canChan c).recent.filter fun e => s.now < e + 100000

/-- What a BUS_OFF makes of its channel, by its times; the ninth within 10 s holds it off. -/
def CanChan.busOffAt (recent : List Nat) (x : CanChan) : CanChan :=
  { x with state := if decide (9 ≤ recent.length) then .heldOff else .busOff, tec := 255, busOffs := satTo 32 (x.busOffs + 1), recent := recent }

/-- A live channel goes bus-off, its OUT entries failing, with its record. -/
def State.goBusOff (s : State) (c : Nat) : State :=
  ((s.onCan c (CanChan.busOffAt (s.busOffTimes c))).failOut c).logRm Cls.alarm 0x0802 (w32 c) []

theorem State.goBusOff_frame (s : State) (c : Nat) :
    s.goBusOff c = ({ s with bus := (s.goBusOff c).bus } : State).logRm Cls.alarm 0x0802 (w32 c) [] := by
  unfold State.goBusOff
  rw [State.failOut_frame]
  rfl

theorem State.goBusOff_same (s : State) (c : Nat) : (s.goBusOff c).canChan c = (s.canChan c).busOffAt (s.busOffTimes c) := by
  rw [State.goBusOff, State.logRm_canChan, State.failOut_canChan, State.onCan_canChan_same]

theorem State.goBusOff_other (s : State) {c i : Nat} (h : i ≠ c) : (s.goBusOff c).canChan i = s.canChan i := by
  rw [State.goBusOff, State.logRm_canChan, State.failOut_canChan, State.onCan_canChan_other s h]

theorem exec_busOff_of_live {c : Fin 16} {s : State} (hl : (s.canChan c.val).state.live) :
    exec (.busOff c) s = .next (if decide (9 ≤ (s.busOffTimes c.val).length)
      then (s.goBusOff c.val).logRm Cls.alarm 0x0804 (w32 c.val) [] else s.goBusOff c.val) :=
  congrArg Host.Outcome.next (if_neg (by simp [hl]))

/-- A detection over: its channel resumes. -/
def State.detectionOver (s : State) (a : Autobaud) : State :=
  ({ s with bus := { s.bus with autobaud := s.bus.autobaud.filter fun (x : Autobaud) => x.channel ≠ a.channel } } : State).onCan a.channel fun x =>
    { x with state := if a.was = .off then .off else .active, tec := 0, recc := 0 }

/-- A detection that ends without a record to apply. -/
theorem State.endAutobaud_nil (s : State) (a : Autobaud) (r0 : Nat) :
    s.endAutobaud a r0 [] = (s.detectionOver a).finish a.cmd { Reply.done with r0 := w32 r0, save := [] } := rfl

/-- A candidate whose time is over, by an error or by its dwell. -/
theorem Autobaud.dwelt {a : Autobaud} {error : Bool} {now : Nat} (h : error = true ∨ a.since + 10 * a.dwell ≤ now) :
    (!error && decide (now < a.since + 10 * a.dwell)) = false := by
  obtain h | h := h
  · simp [h]
  · simp [Nat.not_lt.mpr h]

/-- Settles O21: each guard met, then the one channel's change; a rate detection by `endAutobaud`. -/
theorem canErrorStates : Obligations.CanErrorStates := by
  unfold Obligations.CanErrorStates
  refine ⟨fun c tec rec_ s hs => ?_, fun c s hl hn => ?_, fun c s hl hn => ?_, fun c s hs ha => ?_, fun c s hs hr => ?_,
    fun c error s a ha hc hf hp he => ?_, fun c error s a r ha hc hap hf hrun hasy hdrop => ?_⟩
  · exact ⟨_, congrArg Host.Outcome.next (if_pos hs), rfl, by simp, fun i hi => by simp [hi]⟩
  · have hd : decide (9 ≤ (s.busOffTimes c.val).length) = false := decide_eq_false (Nat.not_le.mpr (Nat.succ_lt_succ hn))
    have h := exec_busOff_of_live hl
    rw [hd, if_neg Bool.false_ne_true] at h
    refine ⟨_, h, s.goBusOff_frame c.val, ?_, ?_, fun i hi => s.goBusOff_other hi⟩
    · rw [s.goBusOff_same, CanChan.busOffAt, hd]; rfl
    · rw [s.goBusOff_same]; rfl
  · have hd : decide (9 ≤ (s.busOffTimes c.val).length) = true := decide_eq_true (Nat.succ_le_succ hn)
    have h := exec_busOff_of_live hl
    rw [hd, if_pos rfl] at h
    refine ⟨_, h, congrArg (fun x : State => x.logRm Cls.alarm 0x0804 (w32 c.val) []) (s.goBusOff_frame c.val), ?_,
      fun i hi => s.goBusOff_other hi⟩
    exact congrArg CanChan.state (s.goBusOff_same c.val) |>.trans (by rw [CanChan.busOffAt, hd]; rfl)
  · exact ⟨_, congrArg Host.Outcome.next (if_pos ⟨hs, ha⟩), rfl, by simp, fun i hi => by simp [hi]⟩
  · exact ⟨_, congrArg Host.Outcome.next (if_pos ⟨hs, hr⟩), rfl, by simp, fun i hi => by simp [hi]⟩
  · have h : exec (.autobaudCandidateEnd c error) s = .next { s with bus := { s.bus with
        autobaud := s.bus.autobaud.map fun (x : Autobaud) =>
          if x.channel = a.channel then { x with present := x.present + 1, frames := 0, brs := false, since := s.now } else x } } := by
      simp [exec, execAutobaudCandidateEnd, ha, hc, Nat.not_le.mpr hf, Autobaud.dwelt he, hp]
    refine ⟨_, h, ?_⟩
    simp [ha]
  · have h : exec (.autobaudCandidateEnd c error) s =
        .next (s.endAutobaud a (if a.framesNeeded ≤ a.frames then a.present + 256 * flag a.brs + 65536 * satTo 16 a.frames else 0xFF) []) := by
      by_cases hf' : a.framesNeeded ≤ a.frames
      · simp [exec, execAutobaudCandidateEnd, ha, hc, hap, hf']
      · obtain ⟨hp, he⟩ := hf.resolve_left hf'
        simp [exec, execAutobaudCandidateEnd, ha, hc, hf', Autobaud.dwelt he, Nat.not_lt.mpr hp]
    have hid : r.packet.id = a.cmd := of_decide_eq_true (List.find?_some (p := fun x : Running => decide (x.packet.id = a.cmd)) hrun)
    refine ⟨_, h, ?_⟩
    rw [State.endAutobaud_nil, ← hid, State.finish_replies (s := s.detectionOver a) (by rw [hid]; exact hrun) hasy hdrop]
    refine ⟨?_, ?_, rfl⟩
    · simp [State.detectionOver, State.onCan, ha]
    · rw [← hc]
      exact congrArg CanChan.state (State.onCan_canChan_same _ a.channel _)

end Sys2Proof.Machine
end

section
/-! SUPPORT. The valve drive: what the named operations on its channels change (12). -/

namespace Sys2Proof.Machine

/-! ### What the channels' operations leave -/

/-- The state but for the valve channels and commands, the completions with their configuration, and the log. -/
def State.offChans (s : State) : State :=
  { s with valve := { supplies := s.valve.supplies, v24 := s.valve.v24 }, proto := {}, nor := {}, evt := {} }

section
variable {s t : State} (h : t.offChans = s.offChans)
include h
theorem State.valveFrame_of_offChans : ValveFrame s t := by
  unfold ValveFrame
  exact congrArg (fun x : State => { x with valve := t.valve, proto := t.proto, nor := t.nor, evt := t.evt }) h
theorem State.supply_of_offChans (q : Nat) : t.supply q = s.supply q :=
  (congrArg (fun x : State => x.supply q) h : t.offChans.supply q = s.offChans.supply q)
theorem State.v24_of_offChans : t.valve.v24 = s.valve.v24 := (congrArg (fun x : State => x.valve.v24) h : t.offChans.valve.v24 = s.offChans.valve.v24)
theorem State.cfg_of_offChans : t.cfg = s.cfg := (congrArg State.cfg h : t.offChans.cfg = s.offChans.cfg)
end

theorem State.offChans_ite {c : Prop} [Decidable c] (a b : State) : (if c then a else b).offChans = if c then a.offChans else b.offChans :=
  apply_ite State.offChans c a b

@[simp] theorem State.onValve_offChans (s : State) (v : Nat) (f : Valve → Valve) : (s.onValve v f).offChans = s.offChans := rfl
@[simp] theorem State.logRm_offChans (s : State) (c y : Nat) (u : U32) (d : List U32) (o : Nat) : (s.logRm c y u d o).offChans = s.offChans := rfl
@[simp] theorem State.onValveCmds_offChans (s : State) (f : ValveCmd → ValveCmd) : (s.onValveCmds f).offChans = s.offChans := rfl
@[simp] theorem State.startPullIn_offChans (s : State) (v : Nat) (d : Bool) : (s.startPullIn v d).offChans = s.offChans := rfl

/-- The state but for the valve channels. -/
def State.sansChans (s : State) : State := { s with valve := { s.valve with chans := [] } }

theorem State.offChans_of_sansChans {s t : State} (h : t.sansChans = s.sansChans) : t.offChans = s.offChans :=
  (congrArg State.offChans h : t.sansChans.offChans = s.sansChans.offChans)

section
variable {s t : State} (h : t.sansChans = s.sansChans)
include h
theorem State.proto_of_sansChans : t.proto = s.proto := (congrArg State.proto h : t.sansChans.proto = s.sansChans.proto)
theorem State.evt_of_sansChans : t.evt = s.evt := (congrArg State.evt h : t.sansChans.evt = s.sansChans.evt)
theorem State.cmds_of_sansChans : t.valve.cmds = s.valve.cmds :=
  (congrArg (fun x : State => x.valve.cmds) h : t.sansChans.valve.cmds = s.sansChans.valve.cmds)
end

theorem State.sansChans_ite {c : Prop} [Decidable c] (a b : State) : (if c then a else b).sansChans = if c then a.sansChans else b.sansChans :=
  apply_ite State.sansChans c a b

theorem State.onValve_sansChans (s : State) (v : Nat) (f : Valve → Valve) : (s.onValve v f).sansChans = s.sansChans := rfl
theorem State.startPullIn_sansChans (s : State) (v : Nat) (d : Bool) : (s.startPullIn v d).sansChans = s.sansChans := rfl
theorem State.deferValve_sansChans (s : State) (v : Nat) : (s.deferValve v).sansChans = s.sansChans := rfl
theorem State.cutToHold_sansChans (s : State) (p v : Nat) : (s.cutToHold p v).sansChans = s.sansChans := rfl

theorem State.startOnRail_sansChans (s : State) (v : Nat) (d : ValveDue) : (s.startOnRail v d).sansChans = s.sansChans := by
  simp only [State.startOnRail, State.sansChans_ite, State.startPullIn_sansChans, State.onValve_sansChans, ite_self]

theorem foldl_cutToHold_sansChans (l : List Nat) (v : Nat) (s : State) :
    (l.foldl (fun (s : State) p => s.cutToHold p v) s).sansChans = s.sansChans :=
  foldl_keeps State.sansChans (fun t p => t.cutToHold_sansChans p v) l s

theorem State.tryStart_sansChans (s : State) (v : Nat) : (s.tryStart v).sansChans = s.sansChans := by
  unfold State.tryStart
  dsimp only
  split
  · rfl
  · simp only [State.sansChans_ite, State.startOnRail_sansChans, State.deferValve_sansChans, foldl_cutToHold_sansChans, ite_self]

@[simp] theorem State.tryStart_offChans (s : State) (v : Nat) : (s.tryStart v).offChans = s.offChans :=
  State.offChans_of_sansChans (s.tryStart_sansChans v)

@[simp] theorem State.advanceValves_offChans (s : State) : s.advanceValves.offChans = s.offChans := by
  unfold State.advanceValves
  split <;> rfl

@[simp] theorem State.wakeValves_offChans (s : State) : s.wakeValves.offChans = s.offChans := by
  unfold State.wakeValves
  dsimp only
  rw [State.advanceValves_offChans, State.onValveCmds_offChans]
  refine foldl_keeps State.offChans (fun t v => ?_) _ s
  split
  · rw [State.offChans_ite, State.tryStart_offChans, ite_self]
  · rfl

@[simp] theorem State.finish_offChans (s : State) (id : Nat) (r : Reply) : (s.finish id r).offChans = s.offChans := by
  unfold State.finish State.conclude State.ready
  split
  · rfl
  · dsimp only
    split
    · rfl
    · split <;> rfl

@[simp] theorem State.finishValveCmds_offChans (s : State) : s.finishValveCmds.offChans = s.offChans := by
  unfold State.finishValveCmds
  exact foldl_keeps State.offChans (fun t c => State.finish_offChans t _ _) _ _

@[simp] theorem State.settleValves_offChans (s : State) : s.settleValves.offChans = s.offChans := by
  rw [State.settleValves, State.finishValveCmds_offChans, State.wakeValves_offChans]

@[simp] theorem State.driveValve_offChans (s : State) (v : Nat) (e : Bool) (a : Nat) : (s.driveValve v e a).offChans = s.offChans := by
  simp only [State.driveValve, State.offChans_ite, State.tryStart_offChans, State.onValve_offChans, ite_self]

@[simp] theorem State.drivePosition_offChans (s : State) (k role : Nat) : (s.drivePosition k role).offChans = s.offChans := by
  unfold State.drivePosition
  split
  · exact State.driveValve_offChans _ _ _ _
  · rfl

@[simp] theorem State.driveRack_offChans (s : State) (k : Nat) : (s.driveRack k).offChans = s.offChans := by
  rw [State.driveRack, State.settleValves_offChans]
  exact foldl_keeps State.offChans (fun t r => State.drivePosition_offChans t k r) _ s

@[simp] theorem State.driveRacks_offChans (s : State) : s.driveRacks.offChans = s.offChans :=
  foldl_keeps State.offChans State.driveRack_offChans _ s

@[simp] theorem State.faultValve_offChans (s : State) (v code : Nat) (mark : Valve → Valve) : (s.faultValve v code mark).offChans = s.offChans := by
  rw [State.faultValve, State.settleValves_offChans, State.logRm_offChans, State.onValve_offChans]

/-! ### Which channels they change -/

@[simp] theorem State.onValve_valveCh_same (s : State) (v : Nat) (f : Valve → Valve) : (s.onValve v f).valveCh v = f (s.valveCh v) :=
  Tab.get_modify_same _ _ _ _

@[simp] theorem State.onValve_valveCh_other (s : State) {v i : Nat} (h : i ≠ v) (f : Valve → Valve) :
    (s.onValve v f).valveCh i = s.valveCh i := Tab.get_modify_other _ _ _ h

@[simp] theorem State.logRm_valveCh (s : State) (c y i : Nat) (u : U32) (d : List U32) (o : Nat) :
    (s.logRm c y u d o).valveCh i = s.valveCh i := rfl

/-- A channel that no waking of the drive touches: nothing due, and not in PULL_IN. -/
def Valve.quiet (x : Valve) : Prop := x.due = none ∧ x.phase ≠ .pullIn

theorem State.cutToHold_valveCh (s : State) {p v i : Nat} (h : i ≠ p ∨ (s.valveCh i).phase ≠ .pullIn) :
    (s.cutToHold p v).valveCh i = s.valveCh i := by
  unfold State.cutToHold
  by_cases hi : i = p
  · subst hi
    rw [State.onValve_valveCh_same]
    exact if_neg (h.resolve_left (not_not.mpr rfl))
  · rw [State.onValve_valveCh_other s hi]

theorem State.startOnRail_other (s : State) {v i : Nat} (h : i ≠ v) (d : ValveDue) : (s.startOnRail v d).valveCh i = s.valveCh i := by
  unfold State.startOnRail State.startPullIn
  split
  · rw [State.onValve_valveCh_other s h]
  · split
    · rw [State.onValve_valveCh_other s h]
    · split <;> rw [State.onValve_valveCh_other s h]

theorem foldl_cutToHold_valveCh (l : List Nat) (v : Nat) (s : State) {i : Nat} (h : i ∉ l ∨ (s.valveCh i).phase ≠ .pullIn) :
    (l.foldl (fun (s : State) p => s.cutToHold p v) s).valveCh i = s.valveCh i := by
  induction l generalizing s with
  | nil => rfl
  | cons p l ih =>
    have h1 : (s.cutToHold p v).valveCh i = s.valveCh i :=
      State.cutToHold_valveCh s (h.imp_left fun hm he => hm (by simp [he]))
    rw [List.foldl_cons, ih _ (by rw [h1]; exact h.imp_left fun hm hi => hm (List.mem_cons_of_mem _ hi)), h1]

/-- A start changes its own channel and partners in PULL_IN alone. -/
theorem State.tryStart_other (s : State) {v i : Nat} (h : i ≠ v) (hp : (s.valveCh i).phase ≠ .pullIn) :
    (s.tryStart v).valveCh i = s.valveCh i := by
  unfold State.tryStart
  dsimp only
  split
  · rfl
  · split
    · rfl
    · split
      · exact State.startOnRail_other s h _
      · split
        · rw [State.startOnRail_other _ h, foldl_cutToHold_valveCh _ _ _ (.inr hp)]
        · exact State.onValve_valveCh_other s h _

/-- A channel with nothing due has no start. -/
theorem State.tryStart_of_none {s : State} {v : Nat} (h : (s.valveCh v).due = none) : s.tryStart v = s := by
  unfold State.tryStart
  simp only [h]

theorem State.tryStart_quiet (s : State) (v : Nat) {i : Nat} (h : (s.valveCh i).quiet) : (s.tryStart v).valveCh i = s.valveCh i := by
  by_cases hi : i = v
  · subst hi; rw [State.tryStart_of_none h.1]
  · exact State.tryStart_other s hi h.2

/-! ### Waking and settling -/

/-- One channel's part of waking the drive. -/
def State.wakeValve (s : State) (v : Nat) : State :=
  match (s.valveCh v).due with
  | some d => if d.protective && d.since.isNone then s.tryStart v else s
  | none => s

theorem State.wakeValve_eq (s : State) (v : Nat) : s.wakeValve v = s ∨ s.wakeValve v = s.tryStart v := by
  unfold State.wakeValve
  split
  · split
    · exact .inr rfl
    · exact .inl rfl
  · exact .inl rfl

theorem State.finishValveCmds_valveCh (s : State) (i : Nat) : s.finishValveCmds.valveCh i = s.valveCh i := by
  unfold State.finishValveCmds
  exact foldl_keeps (fun t : State => t.valveCh i) (fun t c => by rw [State.valveCh, State.finish_valve]; rfl) _ _

theorem State.advanceValves_valveCh (s : State) (i : Nat) : s.advanceValves.valveCh i = s.valveCh i := by
  unfold State.advanceValves
  split <;> rfl

/-- The channels after the drive has settled are those after each has been woken. -/
theorem State.settleValves_valveCh (s : State) (i : Nat) : s.settleValves.valveCh i = ((List.range 64).foldl State.wakeValve s).valveCh i := by
  rw [State.settleValves, State.finishValveCmds_valveCh, State.wakeValves, State.advanceValves_valveCh]
  change ((List.foldl State.wakeValve s (List.range 64)).onValveCmds _).valveCh i = _
  generalize List.foldl State.wakeValve s (List.range 64) = u
  rfl

/-- What each waking of a channel keeps, settling keeps. -/
theorem State.settleValves_keeps {P : State → Prop} (hP : ∀ t v, P t → P (t.tryStart v)) {s : State} (h : P s) :
    P ((List.range 64).foldl State.wakeValve s) := by
  generalize List.range 64 = l
  induction l generalizing s with
  | nil => exact h
  | cons v l ih =>
    refine ih ?_
    obtain hv | hv := s.wakeValve_eq v <;> rw [hv]
    · exact h
    · exact hP s v h

theorem State.foldl_wakeValve_sansChans (s : State) : ((List.range 64).foldl State.wakeValve s).sansChans = s.sansChans :=
  State.settleValves_keeps (P := fun t => t.sansChans = s.sansChans) (fun t v h => (t.tryStart_sansChans v).trans h) rfl

theorem State.settleValves_quiet {s : State} {i : Nat} (h : (s.valveCh i).quiet) : s.settleValves.valveCh i = s.valveCh i := by
  rw [State.settleValves_valveCh]
  exact State.settleValves_keeps (P := fun t => t.valveCh i = s.valveCh i)
    (fun t v ht => (State.tryStart_quiet t v (by rw [ht]; exact h)).trans ht) rfl

/-- Where every pull-in that is due is deferred already, or none is due, settling starts none. -/
theorem State.foldl_wakeValve_of_deferred {l : List Nat} {s : State}
    (h : ∀ v d, (s.valveCh v).due = some d → d.since.isNone = false) : l.foldl State.wakeValve s = s := by
  induction l with
  | nil => rfl
  | cons v l ih =>
    have hv : s.wakeValve v = s := by
      unfold State.wakeValve
      split
      next d hd => simp [h v d hd]
      next => rfl
    rw [List.foldl_cons, hv, ih]

theorem State.settleValves_of_deferred {s : State} (h : ∀ v d, (s.valveCh v).due = some d → d.since.isNone = false) (i : Nat) :
    s.settleValves.valveCh i = s.valveCh i := by rw [State.settleValves_valveCh, State.foldl_wakeValve_of_deferred h]

/-! ### A fault -/

theorem State.faultValve_same (s : State) (v code : Nat) (mark : Valve → Valve) :
    (s.faultValve v code mark).valveCh v = { mark (s.valveCh v) with phase := .fault, due := none, lastFault := code } := by
  unfold State.faultValve
  dsimp only
  rw [State.settleValves_quiet] <;> rw [State.logRm_valveCh, State.onValve_valveCh_same]
  exact ⟨rfl, by simp⟩

theorem State.faultValve_quiet (s : State) {v i : Nat} (h : i ≠ v) (code : Nat) (mark : Valve → Valve) (hq : (s.valveCh i).quiet) :
    (s.faultValve v code mark).valveCh i = s.valveCh i := by
  unfold State.faultValve
  dsimp only
  rw [State.settleValves_quiet] <;> rw [State.logRm_valveCh, State.onValve_valveCh_other s h]
  exact hq

end Sys2Proof.Machine
end

section
/-! SUPPORT. The profile of a valve and its faults (12 Tables 12.1, 12.4). -/

namespace Sys2Proof.Machine

theorem Valve.noteDefer_fields (x : Valve) (now : Nat) :
    (x.noteDefer now).due = x.due ∧ (x.noteDefer now).phase = x.phase ∧ (x.noteDefer now).protective = x.protective ∧
      (x.noteDefer now).pullIns = x.pullIns ∧ (x.noteDefer now).deferFault = x.deferFault ∧ (x.noteDefer now).lastFault = x.lastFault ∧
      (x.noteDefer now).energised = x.energised := by
  unfold Valve.noteDefer
  split
  · split <;> exact ⟨rfl, rfl, rfl, rfl, rfl, rfl, rfl⟩
  · exact ⟨rfl, rfl, rfl, rfl, rfl, rfl, rfl⟩

@[simp] theorem State.onSupply_supply_same (s : State) (q : Nat) (f : Supply → Supply) : (s.onSupply q f).supply q = f (s.supply q) :=
  Tab.get_modify_same _ _ _ _

theorem State.onSupply_supply_other (s : State) {q i : Nat} (h : i ≠ q) (f : Supply → Supply) :
    (s.onSupply q f).supply i = s.supply i := Tab.get_modify_other _ _ _ h

theorem State.logRm_supply (s : State) (c y q : Nat) (u : U32) (d : List U32) (o : Nat) : (s.logRm c y u d o).supply q = s.supply q := rfl
theorem State.startPullIn_supply (s : State) (v : Nat) (deg : Bool) (q : Nat) : (s.startPullIn v deg).supply q = s.supply q := rfl

theorem ValveFrame.trans {s t u : State} (h : ValveFrame s t) (h' : ValveFrame t u) : ValveFrame s u :=
  Eq.trans h' (congrArg (fun x : State => { x with valve := u.valve, proto := u.proto, nor := u.nor, evt := u.evt }) h)

theorem State.valveFrame_onSupply (s : State) (q : Nat) (f : Supply → Supply) : ValveFrame s (s.onSupply q f) := rfl

@[simp] theorem State.onSupply_valveCh (s : State) (q i : Nat) (f : Supply → Supply) : (s.onSupply q f).valveCh i = s.valveCh i := rfl

/-- What the start of a pull-in makes of its channel. -/
theorem State.startPullIn_same {s : State} {v : Nat} {d : ValveDue} (hd : (s.valveCh v).due = some d) (deg : Bool) :
    ((s.startPullIn v deg).valveCh v).phase = .pullIn ∧ ((s.startPullIn v deg).valveCh v).due = none ∧
      ((s.startPullIn v deg).valveCh v).degraded = deg ∧ ((s.startPullIn v deg).valveCh v).protective = d.protective ∧
      ((s.startPullIn v deg).valveCh v).pullIns = satTo 32 ((s.valveCh v).pullIns + 1) ∧
      ((s.startPullIn v deg).valveCh v).deferFault = (s.valveCh v).deferFault ∧
      ((s.startPullIn v deg).valveCh v).lastFault = (s.valveCh v).lastFault := by
  obtain ⟨-, -, -, -, hf, hl, -⟩ := (s.valveCh v).noteDefer_fields s.now
  unfold State.startPullIn
  rw [State.onValve_valveCh_same]
  exact ⟨rfl, rfl, rfl, by simp only [hd], rfl, hf, hl⟩

/-- A due pull-in behind nothing, with no partner in PULL_IN and its supply ready, starts. -/
theorem State.tryStart_starts {s : State} {v : Nat} {d : ValveDue} (hd : (s.valveCh v).due = some d) (hf : (s.valveCh v).phase ≠ .fault)
    (hb : d.behind = none) (hp : ∀ p ∈ s.valvePartners v, (s.valveCh p).phase ≠ .pullIn) (hr : s.supplyReady (valveSupply v)) :
    s.tryStart v = s.startPullIn v false := by
  have he : ((s.valvePartners v).filter fun p => (s.valveCh p).phase = .pullIn) = [] := by simpa using hp
  unfold State.tryStart
  simp [hd, hf, State.valveBehind, hb, he, State.startOnRail, hr]

/-! ### What no start changes -/

/-- From `x` to `y` no fault came and the position stayed. -/
def Valve.Worked (x y : Valve) : Prop := (y.phase = .fault → x.phase = .fault) ∧ y.energised = x.energised

theorem Valve.Worked.refl (x : Valve) : x.Worked x := ⟨id, rfl⟩

theorem Valve.Worked.trans {x y z : Valve} (h : x.Worked y) (h' : y.Worked z) : x.Worked z :=
  ⟨fun hz => h.1 (h'.1 hz), h'.2.trans h.2⟩

theorem State.onValve_worked {f : Valve → Valve} (hf : ∀ x : Valve, x.Worked (f x)) (s : State) (v i : Nat) :
    (s.valveCh i).Worked ((s.onValve v f).valveCh i) := by
  by_cases h : i = v
  · subst h; rw [State.onValve_valveCh_same]; exact hf _
  · rw [State.onValve_valveCh_other s h]; exact .refl _

theorem State.startPullIn_worked (s : State) (v : Nat) (deg : Bool) (i : Nat) :
    (s.valveCh i).Worked ((s.startPullIn v deg).valveCh i) := by
  unfold State.startPullIn
  refine State.onValve_worked ?_ s v i
  exact fun x => ⟨fun h => absurd h (by simp), (x.noteDefer_fields s.now).2.2.2.2.2.2⟩

theorem State.startOnRail_worked (s : State) (v : Nat) (d : ValveDue) (i : Nat) : (s.valveCh i).Worked ((s.startOnRail v d).valveCh i) := by
  unfold State.startOnRail
  split
  · exact s.startPullIn_worked v false i
  · split
    · refine State.onValve_worked ?_ s v i
      refine fun x => ⟨fun h => ?_, (x.noteDefer_fields s.now).2.2.2.2.2.2⟩
      dsimp only at h
      split at h <;> simp_all
    · split
      · exact s.startPullIn_worked v false i
      · refine State.onValve_worked ?_ s v i
        refine fun x => ⟨fun h => ?_, rfl⟩
        dsimp only at h
        split at h <;> simp_all

theorem State.deferValve_worked (s : State) (v i : Nat) : (s.valveCh i).Worked ((s.deferValve v).valveCh i) := by
  refine State.onValve_worked (fun x => ?_) s v i
  split
  · refine ⟨fun h => ?_, rfl⟩
    dsimp only at h
    split at h <;> simp_all
  · exact .refl x

theorem State.cutToHold_worked (s : State) (p v i : Nat) : (s.valveCh i).Worked ((s.cutToHold p v).valveCh i) := by
  refine State.onValve_worked (fun x => ?_) s p i
  split
  · exact ⟨fun h => absurd h (by simp), rfl⟩
  · exact .refl x

theorem State.foldl_cutToHold_worked (l : List Nat) (v i : Nat) (s : State) :
    (s.valveCh i).Worked ((l.foldl (fun (s : State) p => s.cutToHold p v) s).valveCh i) := by
  induction l generalizing s with
  | nil => exact .refl _
  | cons p l ih => exact (s.cutToHold_worked p v i).trans (ih _)

theorem State.tryStart_worked (s : State) (v i : Nat) : (s.valveCh i).Worked ((s.tryStart v).valveCh i) := by
  unfold State.tryStart
  dsimp only
  split
  · exact .refl _
  · split
    · exact .refl _
    · split
      · exact s.startOnRail_worked v _ i
      · split
        · refine .trans ?_ (State.startOnRail_worked _ v _ i)
          exact State.foldl_cutToHold_worked _ v i s
        · exact s.deferValve_worked v i

theorem State.settleValves_worked (s : State) (i : Nat) : (s.valveCh i).Worked (s.settleValves.valveCh i) := by
  rw [State.settleValves_valveCh]
  exact State.settleValves_keeps (P := fun t => (s.valveCh i).Worked (t.valveCh i)) (fun t v ht => ht.trans (t.tryStart_worked v i)) (.refl _)

theorem State.faultValve_other_fault (s : State) {v i : Nat} (h : i ≠ v) (code : Nat) (mark : Valve → Valve)
    (hf : (s.valveCh i).phase ≠ .fault) : ((s.faultValve v code mark).valveCh i).phase ≠ .fault := by
  unfold State.faultValve
  dsimp only
  intro hs
  have := (State.settleValves_worked _ i).1 hs
  rw [State.logRm_valveCh, State.onValve_valveCh_other s h] at this
  exact hf this

/-- The two valves a high-side switch serves are two. -/
theorem State.valveOwner_ne (s : State) (v : Nat) : s.valveOwner (v % 32) ≠ s.valveOwner (v % 32 + 32) := by
  unfold State.valveOwner
  split <;> split <;> omega

/-- The switch's own fault: both its valves fault. -/
theorem exec_highSideSwitchFault_both {v : Fin 64} {s : State} {a b : Nat} (ha : a = s.valveOwner (v.val % 32))
    (hb : b = s.valveOwner (v.val % 32 + 32)) (hra : (s.valveRec a).on) (hrb : (s.valveRec b).on) (hsa : (s.valveCh a).phase ≠ .fault)
    (hsb : (s.valveCh b).phase ≠ .fault) :
    exec (.highSideSwitchFault v) s = .next ((s.faultValve a 4 id).faultValve b 4 id) := by
  have hne : b ≠ a := by rw [ha, hb]; exact (s.valveOwner_ne v.val).symm
  have hcfg : (s.faultValve a 4 id).cfg = s.cfg := State.cfg_of_offChans (s.faultValve_offChans a 4 id)
  have h1 : ((s.valveRec a).on && (s.valveCh a).phase ≠ .fault) = true := by simp [hra, hsa]
  have h2 : (((s.faultValve a 4 id).valveRec b).on && ((s.faultValve a 4 id).valveCh b).phase ≠ .fault) = true := by
    have hr : (s.faultValve a 4 id).valveRec b = s.valveRec b := by rw [State.valveRec, hcfg]; rfl
    simp [hr, hrb, s.faultValve_other_fault hne 4 id hsb]
  simp only [exec, execHighSideSwitchFault, ← ha, ← hb, List.foldl_cons, List.foldl_nil]
  rw [if_pos h1, if_pos h2]

/-- Settles O13: each row's own change of its channel, which settling leaves: nothing is due on it. -/
theorem valveProfile : Obligations.ValveProfile := by
  unfold Obligations.ValveProfile
  refine ⟨fun v s hs hd ht => ?_, fun v s hs hd hc => ?_, fun v s d hs hd hb ho hp hr => ?_, fun v s d e hd hpr hsu he hb hp hv hr => ?_,
    fun v s us hs hu => ?_⟩
  · refine ⟨_, congrArg Host.Outcome.next (if_pos ⟨hs, ht⟩), State.valveFrame_of_offChans (by simp), ?_⟩
    rw [State.settleValves_quiet] <;> rw [State.onValve_valveCh_same]
    exact ⟨hd, by simp⟩
  · refine ⟨_, congrArg Host.Outcome.next (if_pos ⟨hs, hc⟩), State.valveFrame_of_offChans (by simp), ?_⟩
    rw [State.settleValves_quiet] <;> rw [State.onValve_valveCh_same]
    · simp [hd]
    · exact ⟨hd, by simp [hd]⟩
  · have hlow : ∀ l : List Nat, (∀ p ∈ l, p ≠ v.val) → l.foldl (fun (s : State) p => s.tryStart p) s = s := fun l hl => by
      induction l with
      | nil => rfl
      | cons p l ih =>
        rw [List.foldl_cons, State.tryStart_of_none (ho p (hl p (by simp)))]
        exact ih fun q hq => hl q (by simp [hq])
    have h : exec (.deferredStart v) s = .next (s.startPullIn v.val false).settleValves := by
      simp only [exec, execDeferredStart, List.foldl_append]
      rw [hlow _ fun p hm => ne_of_lt (of_decide_eq_true (List.mem_filter.mp hm).2)]
      simp only [List.foldl_cons, List.foldl_nil]
      rw [State.tryStart_starts hd (by simp [hs]) hb hp hr]
    obtain ⟨hph, hdu, hdg, hpr, hpu, -, -⟩ := State.startPullIn_same hd false
    refine ⟨_, h, State.valveFrame_of_offChans (by simp), ?_⟩
    rw [State.settleValves_of_deferred]
    · exact ⟨hph, hdu, hpr, hdg, hpu⟩
    · intro i x hx
      by_cases hi : i = v.val
      · rw [hi, hdu] at hx; exact absurd hx (by simp)
      · rw [State.startPullIn, State.onValve_valveCh_other s hi, ho i hi] at hx; exact absurd hx (by simp)
  · have hb' : s.valveBehind d = false := by rw [State.valveBehind, hb]
    have h : exec (.valveDegradedPullin v) s = .next (((s.onSupply (valveSupply v.val) fun x =>
        { x with fallbacks := satTo 32 (x.fallbacks + 1) }).startPullIn v.val true).logRm Cls.warning 0x0604 (w32 v.val) []) := by
      have hp' : ((s.valvePartners v.val).any fun p => (s.valveCh p).phase = .pullIn) = false := by simpa using hp
      simp [exec, execValveDegradedPullin, hd, hp', hpr, hsu, he, hb', hv, hr]
    obtain ⟨hph, hdu, hdg, -⟩ := State.startPullIn_same (s := s.onSupply (valveSupply v.val) fun x =>
      { x with fallbacks := satTo 32 (x.fallbacks + 1) }) (v := v.val) hd true
    refine ⟨_, h, (s.valveFrame_onSupply _ _).trans
      (State.valveFrame_of_offChans (by rw [State.logRm_offChans, State.startPullIn_offChans])), hph, hdg, hdu, fun p hp => ?_, ?_, rfl⟩
    · rw [State.logRm_valveCh, State.startPullIn, State.onValve_valveCh_other _ hp]
      rfl
    · rw [State.logRm_supply, State.startPullIn_supply, State.onSupply_supply_same]
  · have h : exec (.peakCurrentReached v us true) s = .next (s.onValve v.val fun x => { x with riseUs := some us }) := by
      have hu' : ¬ us < ((s.onValve v.val fun x => { x with riseUs := some us }).valveRec v.val).tRiseMin := Nat.not_lt.mpr hu
      refine congrArg Host.Outcome.next ((if_pos ⟨hs, rfl⟩).trans (if_neg hu'))
    exact ⟨_, h, by simp, fun p hp => by simp [hp], rfl⟩

/-- Settles O14: `faultValve` on the channel each row names. -/
theorem valveFaults : Obligations.ValveFaults := by
  unfold Obligations.ValveFaults
  refine ⟨fun v s hs ht hc => ?_, fun v mA s hs hc => ?_, fun v s hr hs hc => ?_, fun v s a b ha hb hra hrb hsa hsb => ?_,
    fun v s c hc hp hs hu => ?_, fun v s hs ht => ?_, fun v s hs hl hr => ?_⟩
  · refine ⟨_, congrArg Host.Outcome.next (if_pos ⟨hs, decide_eq_true ht, hc⟩), State.valveFrame_of_offChans (by simp), ?_⟩
    rw [State.faultValve_same]
    exact ⟨rfl, rfl, rfl, rfl⟩
  · refine ⟨_, congrArg Host.Outcome.next (if_pos ⟨hs, hc⟩), State.valveFrame_of_offChans (by simp), ?_⟩
    rw [State.faultValve_same]
    exact ⟨rfl, rfl, rfl, rfl⟩
  · refine ⟨_, congrArg Host.Outcome.next (if_pos ⟨hr, hs, hc⟩), State.valveFrame_of_offChans (by simp), ?_⟩
    rw [State.faultValve_same]
    exact ⟨rfl, rfl, rfl, rfl⟩
  · have hne : a ≠ b := by rw [ha, hb]; exact s.valveOwner_ne v.val
    refine ⟨_, exec_highSideSwitchFault_both ha hb hra hrb hsa hsb, State.valveFrame_of_offChans (by simp), ?_⟩
    rw [State.faultValve_quiet _ hne, State.faultValve_same, State.faultValve_same]
    · exact ⟨rfl, rfl, rfl, rfl⟩
    · rw [State.faultValve_same]; exact ⟨rfl, by simp⟩
  · subst hc
    refine ⟨_, congrArg Host.Outcome.next (if_pos ⟨hp, hs, hu⟩), State.valveFrame_of_offChans (by simp), ?_⟩
    rw [State.faultValve_same]
    exact ⟨rfl, rfl⟩
  · refine ⟨_, congrArg Host.Outcome.next (if_pos ⟨hs, decide_eq_true ht⟩), State.valveFrame_of_offChans (by simp), ?_⟩
    rw [State.faultValve_same]
    exact ⟨rfl, rfl⟩
  · exact ⟨_, congrArg Host.Outcome.next (if_pos ⟨hs, by simp [hl], hr⟩), rfl, by simp, fun p hp => by simp [hp]⟩

end Sys2Proof.Machine
end

section
/-! SUPPORT. Strongman supplies, the 24 V input, entries of VALVE_COMMAND and the limits on waiting (12). -/

namespace Sys2Proof.Machine

/-! ### Supplies -/

@[simp] theorem State.onSupply_v24 (s : State) (q : Nat) (f : Supply → Supply) : (s.onSupply q f).valve.v24 = s.valve.v24 := rfl

/-- Both supplies changed alike. -/
def State.onSupplies (s : State) (f : Supply → Supply) : State := (s.onSupply 0 f).onSupply 1 f

theorem State.onSupplies_supply (s : State) (f : Supply → Supply) (q : Fin 2) : (s.onSupplies f).supply q.val = f (s.supply q.val) := by
  unfold State.onSupplies
  obtain rfl | rfl : q = 0 ∨ q = 1 := by omega
  · rw [State.onSupply_supply_other _ (by decide)]
    exact State.onSupply_supply_same s 0 f
  · rw [show ((1 : Fin 2).val) = 1 from rfl, State.onSupply_supply_same, State.onSupply_supply_other _ (by decide)]

@[simp] theorem State.onSupply_now (s : State) (q : Nat) (f : Supply → Supply) : (s.onSupply q f).now = s.now := rfl

theorem State.onSupplies_valveCh (s : State) (f : Supply → Supply) (i : Nat) : (s.onSupplies f).valveCh i = s.valveCh i := by
  rw [State.onSupplies, State.onSupply_valveCh, State.onSupply_valveCh]

theorem State.valveFrame_onSupplies (s : State) (f : Supply → Supply) : ValveFrame s (s.onSupplies f) :=
  (s.valveFrame_onSupply 0 f).trans (State.valveFrame_onSupply _ 1 f)

/-- What the loss of the 24 V input makes of a channel. -/
def Valve.stageOff (now : Nat) (x : Valve) : Valve :=
  { x with
    due := none, energised := false
    phase := match x.phase with
      | .pullIn | .hold => .decay
      | .deferred => .off
      | ph => ph
    decayAt := if x.phase = .pullIn ∨ x.phase = .hold then now else x.decayAt }

theorem foldl_stageOff (l : List Nat) (s : State) (hl : l.Nodup) :
    let t := l.foldl (fun (s : State) v => s.onValve v (Valve.stageOff s.now)) s
    t.offChans = s.offChans ∧ ∀ i, t.valveCh i = if i ∈ l then (s.valveCh i).stageOff s.now else s.valveCh i := by
  induction l generalizing s with
  | nil => exact ⟨rfl, fun i => by simp⟩
  | cons v l ih =>
    obtain ⟨hv, hl⟩ := List.nodup_cons.mp hl
    obtain ⟨ho, hc⟩ := ih (s.onValve v (Valve.stageOff s.now)) hl
    refine ⟨ho, fun i => ?_⟩
    rw [List.foldl_cons, hc]
    by_cases hi : i = v
    · subst hi; simp [hv]
    · simp [hi]; rfl

theorem State.stagesOff_eq (s : State) : s.stagesOff = (List.range 64).foldl (fun (s : State) v => s.onValve v (Valve.stageOff s.now)) s := rfl

theorem State.stagesOff_valveCh (s : State) (v : Fin 64) : s.stagesOff.valveCh v.val = (s.valveCh v.val).stageOff s.now := by
  rw [s.stagesOff_eq, (foldl_stageOff _ s List.nodup_range).2, if_pos (List.mem_range.mpr v.isLt)]

theorem State.stagesOff_offChans (s : State) : s.stagesOff.offChans = s.offChans := by
  rw [s.stagesOff_eq, (foldl_stageOff _ s List.nodup_range).1]

/-- With nothing due on any of the 64 channels settling starts none. -/
theorem State.settleValves_of_none {s : State} (h : ∀ v < 64, (s.valveCh v).due = none) (i : Nat) :
    s.settleValves.valveCh i = s.valveCh i := by
  rw [State.settleValves_valveCh]
  have hf : ∀ l : List Nat, (∀ v ∈ l, v < 64) → l.foldl State.wakeValve s = s := fun l hl => by
    induction l with
    | nil => rfl
    | cons v l ih =>
      have hv : s.wakeValve v = s := by
        unfold State.wakeValve
        rw [h v (hl v (by simp))]
      rw [List.foldl_cons, hv]
      exact ih fun x hx => hl x (by simp [hx])
  rw [hf _ fun v hv => List.mem_range.mp hv]

/-! ### Commands on their way -/

/-- The drive woken: its channels, then its commands. -/
theorem State.wakeValves_eq (s : State) :
    ∃ u : State, u.sansChans = s.sansChans ∧
      s.wakeValves = (u.onValveCmds fun c => if c.needs.all u.supplyReady then { c with waitSupply := false } else c).advanceValves := by
  have h := s.foldl_wakeValve_sansChans
  unfold State.wakeValves
  change ∃ u, _ ∧ State.advanceValves (State.onValveCmds (List.foldl State.wakeValve s (List.range 64)) fun c =>
    if c.needs.all (List.foldl State.wakeValve s (List.range 64)).supplyReady then { c with waitSupply := false } else c) = _
  generalize List.foldl State.wakeValve s (List.range 64) = u at h ⊢
  exact ⟨u, h, rfl⟩

/-- A drive without commands settles without a completion. -/
theorem State.settleValves_of_no_cmds {s : State} (h : s.valve.cmds = []) :
    s.settleValves.valve.cmds = [] ∧ s.settleValves.proto = s.proto ∧ s.settleValves.evt = s.evt := by
  obtain ⟨u, hu, hw⟩ := s.wakeValves_eq
  have hc : u.valve.cmds = s.valve.cmds := State.cmds_of_sansChans hu
  have hp : u.proto = s.proto := State.proto_of_sansChans hu
  have he : u.evt = s.evt := State.evt_of_sansChans hu
  have hz : s.wakeValves.valve.cmds = [] ∧ s.wakeValves.proto = s.proto ∧ s.wakeValves.evt = s.evt := by
    rw [hw]
    unfold State.advanceValves
    split
    · exact ⟨by simp [State.onValveCmds, hc, h], hp, he⟩
    · exact ⟨by simp [State.onValveCmds, hc, h, releaseEntries], hp, he⟩
  rw [State.settleValves]
  generalize s.wakeValves = w at hz
  rw [State.finishValveCmds, hz.1]
  exact ⟨rfl, hz.2⟩

/-- Finishing the drive's commands logs nothing where no completion is to be dropped. -/
theorem State.finish_evt_of_kept {s : State} (h : s.proto.dropIds = []) (id : Nat) (r : Reply) :
    (s.finish id r).evt = s.evt ∧ (s.finish id r).proto.dropIds = [] := by
  unfold State.finish State.conclude
  split
  · exact ⟨rfl, h⟩
  · dsimp only
    split
    · exact ⟨rfl, h⟩
    · rw [State.ready_kept _ _ _ _ (by simp [h])]
      exact ⟨rfl, h⟩

theorem foldl_finish_evt {α : Type} (id : α → Nat) (f : State → α → Reply) (e : EvtSt) (l : List α) {t : State}
    (h : t.evt = e ∧ t.proto.dropIds = []) : (l.foldl (fun (t : State) c => t.finish (id c) (f t c)) t).evt = e := by
  induction l generalizing t with
  | nil => exact h.1
  | cons c l ih =>
    obtain ⟨h1, h2⟩ := State.finish_evt_of_kept h.2 (id c) (f t c)
    exact ih ⟨h1.trans h.1, h2⟩

theorem State.finishValveCmds_evt {s : State} {e : EvtSt} (h : s.evt = e ∧ s.proto.dropIds = []) : s.finishValveCmds.evt = e := by
  unfold State.finishValveCmds
  exact foldl_finish_evt (fun c : ValveCmd => c.cmd) _ e _ h

theorem State.settleValves_evt_of_kept {s : State} (h : s.proto.dropIds = []) : s.settleValves.evt = s.evt := by
  obtain ⟨u, hu, hw⟩ := s.wakeValves_eq
  have hp : u.proto = s.proto := State.proto_of_sansChans hu
  have he : u.evt = s.evt := State.evt_of_sansChans hu
  have hz : s.wakeValves.evt = s.evt ∧ s.wakeValves.proto.dropIds = [] := by
    rw [hw]
    unfold State.advanceValves
    split
    · exact ⟨he, hp ▸ h⟩
    · exact ⟨he, hp ▸ h⟩
  rw [State.settleValves]
  generalize s.wakeValves = w at hz
  exact State.finishValveCmds_evt hz

/-- The only command, all released and applied, with a channel of it in DECAY, stays as it is. -/
theorem State.settleValves_cmds_of_decay {s : State} {c : ValveCmd} {v op : Nat} (hc : s.valve.cmds = [c]) (he : c.entries = [(v, op)])
    (hr : c.released = 1) (hw : c.waitSupply = false) (hd : (s.settleValves.valveCh v).phase = .decay) :
    s.settleValves.valve.cmds = [c] := by
  have hrel : releaseEntries [c] = [c] := by
    have hn : max c.released (min c.entries.length (c.reach c.entries.length 0)) = 1 := by rw [hr, he]; simp
    cases c
    simp_all [releaseEntries]
  obtain ⟨u, hu, hw'⟩ := s.wakeValves_eq
  have hcu : u.valve.cmds = [c] := (State.cmds_of_sansChans hu).trans hc
  have hz : s.wakeValves.valve.cmds = [c] := by
    have hf : (if c.needs.all u.supplyReady then { c with waitSupply := false } else c) = c := by
      cases c; simp_all
    have hm : (u.onValveCmds fun c => if c.needs.all u.supplyReady then { c with waitSupply := false } else c).valve.cmds = [c] := by
      rw [State.onValveCmds, hcu]
      exact congrArg (fun x => [x]) hf
    rw [hw']
    unfold State.advanceValves
    split
    · exact hm
    · rw [hm]; exact hrel
  rw [State.settleValves, State.finishValveCmds_valveCh] at hd
  rw [State.settleValves]
  generalize s.wakeValves = w at hz hd
  unfold State.finishValveCmds
  rw [hz]
  simp [he, hd]

/-- The 24 V input gone. -/
def State.v24Off (s : State) : State := { s with valve := { s.valve with v24 := false } }

theorem State.valveFrame_v24Off (s : State) : ValveFrame s s.v24Off := rfl

theorem State.v24Off_valveCh (s : State) (i : Nat) : s.v24Off.valveCh i = s.valveCh i := rfl
theorem State.v24Off_supply (s : State) (q : Nat) : s.v24Off.supply q = s.supply q := rfl

/-- The drive with its stages off after the loss of its 24 V input. -/
def State.suppliesOff (u : State) : State :=
  (u.onSupplies fun x => { x with state := .off, since := u.now }).v24Off.logRm Cls.alarm 0x0605 none32 []

theorem State.suppliesOff_eq (u : State) :
    (let s := [0, 1].foldl (fun (s : State) q => s.onSupply q fun x => { x with state := .off, since := s.now }) u;
      ({ s with valve := { s.valve with v24 := false } } : State).logRm Cls.alarm 0x0605 none32 []) = u.suppliesOff := by
  simp only [List.foldl_cons, List.foldl_nil, State.onSupply_now]
  rfl

/-- The drive after the loss of its 24 V input. -/
def State.lose24 (s : State) : State := s.stagesOff.suppliesOff

theorem exec_actuatorSupplyLost_of_on {s : State} (h : s.valve.v24) : exec .actuatorSupplyLost s = .next s.lose24.settleValves :=
  congrArg Host.Outcome.next ((if_neg (by simp [h])).trans (congrArg State.settleValves s.stagesOff.suppliesOff_eq))

theorem State.lose24_frame (s : State) : ValveFrame s s.lose24 :=
  (((State.valveFrame_of_offChans s.stagesOff_offChans).trans (State.valveFrame_onSupplies _ _)).trans (State.valveFrame_v24Off _)).trans
    (State.valveFrame_of_offChans (State.logRm_offChans _ _ _ _ _ _))

theorem State.lose24_valveCh (s : State) (v : Fin 64) : s.lose24.valveCh v.val = (s.valveCh v.val).stageOff s.now := by
  rw [← s.stagesOff_valveCh]
  rw [State.lose24, State.suppliesOff, State.logRm_valveCh, State.v24Off_valveCh, State.onSupplies_valveCh]

theorem State.lose24_supply (s : State) (q : Fin 2) : (s.lose24.supply q.val).state = .off := by
  rw [State.lose24, State.suppliesOff, State.logRm_supply, State.v24Off_supply, State.onSupplies_supply]

theorem State.lose24_v24 (s : State) : s.lose24.valve.v24 = false := rfl

theorem State.lose24_settled (s : State) (v : Fin 64) : s.lose24.settleValves.valveCh v.val = (s.valveCh v.val).stageOff s.now :=
  (State.settleValves_of_none (fun v hv => by rw [s.lose24_valveCh ⟨v, hv⟩]; rfl) _).trans (s.lose24_valveCh v)

/-- The drive with the 24 V input back and both supplies in soft-start. -/
def State.regain24 (s : State) : State :=
  ({ s with valve := { s.valve with v24 := true } } : State).onSupplies fun x => { x with state := .softStart, since := s.now }

theorem State.regain24_eq (s : State) :
    [0, 1].foldl (fun (s : State) q => s.onSupply q fun x => { x with state := .softStart, since := s.now })
      { s with valve := { s.valve with v24 := true } } = s.regain24 := by
  simp only [List.foldl_cons, List.foldl_nil, State.onSupply_now]
  rfl

theorem State.regain24_frame (s : State) : ValveFrame s s.regain24 :=
  ValveFrame.trans (t := { s with valve := { s.valve with v24 := true } }) (by rfl) (State.valveFrame_onSupplies _ _)

theorem State.regain24_supply (s : State) (q : Fin 2) : (s.regain24.supply q.val).state = .softStart := by
  rw [State.regain24, State.onSupplies_supply]

theorem State.regain24_v24 (s : State) : s.regain24.valve.v24 = true := rfl

theorem exec_actuatorSupplyReturn_of_off {s : State} (h : s.valve.v24 = false) :
    exec .actuatorSupplyReturn s = .next (if s.regain24.gen.rmReady then s.regain24.driveRacks else s.regain24) := by
  rw [← s.regain24_eq]
  exact congrArg Host.Outcome.next (if_neg (by simp [h]))

/-- The channel after DEENERGISE. -/
theorem State.applyEntry_deenergise_hold {s : State} {v : Nat} (h : (s.valveCh v).phase = .hold) :
    ((s.applyEntry v 1).valveCh v).phase = .decay ∧ ((s.applyEntry v 1).valveCh v).energised = false ∧
      ((s.applyEntry v 1).valveCh v).due = none := by
  simp [State.applyEntry, h]

theorem State.applyEntry_one_other (s : State) {v i : Nat} (h : i ≠ v) : (s.applyEntry v 1).valveCh i = s.valveCh i :=
  State.onValve_valveCh_other s h _

/-- The drive with the one entry of its one command, a DEENERGISE, applied. -/
def State.deenergised (s : State) (v : Nat) (c : ValveCmd) : State :=
  { s.applyEntry v 1 with valve := { (s.applyEntry v 1).valve with cmds := [{ c with applied := 1 }] } }

theorem State.deenergised_valveCh (s : State) (v i : Nat) (c : ValveCmd) : (s.deenergised v c).valveCh i = (s.applyEntry v 1).valveCh i := rfl

theorem exec_valveEntryApply_deenergise {s : State} {v : Nat} {c : ValveCmd} (hc : s.valve.cmds = [c]) (he : c.entries = [(v, 1)])
    (hr : c.released = 1) (ha : c.applied = 0) : exec .valveEntryApply s = .next (s.deenergised v c).settleValves := by
  have hcm : (s.applyEntry v 1).valve.cmds = [c] := hc
  simp [exec, execValveEntryApply, hc, ValveCmd.fresh, he, hr, ha, State.onValveCmds, hcm, State.deenergised]

/-- The drive with the one command's wait refused for supply `q`. -/
def State.refuseBoost (s : State) (q : Nat) : State :=
  { s.onSupply q fun x => { x with refusals := satTo 32 (x.refusals + 1) } with
    valve := { (s.onSupply q fun x => { x with refusals := satTo 32 (x.refusals + 1) }).valve with cmds := [] } }

theorem State.refuseBoost_supply (s : State) (q : Nat) :
    ((s.refuseBoost q).supply q).refusals = satTo 32 ((s.supply q).refusals + 1) :=
  congrArg Supply.refusals (State.onSupply_supply_same s q fun x => { x with refusals := satTo 32 (x.refusals + 1) })

theorem exec_boostWaitExpiry_refuses {s : State} {c : ValveCmd} {q : Nat} (hc : s.valve.cmds = [c]) (hw : c.waitSupply) (ht : c.waitEnd ≤ s.now)
    (hq : c.needs.find? (fun x => !s.supplyReady x) = some q) :
    exec .boostWaitExpiry s = .next ((s.refuseBoost q).finish c.cmd { status := SC.boostNotReady, r0 := w32 q }).settleValves := by
  simp [exec, execBoostWaitExpiry, hc, hw, ht, hq, State.refuseBoost, State.onSupply]

/-! ### A deferral that has lasted to its limit -/

/-- The drive as the deferral fault leaves it before its own pull-in starts: partner `p` cut to HOLD, the fault marked and logged. -/
def State.deferralOver (s : State) (v p : Nat) : State :=
  (((s.cutToHold p v).onValve v fun x => { x with deferFault := true, lastFault := 6 }).logRm Cls.alarm 0x0603 (w32 v) [w32 p]).onValve v fun x =>
    { x with due := x.due.map fun e => { e with behind := none } }

theorem exec_valveDeferFault_of_late {v : Fin 64} {s : State} {d : ValveDue} {p e : Nat} (hd : (s.valveCh v.val).due = some d)
    (hs : d.since = some e) (ht : e + 10 * (s.valveRec v.val).deferLimit ≤ s.now)
    (hb : (s.valvePartners v.val).filter (fun x => (s.valveCh x).phase = .pullIn) = [p]) :
    exec (.valveDeferFault v) s = .next ((s.deferralOver v.val p).tryStart v.val).settleValves := by
  simp only [exec, execValveDeferFault, hd, hb, hs]
  refine congrArg Host.Outcome.next (if_neg ?_)
  simp [ht]

theorem State.deferralOver_offChans (s : State) {v p : Nat} : (s.deferralOver v p).offChans = s.offChans := by
  rw [State.deferralOver, State.onValve_offChans, State.logRm_offChans, State.onValve_offChans,
    State.offChans_of_sansChans (s.cutToHold_sansChans p v)]

section
variable {s t : State} (h : t.cfg = s.cfg)
include h

theorem State.valvePaired_congr (v : Nat) : t.valvePaired v = s.valvePaired v := by
  simp only [State.valvePaired, State.valveRec, h]

theorem State.valveOwner_congr (v : Nat) : t.valveOwner v = s.valveOwner v := by
  simp only [State.valveOwner, State.valvePaired_congr h]

theorem State.valvePartners_congr (v : Nat) : t.valvePartners v = s.valvePartners v := by
  simp only [State.valvePartners, State.valveOwner_congr h, State.valvePaired_congr h]
end

theorem State.logRm_sansChans {s t : State} (h : t.sansChans = s.sansChans) (c y : Nat) (u : U32) (d : List U32) :
    (t.logRm c y u d).sansChans = (s.logRm c y u d).sansChans :=
  (congrArg (fun x : State => (x.logRm c y u d).sansChans) h : (t.sansChans.logRm c y u d).sansChans = (s.sansChans.logRm c y u d).sansChans)

theorem State.deferralOver_sansChans (s : State) (v p : Nat) :
    (s.deferralOver v p).sansChans = (s.logRm Cls.alarm 0x0603 (w32 v) [w32 p]).sansChans := by
  rw [State.deferralOver, State.onValve_sansChans]
  exact State.logRm_sansChans (by rw [State.onValve_sansChans, State.cutToHold_sansChans]) _ _ _ _

section
variable {s : State} {v p : Nat} (hne : p ≠ v)
include hne

theorem State.deferralOver_self :
    (s.deferralOver v p).valveCh v = { s.valveCh v with
      deferFault := true, lastFault := 6, due := (s.valveCh v).due.map fun e => { e with behind := none } } := by
  rw [State.deferralOver, State.onValve_valveCh_same, State.logRm_valveCh, State.onValve_valveCh_same, State.cutToHold_valveCh s (.inl hne.symm)]

theorem State.deferralOver_partner (h : (s.valveCh p).phase = .pullIn) :
    (s.deferralOver v p).valveCh p =
      { s.valveCh p with phase := .hold, due := some { protective := (s.valveCh p).protective, behind := some v, since := some s.now } } := by
  rw [State.deferralOver, State.onValve_valveCh_other _ hne, State.logRm_valveCh, State.onValve_valveCh_other _ hne, State.cutToHold,
    State.onValve_valveCh_same, if_pos h]

omit hne in
theorem State.deferralOver_other {i : Nat} (hv : i ≠ v) (hp : i ≠ p) : (s.deferralOver v p).valveCh i = s.valveCh i := by
  rw [State.deferralOver, State.onValve_valveCh_other _ hv, State.logRm_valveCh, State.onValve_valveCh_other _ hv,
    State.cutToHold_valveCh s (.inl hp)]

/-- No channel enters PULL_IN, and none already there loses its 24 V rail. -/
theorem State.deferralOver_pullIn (h : (s.valveCh p).phase = .pullIn) {i : Nat} (hi : ((s.deferralOver v p).valveCh i).phase = .pullIn) :
    i ≠ p ∧ (s.valveCh i).phase = .pullIn ∧ ((s.deferralOver v p).valveCh i).degraded = (s.valveCh i).degraded := by
  by_cases hp : i = p
  · subst hp; rw [State.deferralOver_partner hne h] at hi; exact absurd hi (by simp)
  · refine ⟨hp, ?_⟩
    by_cases hv : i = v
    · subst hv; rw [State.deferralOver_self hne] at hi ⊢; exact ⟨hi, rfl⟩
    · rw [State.deferralOver_other hv hp] at hi ⊢; exact ⟨hi, rfl⟩

theorem State.deferralOver_ready (h : (s.valveCh p).phase = .pullIn) {q : Nat} (hr : s.supplyReady q) : (s.deferralOver v p).supplyReady q := by
  have hl : (s.deferralOver v p).supplyLoad q ≤ s.supplyLoad q := by
    unfold State.supplyLoad
    simp only [← List.countP_eq_length_filter]
    refine List.countP_mono_left fun i _ hi => ?_
    simp only [Bool.and_eq_true, decide_eq_true_eq] at hi ⊢
    obtain ⟨⟨hq, hph⟩, hdg⟩ := hi
    obtain ⟨-, hph', hdg'⟩ := State.deferralOver_pullIn hne h hph
    exact ⟨⟨hq, hph'⟩, hdg' ▸ hdg⟩
  have hs : (s.deferralOver v p).supply q = s.supply q := State.supply_of_offChans s.deferralOver_offChans q
  unfold State.supplyReady at hr ⊢
  simp only [Bool.and_eq_true, decide_eq_true_eq, hs] at hr ⊢
  exact ⟨hr.1, by omega⟩
end

/-- Settles O15: each row's own change of a supply, a channel or a command, and what settling leaves of it. -/
theorem valveSuppliesAndEntries : Obligations.ValveSuppliesAndEntries := by
  unfold Obligations.ValveSuppliesAndEntries
  refine ⟨fun q s hv hs ho => ?_, fun q s hs ho ht => ?_, fun q s hv hs ht => ?_, fun s hv => ?_, fun s hv => ?_,
    fun s v c hc he hr ha hw hs ho => ?_, fun s c q r hc hw ht hq hq' ha hd => ?_, fun v s d p e hd hsi ht hs hb ho hr hdr => ?_⟩
  · refine ⟨_, congrArg Host.Outcome.next (if_pos ⟨hv, hs, ho⟩),
      (s.valveFrame_onSupply _ _).trans (State.valveFrame_of_offChans (State.settleValves_offChans _)), ?_⟩
    rw [State.supply_of_offChans (State.settleValves_offChans _), State.onSupply_supply_same]
  · exact ⟨_, congrArg Host.Outcome.next (if_pos ⟨hs, ho, ht⟩), rfl, State.onSupply_supply_same _ _ _, rfl⟩
  · exact ⟨_, congrArg Host.Outcome.next (if_pos ⟨hv, hs, ht⟩), rfl, State.onSupply_supply_same _ _ _, rfl⟩
  · refine ⟨_, exec_actuatorSupplyLost_of_on hv, s.lose24_frame.trans (State.valveFrame_of_offChans (State.settleValves_offChans _)), ?_,
      fun q => ?_, fun v => ?_⟩
    · rw [State.v24_of_offChans (State.settleValves_offChans _), s.lose24_v24]
    · rw [State.supply_of_offChans (State.settleValves_offChans _), s.lose24_supply q]
    · rw [s.lose24_settled]
      refine ⟨rfl, rfl, fun h => ?_⟩
      obtain h | h := h <;> simp [Valve.stageOff, h]
  · have ho : (if s.regain24.gen.rmReady then s.regain24.driveRacks else s.regain24).offChans = s.regain24.offChans := by
      rw [State.offChans_ite, State.driveRacks_offChans, ite_self]
    refine ⟨_, exec_actuatorSupplyReturn_of_off hv, s.regain24_frame.trans (State.valveFrame_of_offChans ho), ?_, fun q => ?_⟩
    · rw [State.v24_of_offChans ho, s.regain24_v24]
    · rw [State.supply_of_offChans ho, s.regain24_supply]
  · obtain ⟨hph, hen, hdu⟩ := State.applyEntry_deenergise_hold hs
    have hst : (s.deenergised v.val c).settleValves.valveCh v.val = (s.applyEntry v.val 1).valveCh v.val :=
      State.settleValves_of_none (s := s.deenergised v.val c) (fun i _ => by
        rw [State.deenergised_valveCh]
        by_cases hi : i = v.val
        · rw [hi]; exact hdu
        · rw [State.applyEntry_one_other s hi]; exact ho i hi) v.val
    refine ⟨_, exec_valveEntryApply_deenergise hc he hr ha, ?_, ?_, ?_, ?_, ?_⟩
    · exact ValveFrame.trans (t := s.deenergised v.val c) (by rfl) (State.valveFrame_of_offChans (State.settleValves_offChans _))
    · rw [hst, hph]
    · rw [hst, hen]
    · rw [hst, hdu]
    · exact State.settleValves_cmds_of_decay (s := s.deenergised v.val c) rfl he hr hw (by rw [hst, hph])
  · have hid : r.packet.id = c.cmd := of_decide_eq_true (List.find?_some (p := fun x : Running => decide (x.packet.id = c.cmd)) hq')
    have hx := exec_boostWaitExpiry_refuses hc hw ht hq
    rw [← hid, State.finish_replies (s := s.refuseBoost q) (by rw [hid]; exact hq') ha hd] at hx
    refine ⟨_, hx, ?_, ?_, ?_⟩
    · rw [State.supply_of_offChans (State.settleValves_offChans _)]
      exact s.refuseBoost_supply q
    · exact (State.settleValves_of_no_cmds (by rfl)).1
    · rw [(State.settleValves_of_no_cmds (by rfl)).2.1]
      rfl
  · have hpb : p ∈ (s.valvePartners v.val).filter fun x => (s.valveCh x).phase = .pullIn := by rw [hb]; simp
    have hpp : (s.valveCh p).phase = .pullIn := of_decide_eq_true (List.mem_filter.mp hpb).2
    have hne : p ≠ v.val := fun h => by rw [h, hs] at hpp; exact absurd hpp (by decide)
    have hself := State.deferralOver_self (s := s) hne
    have hsd : ((s.deferralOver v.val p).valveCh v.val).due = some { d with behind := none } := by rw [hself, hd]; rfl
    have hsp : ((s.deferralOver v.val p).valveCh v.val).phase = .deferred := by rw [hself]; exact hs
    have hpart : ∀ x ∈ (s.deferralOver v.val p).valvePartners v.val, ((s.deferralOver v.val p).valveCh x).phase ≠ .pullIn := fun x hx hph => by
      rw [State.valvePartners_congr (State.cfg_of_offChans s.deferralOver_offChans)] at hx
      obtain ⟨hxp, hxs, -⟩ := State.deferralOver_pullIn hne hpp hph
      have : x ∈ (s.valvePartners v.val).filter fun x => (s.valveCh x).phase = .pullIn := List.mem_filter.mpr ⟨hx, decide_eq_true hxs⟩
      rw [hb] at this
      exact hxp (List.mem_singleton.mp this)
    have hx := exec_valveDeferFault_of_late hd hsi ht hb
    have hnf : ((s.deferralOver v.val p).valveCh v.val).phase ≠ .fault := by rw [hsp]; simp
    have hbn : ({ d with behind := none } : ValveDue).behind = none := rfl
    rw [State.tryStart_starts hsd hnf hbn hpart (State.deferralOver_ready hne hpp hr)] at hx
    obtain ⟨hph, hdu, -, -, -, hdf, hlf⟩ := State.startPullIn_same (s := s.deferralOver v.val p) (v := v.val)
      (d := { d with behind := none }) hsd false
    have hst (i : Nat) : ((s.deferralOver v.val p).startPullIn v.val false).settleValves.valveCh i =
        ((s.deferralOver v.val p).startPullIn v.val false).valveCh i := by
      refine State.settleValves_of_deferred (fun i x hi => ?_) i
      by_cases hiv : i = v.val
      · rw [hiv, hdu] at hi; exact absurd hi (by simp)
      · rw [State.startPullIn, State.onValve_valveCh_other _ hiv] at hi
        by_cases hip : i = p
        · rw [hip, State.deferralOver_partner hne hpp] at hi
          rw [← Option.some.inj hi]; rfl
        · rw [State.deferralOver_other hiv hip, ho i hiv] at hi; exact absurd hi (by simp)
    have hfr : ValveFrame s ((s.deferralOver v.val p).startPullIn v.val false).settleValves := State.valveFrame_of_offChans (by
      rw [State.settleValves_offChans, State.startPullIn_offChans, State.deferralOver_offChans])
    refine ⟨_, hx, hfr, ?_, ?_, ?_, ?_, ?_⟩
    · rw [hst, hdf, hself]
    · rw [hst, hlf, hself]
    · rw [hst, hph]
    · rw [hst, State.startPullIn, State.onValve_valveCh_other _ hne, State.deferralOver_partner hne hpp]
    · have hsc := ((s.deferralOver v.val p).startPullIn_sansChans v.val false).trans (s.deferralOver_sansChans v.val p)
      rw [State.settleValves_evt_of_kept (by rw [State.proto_of_sansChans hsc]; exact hdr), State.evt_of_sansChans hsc]
      rfl

end Sys2Proof.Machine
end

section
/-! SUPPORT. Flow-stop detectors, and the end of an isolation (10). -/

namespace Sys2Proof.Machine

/-! ### Racks, causes and pumps that a flow stop reaches -/

@[simp] theorem State.setCause_groupDyn (s : State) (k c g : Nat) (on : Bool) : (s.setCause k c on).groupDyn g = s.groupDyn g := rfl
@[simp] theorem State.setCause_rackDyn (s : State) (k c i : Nat) (on : Bool) : (s.setCause k c on).rackDyn i = s.rackDyn i := rfl
@[simp] theorem State.setCause_motor (s : State) (k c i : Nat) (on : Bool) : (s.setCause k c on).motor i = s.motor i := rfl

/-- A pass that adds one cause to each rack of a list. -/
theorem foldl_setCause_on (l : List Nat) (c : Nat) (s : State) :
    let t := l.foldl (fun (s : State) k => s.setCause k c true) s
    s.OnlyTray t ∧ ∀ k, (k ∈ l ∨ Tab.get false s.tray.coolFault k = true ∧ bit (Tab.get 0 s.tray.causes k) c = true) →
      Tab.get false t.tray.coolFault k = true ∧ bit (Tab.get 0 t.tray.causes k) c = true := by
  induction l generalizing s with
  | nil => exact ⟨rfl, fun k h => by simpa using h⟩
  | cons n l ih =>
    obtain ⟨ho, hk⟩ := ih (s.setCause n c true)
    refine ⟨(s.onlyTray_setCause n c true).trans ho, fun k h => hk k ?_⟩
    by_cases hn : k = n
    · subst hn
      refine .inr ⟨s.setCause_coolFault_on k c, ?_⟩
      rw [State.setCause_causes_on, bit, Nat.testBit_or, Nat.testBit_shiftLeft]
      simp
    · rw [s.setCause_coolFault_other hn, s.setCause_causes_other hn]
      simpa [hn] using h

/-- One pump of a group granted its permit under the flow-stop drive. -/
def State.drivePump (s : State) (p : Nat) : State := ((s.onMotor p fun m => { m with flowStopDrive := true }).setPermit p true).beginAttempt p

theorem State.flowStopDrive_eq (s : State) (g : Nat) : s.flowStopDrive g = (s.cfg.topo.group g).pumps.foldl State.drivePump s := rfl

theorem onlyMotor_trans {n : Nat} {s t u : State} (h : OnlyMotor n s t) (h' : OnlyMotor n t u) : OnlyMotor n s u :=
  ⟨fun i hi => (h'.1 i hi).trans (h.1 i hi), h'.2.trans (congrArg (fun x : State => { x with motors := u.motors }) h.2)⟩

theorem onlyMotor_drivePump (s : State) (p : Nat) : OnlyMotor p s (s.drivePump p) :=
  onlyMotor_trans (onlyMotor_trans (onlyMotor_onMotor s p _) (onlyMotor_onMotor _ p _)) (onlyMotor_beginAttempt _ p)

theorem Motor.setPermit_flowStopDrive (m : Motor) (on : Bool) : (m.setPermit on).flowStopDrive = m.flowStopDrive := by
  unfold Motor.setPermit
  dsimp only
  split
  · rfl
  · split <;> rfl

/-- The start of an attempt leaves the permit and the drive. -/
theorem State.beginAttempt_keeps (s : State) (n i : Nat) :
    ((s.beginAttempt n).motor i).permit = (s.motor i).permit ∧ ((s.beginAttempt n).motor i).flowStopDrive = (s.motor i).flowStopDrive := by
  have h (f : Motor → Motor) (hp : ∀ m, (f m).permit = m.permit) (hd : ∀ m, (f m).flowStopDrive = m.flowStopDrive) :
      ((s.onMotor n f).motor i).permit = (s.motor i).permit ∧ ((s.onMotor n f).motor i).flowStopDrive = (s.motor i).flowStopDrive := by
    by_cases hi : i = n
    · subst hi; rw [motor_onMotor_same]; exact ⟨hp _, hd _⟩
    · rw [motor_onMotor_other s _ hi]; exact ⟨rfl, rfl⟩
  unfold State.beginAttempt
  dsimp only
  split
  · exact ⟨rfl, rfl⟩
  · split
    · exact h _ (fun _ => rfl) fun _ => rfl
    · split
      · split
        · exact ⟨rfl, rfl⟩
        · exact h _ (fun _ => rfl) fun _ => rfl
      · exact h _ (fun _ => rfl) fun _ => rfl

theorem State.drivePump_same (s : State) (p : Nat) : ((s.drivePump p).motor p).permit = true ∧ ((s.drivePump p).motor p).flowStopDrive = true := by
  obtain ⟨hp, hd⟩ := ((s.onMotor p fun m => { m with flowStopDrive := true }).setPermit p true).beginAttempt_keeps p p
  unfold State.drivePump
  rw [hp, hd, State.setPermit, motor_onMotor_same, Motor.setPermit_permit, Motor.setPermit_flowStopDrive, motor_onMotor_same]
  exact ⟨rfl, rfl⟩

/-- Both pumps of the group are permitted and driven; nothing but the motor channels differs. -/
theorem State.flowStopDrive_drives (s : State) (g : Nat) :
    s.flowStopDrive g = { s with motors := (s.flowStopDrive g).motors } ∧
      ∀ p ∈ (s.cfg.topo.group g).pumps, ((s.flowStopDrive g).motor p).permit = true ∧ ((s.flowStopDrive g).motor p).flowStopDrive = true := by
  rw [s.flowStopDrive_eq]
  refine ⟨foldl_onlyMotor_frame onlyMotor_drivePump _ s, ?_⟩
  generalize (s.cfg.topo.group g).pumps = l
  have h (p : Nat) (l : List Nat) (s : State)
      (hp : p ∈ l ∨ (s.motor p).permit = true ∧ (s.motor p).flowStopDrive = true) :
      ((l.foldl State.drivePump s).motor p).permit = true ∧ ((l.foldl State.drivePump s).motor p).flowStopDrive = true := by
    induction l generalizing s with
    | nil => simpa using hp
    | cons n l ih =>
      refine ih _ ?_
      by_cases hn : p = n
      · subst hn; exact .inr (s.drivePump_same p)
      · rw [(onlyMotor_drivePump s n).1 p hn]
        simpa [hn] using hp
  exact fun p hp => h p l s (.inl hp)

/-! ### A detector arms -/

/-- A detector that has armed names its degraded input. -/
def State.noteDegraded (s : State) (d : Detector) : State := if s.detectorDegraded d then s.logDegraded d else s

theorem State.noteDegraded_frame (s : State) (d : Detector) : s.noteDegraded d = { s with evt := (s.noteDegraded d).evt } := by
  unfold State.noteDegraded
  split <;> rfl

/-! ### A flow stop -/

/-- The marks of a group's flow stop, before its pumps are driven. -/
def State.markGroupStop (s : State) (g : Nat) (off : Bool) : State :=
  ((s.served g).foldl (fun (s : State) k => s.setCause k Cause.groupStop true) s).onGroup g fun x =>
    { x with flowStop := true, stopLead := x.lead, stopLagOff := off }

/-- Whether the group's lag pump had no permit. -/
def State.lagOff (s : State) (g : Nat) : Bool :=
  match (s.groupDyn g).lag with
  | some l => !(s.motor l).permit
  | none => false

theorem exec_flowStop_group {g : Fin 4} {i : DetectorIn} {s : State} (hg : s.groupOn g.val) (ha : (s.groupDyn g.val).armed)
    (hf : (s.groupDyn g.val).flowStop = false) (hs : s.flowStopSeen (.group g) i) :
    exec (.flowStop (.group g) i) s =
      .next (((s.markGroupStop g.val (s.lagOff g.val)).flowStopDrive g.val).logRm Cls.prot 0x0507 (w32 g.val) [0]) := by
  have h : (!s.hasDetector (.group g) || !s.detectorArmed (.group g) || !s.flowStopSeen (.group g) i) = false := by
    simp [State.hasDetector, State.detectorArmed, hg, ha, hs]
  refine congrArg Host.Outcome.next ((if_neg (Bool.eq_false_iff.mp h)).trans ?_)
  exact if_neg (Bool.eq_false_iff.mp hf)

/-- The marks of a rack's flow stop. -/
def State.markRackStop (s : State) (k : Nat) : State := (s.setCause k Cause.rackStop true).onRack k fun x => { x with flowStop := true }

theorem exec_flowStop_rack {k : Fin 16} {i : DetectorIn} {s : State} (hd : s.hasDetector (.rack k)) (ha : (s.rackDyn k.val).armed)
    (hf : (s.rackDyn k.val).flowStop = false) (hs : s.flowStopSeen (.rack k) i) :
    exec (.flowStop (.rack k) i) s =
      .next (((s.markRackStop k.val).flowStopDrive (s.cfg.topo.rack k.val).group).logRm Cls.prot 0x0507 (w32 k.val) [1]) := by
  have h : (!s.hasDetector (.rack k) || !s.detectorArmed (.rack k) || !s.flowStopSeen (.rack k) i) = false := by
    simp [hd, State.detectorArmed, ha, hs]
  refine congrArg Host.Outcome.next ((if_neg (Bool.eq_false_iff.mp h)).trans ?_)
  exact if_neg (Bool.eq_false_iff.mp hf)

theorem State.onGroup_of_onlyTray {s u : State} (h : s.OnlyTray u) (g : Nat) (f : GroupDyn → GroupDyn) :
    u.onGroup g f = { s with cool := (u.onGroup g f).cool, tray := (u.onGroup g f).tray } := by
  have := congrArg (fun x : State => { x with cool := (u.onGroup g f).cool, tray := u.tray }) h
  exact this

theorem State.groupDyn_congr {s t : State} (h : t.cool = s.cool) (g : Nat) : t.groupDyn g = s.groupDyn g := by rw [State.groupDyn, h]; rfl
theorem State.rackDyn_congr {s t : State} (h : t.cool = s.cool) (k : Nat) : t.rackDyn k = s.rackDyn k := by rw [State.rackDyn, h]; rfl

theorem State.markGroupStop_frame (s : State) (g : Nat) (off : Bool) :
    s.markGroupStop g off = { s with cool := (s.markGroupStop g off).cool, tray := (s.markGroupStop g off).tray } ∧
      ((s.markGroupStop g off).groupDyn g).flowStop = true ∧
      ∀ k ∈ s.served g, Tab.get false (s.markGroupStop g off).tray.coolFault k = true ∧
        bit (Tab.get 0 (s.markGroupStop g off).tray.causes k) 1 = true := by
  obtain ⟨ho, hk⟩ := foldl_setCause_on (s.served g) Cause.groupStop s
  unfold State.markGroupStop
  generalize (s.served g).foldl _ s = u at ho hk
  refine ⟨?_, ?_, fun k h => hk k (.inl h)⟩
  · exact State.onGroup_of_onlyTray ho g _
  · rw [State.onGroup_groupDyn_same]

/-- The end of the flow-stop drive of a group with no other flow stop. -/
theorem State.endFlowStopDrive_of_last {s : State} {g : Nat} (hg : (s.groupDyn g).flowStop = false)
    (hk : ∀ k < 16, (s.rackDyn k).flowStop = false) :
    s.endFlowStopDrive g = (s.cfg.topo.group g).pumps.foldl (fun (s : State) p => s.onMotor p fun m => { m with flowStopDrive := false }) s := by
  refine if_neg ?_
  simp only [hg, Bool.false_or, List.any_eq_true, List.mem_range, Bool.and_eq_true]
  rintro ⟨k, hlt, -, h⟩
  rw [hk k hlt] at h
  exact absurd h (by decide)

theorem foldl_endDrive_motor (l : List Nat) (s : State) {p : Nat} (h : p ∈ l ∨ (s.motor p).flowStopDrive = false) :
    ((l.foldl (fun (s : State) p => s.onMotor p fun m => { m with flowStopDrive := false }) s).motor p).flowStopDrive = false := by
  induction l generalizing s with
  | nil => simpa using h
  | cons n l ih =>
    refine ih _ ?_
    by_cases hn : p = n
    · subst hn; exact .inr (by rw [motor_onMotor_same])
    · rw [motor_onMotor_other s _ hn]
      simpa [hn] using h

/-- A pass that ends one cause of the racks `b` names. -/
theorem foldl_setCause_off (l : List Nat) (b : Cfg → Nat → Bool) (c : Nat) (s : State) :
    let t := l.foldl (fun (s : State) k => if b s.cfg k then s.setCause k c false else s) s
    s.OnlyTray t ∧ ∀ k, b s.cfg k → (k ∈ l ∨ bit (Tab.get 0 s.tray.causes k) c = false) → bit (Tab.get 0 t.tray.causes k) c = false := by
  induction l generalizing s with
  | nil => exact ⟨rfl, fun k _ h => by simpa using h⟩
  | cons n l ih =>
    obtain ⟨ho, hk⟩ := ih (if b s.cfg n then s.setCause n c false else s)
    have hcfg : (if b s.cfg n then s.setCause n c false else s).cfg = s.cfg := by split <;> rfl
    refine ⟨State.OnlyTray.trans ?_ ho, fun k hb h => hk k (by rw [hcfg]; exact hb) ?_⟩
    · split
      · exact s.onlyTray_setCause n c false
      · rfl
    · by_cases hn : k = n
      · subst hn
        rw [if_pos hb]
        exact .inr (by rw [bit, State.setCause_off_testBit]; simp)
      · split
        · rw [s.setCause_causes_other hn]; simpa [hn] using h
        · simpa [hn] using h

/-- The marks of a group's flow stop ended, before its drive is. -/
def State.unmarkGroupStop (s : State) (g : Nat) : State :=
  ((List.range 16).foldl (fun (s : State) k =>
    if bit (s.cfg.topo.group g).racks k then s.setCause k Cause.groupStop false else s) s).onGroup g fun x =>
      { x with flowStop := false, netFailDue := x.stopLagOff }

theorem State.markRackStop_frame (s : State) (k : Nat) :
    s.markRackStop k = { s with cool := (s.markRackStop k).cool, tray := (s.markRackStop k).tray } ∧
      (s.markRackStop k).rackDyn k = { s.rackDyn k with flowStop := true } ∧
      Tab.get false (s.markRackStop k).tray.coolFault k = true ∧ bit (Tab.get 0 (s.markRackStop k).tray.causes k) 2 = true := by
  refine ⟨rfl, State.onRack_rackDyn_same _ k _, s.setCause_coolFault_on k _, ?_⟩
  have h : Tab.get 0 (s.markRackStop k).tray.causes k = Tab.get 0 s.tray.causes k ||| 1 <<< 2 := s.setCause_causes_on k 2
  rw [h, bit, Nat.testBit_or, Nat.testBit_shiftLeft]
  simp

/-- The pumps of a group driven in a state that a flow stop has marked. -/
theorem flowStopDrive_after {s u : State} (h : u = { s with cool := u.cool, tray := u.tray }) {g : Nat} :
    u.flowStopDrive g = { s with cool := (u.flowStopDrive g).cool, tray := (u.flowStopDrive g).tray, motors := (u.flowStopDrive g).motors } ∧
      (u.flowStopDrive g).cool = u.cool ∧ (u.flowStopDrive g).tray = u.tray ∧
      ∀ p ∈ (s.cfg.topo.group g).pumps, ((u.flowStopDrive g).motor p).permit = true ∧ ((u.flowStopDrive g).motor p).flowStopDrive = true := by
  obtain ⟨hf, hp⟩ := u.flowStopDrive_drives g
  have hc : u.cfg = s.cfg := by rw [h]
  generalize u.flowStopDrive g = w at *
  have hcool : w.cool = u.cool := by rw [hf]
  have htray : w.tray = u.tray := by rw [hf]
  refine ⟨?_, hcool, htray, by rw [← hc]; exact hp⟩
  rw [hcool, htray]
  exact hf.trans (congrArg (fun x : State => { x with motors := w.motors }) h)

theorem State.unmarkGroupStop_frame (s : State) (g : Nat) :
    s.unmarkGroupStop g = { s with cool := (s.unmarkGroupStop g).cool, tray := (s.unmarkGroupStop g).tray } ∧
      ((s.unmarkGroupStop g).groupDyn g).flowStop = false ∧ (∀ k, (s.unmarkGroupStop g).rackDyn k = s.rackDyn k) ∧
      ∀ k < 16, bit (s.cfg.topo.group g).racks k → bit (Tab.get 0 (s.unmarkGroupStop g).tray.causes k) 1 = false := by
  obtain ⟨ho, hk⟩ := foldl_setCause_off (List.range 16) (fun c k => bit (c.topo.group g).racks k) Cause.groupStop s
  unfold State.unmarkGroupStop
  generalize (List.range 16).foldl _ s = u at ho hk
  refine ⟨State.onGroup_of_onlyTray ho g _, ?_, fun k => ?_, fun k hlt hb => hk k hb (.inl (List.mem_range.mpr hlt))⟩
  · rw [State.onGroup_groupDyn_same]
  · have hc : u.cool = s.cool := by rw [State.OnlyTray] at ho; rw [ho]
    exact State.rackDyn_congr (s := s) (t := u) hc k

theorem exec_flowStopClear_group {g : Fin 4} {i : DetectorIn} {s : State} (hf : (s.groupDyn g.val).flowStop) (hs : s.flowSeen (.group g) i) :
    exec (.flowStopClear (.group g) i) s = .next ((s.unmarkGroupStop g.val).endFlowStopDrive g.val) :=
  congrArg Host.Outcome.next ((if_pos hs).trans (if_neg (by simp [hf])))

/-! ### The end of an isolation -/

theorem State.driveValve_energised {s : State} {v : Nat} (hr : (s.valveRec v).on) (hf : (s.valveCh v).phase ≠ .fault) (e : Bool) (a : Nat) :
    ((s.driveValve v e a).valveCh v).energised = e := by
  have hg : (!(s.valveRec v).on || (s.valveCh v).phase = .fault) = false := by simp [hr, hf]
  have h1 : ((s.onValve v fun x => { x with action := a, energised := e }).valveCh v).energised = e := by rw [State.onValve_valveCh_same]
  unfold State.driveValve
  rw [hg, if_neg (by decide)]
  generalize s.onValve v _ = u at h1
  cases e
  · rw [if_neg (by decide), State.onValve_valveCh_same]
    exact h1
  · rw [if_pos rfl]
    split
    · exact h1
    · rw [(State.tryStart_worked _ v v).2, State.onValve_valveCh_same]
      exact h1

theorem exec_isolationExitBypass_of_due {k : Fin 16} {s : State} {e : Nat} (hb : (s.rackDyn k.val).bypassDue = some e) (he : e + 10000 ≤ s.now) :
    exec (.isolationExitBypass k) s =
      .next ((s.onRack k.val fun d => { d with bypassDue := none }).drivePosition k.val 2).settleValves :=
  congrArg Host.Outcome.next (if_pos (by simp [hb, he]))

/-- The bypass valve of a rack that is not isolated, its bypass no longer due. -/
theorem State.drivePosition_bypass {s : State} {k v : Nat} (hv : (s.cfg.topo.rack k).vBypass = some v) (hr : s.rackState k ≠ .isolated)
    (hb : (s.rackDyn k).bypassDue = none) : s.drivePosition k 2 = s.driveValve v (!bit (s.cfg.topo.rack k).valveSense 2) 2 := by
  have hp : s.positionOf k 2 = !bit (s.cfg.topo.rack k).valveSense 2 := by
    have hb' : (Tab.get {} s.cool.racks k).bypassDue = none := hb
    simp [State.positionOf, hr, hb']
  have hf : (s.cfg.topo.rack k).valves.find? (·.2 = 2) = some (v, 2) := by simp [RackRec.valves, hv]
  unfold State.drivePosition
  rw [hf]
  simp only [hp, hr, if_false]

/-- Settles O6: a detector arms by its own input, a flow stop marks and drives, its end takes both back. -/
theorem flowStopDetectors : Obligations.FlowStopDetectors := by
  unfold Obligations.FlowStopDetectors
  refine ⟨fun g i s hg ha hp hb hd ht => ?_, fun k i s hd ha hr hb ht => ?_, fun g i s hg ha hf hd ht hgap hb => ?_,
    fun d i s hb hg => ?_, fun k i s hd ha hf hb hpb hg => ?_, fun g i s hf hk hs => ?_, fun k s v e hbd he hv hr hon hph => ?_⟩
  · have hg' : (!s.hasDetector (.group g) || s.detectorArmed (.group g)) = false := by simp [State.hasDetector, State.detectorArmed, hg, ha]
    obtain ⟨p, hpm, hpp, hps⟩ := hp
    have hp' : ((s.cfg.topo.group g.val).pumps.any fun p => (s.motor p).permit && (s.motor p).state = .run) = true :=
      List.any_eq_true.mpr ⟨p, hpm, by simp [hpp, hps]⟩
    have hse : s.pressureSeen (.group g) i = true := by simp [State.pressureSeen, State.detectorLimits, hb, hd, ht]
    have hx : exec (.detectorArmed (.group g) i) s = .next ((s.onGroup g.val fun x => { x with armed := true }).noteDegraded (.group g)) := by
      refine congrArg Host.Outcome.next ((if_neg (Bool.eq_false_iff.mp hg')).trans ?_)
      exact if_pos (by rw [hp', hb]; simpa using hse)
    refine ⟨_, hx, ?_, ?_⟩
    · rw [State.noteDegraded_frame]; rfl
    · rw [State.noteDegraded_frame]; exact s.onGroup_groupDyn_same g.val _
  · have hg' : (!s.hasDetector (.rack k) || s.detectorArmed (.rack k)) = false := by simp [hd, State.detectorArmed, ha]
    have hx : exec (.detectorArmed (.rack k) i) s = .next ((s.onRack k.val fun x => { x with armed := true }).noteDegraded (.rack k)) := by
      refine congrArg Host.Outcome.next ((if_neg (Bool.eq_false_iff.mp hg')).trans ?_)
      exact if_pos (by simp [hr, hb, State.pulsesSeen, ht])
    refine ⟨_, hx, ?_, ?_⟩
    · rw [State.noteDegraded_frame]; rfl
    · rw [State.noteDegraded_frame]; exact s.onRack_rackDyn_same k.val _
  · obtain ⟨hm, hfs, hc⟩ := s.markGroupStop_frame g.val (s.lagOff g.val)
    have hx := exec_flowStop_group hg ha hf (i := i) (by
      obtain hb | hb := hb <;> simp [State.flowStopSeen, State.detectorLimits, hb, hd, ht, hgap])
    obtain ⟨hfr, hcl, htr, hpu⟩ := flowStopDrive_after hm (g := g.val)
    refine ⟨_, hx, congrArg (fun x : State => x.logRm Cls.prot 0x0507 (w32 g.val) [0]) hfr, ?_, fun k hk => ?_, hpu⟩
    · exact (congrArg GroupDyn.flowStop (State.groupDyn_congr hcl g.val)).trans hfs
    · exact htr ▸ hc k hk
  · refine congrArg Host.Outcome.next (if_pos ?_)
    have : s.flowStopSeen d i = false := by simp [State.flowStopSeen, hb, Nat.not_le.mpr hg]
    simp [this]
  · obtain ⟨hm, hfs, hcf, hca⟩ := s.markRackStop_frame k.val
    have hx := exec_flowStop_rack hd ha hf (i := i) (by simp [State.flowStopSeen, State.detectorLimits, hb, hpb, hg])
    obtain ⟨hfr, hcl, htr, hpu⟩ := flowStopDrive_after hm (g := (s.cfg.topo.rack k.val).group)
    refine ⟨_, hx, congrArg (fun x : State => x.logRm Cls.prot 0x0507 (w32 k.val) [1]) hfr, ?_, htr ▸ hcf, htr ▸ hca, hpu⟩
    exact (State.rackDyn_congr hcl k.val).trans hfs
  · obtain ⟨hm, hfs, hrk, hc⟩ := s.unmarkGroupStop_frame g.val
    have hx := exec_flowStopClear_group hf hs
    have hcfg : (s.unmarkGroupStop g.val).cfg = s.cfg := by rw [hm]
    rw [State.endFlowStopDrive_of_last hfs fun n hn => by rw [hrk]; exact hk n hn] at hx
    generalize s.unmarkGroupStop g.val = u at *
    have hfr := foldl_onMotor_frame (u.cfg.topo.group g.val).pumps (fun _ m => { m with flowStopDrive := false }) u
    have hmo (p : Nat) (hp : p ∈ (u.cfg.topo.group g.val).pumps) := foldl_endDrive_motor _ u (.inl hp)
    generalize (u.cfg.topo.group g.val).pumps.foldl (fun (s : State) p => s.onMotor p fun m => { m with flowStopDrive := false }) u = w at *
    have hcool : w.cool = u.cool := by rw [hfr]
    have htray : w.tray = u.tray := by rw [hfr]
    refine ⟨w, hx, ?_, ?_, by rw [htray]; exact hc, by rw [← hcfg]; exact hmo⟩
    · rw [hcool, htray]
      exact hfr.trans (congrArg (fun x : State => { x with motors := w.motors }) hm)
    · rw [State.groupDyn_congr hcool, hfs]
  · have hx := exec_isolationExitBypass_of_due hbd he
    have hrd : (s.onRack k.val fun d => { d with bypassDue := none }).rackDyn k.val = { s.rackDyn k.val with bypassDue := none } :=
      s.onRack_rackDyn_same k.val _
    rw [State.drivePosition_bypass (s := s.onRack k.val fun d => { d with bypassDue := none }) hv hr (by rw [hrd])] at hx
    have hen := State.driveValve_energised (s := s.onRack k.val fun d => { d with bypassDue := none }) hon hph
      (!bit (s.cfg.topo.rack k.val).valveSense 2) 2
    have hfr : (s.onRack k.val fun d => { d with bypassDue := none }) =
      { s with cool := (s.onRack k.val fun d => { d with bypassDue := none }).cool } := rfl
    have hcf : (s.onRack k.val fun d => { d with bypassDue := none }).cfg = s.cfg := rfl
    rw [hcf] at hx
    generalize (s.onRack k.val fun d => { d with bypassDue := none }) = u at *
    have hvf : ValveFrame u (u.driveValve v (!bit (s.cfg.topo.rack k.val).valveSense 2) 2).settleValves :=
      State.valveFrame_of_offChans (by rw [State.settleValves_offChans, State.driveValve_offChans])
    have hwk := State.settleValves_worked (u.driveValve v (!bit (s.cfg.topo.rack k.val).valveSense 2) 2) v
    generalize (u.driveValve v (!bit (s.cfg.topo.rack k.val).valveSense 2) 2).settleValves = w at *
    have hcool : w.cool = u.cool := by rw [ValveFrame] at hvf; rw [hvf]
    refine ⟨w, hx, ?_, ?_, hwk.2.trans hen⟩
    · rw [hcool]
      exact Eq.trans hvf (congrArg (fun x : State => { x with valve := w.valve, proto := w.proto, nor := w.nor, evt := w.evt }) hfr)
    · rw [State.rackDyn_congr hcool, hrd]

end Sys2Proof.Machine
end

section
/-! SUPPORT. Analog channels, pulse inputs and rack harnesses (13). -/

namespace Sys2Proof.Machine

/-! ### Inputs as tables -/

@[simp] theorem State.onAnalog_same (s : State) (n : Nat) (f : AnalogDyn → AnalogDyn) : (s.onAnalog n f).analogDyn n = f (s.analogDyn n) :=
  Tab.get_modify_same _ _ _ _
@[simp] theorem State.onAnalog_other (s : State) {n i : Nat} (h : i ≠ n) (f : AnalogDyn → AnalogDyn) :
    (s.onAnalog n f).analogDyn i = s.analogDyn i := Tab.get_modify_other _ _ _ h
@[simp] theorem State.onPulse_same (s : State) (n : Nat) (f : PulseDyn → PulseDyn) : (s.onPulse n f).pulseDyn n = f (s.pulseDyn n) :=
  Tab.get_modify_same _ _ _ _
@[simp] theorem State.onPulse_other (s : State) {n i : Nat} (h : i ≠ n) (f : PulseDyn → PulseDyn) :
    (s.onPulse n f).pulseDyn i = s.pulseDyn i := Tab.get_modify_other _ _ _ h
@[simp] theorem State.onHarness_same (s : State) (k : Nat) (f : Harness → Harness) : (s.onHarness k f).harness k = f (s.harness k) :=
  Tab.get_modify_same _ _ _ _
@[simp] theorem State.onHarness_other (s : State) {k i : Nat} (h : i ≠ k) (f : Harness → Harness) :
    (s.onHarness k f).harness i = s.harness i := Tab.get_modify_other _ _ _ h

@[simp] theorem State.logRm_analogDyn (s : State) (c y i : Nat) (u : U32) (d : List U32) (o : Nat) :
    (s.logRm c y u d o).analogDyn i = s.analogDyn i := rfl
@[simp] theorem State.logRm_harness (s : State) (c y i : Nat) (u : U32) (d : List U32) (o : Nat) :
    (s.logRm c y u d o).harness i = s.harness i := rfl

/-! ### Detectors named as degraded -/

theorem foldl_logDegraded_frame (l : List Detector) (s : State) :
    l.foldl State.logDegraded s = { s with evt := (l.foldl State.logDegraded s).evt } := by
  induction l generalizing s with
  | nil => rfl
  | cons d l ih => rw [List.foldl_cons, ih]; rfl

theorem State.degradeDetectors_frame (s : State) (hit : Option Nat × Nat → Bool) :
    s.degradeDetectors hit = { s with evt := (s.degradeDetectors hit).evt } := by
  unfold State.degradeDetectors
  exact foldl_logDegraded_frame _ s

theorem State.degradeDetectors_of_unarmed {s : State} (h : ∀ d, s.detectorArmed d = false) (hit : Option Nat × Nat → Bool) :
    s.degradeDetectors hit = s := by
  unfold State.degradeDetectors
  simp [h]

/-! ### Input checks -/

theorem State.analogFaulty_eq (s : State) (n : Nat) : s.analogFaulty n = ((s.analogDyn n).bits ≠ 0 && !(s.cfg.analogRec n).compat) := rfl

/-- A bit of a channel's checks set. -/
def State.setCheck (s : State) (n w : Nat) : State := s.onAnalog n fun d => { d with bits := d.bits + 2 ^ (w + 1) }

/-- A bit of a channel's checks cleared. -/
def State.clearCheck (s : State) (n w : Nat) : State := s.onAnalog n fun d => { d with bits := d.bits - 2 ^ (w + 1) }

theorem exec_inputFault_of_failed {n : Fin 256} {w : Fin 4} {s : State} (hty : (s.cfg.analogRec n.val).ty ≠ 0)
    (hb : bit (s.analogDyn n.val).bits (w.val + 1) = false) (hf : 10 ≤ (s.analogDyn n.val).failRun.getD w.val 0) :
    exec (.inputFault n w) s = .next (if s.analogFaulty n.val || !(s.setCheck n.val w.val).analogFaulty n.val then s.setCheck n.val w.val
      else ((s.setCheck n.val w.val).logRm (if n.val < 16 then 3 else 2) (if n.val < 16 then 0x0702 else 0x0701) (w32 n.val)
        [w32 (w.val + 1)]).degradeDetectors fun i => i.1 = some n.val) := by
  refine congrArg Host.Outcome.next (if_neg ?_)
  simp only [hb]
  rintro (h | h | h)
  · exact hty h
  · exact absurd h (by decide)
  · omega

theorem exec_inputClear_of_passed {n : Fin 256} {w : Fin 4} {s : State} (hb : bit (s.analogDyn n.val).bits (w.val + 1) = true)
    (hp : 1000 ≤ (s.analogDyn n.val).passRun.getD w.val 0) :
    exec (.inputClear n w) s = .next (if s.analogFaulty n.val && !(s.clearCheck n.val w.val).analogFaulty n.val
      then (s.clearCheck n.val w.val).logRm 1 0x0703 (w32 n.val) [w32 (w.val + 1)] else s.clearCheck n.val w.val) :=
  congrArg Host.Outcome.next (if_neg (by rw [hb, decide_eq_false (Nat.not_lt.mpr hp)]; decide))

/-- What a check that fails leaves, whatever it logs. -/
theorem State.inputFault_frame (s : State) (n w : Nat) (b : Bool) (c y : Nat) (x : U32) (d : List U32) (hit : Option Nat × Nat → Bool) :
    let t := if b then s.setCheck n w else ((s.setCheck n w).logRm c y x d).degradeDetectors hit
    t = { s with sense := t.sense, evt := t.evt } ∧ ∀ i, t.analogDyn i = (s.setCheck n w).analogDyn i := by
  cases b
  · simp only [Bool.false_eq_true, if_false]
    rw [State.degradeDetectors_frame]
    exact ⟨rfl, fun _ => rfl⟩
  · exact ⟨rfl, fun _ => rfl⟩

theorem State.inputFault_of_unarmed {s : State} (h : ∀ d, s.detectorArmed d = false) (n w c y : Nat) (x : U32) (d : List U32)
    (hit : Option Nat × Nat → Bool) :
    ((s.setCheck n w).logRm c y x d).degradeDetectors hit = (s.setCheck n w).logRm c y x d :=
  State.degradeDetectors_of_unarmed (s := (s.setCheck n w).logRm c y x d) (fun e => match e with
    | .group g => h (.group g)
    | .rack k => h (.rack k)) hit

/-- A critical channel marked, and the shutdown it trips where none stands. -/
def State.tripShutdown (s : State) (n : Nat) : State :=
  let s := s.onAnalog n fun d => { d with critAbove := true }
  if s.sense.sysShdn then s else { s with sense := { s.sense with sysShdn := true, critTripped := 2 ^ n } }

theorem State.tripShutdown_frame (s : State) (n : Nat) :
    s.tripShutdown n = { s with sense := (s.tripShutdown n).sense } ∧ ((s.tripShutdown n).analogDyn n).critAbove = true ∧
      (s.tripShutdown n).sense.sysShdn = true ∧
      (s.tripShutdown n).sense.critTripped = if s.sense.sysShdn then s.sense.critTripped else 2 ^ n := by
  have ha : ((s.onAnalog n fun d => { d with critAbove := true }).analogDyn n).critAbove = true := by rw [State.onAnalog_same]
  have hs : (s.onAnalog n fun d => { d with critAbove := true }).sense.sysShdn = s.sense.sysShdn := rfl
  unfold State.tripShutdown
  dsimp only
  rw [hs]
  split
  next h => exact ⟨rfl, ha, h, rfl⟩
  next => exact ⟨rfl, ha, rfl, rfl⟩

theorem exec_sysShdn_of_seen {n : Fin 16} {us : Nat} {s : State} (hu : 20 ≤ us) (hty : (s.cfg.analogRec n.val).ty = 1)
    (h1 : bit (s.analogDyn n.val).bits 1 = false) (h2 : bit (s.analogDyn n.val).bits 2 = false) :
    exec (.sysShdn n us) s = .next ((s.tripShutdown n.val).logRm 4 0x0705 (w32 n.val) []) :=
  congrArg Host.Outcome.next (if_neg (by simp [hty, h1, h2, hu]))

/-- Both straps as sampled. -/
def State.noteStraps (s : State) (a b : Nat) : State := { s with sense := { s.sense with tcritLogged := a, netSpdLogged := b } }

theorem exec_tcritStrapChanged (a : Fin 8) (b : Fin 4) (s : State) :
    exec (.tcritStrapChanged a b) s = .next (
      let t := if s.sense.tcritLogged ≠ a.val then (s.noteStraps a.val b.val).logRm 2 0x0706 0 [] else s.noteStraps a.val b.val
      if s.sense.netSpdLogged ≠ b.val then t.logRm 2 0x0706 1 [] else t) := rfl

/-- Settles O16: the checks by their one bit, then each row's own mark and record. -/
theorem analogChannelMarks : Obligations.AnalogChannelMarks := by
  unfold Obligations.AnalogChannelMarks
  refine ⟨fun n w s hty hb hf => ?_, fun n w s hb hp => ?_, fun n s => ?_, fun n on lo hi ticks s hm hsu ht hw => ?_,
    fun n us s hu hty hb1 hb2 => ?_, fun a b s ha hb => ?_, fun a b s ha hb => ?_⟩
  · have hx := exec_inputFault_of_failed hty hb hf
    have hd : (s.setCheck n.val w.val).analogDyn n.val = { s.analogDyn n.val with bits := (s.analogDyn n.val).bits + 2 ^ (w.val + 1) } :=
      s.onAnalog_same n.val _
    have haf : (s.setCheck n.val w.val).analogFaulty n.val = !(s.cfg.analogRec n.val).compat := by
      rw [State.analogFaulty_eq, hd]
      simp
      rfl
    refine ⟨_, hx, (s.inputFault_frame n.val w.val _ _ _ _ _ _).1, ((s.inputFault_frame n.val w.val _ _ _ _ _ _).2 _).trans hd,
      fun i hi => ((s.inputFault_frame n.val w.val _ _ _ _ _ _).2 i).trans (s.onAnalog_other hi _), fun h => ?_, fun hc hz hun => ?_⟩
    · rw [if_pos]
      · rfl
      · rw [haf, State.analogFaulty_eq]
        obtain h | h := h
        · simp [h]
        · cases hc : (s.cfg.analogRec n.val).compat <;> simp [h]
    · rw [if_neg (by rw [haf, State.analogFaulty_eq, hc, hz]; decide), State.inputFault_of_unarmed hun]
      rfl
  · have hx := exec_inputClear_of_passed hb hp
    have hd : (s.clearCheck n.val w.val).analogDyn n.val = { s.analogDyn n.val with bits := (s.analogDyn n.val).bits - 2 ^ (w.val + 1) } :=
      s.onAnalog_same n.val _
    refine ⟨_, hx, ?_, ?_, fun i hi => ?_, fun hc hz => ?_⟩
    · split <;> rfl
    · split <;> exact hd
    · split <;> exact s.onAnalog_other hi _
    · rw [if_pos]
      · rfl
      · rw [State.analogFaulty_eq, State.analogFaulty_eq, hd, hc, hz]
        simp
  · exact ⟨_, rfl, rfl, s.onAnalog_same n.val _, fun i hi => s.onAnalog_other hi _⟩
  · have hg : ¬ (!s.modelChecked n.val ∨ (s.analogDyn n.val).suspect = on ∨ ticks < 10000 ∨ s.withinBand n.val lo hi ≠ some (!on)) := by
      simp [hm, hsu, hw, ht]
    have hl (u : State) (c y : Nat) (x : U32) (d : List U32) (i : Nat) : (u.logLanes c y x d).analogDyn i = u.analogDyn i := by
      rw [State.logLanes_eq]; rfl
    refine ⟨_, congrArg Host.Outcome.next (if_neg hg), ?_, ?_, fun i hi => ?_⟩
    · rw [State.logLanes_sense]
      cases on <;> rfl
    · rw [hl, State.onAnalog_same]
    · rw [hl, State.onAnalog_other s hi]
  · obtain ⟨hfr, ha, hs, hc⟩ := s.tripShutdown_frame n.val
    exact ⟨_, exec_sysShdn_of_seen hu hty hb1 hb2, congrArg (fun x : State => x.logRm 4 0x0705 (w32 n.val) []) hfr, ha, hs, hc⟩
  · refine ⟨_, (exec_tcritStrapChanged a b s).trans ?_, rfl⟩
    rw [if_pos ha, if_neg (not_not.mpr hb), State.noteStraps, ← hb]
  · refine ⟨_, (exec_tcritStrapChanged a b s).trans ?_, rfl⟩
    rw [if_neg (not_not.mpr ha), if_pos hb, State.noteStraps, ← ha]

/-! ### Pulse inputs and harnesses -/

theorem exec_harnessReadDone_of_reading {k : Fin 16} {m : List Byte} {s : State} (hp : (s.harness k.val).present)
    (hr : (s.harness k.val).state = .reading) (hc : (s.harness k.val).cmd = none) :
    exec (.harnessReadDone k m) s =
      .next ((s.onHarness k.val fun x => { x with mem := m, state := s.harnessVerdict k.val m }).harnessAlarm k.val) := by
  have hg : ¬ ((!(s.harness k.val).present) = true) := by simp [hp]
  refine congrArg Host.Outcome.next ((if_neg hg).trans ?_)
  simp only [hc, hr]
  rfl

/-- A harness that matches raises no alarm. -/
theorem State.harnessAlarm_of_match {s : State} {k : Nat} (h : (s.harness k).state = .match_) : s.harnessAlarm k = s := by
  have hb : s.harnessBad k = false := by
    have h' : (Tab.get ({} : Harness) s.sense.harness k).state = .match_ := h
    simp [State.harnessBad, h']
  exact if_pos (by simp [hb])

/-- Any other verdict on an enabled rack takes it to COMMISSION with the alarm. -/
theorem State.harnessAlarm_of_bad {s : State} {k : Nat} (hr : s.rackOn k) (h : (s.harness k).state ≠ .match_) :
    s.harnessAlarm k = (s.moveRack k .commission).logRm Cls.alarm 0x070B (w32 k) [w32 (s.harness k).state.code] := by
  have hb : s.harnessBad k = true := by
    have h' : (Tab.get ({} : Harness) s.sense.harness k).state ≠ .match_ := h
    simp [State.harnessBad, h']
  exact if_neg (by simp [hr, hb])

theorem State.moveRack_of_same {s : State} {k : Nat} {st : RackState} (h : s.rackState k = st) : s.moveRack k st = s := if_pos h

/-- A harness as its read leaves it. -/
def State.readHarness (s : State) (k : Nat) (m : List Byte) : State :=
  s.onHarness k fun x => { x with mem := m, state := s.harnessVerdict k m }

theorem State.readHarness_same (s : State) (k : Nat) (m : List Byte) :
    (s.readHarness k m).harness k = { s.harness k with mem := m, state := s.harnessVerdict k m } := s.onHarness_same k _

/-! ### A rack put in a state -/

theorem State.cfg_ite {c : Prop} [Decidable c] (a b : State) : (if c then a else b).cfg = if c then a.cfg else b.cfg := apply_ite State.cfg c a b

theorem State.rackState_congr {s t : State} (h : t.cfg = s.cfg) (k : Nat) : t.rackState k = s.rackState k := by simp only [State.rackState, h]

theorem State.driveRack_cfg (s : State) (k : Nat) : (s.driveRack k).cfg = s.cfg := State.cfg_of_offChans (State.driveRack_offChans s k)

theorem State.grantFans_cfg (s : State) (k : Nat) : (s.grantFans k).cfg = s.cfg := by
  unfold State.grantFans
  refine foldl_keeps State.cfg (fun t f => ?_) _ s
  rw [State.cfg_ite, State.setPermit_cfg, ite_self]

theorem State.putRack_rackState (s : State) (k : Nat) (st : RackState) : (s.putRack k st).rackState k = st := by
  unfold State.putRack
  split
  next h => exact h
  next =>
    have hc : (s.applyStore [.rackState k st]).rackState k = st := congrArg RackKept.state
      (Tab.get_modify_same ({} : RackKept) s.cfg.racks k fun r => { r with state := st })
    exact (State.rackState_congr (by simp) k).trans hc

theorem State.moveRack_rackState (s : State) (k : Nat) (st : RackState) : (s.moveRack k st).rackState k = st := by
  unfold State.moveRack
  dsimp only
  split
  next h => exact h
  next =>
    refine (State.rackState_congr ?_ k).trans (s.putRack_rackState k st)
    simp only [State.cfg_ite, State.grantFans_cfg, State.driveRack_cfg, State.setCause_cfg, State.onRack_cfg, ite_self]

/-- Settles O18: each row by its own change, and an alarm by the rack's move to COMMISSION. -/
theorem pulseAndHarnessEvents : Obligations.PulseAndHarnessEvents := by
  unfold Obligations.PulseAndHarnessEvents
  have hbad (k : Fin 16) (m : List Byte) (s : State) (hon : s.rackOn k.val) (hv : s.harnessVerdict k.val m ≠ .match_) :=
    State.harnessAlarm_of_bad (s := s.readHarness k.val m) hon (by rw [State.readHarness_same]; exact hv)
  refine ⟨fun n s hr hf hn => ?_, fun n s hr hn => ?_, fun k s hp => ?_, fun k m s hp hr hc hv => ?_, fun k m s hp hr hc hv hon hco => ?_,
    fun k m s hp hr hc hv hon => ?_, fun k s hp hc => ?_⟩
  · have hx : exec (.pulseFloating n) s = .next ((s.onPulse n.val fun d => { d with fault := true }).degradeDetectors fun i => i.2 = n.val) :=
      congrArg Host.Outcome.next (if_pos (by simp [hr, hf, hn]))
    refine ⟨_, hx, ?_, ?_, fun i hi => ?_⟩ <;> rw [State.degradeDetectors_frame]
    · rfl
    · exact s.onPulse_same n.val _
    · exact s.onPulse_other hi _
  · exact ⟨_, congrArg Host.Outcome.next (if_pos (by simp [hr, hn])), rfl, s.onPulse_same n.val _, fun i hi => s.onPulse_other hi _⟩
  · exact ⟨_, congrArg Host.Outcome.next (if_neg (by simp [hp])), rfl, s.onHarness_same k.val _, fun i hi => s.onHarness_other hi _⟩
  · have hsame := s.readHarness_same k.val m
    have hx := (exec_harnessReadDone_of_reading (m := m) hp hr hc).trans
      (congrArg Host.Outcome.next (State.harnessAlarm_of_match (s := s.readHarness k.val m) (by rw [hsame, hv])))
    exact ⟨_, hx, rfl, by rw [hsame, hv]⟩
  · have hsame := s.readHarness_same k.val m
    have hx := (exec_harnessReadDone_of_reading (m := m) hp hr hc).trans (congrArg Host.Outcome.next (hbad k m s hon hv))
    rw [State.moveRack_of_same (s := s.readHarness k.val m) hco, hsame] at hx
    exact ⟨_, hx, rfl, hsame⟩
  · exact ⟨_, (exec_harnessReadDone_of_reading (m := m) hp hr hc).trans (congrArg Host.Outcome.next (hbad k m s hon hv)),
      State.moveRack_rackState (s.readHarness k.val m) k.val .commission⟩
  · have hx : exec (.harnessRemoved k) s = .next ((s.onHarness k.val fun _ => {}).logRm 3 0x070C (w32 k.val) []) := by
      refine congrArg Host.Outcome.next ((if_neg (by simp [hp])).trans ?_)
      simp only [hc]
      rfl
    exact ⟨_, hx, rfl, s.onHarness_same k.val _, fun i hi => s.onHarness_other hi _⟩

end Sys2Proof.Machine
end

section
/-! SUPPORT. The event recorder (19): what staging, numbering, the ring and the captures leave. -/

namespace Sys2Proof.Machine

/-! ### Staging -/

theorem EvtSt.stageRm_of_room {q : EvtSt} (hl : q.rmLost = 0) (hn : q.rmQueue.length < 512) (e : Event) :
    q.stageRm e = { q with rmQueue := q.rmQueue ++ [e] } :=
  (if_neg (by omega)).trans (if_pos hn)

theorem EvtSt.stageRm_of_full {q : EvtSt} (hl : q.rmLost = 0) (hn : 512 ≤ q.rmQueue.length) (e : Event) :
    q.stageRm e = { q with rmLost := 1, rmLostEpoch := e.epoch, rmLostOrigin := e.origin } :=
  (if_neg (by omega)).trans (if_neg (by omega))

/-- Staging touches only the queue and the counts of lost records. -/
theorem EvtSt.stageRm_frame (q : EvtSt) (e : Event) :
    (q.stageRm e).ring = q.ring ∧ (q.stageRm e).buffer = q.buffer ∧ (q.stageRm e).captures = q.captures := by
  unfold EvtSt.stageRm
  split
  · split <;> exact ⟨rfl, rfl, rfl⟩
  · split <;> exact ⟨rfl, rfl, rfl⟩

theorem Staging.stage_of_room {q : Staging} (hl : q.lost = 0) (hn : q.queue.length < 4096) (c : Nat) (e : Event) :
    q.stage c e = { q with queue := q.queue ++ [(q.nextIdx, e)], nextIdx := q.nextIdx + 1 } :=
  (if_neg (by omega)).trans (if_pos hn)

/-- An event bit of the recorder changes that register and, where it fires, the interrupts. -/
theorem State.setEvtEvent_evt (s : State) (m : U32) : (s.setEvtEvent m).evt = { s.evt with event := s.evt.event ||| m } := by
  unfold State.setEvtEvent State.fireIfSet
  split
  · rfl
  · rw [State.fire_eq]

theorem State.setEvtEvent_eq (s : State) (m : U32) : s.setEvtEvent m = { s with evt := (s.setEvtEvent m).evt, hif := (s.setEvtEvent m).hif } := by
  rw [State.setEvtEvent_evt]
  unfold State.setEvtEvent State.fireIfSet
  split
  · rfl
  · rw [State.fire_eq]

/-! ### Sequence numbers -/

theorem length_insertByEpoch (e : Event) (l : List Event) : (insertByEpoch e l).length = l.length + 1 := by
  induction l with
  | nil => rfl
  | cons x l ih => simp only [insertByEpoch]; split <;> simp [ih]

theorem length_sortByEpoch (l : List Event) : (sortByEpoch l).length = l.length := by
  suffices h : ∀ acc : List Event, (l.foldl (fun acc e => insertByEpoch e acc) acc).length = acc.length + l.length by
    simpa [sortByEpoch] using h []
  induction l with
  | nil => exact fun _ => rfl
  | cons e l ih => intro acc; rw [List.foldl_cons, ih, length_insertByEpoch, List.length_cons]; omega

/-- `r` numbers records from `q`'s next number up: what assigning a list leaves of the recorder. -/
structure EvtSt.Numbered (q r : EvtSt) (n : Nat) (l : List LogRecord) : Prop where
  buffer : r.buffer = q.buffer ++ l
  length : l.length = n
  queue : r.rmQueue = q.rmQueue
  rising : (l.map (·.seq)).Pairwise (· < ·)
  bounds : ∀ x ∈ l, q.nextSeq ≤ x.seq ∧ x.seq < r.nextSeq
  next : q.nextSeq ≤ r.nextSeq

/-- `r` differs from `q` in no record and in no number. -/
def EvtSt.SameNumbers (q r : EvtSt) : Prop := r.buffer = q.buffer ∧ r.nextSeq = q.nextSeq ∧ r.rmQueue = q.rmQueue

theorem EvtSt.sameNumbers_ite {q : EvtSt} {c : Prop} [Decidable c] {a b : EvtSt × U32} (ha : q.SameNumbers a.1) (hb : q.SameNumbers b.1) :
    q.SameNumbers (if c then a else b).1 := by split <;> assumption

theorem EvtSt.startCapture_sameNumbers (q : EvtSt) (n : Nat) (o : Option Nat) (h : Bool) (l : LaneId) : q.SameNumbers (q.startCapture n o h l) := by
  unfold EvtSt.startCapture; split <;> exact ⟨rfl, rfl, rfl⟩

/-- A trigger starts a capture at most. -/
theorem EvtSt.trigger_sameNumbers (q : EvtSt) (e : Event) (n : Nat) (src : Option LaneId) : q.SameNumbers (q.trigger e n src).1 := by
  have hq : q.SameNumbers q := ⟨rfl, rfl, rfl⟩
  unfold EvtSt.trigger
  refine EvtSt.sameNumbers_ite hq (EvtSt.sameNumbers_ite hq ?_)
  cases src with
  | none => exact hq
  | some l => exact EvtSt.sameNumbers_ite hq (EvtSt.startCapture_sameNumbers _ _ _ _ _)

/-- One record takes the next number. -/
theorem EvtSt.assign_numbered (q : EvtSt) (src : Option LaneId) (e : Event) : ∃ x, q.Numbered (q.assign src e) 1 [x] := by
  obtain ⟨hb, hn, hq⟩ := q.trigger_sameNumbers e q.nextSeq src
  have hx : (q.assign src e).nextSeq = q.nextSeq + 1 + (if e.ty = 0x0001 then (e.data.headD 0).toNat else 0) :=
    congrArg (· + 1 + (if e.ty = 0x0001 then (e.data.headD 0).toNat else 0)) hn
  refine ⟨{ seq := q.nextSeq, event := { e with capture := (q.trigger e q.nextSeq src).2 } }, ?_, rfl, hq, by simp, ?_, by omega⟩
  · exact congr (congrArg (fun b n => b ++ [({ seq := n, event := { e with capture := (q.trigger e q.nextSeq src).2 } } : LogRecord)]) hb) hn
  · rintro x hx'
    rw [List.mem_singleton.mp hx']
    exact ⟨le_refl _, by dsimp only; omega⟩

theorem EvtSt.Numbered.trans {q r t : EvtSt} {m n : Nat} {l k : List LogRecord} (h : q.Numbered r m l) (g : r.Numbered t n k) :
    q.Numbered t (m + n) (l ++ k) := by
  refine ⟨by rw [g.buffer, h.buffer, List.append_assoc], by rw [List.length_append, h.length, g.length], g.queue.trans h.queue, ?_, ?_,
    h.next.trans g.next⟩
  · rw [List.map_append, List.pairwise_append]
    refine ⟨h.rising, g.rising, fun a ha b hb => ?_⟩
    obtain ⟨x, hx, rfl⟩ := List.mem_map.mp ha
    obtain ⟨y, hy, rfl⟩ := List.mem_map.mp hb
    exact (h.bounds x hx).2.trans_le (g.bounds y hy).1
  · intro x hx
    obtain hx | hx := List.mem_append.mp hx
    · exact ⟨(h.bounds x hx).1, (h.bounds x hx).2.trans_le g.next⟩
    · exact ⟨h.next.trans (g.bounds x hx).1, (g.bounds x hx).2⟩

/-- A list of records takes rising numbers from the next one up. -/
theorem EvtSt.foldl_assign_numbered (src : Option LaneId) (evts : List Event) (q : EvtSt) :
    ∃ l, q.Numbered (evts.foldl (fun q e => q.assign src e) q) evts.length l := by
  induction evts generalizing q with
  | nil => exact ⟨[], by simp, rfl, rfl, by simp, by simp, le_refl _⟩
  | cons e evts ih =>
    obtain ⟨x, hx⟩ := q.assign_numbered src e
    obtain ⟨l, hl⟩ := ih (q.assign src e)
    exact ⟨[x] ++ l, by rw [List.length_cons, Nat.add_comm]; exact hx.trans hl⟩

/-- The recorder before the numbers of a move: the Ringmaster queue taken, the lane's index and lost count brought up. -/
def State.beforeNumbers (s : State) : EvtSt :=
  { s.evt with
    rmQueue := [], laneIdxNext := s.laneRecords.foldl (fun m r => max m (r.1 + 1)) s.evt.laneIdxNext
    cntLost := satTo 32 (s.evt.cntLost + (s.laneRecords.filter (·.2.ty = 0x0001)).foldl (fun n r => n + (r.2.data.headD 0).toNat) 0) }

theorem State.assignRecords_evt (s : State) :
    s.assignRecords.evt = (sortByEpoch (s.evt.rmQueue ++ s.laneRecords.map (·.2))).foldl (fun q e => q.assign s.mainLane e) s.beforeNumbers := rfl

theorem State.assignRecords_frame (s : State) :
    s.assignRecords = { s with evt := s.assignRecords.evt, laneA := s.assignRecords.laneA, laneB := s.assignRecords.laneB } := rfl

/-! ### The ring and the captures -/

/-- Bit 0 of the recorder's event word is its first flag. -/
theorem getLsbD_packFlags_zero (a b : Bool) : (w32 (packFlags [a, b])).getLsbD 0 = a := by
  cases a <;> cases b <;> decide

theorem drop_excess_of_fits {α : Type} {l : List α} {n : Nat} (h : l.length < n) (x : α) : (l ++ [x]).drop ((l ++ [x]).length - n) = l ++ [x] := by
  have h0 : (l ++ [x]).length - n = 0 := by rw [List.length_append, List.length_singleton]; omega
  rw [h0, List.drop_zero]

theorem EvtSt.writeRing_ring (q : EvtSt) (l : List LogRecord) : (q.writeRing l).ring = (q.ring ++ l).drop ((q.ring ++ l).length - ringSize) := by
  rw [EvtSt.writeRing]
theorem EvtSt.writeRing_buffer (q : EvtSt) (l : List LogRecord) : (q.writeRing l).buffer = q.buffer := by rw [EvtSt.writeRing]
theorem EvtSt.writeRing_nextSeq (q : EvtSt) (l : List LogRecord) : (q.writeRing l).nextSeq = q.nextSeq := by rw [EvtSt.writeRing]
theorem EvtSt.writeRing_event (q : EvtSt) (l : List LogRecord) : (q.writeRing l).event = q.event := by rw [EvtSt.writeRing]

/-- The recorder with its write buffer empty. -/
def EvtSt.unbuffered (q : EvtSt) : EvtSt := { q with buffer := [] }

theorem EvtSt.unbuffered_frame (q : EvtSt) :
    q.unbuffered.buffer = [] ∧ q.unbuffered.nextSeq = q.nextSeq ∧ q.unbuffered.ring = q.ring ∧ q.unbuffered.event = q.event := ⟨rfl, rfl, rfl, rfl⟩

theorem EvtSt.writeRing_one {q : EvtSt} (h : q.ring.length < ringSize) (x : LogRecord) : (q.writeRing [x]).ring = q.ring ++ [x] :=
  (q.writeRing_ring [x]).trans (drop_excess_of_fits h x)

/-- The event word an event bit sets, whatever the recorder and the update state were changed to. -/
theorem State.setEvtEvent_frame (s : State) (q : EvtSt) (u : UpdSt) (m : U32) {t : State}
    (h : t = ({ s with evt := q, upd := u } : State).setEvtEvent m) :
    t.evt.buffer = q.buffer ∧ t.evt.nextSeq = q.nextSeq ∧ t.evt.ring = q.ring ∧ t.evt.event = q.event ||| m ∧
      t = { s with evt := t.evt, upd := t.upd, hif := t.hif } := by
  subst h
  have he := State.setEvtEvent_evt { s with evt := q, upd := u } m
  refine ⟨?_, ?_, ?_, ?_, by rw [State.setEvtEvent_eq]⟩ <;> rw [he]

/-- A record staged for the ring touches only the recorder, and there neither the ring nor the buffer. -/
theorem State.logRm_frame (s : State) (q : EvtSt) (c y : Nat) (x : U32) (d : List U32) (o : Nat) {t : State}
    (h : t = ({ s with evt := q } : State).logRm c y x d o) : t.evt.ring = q.ring ∧ t.evt.buffer = q.buffer ∧ t = { s with evt := t.evt } := by
  subst h
  exact ⟨(q.stageRm_frame _).1, (q.stageRm_frame _).2.1, rfl⟩

/-- The event word of a write to the ring: bit 0 for a record of the interrupt class, bit 1 for a GAP. -/
def State.ringFlags (s : State) : U32 :=
  w32 (packFlags [s.evt.buffer.any fun r => s.cfg.irqClass ≤ r.event.cls, s.evt.buffer.any fun r => r.event.ty = 0x0001])

theorem exec_eventRingWrite_of_running {s : State} (h1 : s.gen.rmRestart = false) (h2 : s.power.failing = false) :
    exec .eventRingWrite s = .next (({ s with
      evt := (s.evt.writeRing s.evt.buffer).unbuffered
      upd := { s.upd with recordWritten := s.upd.recordWritten || !s.evt.buffer.isEmpty } } : State).setEvtEvent s.ringFlags) :=
  congrArg Host.Outcome.next (if_neg (by simp [h1, h2]))

/-- The torn entry a failed write leaves. -/
def tornEntry : LogRecord := { seq := 0, event := { cls := 0, ty := 0 }, torn := true }

theorem exec_emmcWriteFault_of_buffered {s : State} (h1 : s.gen.rmRestart = false) (h2 : s.power.failing = false) (h3 : s.evt.buffer ≠ []) :
    exec .emmcWriteFault s = .next (({ s with evt := s.evt.writeRing [tornEntry] } : State).logRm 5 0x0007 (w32 s.evt.ringPos) [] 1) :=
  congrArg Host.Outcome.next (if_neg (by simp [h1, h2, h3]))

/-- The frames of a capture stand at rising indices below 40,000. -/
theorem captureFrames_rising (x : Lane) (first : Int) :
    (captureFrames x first).Pairwise (fun a b => a.1 < b.1) ∧ ∀ e ∈ captureFrames x first, e.1 < 40000 := by
  unfold captureFrames
  generalize hl : (x.ferris.map (·.2)).filterMap (fun f =>
    let i := (f.epoch : Int) - first
    if 0 ≤ i ∧ i < 40000 then some (i.toNat, f) else none) = l
  have hb : ∀ e ∈ l, e.1 < 40000 := by
    subst hl
    intro e he
    obtain ⟨f, -, hf⟩ := List.mem_filterMap.mp he
    dsimp only at hf
    split at hf
    next h => cases hf; dsimp only; omega
    next => exact absurd hf (by simp)
  clear hl
  suffices h : ∀ t : Tab Frame, t.Pairwise (fun a b => a.1 < b.1) → (∀ e ∈ t, e.1 < 40000) →
      (l.foldl (fun t e => Tab.insert (Tab.erase t e.1) e.1 e.2) t).Pairwise (fun a b => a.1 < b.1) ∧
        ∀ e ∈ l.foldl (fun t e => Tab.insert (Tab.erase t e.1) e.1 e.2) t, e.1 < 40000 from h [] List.Pairwise.nil (by simp)
  induction l with
  | nil => exact fun t ht hb => ⟨ht, hb⟩
  | cons a l ih =>
    intro t ht hbt
    refine ih (fun e he => hb e (List.mem_cons_of_mem _ he)) _
      (Tab.rising_insert _ (Tab.rising_erase _ ht) fun e he => (Tab.mem_erase.mp he).2) fun e he => ?_
    obtain rfl | he := Tab.mem_insert.mp he
    · exact hb a List.mem_cons_self
    · exact hbt e (Tab.mem_erase.mp he).1

theorem length_captureFrames (x : Lane) (first : Int) : (captureFrames x first).length ≤ 40000 := by
  obtain ⟨hr, hb⟩ := captureFrames_rising x first
  have hn : ((captureFrames x first).map (·.1)).Nodup := (List.pairwise_map.mpr hr).imp fun h => h.ne
  have hsub : (captureFrames x first).map (·.1) ⊆ List.range 40000 := fun i hi => by
    obtain ⟨e, he, rfl⟩ := List.mem_map.mp hi
    exact List.mem_range.mpr (hb e he)
  simpa using (hn.subperm hsub).length_le

/-- The directory record of a capture whose frames have all been written. -/
def State.finished (s : State) (c : Capture) : Capture :=
  { c with
    state := if 40000 - (captureFrames s.main ((c.trigger : Int) - 20000)).length = 0 then .complete else .partial_
    missing := 40000 - (captureFrames s.main ((c.trigger : Int) - 20000)).length, frames := 40000
    content := captureFrames s.main ((c.trigger : Int) - 20000), source := s.mainLane.getD c.source, doneTime := s.tick.t0Time }

theorem exec_captureDone_of_due {s : State} {c : Capture} (hc : s.evt.captures = [c]) (hw : c.state = .writing) (hd : c.trigger + 20000 ≤ s.now) :
    exec .captureDone s = .next ((({ s with evt := { s.evt with captures := [s.finished c] } }).logRm 1 0x0005 (w32 c.id)
      [w32 (s.finished c).missing] 1).setEvtEvent (if (s.finished c).missing = 0 then 0x8 else 0x10)) := by
  have hf : s.evt.captures.find? (·.state = .writing) = some c := by simp [hc, hw]
  have hm : s.evt.captures.map (fun (x : Capture) => if x.id = c.id then s.finished c else x) = [s.finished c] := by simp [hc]
  refine congrArg Host.Outcome.next ?_
  unfold doCaptureDone
  rw [hf]
  refine (if_neg (by omega)).trans ?_
  rw [← hm]
  rfl

theorem exec_captureWriteStart_of_waiting {s : State} {c : Capture} {rest : List Capture} (hc : s.evt.captures = c :: rest)
    (hw : c.state = .waiting) (hr : ∀ d ∈ rest, d.id ≠ c.id ∧ d.state ≠ .writing) :
    exec .captureWriteStart s = .next { s with evt := { s.evt with captures := { c with state := .writing } :: rest } } := by
  have hn : ¬ (s.evt.captures.any (·.state = .writing)) = true := by
    rw [hc]
    simp only [List.any_cons, hw, Bool.or_eq_true, List.any_eq_true, decide_eq_true_eq]
    rintro (h | ⟨d, hd, h⟩)
    · exact absurd h (by decide)
    · exact (hr d hd).2 h
  have hf : s.evt.captures.find? (·.state = .waiting) = some c := by simp [hc, hw]
  have hm : s.evt.captures.map (fun (d : Capture) => if d.id = c.id then { d with state := .writing } else d) =
      { c with state := .writing } :: rest := by
    rw [hc, List.map_cons, if_pos rfl]
    refine congrArg _ ((List.map_congr_left fun d hd => ?_).trans (List.map_id rest))
    exact if_neg (hr d hd).1
  refine congrArg Host.Outcome.next ((if_neg hn).trans ?_)
  rw [hf]
  exact congrArg (fun l => { s with evt := { s.evt with captures := l } }) hm

/-! ### Counts of tick events -/

theorem exec_countRecord_of_first {i : Fin 7} {s : State} {n : Nat} (hn : Tab.get 0 s.evt.countPend i.val = n) (h0 : 0 < n)
    (hr : ∀ e ∈ s.evt.countRecs, e.1 ≠ i.val) :
    exec (.countRecord i) s = .next (({ s with evt := { s.evt with
        countPend := Tab.erase s.evt.countPend i.val
        countRecs := Tab.insert (Tab.erase s.evt.countRecs i.val) i.val (n, s.now) } }).logRm
      (countClass i.val) (0x0C01 + i.val) none32 [w32 n]) := by
  have hg : Tab.get none (s.evt.countRecs.map fun e => (e.1, some e.2)) i.val = none :=
    Tab.get_absent _ fun e he => by
      obtain ⟨x, hx, rfl⟩ := List.mem_map.mp he
      exact hr x hx
  subst hn
  refine congrArg Host.Outcome.next (if_neg ?_)
  rw [hg]
  simp [h0.ne']

/-- Settles O46: staging by the queue's room, numbers by induction on the records, and each other row by its equation. -/
theorem eventRecorder : Obligations.EventRecorder := by
  unfold Obligations.EventRecorder
  refine ⟨fun e s hl => ⟨fun hn => ⟨_, rfl, ?_⟩, fun hn => ⟨_, rfl, ?_⟩⟩, fun l e s hr hl hn => ⟨_, congrArg Host.Outcome.next (if_pos hr), ?_⟩,
    fun s h => congrArg Host.Outcome.next (if_pos ?_), fun s h1 h2 => ?_, fun s h1 h2 => ⟨_, congrArg Host.Outcome.next (if_pos ⟨h1, h2⟩), rfl⟩,
    fun s h1 h2 => ?_, fun s h => congrArg Host.Outcome.next (if_pos ?_), fun s h1 h2 h3 h4 => ?_, fun i s n hn h0 hr hl hq => ?_,
    fun s c rest hc hw hr => ⟨_, exec_captureWriteStart_of_waiting hc hw hr, rfl⟩, fun s c hc hw hd => ?_⟩
  · exact congrArg (fun q => { s with evt := q }) (EvtSt.stageRm_of_room hl hn _)
  · have h := EvtSt.stageRm_of_full (q := s.evt) hl hn { e with epoch := s.now, time := s.tick.t0Time }
    exact ⟨(congrArg EvtSt.rmQueue h :), (congrArg EvtSt.rmLost h :), (congrArg EvtSt.rmLostEpoch h :), rfl⟩
  · exact congrArg (fun q => s.setLane l { s.lane l with staging := q }) (Staging.stage_of_room hl hn _ _)
  · obtain h | h := h <;> simp [h]
  · have hx : exec .eventSeqAssign s = .next s.assignRecords := congrArg Host.Outcome.next (if_neg (by simp [h1, h2]))
    obtain ⟨l, hl⟩ := EvtSt.foldl_assign_numbered s.mainLane (sortByEpoch (s.evt.rmQueue ++ s.laneRecords.map (·.2))) s.beforeNumbers
    rw [← s.assignRecords_evt, length_sortByEpoch, List.length_append, List.length_map] at hl
    exact ⟨_, hx, hl.queue, s.assignRecords_frame, l, hl.buffer, hl.length, hl.rising, hl.bounds, hl.next⟩
  · obtain ⟨hb, hn, hg, he, hf⟩ := State.setEvtEvent_frame s (s.evt.writeRing s.evt.buffer).unbuffered _ s.ringFlags rfl
    obtain ⟨hb', hn', hg', he'⟩ := (s.evt.writeRing s.evt.buffer).unbuffered_frame
    refine ⟨_, exec_eventRingWrite_of_running h1 h2, hb.trans hb', (hn.trans hn').trans (s.evt.writeRing_nextSeq _), ?_, ?_, hf⟩
    · rw [← List.length_append]
      exact (hg.trans hg').trans (s.evt.writeRing_ring _)
    · rw [he, he', s.evt.writeRing_event, BitVec.getLsbD_or]
      exact congrArg _ (getLsbD_packFlags_zero _ _)
  · obtain h | h := h <;> simp [h]
  · obtain ⟨hr, hb, hf⟩ := State.logRm_frame s (s.evt.writeRing [tornEntry]) 5 0x0007 (w32 s.evt.ringPos) [] 1 rfl
    exact ⟨_, tornEntry, exec_emmcWriteFault_of_buffered h1 h2 h3, hr.trans (EvtSt.writeRing_one h4 _), rfl,
      hb.trans (s.evt.writeRing_buffer _), hf⟩
  · have hs := EvtSt.stageRm_of_room (q := { s.evt with
        countPend := Tab.erase s.evt.countPend i.val
        countRecs := Tab.insert (Tab.erase s.evt.countRecs i.val) i.val (n, s.now) }) hl hq
      { cls := countClass i.val, ty := 0x0C01 + i.val, epoch := s.now, time := s.tick.t0Time, subject := none32, data := [w32 n] }
    refine ⟨_, exec_countRecord_of_first hn h0 hr, ?_, (congrArg EvtSt.rmQueue hs :), rfl⟩
    refine (congrArg (fun q : EvtSt => Tab.get 0 q.countPend i.val) hs :).trans ?_
    exact (Tab.get_erase _ _ _ _).trans (if_pos rfl)
  · have hlen := length_captureFrames s.main ((c.trigger : Int) - 20000)
    refine ⟨_, s.finished c, exec_captureDone_of_due hc hw hd, ?_, rfl, rfl, rfl, Nat.sub_add_cancel hlen, fun h => if_pos h, fun h => if_neg h, ?_⟩
    · rw [State.setEvtEvent_evt]
      exact (EvtSt.stageRm_frame _ _).2.2
    · rw [State.setEvtEvent_eq]
      rfl

end Sys2Proof.Machine
end

section
/-! SUPPORT. Host-side resets and power states (17 Table 17.2). -/

namespace Sys2Proof.Machine

/-- The endpoint after a host-side reset: the watchdog, the interrupts counted and what the control plane keeps stay. -/
def HifSt.afterReset (h : HifSt) : HifSt :=
  { ({} : HifSt) with
    wdogTicks := h.wdogTicks, wdogExpired := h.wdogExpired, wdogDeferred := h.wdogDeferred, heartbeatSeen := h.heartbeatSeen
    irqs := h.irqs, rdata := h.rdata, err := h.err, latched := h.latched }

/-- The commands delivered and not completed at a host-side reset. -/
def ProtoSt.live (p : ProtoSt) : List Nat := p.delivered.map (·.id) ++ p.committed.map (·.packet.id) ++ p.running.map (·.packet.id)

/-- The protocol after a host-side reset. -/
def ProtoSt.afterReset (p : ProtoSt) : ProtoSt :=
  { p with fetched := [], ready := [], issued := p.issued.filter fun i => p.live.contains i.id, dropIds := p.live }

/-- The tick after a host-side reset: the view hold released. -/
def TickSt.afterReset (k : TickSt) : TickSt := if k.hold then { k with hold := false, holdTicks := 0, shown := k.settled } else k

/-- A completion dropped: its configuration stored, its NOTICE logged. -/
def State.dropCompletion (s : State) (c : Completion) : State := (s.store c.save).logRm 1 0x0102 c.tag [w32 c.opcode, w32 c.status] 1

/-- Completions dropped change only the stored copies and the log. -/
theorem foldl_dropCompletion (l : List Completion) (s : State) : ∃ n e, l.foldl State.dropCompletion s = { s with nor := n, evt := e } := by
  induction l generalizing s with
  | nil => exact ⟨s.nor, s.evt, rfl⟩
  | cons c l ih =>
    obtain ⟨n, e, h⟩ := ih (s.dropCompletion c)
    exact ⟨n, e, h.trans rfl⟩

/-- A host-side reset, once the completions ready are dropped. -/
theorem State.hostReset_of_dropped {s : State} {n : NorSt} {e : EvtSt} (h : s.proto.ready.foldl State.dropCompletion s = { s with nor := n, evt := e }) :
    s.hostReset = { s with
      nor := n, evt := e, hif := s.hif.afterReset, dport := {}, proto := s.proto.afterReset, tick := s.tick.afterReset } := by
  have h' : s.proto.ready.foldl (fun s c => (s.store c.save).logRm Cls.notice 0x0102 c.tag [w32 c.opcode, w32 c.status] 1) s =
      { s with nor := n, evt := e } := h
  unfold State.hostReset TickSt.afterReset
  dsimp only
  rw [h']
  cases hh : s.tick.hold <;> rfl

theorem TickSt.afterReset_hold (k : TickSt) : k.afterReset.hold = false := by
  unfold TickSt.afterReset
  split
  next => rfl
  next h => exact Bool.eq_false_iff.mpr h

theorem TickSt.afterReset_epoch (k : TickSt) : k.afterReset.epoch = k.epoch := by unfold TickSt.afterReset; split <;> rfl

theorem HifSt.msixDword_afterReset (h : HifSt) (v : Nat) : h.afterReset.msixDword (4 * v + 3) = 1 :=
  if_pos (by omega)

theorem ProtoSt.mem_live_of_delivered {p : ProtoSt} {x : Packet} (h : x ∈ p.delivered) : x.id ∈ p.live := by
  unfold ProtoSt.live
  exact List.mem_append_left _ (List.mem_append_left _ (List.mem_map_of_mem h))

theorem ProtoSt.mem_live_of_committed {p : ProtoSt} {x : Committed} (h : x ∈ p.committed) : x.packet.id ∈ p.live := by
  unfold ProtoSt.live
  exact List.mem_append_left _ (List.mem_append_right _ (List.mem_map_of_mem (f := fun c : Committed => c.packet.id) h))

/-- Settles O53: a reset by its state once the ready completions are dropped, the power states by their equations. -/
theorem hostSideResets : Obligations.HostSideResets := by
  unfold Obligations.HostSideResets
  refine ⟨fun c s hc => ?_, fun s c t hr hs ht => ?_, fun s => ⟨_, _, rfl, rfl, rfl, rfl⟩, fun s q ok h => ⟨?_, congrArg Host.Outcome.next (if_pos ?_)⟩⟩
  · obtain ⟨n, e, hd⟩ := foldl_dropCompletion s.proto.ready s
    have hr := State.hostReset_of_dropped hd
    have hx : exec c s = .next { s.hostReset with gen := if c = .perstN then { s.gen with scratch := 0 } else s.gen } := by
      obtain rfl | rfl | rfl := hc
      · rfl
      · exact congrArg Host.Outcome.next (by rw [if_neg (by decide), hr])
      · exact congrArg Host.Outcome.next (by rw [if_neg (by decide), hr])
    rw [hr] at hx
    refine ⟨_, hx, ⟨rfl, fun q => rfl, fun v _ => by rw [HifSt.msixDword_afterReset]; rfl, rfl, rfl, rfl⟩, rfl, rfl, rfl, rfl, rfl, rfl,
      fun p hp => ProtoSt.mem_live_of_delivered hp, fun c hc => ProtoSt.mem_live_of_committed hc, s.tick.afterReset_hold, rfl, rfl, rfl,
      s.tick.afterReset_epoch, rfl, rfl, rfl, rfl, rfl, rfl, rfl, rfl, rfl, rfl, rfl, fun h => ?_, fun h => if_neg h, fun h => ?_,
      fun _ h => if_pos h⟩
    · exact congrArg GenSt.scratch (if_pos h)
    · rw [h] at hd
      obtain ⟨hn, he⟩ : s.nor = n ∧ s.evt = e := ⟨congrArg State.nor hd, congrArg State.evt hd⟩
      subst hn he
      rfl
  · obtain ⟨n, e, hd⟩ := foldl_dropCompletion s.proto.ready s
    have hx : exec .functionLevelReset s = .next s.hostReset := rfl
    rw [← next_unique hx ht, State.hostReset_of_dropped hd]
    rw [hr] at hd
    exact (congrArg (fun x : State => x.evt.rmQueue) hd).symm
  · simp [State.mayFetch, h]
  · simp [h]

end Sys2Proof.Machine
end

section
/-! SUPPORT. The attestation mailbox (17 R433; 20 R500). -/

namespace Sys2Proof.Machine

theorem State.serve_of_up {s : State} (h1 : s.gen.rmRestart = false) (h2 : s.gen.rmReady = true) (f : SpdmSt → SpdmSt) :
    s.serve f = .next { s with spdm := f s.spdm } := congrArg Host.Outcome.next (if_neg (by simp [h1, h2]))

theorem State.serve_of_restart {s : State} (h : s.gen.rmRestart = true) (f : SpdmSt → SpdmSt) : s.serve f = .next s :=
  congrArg Host.Outcome.next (if_pos (by simp [h]))

theorem SpdmSt.whenReady_of_algorithms {q : SpdmSt} (h : q.phase = .algorithms) (r : SpdmReply) : q.whenReady r = { q with response := some r } :=
  congrArg (fun x => { q with response := some x }) (if_pos h)

theorem SpdmSt.whenReady_of_other {q : SpdmSt} (h : q.phase ≠ .algorithms) (r : SpdmReply) : q.whenReady r = { q with response := some .unexpected } :=
  congrArg (fun x => { q with response := some x }) (if_neg h)

section
variable {s : State} (h1 : s.gen.rmRestart = false) (h2 : s.gen.rmReady = true)
include h1 h2

/-- An answer of a connection that has negotiated. -/
theorem State.serve_whenReady (h : s.spdm.phase = .algorithms) (r : SpdmReply) :
    s.serve (fun q => q.whenReady r) = .next { s with spdm := { s.spdm with response := some r } } := by
  rw [State.serve_of_up h1 h2, SpdmSt.whenReady_of_algorithms h]

/-- A signed answer takes one free value. -/
theorem State.serve_whenReady_fresh (h : s.spdm.phase = .algorithms) (r : SpdmReply) :
    ({ s with fresh := s.fresh + 1 } : State).serve (fun q => q.whenReady r) =
      .next { s with fresh := s.fresh + 1, spdm := { s.spdm with response := some r } } :=
  State.serve_whenReady (s := { s with fresh := s.fresh + 1 }) h1 h2 h r

theorem exec_getVersion : exec .getVersion s = .next { s with spdm := { phase := .version, response := some (.version [0x12, 0x13]) } } :=
  State.serve_of_up h1 h2 fun _ => { phase := .version, response := some (.version [0x12, 0x13]) }

/-- What the mailbox holds of a protocol by its index. -/
def doeReply (index : Byte) : SpdmReply := if index = 0 then .doe (some 0) 1 else if index = 1 then .doe (some 1) 0 else .doe none 0

theorem exec_doeDiscovery (index : Byte) : exec (.doeDiscovery index) s = .next { s with spdm := { s.spdm with response := some (doeReply index) } } :=
  State.serve_of_up h1 h2 fun q => { q with response := some (doeReply index) }

/-- The responder's state after GET_CAPABILITIES. -/
def SpdmSt.askCapabilities (q : SpdmSt) (v : Nat) : SpdmSt :=
  if q.phase = .start then { q with response := some .unexpected }
  else if v = 0x12 || v = 0x13 then { phase := .capabilities, version := v, response := some (.capabilities true true true false false) }
  else { q with response := some .invalid }

theorem exec_getCapabilities (v : Nat) : exec (.getCapabilities v) s = .next { s with spdm := s.spdm.askCapabilities v } :=
  State.serve_of_up h1 h2 fun q => q.askCapabilities v

/-- The responder's state after NEGOTIATE_ALGORITHMS. -/
def SpdmSt.negotiate (q : SpdmSt) (a b m : Bool) : SpdmSt :=
  if q.phase = .capabilities || q.phase = .algorithms then
    { q with
      phase := if a && b then SpdmPhase.algorithms else q.phase
      response := some (if a && b then .algorithms a b m else .invalid) }
  else { q with response := some .unexpected }

theorem exec_negotiateAlgorithms (a b m : Bool) : exec (.negotiateAlgorithms a b m) s = .next { s with spdm := s.spdm.negotiate a b m } :=
  State.serve_of_up h1 h2 fun q => q.negotiate a b m

/-- The answer to GET_CERTIFICATE in order. -/
def certReply (slot off len : Nat) : SpdmReply :=
  if slot = 0 && off ≤ slotChain.length then .certificate ((slotChain.drop off).take len) ((slotChain.drop off).length - len) else .invalid

theorem exec_getCertificate (h : s.spdm.phase = .algorithms) (slot off len : Nat) :
    exec (.getCertificate slot off len) s = .next { s with spdm := { s.spdm with response := some (certReply slot off len) } } :=
  State.serve_whenReady h1 h2 h (certReply slot off len)

/-- The answer to GET_MEASUREMENTS in order. -/
def State.measReply (s : State) (ask : MeasAsk) (sign : Bool) (nonce : List Byte) : SpdmReply :=
  match ask with
  | .count => .measurements 8 [] nonce (if sign then some s.spdmSign else none)
  | .one i => if 1 ≤ i ∧ i ≤ 8 then .measurements 1 [(i, s.rawMeasurement i)] nonce (if sign then some s.spdmSign else none) else .invalid
  | .all => .measurements 8 ((List.range 8).map fun i => (i + 1, s.rawMeasurement (i + 1))) nonce (if sign then some s.spdmSign else none)

theorem exec_getMeasurements (h : s.spdm.phase = .algorithms) (ask : MeasAsk) (sign : Bool) (nonce : List Byte) :
    exec (.getMeasurements ask sign nonce) s =
      .next { s with fresh := s.fresh + 1, spdm := { s.spdm with response := some (s.measReply ask sign nonce) } } :=
  State.serve_whenReady_fresh h1 h2 h (s.measReply ask sign nonce)

theorem exec_challenge (h : s.spdm.phase = .algorithms) (nonce : List Byte) :
    exec (.challenge 0 nonce) s =
      .next { s with fresh := s.fresh + 1, spdm := { s.spdm with response := some (.challengeAuth (sha512 slotChain) nonce s.spdmSign) } } :=
  State.serve_whenReady_fresh h1 h2 h (.challengeAuth (sha512 slotChain) nonce s.spdmSign)

theorem exec_getDigests (h : s.spdm.phase = .algorithms) :
    exec .getDigests s = .next { s with spdm := { s.spdm with response := some (.digests [(0, sha512 slotChain)]) } } :=
  State.serve_whenReady h1 h2 h (.digests [(0, sha512 slotChain)])

theorem exec_getDigests_of_early (h : s.spdm.phase ≠ .algorithms) :
    exec .getDigests s = .next { s with spdm := { s.spdm with response := some .unexpected } } :=
  (State.serve_of_up h1 h2 fun q => q.whenReady (.digests [(0, sha512 slotChain)])).trans
    (congrArg (fun q => Host.Outcome.next { s with spdm := q }) (SpdmSt.whenReady_of_other h _))

end

theorem length_spdmSign (s : State) : s.spdmSign.length = 64 := by
  unfold State.spdmSign fitBytes zeros
  rw [List.length_append, List.length_take, List.length_replicate]
  omega

/-- Settles O52: each request by the responder's state after it, and the answers by their index. -/
theorem attestationMailbox : Obligations.AttestationMailbox := by
  unfold Obligations.AttestationMailbox
  refine ⟨fun s h1 h2 => ⟨fun index => ⟨_, exec_doeDiscovery h1 h2 index, rfl, fun h => ?_, fun h => ?_, fun h => ?_⟩, ⟨_, exec_getVersion h1 h2, rfl⟩,
      fun v hp hv => ⟨_, exec_getCapabilities h1 h2 v, ?_⟩, fun hp => ⟨_, exec_getCapabilities h1 h2 0x12, ?_⟩,
      fun m hp => ⟨⟨_, exec_negotiateAlgorithms h1 h2 true true m, ?_⟩, fun a b hab => ⟨_, exec_negotiateAlgorithms h1 h2 a b m, ?_⟩⟩⟩,
    fun s h1 h2 h => ⟨⟨_, exec_getDigests h1 h2 h, rfl⟩, fun off len ho => ⟨_, exec_getCertificate h1 h2 h 0 off len, ?_⟩,
      fun slot off len hs => ⟨_, exec_getCertificate h1 h2 h slot off len, ?_⟩,
      fun nonce => ⟨_, s.spdmSign, exec_challenge h1 h2 h nonce, length_spdmSign s, rfl⟩,
      fun nonce => ⟨_, s.spdmSign, exec_getMeasurements h1 h2 h .all true nonce, length_spdmSign s, rfl⟩,
      fun i nonce hi hj => ⟨_, exec_getMeasurements h1 h2 h (.one i) false nonce, ?_⟩,
      fun i sign nonce hi => ⟨_, exec_getMeasurements h1 h2 h (.one i) sign nonce, ?_⟩⟩,
    fun s h1 h2 h => ⟨_, exec_getDigests_of_early h1 h2 h, rfl⟩, fun s => ⟨_, rfl, rfl⟩,
    fun s h => ⟨State.serve_of_restart h fun _ => { phase := .version, response := some (.version [0x12, 0x13]) },
      State.serve_of_restart h fun q => q.whenReady (.digests [(0, sha512 slotChain)])⟩⟩
  · subst h; rfl
  · subst h; rfl
  · have h0 : index ≠ 0 := by rintro rfl; exact absurd h (by decide)
    have h1 : index ≠ 1 := by rintro rfl; exact absurd h (by decide)
    exact congrArg some ((if_neg h0).trans (if_neg h1))
  · rw [SpdmSt.askCapabilities, if_neg hp, if_pos (by obtain rfl | rfl := hv <;> decide)]
  · rw [SpdmSt.askCapabilities, if_pos hp]
  · rw [SpdmSt.negotiate, if_pos (by rw [hp]; decide)]
    rfl
  · rw [SpdmSt.negotiate, if_pos (by rw [hp]; decide), hab]
    rfl
  · rw [certReply, if_pos (by simp [ho]), List.length_drop]
  · rw [certReply, if_neg (by simp [hs])]
  · rw [State.measReply, if_pos ⟨hi, hj⟩]
    rfl
  · rw [State.measReply, if_neg (by omega)]

end Sys2Proof.Machine
end

section
/-! SUPPORT. Completions, held results and coalesced interrupts (18; 17 R425). -/

namespace Sys2Proof.Machine

theorem ProtoSt.settleBarriers_of_none {q : ProtoSt} (h : q.barriers = []) (d : Bool) : q.settleBarriers d = q := by
  have hb : q = { q with barriers := [] } := by rw [← h]
  rw [hb]
  simp [ProtoSt.settleBarriers]

theorem Completion.length_bytes (c : Completion) (b : Bool) : (c.bytes b).length = 32 := by
  simp [Completion.bytes, le16, le8]

/-- Coalescing touches the count of entries and the interrupts. -/
theorem State.coalesce_frame (s : State) (b : Bool) :
    s.coalesce b = { s with hif := { s.hif with
      coalCount := (s.coalesce b).hif.coalCount, msixPba := (s.coalesce b).hif.msixPba, irqs := (s.coalesce b).hif.irqs } } := by
  have hf (u : State) : u.fire 0 = { u with hif := { u.hif with
      coalCount := (u.fire 0).hif.coalCount, msixPba := (u.fire 0).hif.msixPba, irqs := (u.fire 0).hif.irqs } } := by
    rw [State.fire_eq, State.fire_hif]
  unfold State.coalesce
  dsimp only
  split
  · rfl
  · split
    · exact hf s
    · split
      · rw [hf]
      · rfl

/-- What an interrupt coalesced leaves as it was. -/
theorem State.coalesce_keeps {s t : State} {b : Bool} (h : t = s.coalesce b) :
    t.hostMem = s.hostMem ∧ t.hif.cqTail = s.hif.cqTail ∧ t.hif.cqPhase = s.hif.cqPhase ∧ t.hif.cqFill = s.hif.cqFill ∧ t.proto = s.proto ∧
      t.nor = s.nor ∧ t = { s with hif := t.hif } := by
  subst h
  rw [State.coalesce_frame]
  exact ⟨rfl, rfl, rfl, rfl, rfl, rfl, rfl⟩

/-- A completion written and retired with no barrier waiting. -/
theorem State.retire_of_no_barriers {s : State} (h : s.proto.barriers = []) (c : Completion) (m : Mem) (k : HifSt) :
    ({ s with hostMem := m, hif := k } : State).retire c = { s with
      hostMem := m, hif := k, nor := (s.store c.save).nor, upd := { s.upd with completionWritten := true }
      proto := { s.proto with issued := s.proto.issued.filter (·.id ≠ c.id), ready := s.proto.ready.filter (·.id ≠ c.id) } } := by
  unfold State.retire
  dsimp only
  rw [ProtoSt.settleBarriers_of_none (by exact h)]
  rfl

/-- The completion queue past one entry. -/
def HifSt.pushed (h : HifSt) : HifSt :=
  let wrap := h.cqTail + 1 = 2 ^ h.cqM
  { h with cqTail := if wrap then 0 else h.cqTail + 1, cqPhase := if wrap then !h.cqPhase else h.cqPhase, cqFill := h.cqFill + 1 }

/-- The state with a completion written, before its interrupt: `m` is host memory after it. -/
def State.completed (s : State) (c : Completion) (m : Mem) : State :=
  { s with
    hostMem := m, hif := s.hif.pushed, nor := (s.store c.save).nor, upd := { s.upd with completionWritten := true }
    proto := { s.proto with issued := s.proto.issued.filter (·.id ≠ c.id), ready := s.proto.ready.filter (·.id ≠ c.id) } }

/-- Host memory with a completion written at CQ_TAIL. -/
def State.withEntry (s : State) (c : Completion) : Mem := s.hostMem.writeBytes (s.hif.cqBase.toNat + 32 * s.hif.cqTail) (c.bytes s.hif.cqPhase)

theorem State.retire_pushed {s : State} (h : s.proto.barriers = []) (c : Completion) (a : Nat) (bs : List Byte) :
    ({ s.writeHost a bs with hif := s.hif.pushed } : State).retire c = s.completed c (s.hostMem.writeBytes a bs) :=
  State.retire_of_no_barriers h c (s.hostMem.writeBytes a bs) s.hif.pushed

section
variable {q : Fin 8} {s : State} {c : Completion} (h1 : s.hif.cqEnable = true) (h2 : s.hif.d3hot = false) (h3 : s.gen.rmRestart = false)
  (h4 : s.laneCtl.held = false) (hc : s.proto.nextCompletion q.val = some c)
include h1 h2 h3 h4 hc

theorem exec_completionWrite_of_read (hb : s.proto.barriers = []) :
    exec (.completionWrite q true) s = .next ((s.completed c (s.withEntry c)).coalesce c.noIrq) := by
  refine congrArg Host.Outcome.next ((if_neg (by simp [h1, h2, h3, h4])).trans ?_)
  rw [hc]
  refine (if_neg (by decide)).trans (congrArg (fun u : State => u.coalesce c.noIrq) ?_)
  exact State.retire_pushed hb c _ _

theorem exec_completionWrite_of_failed : exec (.completionWrite q false) s = .next (s.dmaFault q.val) := by
  refine congrArg Host.Outcome.next ((if_neg (by simp [h1, h2, h3, h4])).trans ?_)
  rw [hc]
  exact if_pos rfl

end

/-- A transfer that fails sets DMA in HIF_ERR and stops its queue. -/
theorem State.dmaFault_stops (s : State) (q : Nat) :
    (s.dmaFault q).hif.err.getLsbD 3 = true ∧ Tab.get {} (s.dmaFault q).hif.sqs q = { Tab.get ({} : Sq) s.hif.sqs q with err := true } := by
  unfold State.dmaFault
  constructor
  · rw [State.setHifErr_err, BitVec.getLsbD_or]
    exact Bool.or_true _
  · rw [State.setHifErr_hif]
    exact Tab.get_modify_same ({} : Sq) s.hif.sqs q fun x => { x with err := true }

theorem exec_heldResultReady_of_finished {s : State} {h : HeldCmd} {c : Completion} (hh : s.proto.held = [h]) (hr : h.ready = false)
    (ho : h.outcome = some c) (hb : s.proto.barriers = []) :
    exec (.heldResultReady h.tag) s = .next { s with
      nor := (s.store c.save).nor, proto := { s.proto with held := [{ h with ready := true }] } } := by
  have hf : s.proto.held.find? (fun x => x.tag = h.tag && !x.ready && x.outcome.isSome) = some h := by simp [hh, hr, ho]
  have hm : s.proto.held.map (fun (x : HeldCmd) => if x.id = h.id then { x with ready := true } else x) = [{ h with ready := true }] := by
    simp [hh]
  have hs : h.outcome.elim [] (·.save) = c.save := by rw [ho]; rfl
  refine congrArg Host.Outcome.next ?_
  unfold doHeldResultReady
  rw [hf]
  dsimp only
  rw [ProtoSt.settleBarriers_of_none (by exact hb), hs]
  exact congrArg (fun l => { s with nor := (s.store c.save).nor, proto := { s.proto with held := l } }) hm

/-- A vector that is not masked fires outside D3hot by one more interrupt. -/
theorem State.fire_of_unmasked {s : State} {v : Nat} (h1 : s.hif.d3hot = false) (h2 : (s.hif.msixDword (4 * v + 3)).getLsbD 0 = false) :
    s.fire v = { s with hif := { s.hif with irqs := Tab.modify 0 s.hif.irqs v (· + 1) } } :=
  (if_neg (by simp [h1])).trans (if_neg (Bool.eq_false_iff.mp h2))

/-- Settles O49: the write by the state before its interrupt, its failure by the fault, and the other rows by their equations. -/
theorem completionsAndHeldResults : Obligations.CompletionsAndHeldResults := by
  unfold Obligations.CompletionsAndHeldResults
  refine ⟨fun q s c h1 h2 h3 h4 hc hb => ⟨?_, ?_⟩, fun q ok s hn => ?_, fun pr q i c hi hc => ?_,
    fun s h c hh hr ho hb => ⟨_, exec_heldResultReady_of_finished hh hr ho hb, rfl, rfl, rfl⟩, fun us s h1 h2 h3 h4 h5 => ?_⟩
  · have hx := exec_completionWrite_of_read h1 h2 h3 h4 hc hb
    have hm' : s.withEntry c = s.hostMem.writeBytes (s.hif.cqBase.toNat + 32 * s.hif.cqTail) (c.bytes s.hif.cqPhase) := rfl
    generalize s.withEntry c = m at hx hm'
    obtain ⟨hm, ht, hp, hf, hpr, hn, hs⟩ := State.coalesce_keeps (s := s.completed c m) (b := c.noIrq) rfl
    replace hm := hm.trans hm'
    have hlen := c.length_bytes s.hif.cqPhase
    refine ⟨_, hx, ?_, fun a ha => ?_, fun h => ⟨ht.trans (if_neg h), hp.trans (if_neg h)⟩, fun h => ⟨ht.trans (if_pos h), hp.trans (if_pos h)⟩, hf,
      congrArg ProtoSt.ready hpr, congrArg ProtoSt.issued hpr, congrArg NorSt.alternate hn, fun h => ?_, ?_⟩
    · rw [hm, ← hlen]
      exact Mem.readBytes_writeBytes _ _ _
    · rw [hm]
      exact Mem.read_writeBytes_other _ _ _ _ (by rw [hlen]; exact ha)
    · rw [hn]
      exact if_pos h
    · generalize (s.completed c m).coalesce c.noIrq = t at hs
      rw [hs]
      rfl
  · obtain ⟨he, hq⟩ := s.dmaFault_stops q.val
    exact ⟨_, exec_completionWrite_of_failed h1 h2 h3 h4 hc, State.dmaFault_hostMem _ _, State.dmaFault_proto _ _,
      State.dmaFault_nor _ _, he, by rw [hq]⟩
  · refine congrArg Host.Outcome.next ?_
    unfold doCompletionWrite
    rw [hn]
    exact ite_self _
  · unfold ProtoSt.nextCompletion at hc
    rw [hi] at hc
    simpa using List.find?_some hc
  · have hx : exec (.cqCoalesceTimeout us) s = .next (({ s with hif := { s.hif with coalCount := 0 } } : State).fire 0) :=
      congrArg Host.Outcome.next (if_pos ⟨h1, h2, h3⟩)
    rw [State.fire_of_unmasked (by exact h4) (by exact h5)] at hx
    exact ⟨_, hx, rfl, Tab.get_modify_same 0 s.hif.irqs 0 (· + 1), rfl⟩

end Sys2Proof.Machine
end

section
/-! SUPPORT. A packet from its fetch to its commit (18 Table 18.2, R439 to R441). -/

namespace Sys2Proof.Machine

/-! ### Fetch -/

theorem exec_faultyPacket_of_failed {q : Fin 8} {s : State} (h : s.mayFetch q.val = true) (bs : List Byte) :
    exec (.faultyPacket q bs false) s = .next (s.dmaFault q.val) :=
  congrArg Host.Outcome.next ((if_neg (by simp [h])).trans (if_pos rfl))

/-- The bytes of queue `q` up to SQ_TAIL. -/
def Sq.avail (x : Sq) : Nat := (x.tail + x.ring - x.head) % x.ring

/-- The packet at the head of a queue accepted for delivery. -/
def State.acceptPacket (s : State) (q : Nat) (bs : List Byte) : State :=
  let u := s.moveHead q (4 * u16At bs 4)
  { u with proto := { (u.proto.issue (packetOf q bs)).1 with
    fetched := (u.proto.issue (packetOf q bs)).1.fetched ++ [(u.proto.issue (packetOf q bs)).2] } }

/-- A packet accepted has its tag in use. -/
theorem State.acceptPacket_tagInUse (s : State) (q : Nat) (bs : List Byte) :
    (s.acceptPacket q bs).proto.tagInUse (packetOf q bs).tag = true := by
  unfold ProtoSt.tagInUse
  have hi : (s.acceptPacket q bs).proto.issued = s.proto.issued ++ [
      { id := s.proto.nextId, sq := q, tag := (packetOf q bs).tag, opcode := (packetOf q bs).opcode
        barrier := if (packetOf q bs).opcode = 0x0105 then some (u8At (packetOf q bs).block 4) else none }] := rfl
  rw [hi]
  simp

/-- The queue of a refused packet stopped, or moved past it. -/
def State.passRefused (s : State) (q : Nat) (tag : U32) (r : FetchRefusal) : State :=
  if r.stop then (s.stopQueue q).logRm 2 0x0104 (w32 q) [w32 r.check, tag] 1 else s.moveHead q r.skip

/-- The next id given to a refused packet. -/
def State.issueRefused (s : State) (p : Packet) : State :=
  { s with proto := { s.proto with
    nextId := s.proto.nextId + 1
    issued := s.proto.issued ++ [({ id := p.id, sq := p.sq, tag := p.tag, opcode := p.opcode } : Issued)] } }

/-- A refused packet under its id: what a check up to 5 cannot trust is not read. -/
def ProtoSt.refused (pr : ProtoSt) (r : FetchRefusal) (p : Packet) : Packet := { p with id := pr.nextId, flags := if r.check ≤ 5 then 0 else p.flags }

/-- The packet at the head of a queue refused. -/
def State.refusePacket (s : State) (q : Nat) (bs : List Byte) (r : FetchRefusal) : State :=
  let u := (s.passRefused q (packetOf q bs).tag r).logRefused q r.check (packetOf q bs).tag
  (u.issueRefused (u.proto.refused r (packetOf q bs))).ready (u.proto.refused r (packetOf q bs)) u.now r.reply r.dup

theorem exec_faultyPacket_of_passed {q : Fin 8} {bs : List Byte} {s : State} (h : s.mayFetch q.val = true)
    (hc : fetchCheck s.proto (Tab.get ({} : Sq) s.hif.sqs q.val).avail bs = none) :
    exec (.faultyPacket q bs true) s = .next (s.acceptPacket q.val bs) := by
  refine congrArg Host.Outcome.next ((if_neg (by simp [h])).trans ((if_neg (by decide)).trans ?_))
  rw [Sq.avail] at hc
  dsimp only
  rw [hc]
  rfl

theorem exec_faultyPacket_of_refused {q : Fin 8} {bs : List Byte} {s : State} {r : FetchRefusal} (h : s.mayFetch q.val = true)
    (hc : fetchCheck s.proto (Tab.get ({} : Sq) s.hif.sqs q.val).avail bs = some r) :
    exec (.faultyPacket q bs true) s = .next (s.refusePacket q.val bs r) := by
  refine congrArg Host.Outcome.next ((if_neg (by simp [h])).trans ((if_neg (by decide)).trans ?_))
  rw [Sq.avail] at hc
  dsimp only
  rw [hc]
  rfl

/-- A refusal noted touches the counts of refusals and the log. -/
theorem State.logRefused_frame (s : State) (q c : Nat) (tag : U32) :
    s.logRefused q c tag = { s with
      evt := (s.logRefused q c tag).evt
      proto := { s.proto with
        refusals := (s.logRefused q c tag).proto.refusals, refusalPeriod := (s.logRefused q c tag).proto.refusalPeriod
        refusalsLogged := (s.logRefused q c tag).proto.refusalsLogged } } := by
  unfold State.logRefused
  dsimp only
  split <;> rfl

/-- A queue passed over touches that queue and the log. -/
theorem State.passRefused_frame (s : State) (q : Nat) (tag : U32) (r : FetchRefusal) :
    s.passRefused q tag r = { s with hif := (s.passRefused q tag r).hif, evt := (s.passRefused q tag r).evt } := by
  unfold State.passRefused
  split <;> rfl

theorem State.passRefused_stop (s : State) (q : Nat) (tag : U32) {r : FetchRefusal} (h : r.stop = true) :
    Tab.get {} (s.passRefused q tag r).hif.sqs q = { Tab.get ({} : Sq) s.hif.sqs q with err := true } := by
  rw [State.passRefused, if_pos h]
  exact Tab.get_modify_same ({} : Sq) s.hif.sqs q fun x => { x with err := true }

theorem State.passRefused_skip (s : State) (q : Nat) (tag : U32) {r : FetchRefusal} (h : r.stop = false) :
    Tab.get {} (s.passRefused q tag r).hif.sqs q =
      { Tab.get ({} : Sq) s.hif.sqs q with
        head := ((Tab.get ({} : Sq) s.hif.sqs q).head + r.skip) % (Tab.get ({} : Sq) s.hif.sqs q).ring } := by
  rw [State.passRefused, if_neg (by simp [h])]
  exact Tab.get_modify_same ({} : Sq) s.hif.sqs q fun x => { x with head := (x.head + r.skip) % x.ring }

/-- What refusing a packet leaves. -/
theorem State.refusePacket_frame {s : State} (q : Nat) (bs : List Byte) (r : FetchRefusal)
    (hd : s.proto.dropIds.contains s.proto.nextId = false) :
    (s.refusePacket q bs r).hif = (s.passRefused q (packetOf q bs).tag r).hif ∧
      (s.refusePacket q bs r).proto.fetched = s.proto.fetched ∧
      (s.refusePacket q bs r).proto.ready =
        s.proto.ready ++ [mkCompletion (s.proto.refused r (packetOf q bs)) s.now r.reply r.dup s.holdsBack] ∧
      s.refusePacket q bs r = { s with
        proto := (s.refusePacket q bs r).proto, hif := (s.refusePacket q bs r).hif, evt := (s.refusePacket q bs r).evt } := by
  obtain ⟨e, x, y, z, hu⟩ : ∃ e x y z, (s.passRefused q (packetOf q bs).tag r).logRefused q r.check (packetOf q bs).tag = { s with
      hif := (s.passRefused q (packetOf q bs).tag r).hif, evt := e
      proto := { s.proto with refusals := x, refusalPeriod := y, refusalsLogged := z } } := by
    rw [State.logRefused_frame]
    generalize (s.passRefused q (packetOf q bs).tag r).logRefused q r.check (packetOf q bs).tag = u
    rw [State.passRefused_frame]
    exact ⟨_, _, _, _, rfl⟩
  unfold State.refusePacket
  rw [hu]
  generalize (s.passRefused q (packetOf q bs).tag r).hif = k
  rw [State.ready, if_neg (by exact Bool.eq_false_iff.mp hd)]
  exact ⟨rfl, rfl, rfl, rfl⟩

/-! ### Delivery and commit -/

theorem takeDelivery_eq_take (q : ProtoSt) (n bytes : Nat) (l : List Packet) :
    takeDelivery q n bytes l = l.take (takeDelivery q n bytes l).length ∧ (takeDelivery q n bytes l).length ≤ n := by
  induction l generalizing n bytes with
  | nil => simp [takeDelivery]
  | cons p l ih =>
    unfold takeDelivery
    split
    · simp
    next h =>
      obtain ⟨h1, h2⟩ := ih (n - 1) (bytes + p.hdr + p.block.length)
      refine ⟨?_, ?_⟩
      · rw [List.length_cons, List.take_succ_cons, ← h1]
      · rw [List.length_cons]
        omega

theorem foldl_bytes_ge (l : List Packet) (b : Nat) : b ≤ l.foldl (fun n p => n + p.hdr + p.block.length) b := by
  induction l generalizing b with
  | nil => exact le_refl _
  | cons p l ih => exact (show b ≤ b + p.hdr + p.block.length by omega).trans (ih _)

/-- Where all fit and none is barred, all are delivered. -/
theorem takeDelivery_all {q : ProtoSt} (l : List Packet) (n b : Nat) (hn : l.length ≤ n)
    (hb : l.foldl (fun n p => n + p.hdr + p.block.length) b ≤ 0x100000) (hq : ∀ p ∈ l, q.barred p = false) : takeDelivery q n b l = l := by
  induction l generalizing n b with
  | nil => rfl
  | cons p l ih =>
    rw [List.length_cons] at hn
    have hp := hq p List.mem_cons_self
    have hle := (foldl_bytes_ge l (b + p.hdr + p.block.length)).trans hb
    unfold takeDelivery
    rw [if_neg (by rw [hp]; simp; omega), ih (n - 1) _ (by omega) hb fun x hx => hq x (List.mem_cons_of_mem _ hx)]

theorem exec_commandDelivery_of_running {s : State} (h1 : s.anyLane = true) (h2 : s.laneCtl.held = false) :
    exec .commandDelivery s = .next { s with proto := { s.proto with
      delivered := s.proto.delivered ++ takeDelivery s.proto 64 0 s.proto.fetched
      fetched := s.proto.fetched.drop (takeDelivery s.proto 64 0 s.proto.fetched).length } } :=
  congrArg Host.Outcome.next (if_neg (by simp [h1, h2]))

theorem exec_deliveryCommit_of_acked {s : State} (h1 : s.anyLane = true) (h2 : s.proto.delivered ≠ [])
    (h3 : s.laneCtl.redundancy = .duplex → s.laneA.isRunning = s.laneB.isRunning) :
    exec (.deliveryCommit s.laneA.isRunning s.laneB.isRunning) s = .next { s with proto := { s.proto with
      committed := s.proto.committed ++ s.proto.delivered.map (fun p => { packet := p, epoch := s.now }), delivered := [] } } := by
  refine congrArg Host.Outcome.next ((if_neg (by simp [h2])).trans ((if_neg ?_).trans (if_neg ?_)))
  · rw [Bool.and_self, Bool.and_self]
    unfold State.anyLane at h1
    revert h1
    cases s.laneA.isRunning <;> cases s.laneB.isRunning <;> decide
  · rw [Bool.and_self, Bool.and_self]
    exact fun h => h.2 (h3 h.1)

theorem exec_deliveryCommit_of_silent {s : State} (h2 : s.proto.delivered ≠ []) :
    exec (.deliveryCommit false false) s = .next { s with proto := { s.proto with
      fetched := s.proto.delivered ++ s.proto.fetched, delivered := [] } } :=
  congrArg Host.Outcome.next ((if_neg (by simp [h2])).trans (if_pos (by simp)))

/-- An opcode outside Table 18.8 fails check 9 where the checks before it pass. -/
theorem fetchCheck_of_bad_opcode {pr : ProtoSt} {avail : Nat} {bs : List Byte} (hv : u16At bs 0 = 1) (hh : u16At bs 2 = 16) (hl : 4 ≤ u16At bs 4)
    (hm : u16At bs 4 ≤ 16384) (ha : 4 * u16At bs 4 ≤ avail) (hf : u16At bs 12 = 0) (hz : u16At bs 14 = 0) (ho : u16At bs 6 ∉ opcodes) :
    fetchCheck pr avail bs = some { check := 9, reply := { status := SC.badOpcode, r0 := w32 (u16At bs 6) }, skip := u16At bs 4 * 4 } := by
  have hb : bit (u16At bs 12) 0 = false := by rw [hf]; rfl
  unfold fetchCheck
  dsimp only
  rw [if_neg (not_not.mpr hv), if_neg (by omega), if_neg (by omega), if_neg (by omega), if_neg (by omega), if_neg (by omega), if_neg (by omega),
    if_neg (by omega), if_neg (by simp [hb]), if_pos (by simpa using ho)]

/-- Settles O48: a fetch by its check, delivery by induction on the packets fetched, a commit by the acknowledgement. -/
theorem packetsFromFetchToCommit : Obligations.PacketsFromFetchToCommit := by
  unfold Obligations.PacketsFromFetchToCommit
  refine ⟨fun q bs s x hf hx => ?_, fun pr avail bs hv hh hl hm ha hfl hz ho => by rw [fetchCheck_of_bad_opcode hv hh hl hm ha hfl hz ho]; rfl,
    fun s h1 h2 hl hb hq => ?_, fun s h1 h2 => ?_, fun a b s ha hb h1 h2 h3 => ?_⟩
  · subst hx
    refine ⟨fun hc => ?_, fun r hc hd => ?_, ?_⟩
    · refine ⟨_, _, exec_faultyPacket_of_passed hf hc, rfl, rfl, ?_, rfl, rfl, ?_, rfl⟩
      · exact State.acceptPacket_tagInUse s q.val bs
      · exact Tab.get_modify_same ({} : Sq) s.hif.sqs q.val fun x => { x with head := (x.head + 4 * u16At bs 4) % x.ring }
    · obtain ⟨hh, hfe, hre, hfr⟩ := s.refusePacket_frame q.val bs r hd
      refine ⟨_, _, exec_faultyPacket_of_refused hf hc, rfl, hfe, hre, fun h => ?_, fun h => ?_, hfr⟩
      · rw [hh, State.passRefused_stop _ _ _ h]
        exact ⟨rfl, rfl⟩
      · rw [hh, State.passRefused_skip _ _ _ h]
    · obtain ⟨he, hq⟩ := s.dmaFault_stops q.val
      exact ⟨_, exec_faultyPacket_of_failed hf bs, by rw [hq], he, State.dmaFault_proto _ _, by rw [State.dmaFault, State.setHifErr_eq]; rfl⟩
  · have hx := exec_commandDelivery_of_running h1 h2
    rw [takeDelivery_all _ _ _ hl hb hq, List.drop_length] at hx
    exact ⟨_, hx, rfl⟩
  · obtain ⟨ht, hn⟩ := takeDelivery_eq_take s.proto 64 0 s.proto.fetched
    refine ⟨_, _, exec_commandDelivery_of_running h1 h2, hn, ?_⟩
    rw [← ht]
  · subst ha hb
    exact ⟨⟨_, exec_deliveryCommit_of_acked h1 h2 h3, rfl⟩, _, exec_deliveryCommit_of_silent h2, rfl⟩

end Sys2Proof.Machine
end

section
/-! SUPPORT. The checks every host opcode makes on its block (18 Table 18.2, checks 11 and 12). -/

namespace Sys2Proof.Machine

/-! ### Shapes that refuse a wrong length and a wrong version -/

/-- The refusal of a block whose size field is not its length. -/
def Packet.lengthReply (p : Packet) : Reply := { status := 0x0011, r0 := w32 ((p.hdr + p.block.length) / 4), r1 := w32 (u16At p.block 2) }

/-- The refusal of a block of another version. -/
def Packet.versionReply (p : Packet) : Reply := { status := 0x0014, r0 := w32 p.hdr }

/-- A check of the block that refuses a wrong length, and at the right length a wrong version, before anything else. -/
structure BlockGuard (shape : Packet → Except Reply Unit) : Prop where
  length : ∀ p, 4 ≤ p.block.length → u16At p.block 2 ≠ p.block.length → shape p = .error p.lengthReply
  version : ∀ p, 4 ≤ p.block.length → p.block.length ≠ 0xFFFF → u16At p.block 2 = p.block.length → u16At p.block 0 ≠ 1 →
    shape p = .error p.versionReply

theorem Packet.checkLength_of_wrong {p : Packet} (h4 : 4 ≤ p.block.length) (h : u16At p.block 2 ≠ p.block.length) :
    p.checkLength = .error p.lengthReply := by
  have h1 : (if p.block.length < 4 then none32 else w32 (u16At p.block 2)) = w32 (u16At p.block 2) := if_neg (by omega)
  unfold Packet.checkLength
  rw [if_pos (.inr (.inr h)), h1]
  rfl

theorem Packet.checkLength_of_right {p : Packet} (h4 : 4 ≤ p.block.length) (hf : p.block.length ≠ 0xFFFF) (h : u16At p.block 2 = p.block.length) :
    p.checkLength = .ok () := if_neg (by omega)

theorem Packet.checkShape_of_version {p : Packet} (h : u16At p.block 0 ≠ 1) (n : Nat) (r : List (Nat × Nat)) :
    p.checkShape { size := n, reserved := r } = .error p.versionReply := if_pos h

/-- A check that goes on after the length's own refuses a wrong length. -/
theorem blockGuard_of_length {k : Packet → Unit → Except Reply Unit} (hv : ∀ p, u16At p.block 0 ≠ 1 → k p () = .error p.versionReply) :
    BlockGuard fun p => p.checkLength >>= k p where
  length p h4 h := by rw [Packet.checkLength_of_wrong h4 h]; rfl
  version p h4 hf h hv' := by rw [Packet.checkLength_of_right h4 hf h]; exact hv p hv'

theorem blockGuard_checkBlock (n : Nat) (r : List (Nat × Nat)) : BlockGuard fun p => p.checkBlock n r :=
  blockGuard_of_length fun _ h => Packet.checkShape_of_version h n r

/-- What is checked after the block changes nothing of its refusals. -/
theorem BlockGuard.bind {f : Packet → Except Reply Unit} (h : BlockGuard f) (k : Packet → Unit → Except Reply Unit) :
    BlockGuard fun p => f p >>= k p where
  length p h4 hl := by rw [h.length p h4 hl]; rfl
  version p h4 hf hl hv := by rw [h.version p h4 hf hl hv]; rfl

/-- The opcodes' shapes: each a check of the block, then others. -/
theorem blockGuard_then (n : Nat) (r : List (Nat × Nat)) (k : Packet → Unit → Except Reply Unit) :
    BlockGuard fun p => p.checkBlock n r >>= k p := (blockGuard_checkBlock n r).bind k

theorem blockGuard_loopShape : BlockGuard loopShape :=
  blockGuard_of_length fun p h => by
    dsimp only
    rw [decide_eq_true h]
    rfl

theorem blockGuard_capSetShape : BlockGuard capSetShape :=
  blockGuard_of_length fun p h => by
    dsimp only
    rw [Packet.checkShape_of_version h]
    rfl

theorem blockGuard_modelActivateShape : BlockGuard modelActivateShape :=
  blockGuard_of_length fun _ h => Packet.checkShape_of_version h 8 [(6, 2)]

/-! ### What an opcode does with a block it refuses -/

/-- An opcode that answers a wrong block with its refusal and does nothing else. -/
def RefusesBlocks (e : (Packet → Instr) × Nat) : Prop :=
  ∀ (p : Packet) (s : State), s.accepts p → s.proto.barriers = [] →
    (4 ≤ p.block.length → u16At p.block 2 ≠ p.block.length → ∃ t, exec (e.1 p) s = .next t ∧
      t = { s with proto := s.answered e.2 p { status := 0x0011, r0 := w32 ((p.hdr + p.block.length) / 4), r1 := w32 (u16At p.block 2) } }) ∧
    (4 ≤ p.block.length → p.block.length ≠ 0xFFFF → u16At p.block 2 = p.block.length → u16At p.block 0 ≠ 1 → ∃ t, exec (e.1 p) s = .next t ∧
      t = { s with proto := s.answered e.2 p { status := 0x0014, r0 := w32 p.hdr } })

/-- The frame of every host opcode, with its own shape. -/
theorem refusesBlocks_of_runCmd {i : Packet → Instr} {op : Nat} {shape : Packet → Except Reply Unit} (hg : BlockGuard shape)
    (h : ∀ p s, ∃ free axis body, exec (i p) s = .next (s.runCmd op free p shape axis body)) : RefusesBlocks (i, op) := by
  intro p s ha _
  obtain ⟨free, axis, body, hx⟩ := h p s
  have hr {r : Reply} (hs : shape (s.taken op p) = .error r) := hx.trans (congrArg Host.Outcome.next (State.runCmd_shape s op free p r shape axis body ha hs))
  exact ⟨fun h4 hl => ⟨_, hr (hg.length (s.taken op p) h4 hl), rfl⟩, fun h4 hf hl hv => ⟨_, hr (hg.version (s.taken op p) h4 hf hl hv), rfl⟩⟩

/-- The block checks of QUEUE_BARRIER. -/
def barrierShape (p : Packet) : Except Reply Unit :=
  p.checkBlock 8 [(6, 2)] >>= fun _ => deny [(bits (u8At p.block 5) 7 1 ≠ 0, p.badField 5)]

/-- What QUEUE_BARRIER does before the barriers are settled. -/
def barrierBody (p : Packet) (s : State) : Except Reply (State × CmdEnd) :=
  let named := fun q => namesQueue (u8At p.block 4) q
  let waits := (s.proto.issued.filter fun i => i.id < p.id && named i.sq).map (·.id)
  let results := if bit (u8At p.block 5) 0 then (s.proto.held.filter fun h => h.id < p.id && named h.sq && !h.ready).map (·.id) else []
  let count := (waits ++ results.filter fun i => !waits.contains i).length
  .ok ({ s with proto := { s.proto with barriers := s.proto.barriers ++ [{ id := p.id, waits := waits, results := results, count := count }] } },
    .later [])

/-- A state with its barriers settled. -/
def State.settled (s : State) : State := { s with proto := s.proto.settleBarriers s.holdsBack }

theorem exec_queueBarrier (p : Packet) (s : State) :
    exec (.queueBarrier p) s = .next (s.runCmd 0x0105 false p barrierShape noAxis fun _ => barrierBody).settled := rfl

theorem State.settled_of_none {s : State} (h : s.proto.barriers = []) : s.settled = s := by
  unfold State.settled
  rw [ProtoSt.settleBarriers_of_none h]

/-- QUEUE_BARRIER settles the barriers besides, and there are none. -/
theorem refusesBlocks_queueBarrier : RefusesBlocks (.queueBarrier, 0x0105) := by
  intro p s ha hb
  have hg : BlockGuard barrierShape := blockGuard_then 8 [(6, 2)] _
  have hr {r : Reply} (hs : barrierShape (s.taken 0x0105 p) = .error r) :
      exec (.queueBarrier p) s = .next { s with proto := s.answered 0x0105 p r } := by
    rw [exec_queueBarrier, State.runCmd_shape s 0x0105 false p r barrierShape noAxis _ ha hs]
    exact congrArg Host.Outcome.next (State.settled_of_none hb)
  exact ⟨fun h4 hl => ⟨_, hr (hg.length (s.taken 0x0105 p) h4 hl), rfl⟩, fun h4 hf hl hv => ⟨_, hr (hg.version (s.taken 0x0105 p) h4 hf hl hv), rfl⟩⟩

theorem refusesBlocks_of_check {i : Packet → Instr} {op n : Nat} {r : List (Nat × Nat)}
    (h : ∀ p s, ∃ free axis body, exec (i p) s = .next (s.runCmd op free p (fun p => p.checkBlock n r) axis body)) : RefusesBlocks (i, op) :=
  refusesBlocks_of_runCmd (blockGuard_checkBlock n r) h

theorem refusesBlocks_of_then {i : Packet → Instr} {op n : Nat} {r : List (Nat × Nat)} {k : Packet → Unit → Except Reply Unit}
    (h : ∀ p s, ∃ free axis body, exec (i p) s = .next (s.runCmd op free p (fun p => p.checkBlock n r >>= k p) axis body)) : RefusesBlocks (i, op) :=
  refusesBlocks_of_runCmd (blockGuard_then n r k) h

/-- Groups 0x01 and 0x02. -/
theorem generalAndLoopOps_refuseBlocks : ∀ e ∈ ([
      (.nopEcho, 0x0101), (.getIdentity, 0x0102), (fun p => .snapshotRead p true, 0x0103), (.resultFetch, 0x0104), (.queueBarrier, 0x0105),
      (.hostHeartbeat, 0x0106), (.loopConfigure, 0x0201), (.loopSetMode, 0x0202), (.loopSetPoint, 0x0203), (.loopStatus, 0x0204)] :
      List ((Packet → Instr) × Nat)), RefusesBlocks e := by
  simp only [List.forall_mem_cons, List.not_mem_nil, false_imp_iff, implies_true, and_true]
  exact ⟨refusesBlocks_of_check fun _ _ => ⟨_, _, _, rfl⟩,
    refusesBlocks_of_check fun _ _ => ⟨_, _, _, rfl⟩,
    refusesBlocks_of_then fun _ _ => ⟨_, _, _, rfl⟩,
    refusesBlocks_of_check fun _ _ => ⟨_, _, _, rfl⟩,
    refusesBlocks_queueBarrier,
    refusesBlocks_of_check fun _ _ => ⟨_, _, _, rfl⟩,
    refusesBlocks_of_runCmd blockGuard_loopShape fun _ _ => ⟨_, _, _, rfl⟩,
    refusesBlocks_of_then fun _ _ => ⟨_, _, _, rfl⟩,
    refusesBlocks_of_then fun _ _ => ⟨_, _, _, rfl⟩,
    refusesBlocks_of_check fun _ _ => ⟨_, _, _, rfl⟩⟩

/-- Groups 0x03 and 0x04. -/
theorem modelAndGovernorOps_refuseBlocks : ∀ e ∈ ([
      (.modelStage, 0x0301), (.modelActivate, 0x0302), (.modelStatus, 0x0303), (.couplingAccess, 0x0304), (.forecastRead, 0x0305),
      (.jobDefine, 0x0401), (.rowEnvelopeSet, 0x0402), (.capSet, 0x0403), (.pacePolicySet, 0x0404), (.swingPolicySet, 0x0405),
      (.governorStatus, 0x0406)] :
      List ((Packet → Instr) × Nat)), RefusesBlocks e := by
  simp only [List.forall_mem_cons, List.not_mem_nil, false_imp_iff, implies_true, and_true]
  exact ⟨refusesBlocks_of_check fun _ _ => ⟨_, _, _, rfl⟩,
    refusesBlocks_of_runCmd blockGuard_modelActivateShape fun _ _ => ⟨_, _, _, rfl⟩,
    refusesBlocks_of_check fun _ _ => ⟨_, _, _, rfl⟩,
    refusesBlocks_of_check fun _ _ => ⟨_, _, _, rfl⟩,
    refusesBlocks_of_check fun _ _ => ⟨_, _, _, rfl⟩,
    refusesBlocks_of_check fun _ _ => ⟨_, _, _, rfl⟩,
    refusesBlocks_of_check fun _ _ => ⟨_, _, _, rfl⟩,
    refusesBlocks_of_runCmd blockGuard_capSetShape fun _ _ => ⟨_, _, _, rfl⟩,
    refusesBlocks_of_check fun _ _ => ⟨_, _, _, rfl⟩,
    refusesBlocks_of_check fun _ _ => ⟨_, _, _, rfl⟩,
    refusesBlocks_of_check fun _ _ => ⟨_, _, _, rfl⟩⟩

/-- Groups 0x05 to 0x08. -/
theorem fieldOps_refuseBlocks : ∀ e ∈ ([
      (.pumpConfigure, 0x0501), (.fanConfigure, 0x0502), (.motorCommand, 0x0503), (.skipBandsSet, 0x0504), (.networkConfigure, 0x0505),
      (.valveConfigure, 0x0601), (.valveCommand, 0x0602), (.valveStatus, 0x0603), (.inputConfigure, 0x0701), (.leakConfigure, 0x0702),
      (.harnessRead, 0x0703), (.busConfigure, 0x0801), (.busAutobaud, 0x0802)] :
      List ((Packet → Instr) × Nat)), RefusesBlocks e := by
  simp only [List.forall_mem_cons, List.not_mem_nil, false_imp_iff, implies_true, and_true]
  exact ⟨refusesBlocks_of_then fun _ _ => ⟨_, _, _, rfl⟩,
    refusesBlocks_of_then fun _ _ => ⟨_, _, _, rfl⟩,
    refusesBlocks_of_check fun _ _ => ⟨_, _, _, rfl⟩,
    refusesBlocks_of_then fun _ _ => ⟨_, _, _, rfl⟩,
    refusesBlocks_of_then fun _ _ => ⟨_, _, _, rfl⟩,
    refusesBlocks_of_then fun _ _ => ⟨_, _, _, rfl⟩,
    refusesBlocks_of_then fun _ _ => ⟨_, _, _, rfl⟩,
    refusesBlocks_of_check fun _ _ => ⟨_, _, _, rfl⟩,
    refusesBlocks_of_then fun _ _ => ⟨_, _, _, rfl⟩,
    refusesBlocks_of_then fun _ _ => ⟨_, _, _, rfl⟩,
    refusesBlocks_of_check fun _ _ => ⟨_, _, _, rfl⟩,
    refusesBlocks_of_then fun _ _ => ⟨_, _, _, rfl⟩,
    refusesBlocks_of_then fun _ _ => ⟨_, _, _, rfl⟩⟩

/-- Groups 0x09 to 0x0B. -/
theorem modeAndRecordOps_refuseBlocks : ∀ e ∈ ([
      (.modeRequest, 0x0901), (.trapezeDrill, 0x0902), (.laneStatus, 0x0903), (fun p => .eventRead p true, 0x0A01),
      (.captureRequest, 0x0A02), (.captureRead, 0x0A03), (fun p => .updateStage p true, 0x0B01), (.updateActivate, 0x0B02),
      (.updateConfirm, 0x0B03), (fun p => .updateStatus p true, 0x0B04), (fun p => .attest p true, 0x0B05), (.lifecycleSet, 0x0B06)] :
      List ((Packet → Instr) × Nat)), RefusesBlocks e := by
  simp only [List.forall_mem_cons, List.not_mem_nil, false_imp_iff, implies_true, and_true]
  exact ⟨refusesBlocks_of_check fun _ _ => ⟨_, _, _, rfl⟩,
    refusesBlocks_of_check fun _ _ => ⟨_, _, _, rfl⟩,
    refusesBlocks_of_check fun _ _ => ⟨_, _, _, rfl⟩,
    refusesBlocks_of_check fun _ _ => ⟨_, _, _, rfl⟩,
    refusesBlocks_of_check fun _ _ => ⟨_, _, _, rfl⟩,
    refusesBlocks_of_check fun _ _ => ⟨_, _, _, rfl⟩,
    refusesBlocks_of_check fun _ _ => ⟨_, _, _, rfl⟩,
    refusesBlocks_of_check fun _ _ => ⟨_, _, _, rfl⟩,
    refusesBlocks_of_check fun _ _ => ⟨_, _, _, rfl⟩,
    refusesBlocks_of_check fun _ _ => ⟨_, _, _, rfl⟩,
    refusesBlocks_of_check fun _ _ => ⟨_, _, _, rfl⟩,
    refusesBlocks_of_check fun _ _ => ⟨_, _, _, rfl⟩⟩

theorem hostOps_refuseBlocks : ∀ e ∈ hostOps, RefusesBlocks e := by
  intro e he
  obtain he | he := List.mem_append.mp (show e ∈ hostOps.take 10 ++ hostOps.drop 10 from he)
  · exact generalAndLoopOps_refuseBlocks e he
  obtain he | he := List.mem_append.mp (show e ∈ (hostOps.drop 10).take 11 ++ hostOps.drop 21 from he)
  · exact modelAndGovernorOps_refuseBlocks e he
  obtain he | he := List.mem_append.mp (show e ∈ (hostOps.drop 21).take 13 ++ hostOps.drop 34 from he)
  · exact fieldOps_refuseBlocks e he
  · exact modeAndRecordOps_refuseBlocks e he

/-! ### No lane, and ASYNC -/

theorem State.noLane_of_held {s : State} (h : s.anyLane = false) (ha : s.laneCtl.holdA = true) (hb : s.laneCtl.holdB = true) :
    s.noLane = .error .notInMode := by
  unfold State.noLane
  rw [if_neg (by simp [h]), if_pos (by simp [ha, hb])]

theorem State.noLane_of_coming {s : State} (h : s.anyLane = false) (ha : s.laneCtl.holdA = false) : s.noLane = .error (.busy s.laneStartLeft) := by
  unfold State.noLane
  rw [if_neg (by simp [h]), if_neg (by simp [ha])]

/-- A command that needs a lane, its block in order, with none running. -/
theorem State.runCmd_noLane {s : State} {op : Nat} {p : Packet} {r : Reply} {shape : Packet → Except Reply Unit}
    {axis : Packet → State → Except Reply Unit} {body : Nat → Packet → State → Except Reply (State × CmdEnd)} (h : s.accepts p)
    (hs : shape (s.taken op p) = .ok ()) (hl : ({ s with proto := s.took op p } : State).noLane = .error r) :
    s.runCmd op false p shape axis body = { ({ s with fresh := s.fresh + 1 } : State).countRefusal r with proto := s.answered op p r } := by
  unfold State.runCmd
  rw [State.claim_accepts s op p false h]
  simp only [hs, hl]
  have hd : ((do (if false = true then pure () else (.error r : Except Reply Unit)); axis (s.taken op p) { s with proto := s.took op p }) :
      Except Reply Unit) = .error r := rfl
  rw [hd]
  dsimp only
  by_cases hb : r.status = SC.busyRetry
  · have hc (u : State) : u.countRefusal r = { u with mode := { u.mode with cntRefusedBusy := satTo 32 (u.mode.cntRefusedBusy + 1) } } := if_pos hb
    rw [hc, hc]
    refine (State.ready_kept _ _ _ _ ?_).trans rfl
    exact h.2.2.1
  · have hc (u : State) : u.countRefusal r = u := if_neg hb
    rw [hc, hc]
    refine (State.ready_kept _ _ _ _ ?_).trans rfl
    exact h.2.2.1

/-- A retry time is 1 to 65,535. -/
theorem Reply.busy_aux (n : Nat) : 1 ≤ (Reply.busy n).aux ∧ (Reply.busy n).aux < 65536 := by
  have h : (Reply.busy n).aux = if n = 0 then 1 else if n < 65536 then n else 65535 := rfl
  rw [h]
  split
  · omega
  · split <;> omega

/-- An ASYNC packet under a tag the module does not hold is taken under the next id. -/
theorem State.claim_of_new {s : State} {p : Packet} (hi : ∀ i ∈ s.proto.issued, i.tag ≠ p.tag) (hh : s.proto.held = []) (op : Nat) (free : Bool) :
    s.claim { p with opcode := op } free = some ({ s with proto := s.took op p }, s.taken op p, s.now) := by
  have e : s.proto.issued.find? (fun i => i.tag = p.tag && i.sq = p.sq) = none := by
    rw [List.find?_eq_none]
    intro i h
    simp [hi i h]
  have f : s.proto.held.filter (fun h => !(h.tag = p.tag && h.ready)) = s.proto.held := by rw [hh]; rfl
  simp only [State.claim, e, ProtoSt.issue, State.took, State.taken, f]

/-- The protocol with an ASYNC command taken, its held result open and SC_PENDING ready. -/
def State.pended (s : State) (op : Nat) (p : Packet) : ProtoSt :=
  { s.took op p with
    held := [{ tag := p.tag, sq := p.sq, id := s.proto.nextId, commit := s.now }]
    ready := s.proto.ready ++ [mkCompletion (s.taken op p) s.now { status := 0x0001, r0 := lo32 s.now, r1 := hi32 s.now } false s.holdsBack] }

/-- An ASYNC command that passes its checks answers SC_PENDING and runs its body. -/
theorem State.runCmd_async {s : State} {op : Nat} {p : Packet} {shape : Packet → Except Reply Unit} {axis : Packet → State → Except Reply Unit}
    {body : Nat → Packet → State → Except Reply (State × CmdEnd)} (hi : ∀ i ∈ s.proto.issued, i.tag ≠ p.tag) (hh : s.proto.held = [])
    (hd : s.proto.dropIds = []) (hp : p.async = true) (hs : shape (s.taken op p) = .ok ()) (hl : s.anyLane = true)
    (ha : axis (s.taken op p) { s with proto := s.took op p } = .ok ()) :
    s.runCmd op false p shape axis body = ({ s with proto := s.pended op p } : State).execBody (s.taken op p) s.now body := by
  have hn : ({ s with proto := s.took op p } : State).noLane = .ok () := if_pos hl
  have hc : ((do (if false = true then pure () else ({ s with proto := s.took op p } : State).noLane)
                 axis (s.taken op p) { s with proto := s.took op p }) : Except Reply Unit) = .ok () := by
    rw [hn]
    exact ha
  have hr : (s.took op p).roomHeld = some (s.took op p) := if_pos (by show s.proto.held.length < 1024; rw [hh]; decide)
  unfold State.runCmd
  rw [State.claim_of_new hi hh op false]
  simp only [hs]
  rw [hc]
  dsimp only
  rw [if_pos (by exact hp), hr]
  dsimp only
  rw [State.ready_kept _ _ _ _ (by show s.proto.dropIds.contains _ = false; rw [hd]; rfl)]
  have hheld : (s.took op p).held = [] := hh
  rw [hheld]
  rfl

/-- What MODEL_STAGE leaves of the images: the slot STAGING, its staging begun, its old image gone. -/
def State.stagingBegun (s : State) (n : Nat) (id : Nat) : State :=
  let u := s.setSlot n 4
  { u with img := { u.img with staging := Tab.set none u.img.staging n (some (id, u.now)), images := u.img.images.filter (·.slot ≠ n) } }

theorem modelStageBody_of_free {s : State} {p : Packet} (hn : u8At p.block 4 < 8) (ha : s.img.activeSlot ≠ some (u8At p.block 4))
    (hs : s.img.staging = []) (hact : s.activating = false) (id : Nat) :
    modelStageBody id p s = .ok (s.stagingBegun (u8At p.block 4) id, .later []) := by
  have hpin : s.pinned (u8At p.block 4 * 0x80000000) = false := by
    unfold State.pinned
    rw [hact, Nat.mul_div_cancel _ (by decide)]
    simp [Ne.symm ha]
  have hst : s.isStaging (u8At p.block 4) = false := by
    unfold State.isStaging
    rw [hs]
    rfl
  unfold modelStageBody
  dsimp only
  rw [hpin, hst, Bool.or_false, refuseIf_pass (decide_eq_false (by omega)), refuseIf_pass rfl]
  rfl

/-- Settles O55: a refused block by the opcode's shape, the lane's check by the redundancy, and the ASYNC command by its body. -/
theorem commandChecks : Obligations.CommandChecks := by
  unfold Obligations.CommandChecks
  refine ⟨⟨by decide, rfl⟩, fun e he p s ha hb => hostOps_refuseBlocks e he p s ha hb, fun p s ha hl hb => ⟨fun h1 h2 => ?_, fun h1 => ?_⟩,
    fun p s hsv hi hh hd hp hb hn hact hst => ?_⟩
  · have hx : exec (.resultFetch p) s = _ := congrArg Host.Outcome.next
      (State.runCmd_noLane ha (s.taken_block_ok 0x0104 p 8 [] hb) (State.noLane_of_held (s := { s with proto := s.took 0x0104 p }) hl h1 h2))
    exact ⟨_, hx, rfl, rfl⟩
  · have hx : exec (.resultFetch p) s = _ := congrArg Host.Outcome.next
      (State.runCmd_noLane ha (s.taken_block_ok 0x0104 p 8 [] hb) (State.noLane_of_coming (s := { s with proto := s.took 0x0104 p }) hl h1))
    obtain ⟨hn1, hn2⟩ := Reply.busy_aux ({ s with proto := s.took 0x0104 p } : State).laneStartLeft
    exact ⟨_, _, hx, hn1, hn2, rfl, rfl⟩
  · obtain ⟨hl, -, hlife, -, hact'⟩ := hsv
    have hbody := modelStageBody_of_free (s := { s with proto := s.pended 0x0301 p }) (p := s.taken 0x0301 p) hn hact hst hact' s.proto.nextId
    have haxes : ∀ e ∈ [(decide (s.mode.lifeCycle = .returning), Reply.notInMode), (s.activating, Reply.busy s.activationLeft)], e.1 = false := by
      simp only [List.forall_mem_cons, List.not_mem_nil, false_imp_iff, implies_true, and_true]
      exact ⟨by rw [hlife]; rfl, hact'⟩
    have hx : exec (.modelStage p) s = _ := congrArg Host.Outcome.next
      ((State.runCmd_async hi hh hd hp (s.taken_block_ok 0x0301 p 8 [(5, 3)] hb) hl
        (axes_pass haxes)).trans (State.execBody_later _ _ _ _ _ _ hbody))
    refine ⟨_, hx, rfl, rfl, ?_, Tab.get_set_same 0 4 s.img.slotState (u8At p.block 4)⟩
    rw [State.taken_async, hp]
    rfl

end Sys2Proof.Machine
end

section
/-! SUPPORT. The general opcodes (18 R448, R450, R454 to R457). -/

namespace Sys2Proof.Machine

/-- The reply to NOP_ECHO. -/
def Packet.echo (p : Packet) : Reply := { status := 0, r0 := w32 (u32At p.block 8), r1 := w32 (u32At p.block 12), r2 := w32 (u32At p.block 16) }

theorem exec_nopEcho_of_ok {p : Packet} {s : State} (h : s.accepts p) (hb : p.blockOk 20 [(4, 4)] = true) :
    exec (.nopEcho p) s = .next { s with proto := s.answered 0x0101 p p.echo } :=
  congrArg Host.Outcome.next (State.runCmd_reply s { s with proto := s.took 0x0101 p } 0x0101 true p _ _ _ _ h
    (s.taken_block_ok 0x0101 p 20 [(4, 4)] hb) (.inl rfl) rfl rfl rfl rfl)

theorem exec_getIdentity_of_ok {p : Packet} {s : State} (h : s.accepts p) (hb : p.blockOk 8 [(4, 4)] = true) :
    exec (.getIdentity p) s = .next { s with proto := s.answered 0x0102 p { status := 0, r0 := 0x7720, r1 := 0xB0, r2 := s.gen.fwVersion } } :=
  congrArg Host.Outcome.next (State.runCmd_reply s { s with proto := s.took 0x0102 p } 0x0102 true p _ _ _ _ h
    (s.taken_block_ok 0x0102 p 8 [(4, 4)] hb) (.inl rfl) rfl rfl rfl rfl)

/-! ### The host's heartbeat -/

/-- The watchdog restarted, and the heartbeat seen. -/
def State.beat (s : State) : State :=
  { s with hif := { s.hif with wdogTicks := 10 * s.cfg.wdogPeriod, wdogExpired := false, wdogDeferred := false, heartbeatSeen := true } }

/-- What the host axis becoming PRESENT leaves. -/
structure State.Present (s t : State) : Prop where
  present : t.mode.hostPresent = true
  frame : t = { s with hif := t.hif, mode := { s.mode with hostPresent := true, event := t.mode.event }, evt := t.evt }
  hif : t.hif = { s.hif with msixPba := t.hif.msixPba, irqs := t.hif.irqs }
  same : s.mode.hostPresent = true → t = s

theorem State.setHostAxis_present (s : State) : s.Present (s.setHostAxis true) := by
  unfold State.setHostAxis
  by_cases h : s.mode.hostPresent = true
  · rw [if_pos h]
    exact ⟨h, by rw [← h], rfl, fun _ => rfl⟩
  · rw [if_neg h]
    set u := ({ s with mode := { s.mode with hostPresent := true } } : State) with hu
    have hm := u.setModeEvent_mode 0x8
    have hh := u.setModeEvent_hif 0x8
    have he := u.setModeEvent_eq 0x8
    generalize u.setModeEvent 0x8 = v at hm hh he
    refine ⟨?_, ?_, ?_, fun h' => absurd h' h⟩
    · show v.mode.hostPresent = true
      rw [hm]
    · rw [he, hm]
      rfl
    · exact hh

theorem State.Present.proto {s t : State} (h : s.Present t) : t.proto = s.proto := by rw [h.frame]

theorem State.Present.holdsBack {s t : State} (h : s.Present t) : t.holdsBack = s.holdsBack := by rw [h.frame]; rfl

/-- The host axis does not read the protocol's tables. -/
theorem exec_hostHeartbeat_of_ok {p : Packet} {s : State} (h : s.accepts p) (hb : p.blockOk 8 [(4, 4)] = true) :
    ∃ u, ({ s with proto := s.took 0x0106 p } : State).beat.Present u ∧
      exec (.hostHeartbeat p) s = .next { u with proto := s.answered 0x0106 p { status := 0, r0 := w32 s.cfg.wdogPeriod } } := by
  have hp := ({ s with proto := s.took 0x0106 p } : State).beat.setHostAxis_present
  exact ⟨_, hp, congrArg Host.Outcome.next (State.runCmd_reply s _ 0x0106 true p _ _ _ _ h
    (s.taken_block_ok 0x0106 p 8 [(4, 4)] hb) (.inl rfl) rfl rfl hp.proto hp.holdsBack)⟩

/-! ### SNAPSHOT_READ -/

theorem badRange_one {o l : Nat} (h1 : 0x100000 ≤ o) (h2 : o % 4 = 0) (h3 : 4 ≤ l) (h4 : l % 4 = 0) (h5 : o + l ≤ 0x1000000) (h6 : l ≤ 0x100000) :
    badRange 0 0 [(o, l)] = none := if_neg (by omega)

/-- What SNAPSHOT_READ of one range writes. -/
def State.snapBytes (s : State) (o l : Nat) : List Byte :=
  le16 1 ++ le16 16 ++ le32 l ++ le64 (epochField s.tick.settled.epoch) ++ s.tick.settled.view.readBytes o l

/-- The words of its reply. -/
def State.snapReply (s : State) (l : Nat) : Reply :=
  { status := 0, r0 := lo32 (epochField s.tick.settled.epoch), r1 := hi32 (epochField s.tick.settled.epoch), r2 := w32 l }

/-- The block checks of SNAPSHOT_READ pass. -/
theorem snapshotShape_of_one {p : Packet} {s : State} (hb : p.blockOk 16 [(6, 2)] = true) (hlen : 24 ≤ p.block.length) (hn : u16At p.block 4 = 1)
    (k : Reply) : ((s.taken 0x0103 p).checkBlock 16 [(6, 2)] >>= fun _ =>
      deny [(decide (u16At p.block 2 < 16 + 8 * u16At p.block 4), k)]) = .ok () := by
  rw [s.taken_block_ok 0x0103 p 16 [(6, 2)] hb]
  simp only [Packet.blockOk, Bool.and_eq_true, decide_eq_true_eq] at hb
  refine deny_pass fun e he => ?_
  rw [List.mem_singleton.mp he]
  exact decide_eq_false (by omega)

/-- The tables of the protocol play no part in a DMA fault. -/
theorem State.fire_withProto (s : State) (q : ProtoSt) (v : Nat) : ({ s with proto := q } : State).fire v = { s.fire v with proto := q } := by
  unfold State.fire
  split
  · rfl
  · split <;> rfl

theorem State.dmaFault_withProto (s : State) (q : ProtoSt) (k : Nat) : ({ s with proto := q } : State).dmaFault k = { s.dmaFault k with proto := q } := by
  unfold State.dmaFault State.setHifErr State.fireIfSet
  refine Eq.trans ?_ (apply_ite (fun u : State => ({ u with proto := q } : State)) _ _ _).symm
  rw [← State.fire_withProto]
  rfl

theorem snapRanges_of_one {bs : List Byte} {o l : Nat} (ho : o = u32At bs 16) (hl : l = u32At bs 20) : snapRanges bs 0 1 = [(o, l)] := by
  rw [ho, hl]
  rfl

section
variable {p : Packet} {s : State} {o l : Nat} (h : s.accepts p) (hb : p.blockOk 16 [(6, 2)] = true) (hlen : 24 ≤ p.block.length)
  (hn : u16At p.block 4 = 1) (ha : u64At p.block 8 % 4 = 0) (ho : o = u32At p.block 16) (hl : l = u32At p.block 20)
  (hr : badRange 0 0 [(o, l)] = none)
include h hb hlen hn ha ho hl hr

theorem exec_snapshotRead_of_written :
    exec (.snapshotRead p true) s = .next { s with
      hostMem := s.hostMem.writeBytes (u64At p.block 8) (s.snapBytes o l), proto := s.answered 0x0103 p (s.snapReply l) } := by
  refine congrArg Host.Outcome.next (State.runCmd_reply s
    (({ s with proto := s.took 0x0103 p } : State).writeHost (u64At p.block 8) (s.snapBytes o l)) 0x0103 true p _ _ _ _ h
    (snapshotShape_of_one hb hlen hn _) (.inl rfl) rfl ?_ rfl rfl)
  dsimp only
  rw [State.taken_block, hn, snapRanges_of_one ho hl, hr, deny_pass (by simp [ha])]
  simp only [State.snapBytes, List.flatMap_singleton, List.foldl_cons, List.foldl_nil, Nat.zero_add]
  rfl

theorem exec_snapshotRead_of_failed :
    exec (.snapshotRead p false) s = .next { s.dmaFault p.sq with proto := s.answered 0x0103 p { status := 0x00FF } } := by
  refine congrArg Host.Outcome.next ((State.runCmd_reply s
    (({ s with proto := s.took 0x0103 p } : State).dmaFault p.sq) 0x0103 true p { status := 0x00FF } _ _ _ h
    (snapshotShape_of_one hb hlen hn _) (.inl rfl) rfl ?_ (by simp) (by simp [State.holdsBack])).trans ?_)
  · dsimp only
    rw [State.taken_block, hn, snapRanges_of_one ho hl, hr, deny_pass (by simp [ha])]
    rfl
  · rw [State.dmaFault_withProto]

end

/-! ### RESULT_FETCH -/

section
variable {p : Packet} {s : State} (h : s.accepts p) (hl : s.anyLane = true) (hb : p.blockOk 8 [] = true)
include h hl hb

theorem exec_resultFetch_of_unknown (hf : s.proto.held.find? (·.tag = w32 (u32At p.block 4)) = none) :
    exec (.resultFetch p) s = .next { s with proto := s.answered 0x0104 p { status := 0x0013, r0 := w32 (u32At p.block 4) } } := by
  refine congrArg Host.Outcome.next (State.runCmd_error s 0x0104 false p _ _ _ _ h (s.taken_block_ok 0x0104 p 8 [] hb) (.inr hl) rfl ?_)
  have hf' : (s.took 0x0104 p).held.find? (·.tag = w32 (u32At (s.taken 0x0104 p).block 4)) = none := hf
  have hw : w32 (w32 (u32At p.block 4)).toNat = w32 (u32At p.block 4) := BitVec.ofNat_toNat 32 _
  dsimp only
  rw [hf']
  exact congrArg (fun w => Except.error ({ status := 0x0013, r0 := w } : Reply)) hw

theorem exec_resultFetch_of_pending {x : HeldCmd} (hf : s.proto.held.find? (·.tag = w32 (u32At p.block 4)) = some x) (hr : x.ready = false) :
    exec (.resultFetch p) s = .next { s with proto := s.answered 0x0104 p { status := 0x0001, r0 := lo32 s.now, r1 := hi32 s.now } } := by
  refine congrArg Host.Outcome.next (State.runCmd_reply s { s with proto := s.took 0x0104 p } 0x0104 false p _ _ _ _ h
    (s.taken_block_ok 0x0104 p 8 [] hb) (.inr hl) rfl ?_ rfl rfl)
  have hf' : (s.took 0x0104 p).held.find? (·.tag = w32 (u32At (s.taken 0x0104 p).block 4)) = some x := hf
  dsimp only
  rw [hf']
  dsimp only
  rw [hr]
  rfl

/-- The reply to a RESULT_FETCH of a ready result. -/
def HeldCmd.reply (x : HeldCmd) (c : Completion) : Reply :=
  { status := if x.fetched then 0x0002 else c.status, aux := c.status, r0 := c.r0, r1 := c.r1, r2 := c.r2, epoch := some x.commit }

/-- Held results with one marked as fetched. -/
def fetchedHeld (l : List HeldCmd) (id : Nat) : List HeldCmd := l.map fun (y : HeldCmd) => if y.id = id then { y with fetched := true } else y

theorem exec_resultFetch_of_ready {x : HeldCmd} {c : Completion} (hf : s.proto.held.find? (·.tag = w32 (u32At p.block 4)) = some x)
    (hr : x.ready = true) (hc : x.outcome = some c) :
    exec (.resultFetch p) s = .next { s with proto := { s.answered 0x0104 p (x.reply c) with held := fetchedHeld s.proto.held x.id } } := by
  have hf' : (s.took 0x0104 p).held.find? (·.tag = w32 (u32At (s.taken 0x0104 p).block 4)) = some x := hf
  refine congrArg Host.Outcome.next ((State.runCmd_body s 0x0104 false p _ _ _ h (s.taken_block_ok 0x0104 p 8 [] hb) (.inr hl) rfl).trans ?_)
  refine (State.execBody_reply _ { s with proto := { s.took 0x0104 p with held := fetchedHeld s.proto.held x.id } } (s.taken 0x0104 p) _ (x.reply c) _
    h.2.2.2 ?_ ?_).trans ?_
  · exact h.2.2.1
  · dsimp only
    rw [hf']
    dsimp only
    rw [hr, hc]
    rfl
  · rfl

end

/-! ### QUEUE_BARRIER -/

/-- The barrier a packet begins, waiting for the packets in `waits`. -/
def State.barrierOf (s : State) (waits : List Nat) : Barrier := { id := s.proto.nextId, waits := waits, results := [], count := waits.length }

/-- The packets of `l` a barrier of `p` waits for. -/
def State.waitsOf (s : State) (p : Packet) : List Nat :=
  (s.proto.issued.filter fun i => i.id < s.proto.nextId && namesQueue (u8At p.block 4) i.sq).map (·.id)

section
variable {p : Packet} {s : State} (h : s.accepts p) (hl : s.anyLane = true) (hb : p.blockOk 8 [(6, 2)] = true) (hz : u8At p.block 5 = 0)
include h hl hb hz

theorem runCmd_barrier :
    s.runCmd 0x0105 false p barrierShape noAxis (fun _ => barrierBody) =
      { s with proto := { s.begun 0x0105 p [] with barriers := s.proto.barriers ++ [s.barrierOf (s.waitsOf p)] } } := by
  have hs : barrierShape (s.taken 0x0105 p) = .ok () := by
    unfold barrierShape
    rw [s.taken_block_ok 0x0105 p 8 [(6, 2)] hb]
    exact deny_pass (by simp [hz, bits])
  have hbody : barrierBody (s.taken 0x0105 p) { s with proto := s.took 0x0105 p } =
      .ok ({ s with proto := { s.took 0x0105 p with barriers := s.proto.barriers ++ [s.barrierOf (s.waitsOf p)] } }, .later []) := by
    have hw : (((s.took 0x0105 p).issued.filter fun i => i.id < s.proto.nextId && namesQueue (u8At p.block 4) i.sq).map (·.id)) = s.waitsOf p := by
      rw [State.waitsOf, State.took, List.filter_append]
      simp
    have hbit : bit (u8At (s.taken 0x0105 p).block 5) 0 = false := by
      rw [State.taken_block, hz]
      rfl
    unfold barrierBody
    dsimp only
    rw [hbit, State.taken_block, State.taken_id, hw]
    simp only [Bool.false_eq_true, if_false, List.filter_nil, List.append_nil]
    rfl
  rw [State.runCmd_body s 0x0105 false p barrierShape noAxis _ h hs (.inr hl) rfl, State.execBody_later _ _ _ _ _ _ hbody]
  rw [State.taken_async, h.2.2.2]
  rfl

theorem exec_queueBarrier_of_ok (hbar : s.proto.barriers = []) :
    exec (.queueBarrier p) s = .next
      ({ s with proto := { s.begun 0x0105 p [] with barriers := [s.barrierOf (s.waitsOf p)] } } : State).settled := by
  rw [exec_queueBarrier, runCmd_barrier h hl hb hz, hbar]
  rfl

end

theorem ProtoSt.barrierOver_of_empty (q : ProtoSt) {b : Barrier} (hw : b.waits = []) (hr : b.results = []) : q.barrierOver b = true := by
  unfold ProtoSt.barrierOver
  rw [hw, hr]
  simp

theorem ProtoSt.barrierOver_of_outstanding {q : ProtoSt} {b : Barrier} {i : Issued} (hi : i ∈ q.issued) (hb : i.id ∈ b.waits) :
    q.barrierOver b = false := by
  have h : (q.issued.any fun i => b.waits.contains i.id) = true := List.any_eq_true.mpr ⟨i, hi, List.contains_iff_mem.mpr hb⟩
  unfold ProtoSt.barrierOver
  rw [h]
  rfl

/-- A barrier with nothing to wait for completes its command where that runs alone. -/
theorem ProtoSt.settleBarriers_of_over {q : ProtoSt} {b : Barrier} {r : Running} (hb : q.barriers = [b]) (ho : q.barrierOver b = true)
    (hr : q.running = [r]) (hid : r.packet.id = b.id) (d : Bool) :
    q.settleBarriers d = { q with
      barriers := [], running := [], ready := q.ready ++ [mkCompletion r.packet r.commit { status := SC.ok, r0 := w32 b.count } false d] } := by
  unfold ProtoSt.settleBarriers
  rw [hb, hr]
  simp [ho, hid]

/-- A barrier that waits stays. -/
theorem ProtoSt.settleBarriers_of_waiting {q : ProtoSt} {b : Barrier} (hb : q.barriers = [b]) (ho : q.barrierOver b = false) (d : Bool) :
    q.settleBarriers d = q := by
  have hq : q = { q with barriers := [b] } := by rw [← hb]
  unfold ProtoSt.settleBarriers
  rw [hb]
  simp only [List.filter_cons, ho, Bool.false_eq_true, if_false, List.filter_nil, List.filterMap_nil, List.any_nil, Bool.not_false, if_true,
    List.filter_true, List.append_nil]
  exact hq.symm

/-- Settles O56: each opcode by its reply, and a barrier by what it waits for. -/
theorem generalCommands : Obligations.GeneralCommands := by
  unfold Obligations.GeneralCommands
  refine ⟨fun p s h => ⟨fun hb => ⟨_, exec_nopEcho_of_ok h hb, rfl⟩, fun hb => ⟨_, exec_getIdentity_of_ok h hb, rfl⟩, fun hb => ?_⟩,
    fun p s o l a h hb hlen hn ha ha4 ho hl h1 h2 h3 h4 h5 h6 => ?_, fun p s w h hl hb hw => ⟨fun x c hf hr hc => ?_, fun x hf hr => ?_, fun hf => ?_⟩,
    fun p s h hl hb hz hbar hrun => ⟨fun hi => ?_, fun i hi hid hq => ?_⟩⟩
  · obtain ⟨u, hu, hx⟩ := exec_hostHeartbeat_of_ok h hb
    refine ⟨_, hx, rfl, hu.present, ?_, ?_, ?_, ?_, fun hp => ?_, ?_⟩
    · rw [hu.hif]; rfl
    · rw [hu.hif]; rfl
    · rw [hu.hif]; rfl
    · rw [hu.hif]; rfl
    · rw [hu.same hp]
      rfl
    · have hf := hu.frame
      generalize u.hif = a, u.mode.event = b, u.evt = c at hf
      rw [hf]
      rfl
  · subst ha
    have hr := badRange_one h1 h2 h3 h4 h5 h6
    obtain ⟨he, hq⟩ := s.dmaFault_stops p.sq
    refine ⟨⟨_, _, exec_snapshotRead_of_written h hb hlen hn ha4 ho hl hr, rfl, rfl, rfl⟩,
      _, exec_snapshotRead_of_failed h hb hlen hn ha4 ho hl hr, rfl, he, by rw [hq], ?_⟩
    rw [State.dmaFault, State.setHifErr_eq]
    rfl
  · subst hw
    exact ⟨_, exec_resultFetch_of_ready h hl hb hf hr hc, rfl⟩
  · subst hw
    exact ⟨_, exec_resultFetch_of_pending h hl hb hf hr, rfl⟩
  · subst hw
    exact ⟨_, exec_resultFetch_of_unknown h hl hb hf, rfl⟩
  · have hx := exec_queueBarrier_of_ok h hl hb hz hbar
    have hw : s.waitsOf p = [] := by rw [State.waitsOf, hi]; rfl
    rw [hw, State.settled, ProtoSt.settleBarriers_of_over rfl (ProtoSt.barrierOver_of_empty _ rfl rfl)
      (by exact congrArg (· ++ [{ packet := s.taken 0x0105 p, commit := s.now, async := false, save := [] }]) hrun) rfl] at hx
    refine ⟨_, hx, congrArg (fun q : ProtoSt => { s with proto := q }) ?_⟩
    rw [State.answered, State.begun]
    simp only [State.took, hrun, hbar]
    rfl
  · have hx := exec_queueBarrier_of_ok h hl hb hz hbar
    have hw : s.waitsOf p = [i.id] := by rw [State.waitsOf, hi]; simp [hid, hq]
    rw [hw, State.settled, ProtoSt.settleBarriers_of_waiting rfl (ProtoSt.barrierOver_of_outstanding (i := i) (by simp [State.begun, State.took, hi]) (by
      simp [State.barrierOf]))] at hx
    exact ⟨_, hx, rfl⟩

end Sys2Proof.Machine
end
